-- ==== Sys2Proof/Word.lean ====
section
/-!
DEFINITION. The plainest types of the model: bytes, words and sparse tables (00_scope R3: a byte is 8 bits,
a word 32, a doubleword 64).
-/

namespace Sys2Proof

/-- A byte (R3). -/
abbrev Byte := BitVec 8

/-- A doubleword: a scalar register, an address, a control word (R3). -/
abbrev Word := BitVec 64

/-- A 32-bit slot of a vector register, or an instruction word (R3, R160). -/
abbrev Slot := BitVec 32

/-- A sparse table: pairs of a key and a value, keys rising; a key that is not listed has the table's default
value. Memory is the table of bytes by physical address. -/
abbrev Tbl (α : Type) := List (Nat × α)

end Sys2Proof
end

