-- ==== Sys2Proof/Config.lean ====
section
/-!
DEFINITION. What the manual leaves to the device and the model keeps open: free values (constants without a
body, so nothing can be proved about which value they have), and the physical constants of the part.
-/

namespace Sys2Proof.Config

/-- The fresh random scrambler key that the n-th key change draws (05 R99, R104). Free value. -/
opaque scramblerKey : Nat → Nat

/-- The n-th start nonce of LOCK_INTERFACE_REQUEST (05 R101). Free value. -/
opaque startNonce : Nat → Nat

/-- The device-side share of the n-th SPDM key exchange (05 R103). Free value. -/
opaque keyShare : Nat → Nat

/-- A digest (SHA-256) of a list of bytes, as a 256-bit number (05 R103, 07 R135). The spec names the
function and does not define it: a free value. -/
opaque sha256 : List Nat → Nat

/-- The RSASSA-PSS signature of the device identity key over a list of bytes, as 384 bytes (05 R103,
07 R135). Free value. -/
opaque signature : List Nat → List Nat

/-- Whether a signature over a list of bytes verifies (07 R138). Free value. -/
opaque verifies : List Nat → List Nat → Bool

/-- The device identity certificate chain of slot 0, as bytes (05 R103). Free value. -/
opaque certificate : List Nat

/-- Bytes of measurement block 1, 2 or 3 of the attestation (05 R103). Free value. -/
opaque measurement : Nat → List Nat

/-- AES-256-GCM decryption of the ciphertext under a key, a stream and a counter: the plaintext when the tag
verifies, none when it does not (05 R107). The spec names the algorithm and does not define it: a free value. -/
opaque gcmOpen : (key stream ctr : Nat) → (cipher tag : List Nat) → Option (List Nat)

/-- What the n-th stall window that a clock switch closes early holds in bits [39:10] (02 R40): rates that no
instruction determines. Free value. -/
opaque stallSample : Nat → Nat

/-- Occupancy of the fullest clock-crossing FIFO of a cluster at a beat that no MONITOR_LEVEL_SAMPLE gives (02 R31, R43): the
FIFOs are no state of this model. Free value. -/
opaque fifoLevel : Nat → Nat → Nat

/-- VALUE of the word that the n-th JOIN of a token naming no child returns: 08 R154 gives its STATUS, PERR and DETAIL
and no VALUE. Free value. -/
opaque joinValue : Nat → BitVec 32

/-- What a register i8 to i15 of the portable form that has no native register reads as before a call has written it, by call and
register: its spill slot holds it (26 R430, R443). Free value. -/
opaque portableScalar : Nat → Nat → BitVec 64

/-- What the spill slot of a y register holds, by call and half element (26 R430, R443). Free value. -/
opaque portableElement : Nat → Nat → BitVec 32

/-- Whether a y register that a call has not written reads as its spill slot, by call and register; else as its native register
(26 R430: both outcomes are allowed). Free value. -/
opaque portableSpilled : Nat → Nat → Bool

/-- What a call leaves in the registers that a translation may write (26 R443), by call: the scalar registers, the slots of v48 to
v63, the elements of p20 to p23, its last VL, if it has set one, and the first bytes of the private slice with their number. Free
values. -/
opaque portableLeft : Nat → Nat → BitVec 64
opaque portableSlot : Nat → Nat → Nat → BitVec 32
opaque portablePred : Nat → Nat → Nat → Bool
opaque portableVl : Nat → Option Nat
opaque portableBytes : Nat → Nat
opaque portableByte : Nat → Nat → BitVec 8

/-- The physical page of the k-th seed table page after the root is the policy core's choice (03 R454). This
model takes the pages after the root upward; the constant is the number of pages that the region offers. -/
def seedPages : Nat := 256

end Sys2Proof.Config
end

