-- ==== Sys2Proof/Syntax.lean ====
section
/-!
DEFINITION. The instruction set as one inductive: one constructor for each row of spec/opcode_table.json.

The first 213 constructors are the encoded instructions; their operands are the raw fields of the word
(register numbers, codes, unsigned immediate fields), bounded by WellFormed. The other 141 constructors are
the device's operations and events (spec/95_what_each_step_holds.md). An event has no word: an `Event` carries it
with its operands, which say which unit it concerns and what arrives from outside. Operand conventions of the
events: `w` world, `k` context number, `l` launch number, `q` queue interface, `c` global cluster, `n` link or
function, `b` monitor block, `mb` mailbox (function number), `sess` SPDM session, `who` the world whose mapping
makes the access; a yes or no is 1 or 0.
-/

namespace Sys2Proof

/-- One row of the opcode table. -/
inductive Instr where
  /-- LUI (R287): Writes the sign-extended upper immediate, shifted left by 12, to rd. -/
  | lui (rd : Nat) (imm : Nat)
  /-- AUIPC (R287): Writes pc plus the shifted upper immediate to rd. -/
  | auipc (rd : Nat) (imm : Nat)
  /-- JAL (R287): Jumps pc-relative and writes pc+4 to rd; a misaligned target faults MISALIGN. -/
  | jal (rd : Nat) (off : Nat)
  /-- JALR (R287): Jumps to rs1 plus offset with bit 0 cleared and writes pc+4 to rd. -/
  | jalr (rd : Nat) (rs1 : Nat) (imm : Nat)
  /-- BEQ (R287): Branches when rs1 equals rs2. -/
  | beq (rs1 : Nat) (rs2 : Nat) (off : Nat)
  /-- BNE (R287): Branches when rs1 differs from rs2. -/
  | bne (rs1 : Nat) (rs2 : Nat) (off : Nat)
  /-- BLT (R287): Branches when rs1 is less than rs2, signed. -/
  | blt (rs1 : Nat) (rs2 : Nat) (off : Nat)
  /-- BGE (R287): Branches when rs1 is at least rs2, signed. -/
  | bge (rs1 : Nat) (rs2 : Nat) (off : Nat)
  /-- BLTU (R287): Branches when rs1 is less than rs2, unsigned. -/
  | bltu (rs1 : Nat) (rs2 : Nat) (off : Nat)
  /-- BGEU (R287): Branches when rs1 is at least rs2, unsigned. -/
  | bgeu (rs1 : Nat) (rs2 : Nat) (off : Nat)
  /-- LB (R288): Loads a sign-extended byte. -/
  | lb (rd : Nat) (rs1 : Nat) (imm : Nat)
  /-- LH (R288): Loads a sign-extended halfword. -/
  | lh (rd : Nat) (rs1 : Nat) (imm : Nat)
  /-- LW (R288): Loads a sign-extended word. -/
  | lw (rd : Nat) (rs1 : Nat) (imm : Nat)
  /-- LD (R288): Loads a doubleword. -/
  | ld (rd : Nat) (rs1 : Nat) (imm : Nat)
  /-- LBU (R288): Loads a zero-extended byte. -/
  | lbu (rd : Nat) (rs1 : Nat) (imm : Nat)
  /-- LHU (R288): Loads a zero-extended halfword. -/
  | lhu (rd : Nat) (rs1 : Nat) (imm : Nat)
  /-- LWU (R288): Loads a zero-extended word. -/
  | lwu (rd : Nat) (rs1 : Nat) (imm : Nat)
  /-- SB (R288): Stores the low byte of rs2. -/
  | sb (rs2 : Nat) (rs1 : Nat) (imm : Nat)
  /-- SH (R288): Stores the low halfword of rs2. -/
  | sh (rs2 : Nat) (rs1 : Nat) (imm : Nat)
  /-- SW (R288): Stores the low word of rs2. -/
  | sw (rs2 : Nat) (rs1 : Nat) (imm : Nat)
  /-- SD (R288): Stores the doubleword rs2; the only store that may write a table entry, checked by the map-through rule. -/
  | sd (rs2 : Nat) (rs1 : Nat) (imm : Nat)
  /-- ADDI (R289): Adds the immediate to rs1. -/
  | addi (rd : Nat) (rs1 : Nat) (imm : Nat)
  /-- SLTI (R289): Sets rd to 1 when rs1 is less than the immediate, signed. -/
  | slti (rd : Nat) (rs1 : Nat) (imm : Nat)
  /-- SLTIU (R289): Sets rd to 1 when rs1 is less than the immediate, unsigned. -/
  | sltiu (rd : Nat) (rs1 : Nat) (imm : Nat)
  /-- XORI (R289): Bitwise XOR with the immediate. -/
  | xori (rd : Nat) (rs1 : Nat) (imm : Nat)
  /-- ORI (R289): Bitwise OR with the immediate. -/
  | ori (rd : Nat) (rs1 : Nat) (imm : Nat)
  /-- ANDI (R289): Bitwise AND with the immediate. -/
  | andi (rd : Nat) (rs1 : Nat) (imm : Nat)
  /-- SLLI (R289): Logical left shift by a 6-bit immediate. -/
  | slli (rd : Nat) (rs1 : Nat) (shamt : Nat)
  /-- SRLI (R289): Logical right shift by a 6-bit immediate. -/
  | srli (rd : Nat) (rs1 : Nat) (shamt : Nat)
  /-- SRAI (R289): Arithmetic right shift by a 6-bit immediate. -/
  | srai (rd : Nat) (rs1 : Nat) (shamt : Nat)
  /-- ADDIW (R289): Adds the immediate in 32 bits and sign-extends. -/
  | addiw (rd : Nat) (rs1 : Nat) (imm : Nat)
  /-- SLLIW (R289): 32-bit logical left shift, sign-extended. -/
  | slliw (rd : Nat) (rs1 : Nat) (shamt : Nat)
  /-- SRLIW (R289): 32-bit logical right shift, sign-extended. -/
  | srliw (rd : Nat) (rs1 : Nat) (shamt : Nat)
  /-- SRAIW (R289): 32-bit arithmetic right shift, sign-extended. -/
  | sraiw (rd : Nat) (rs1 : Nat) (shamt : Nat)
  /-- ADD (R290): Adds two registers modulo 2^64. -/
  | add (rd : Nat) (rs1 : Nat) (rs2 : Nat)
  /-- SUB (R290): Subtracts two registers modulo 2^64. -/
  | sub (rd : Nat) (rs1 : Nat) (rs2 : Nat)
  /-- SLL (R290): Logical left shift by rs2[5:0]. -/
  | sll (rd : Nat) (rs1 : Nat) (rs2 : Nat)
  /-- SLT (R290): Signed less-than compare into rd. -/
  | slt (rd : Nat) (rs1 : Nat) (rs2 : Nat)
  /-- SLTU (R290): Unsigned less-than compare into rd. -/
  | sltu (rd : Nat) (rs1 : Nat) (rs2 : Nat)
  /-- XOR (R290): Bitwise XOR of two registers. -/
  | xor (rd : Nat) (rs1 : Nat) (rs2 : Nat)
  /-- SRL (R290): Logical right shift by rs2[5:0]. -/
  | srl (rd : Nat) (rs1 : Nat) (rs2 : Nat)
  /-- SRA (R290): Arithmetic right shift by rs2[5:0]. -/
  | sra (rd : Nat) (rs1 : Nat) (rs2 : Nat)
  /-- OR (R290): Bitwise OR of two registers. -/
  | or (rd : Nat) (rs1 : Nat) (rs2 : Nat)
  /-- AND (R290): Bitwise AND of two registers. -/
  | and (rd : Nat) (rs1 : Nat) (rs2 : Nat)
  /-- MUL (R290): Low 64 bits of the product. -/
  | mul (rd : Nat) (rs1 : Nat) (rs2 : Nat)
  /-- MULH (R290): High 64 bits of the signed product. -/
  | mulh (rd : Nat) (rs1 : Nat) (rs2 : Nat)
  /-- MULHSU (R290): High 64 bits of the signed-by-unsigned product. -/
  | mulhsu (rd : Nat) (rs1 : Nat) (rs2 : Nat)
  /-- MULHU (R290): High 64 bits of the unsigned product. -/
  | mulhu (rd : Nat) (rs1 : Nat) (rs2 : Nat)
  /-- DIV (R290): Signed division toward zero, never faulting. -/
  | div (rd : Nat) (rs1 : Nat) (rs2 : Nat)
  /-- DIVU (R290): Unsigned division, never faulting. -/
  | divu (rd : Nat) (rs1 : Nat) (rs2 : Nat)
  /-- REM (R290): Signed remainder with the dividend's sign. -/
  | rem (rd : Nat) (rs1 : Nat) (rs2 : Nat)
  /-- REMU (R290): Unsigned remainder. -/
  | remu (rd : Nat) (rs1 : Nat) (rs2 : Nat)
  /-- ADDW (R290): 32-bit add, sign-extended. -/
  | addw (rd : Nat) (rs1 : Nat) (rs2 : Nat)
  /-- SUBW (R290): 32-bit subtract, sign-extended. -/
  | subw (rd : Nat) (rs1 : Nat) (rs2 : Nat)
  /-- SLLW (R290): 32-bit logical left shift, sign-extended. -/
  | sllw (rd : Nat) (rs1 : Nat) (rs2 : Nat)
  /-- SRLW (R290): 32-bit logical right shift, sign-extended. -/
  | srlw (rd : Nat) (rs1 : Nat) (rs2 : Nat)
  /-- SRAW (R290): 32-bit arithmetic right shift, sign-extended. -/
  | sraw (rd : Nat) (rs1 : Nat) (rs2 : Nat)
  /-- MULW (R290): 32-bit multiply, sign-extended. -/
  | mulw (rd : Nat) (rs1 : Nat) (rs2 : Nat)
  /-- DIVW (R290): 32-bit signed division, sign-extended. -/
  | divw (rd : Nat) (rs1 : Nat) (rs2 : Nat)
  /-- DIVUW (R290): 32-bit unsigned division, sign-extended. -/
  | divuw (rd : Nat) (rs1 : Nat) (rs2 : Nat)
  /-- REMW (R290): 32-bit signed remainder, sign-extended. -/
  | remw (rd : Nat) (rs1 : Nat) (rs2 : Nat)
  /-- REMUW (R290): 32-bit unsigned remainder, sign-extended. -/
  | remuw (rd : Nat) (rs1 : Nat) (rs2 : Nat)
  /-- FENCE (R300): Orders the strand's scalar and control-page accesses named by pred and succ. -/
  | fence (pred : Nat) (succ : Nat)
  /-- FENCE_TSO (R300): Orders as FENCE RW,RW except earlier stores before later loads. -/
  | fenceTso
  /-- FENCE_I (R301): Makes later fetches observe earlier stores of the strand and stores performed at device scope. -/
  | fenceI
  /-- ECALL (R302): With x17 = 0 waits for earlier convoys and ends the strand; otherwise faults ECALL. -/
  | ecall
  /-- EBREAK (R302): Faults EBREAK. -/
  | ebreak
  /-- LR_W (R297): Loads a word and reserves its 64-byte granule. -/
  | lrW (rd : Nat) (rs1 : Nat) (aq : Nat) (rl : Nat)
  /-- LR_D (R297): Loads a doubleword and reserves its 64-byte granule. -/
  | lrD (rd : Nat) (rs1 : Nat) (aq : Nat) (rl : Nat)
  /-- SC_W (R297): Stores a word if the reservation holds, writing 0 or 1 to rd. -/
  | scW (rd : Nat) (rs1 : Nat) (rs2 : Nat) (aq : Nat) (rl : Nat)
  /-- SC_D (R297): Stores a doubleword if the reservation holds, writing 0 or 1 to rd. -/
  | scD (rd : Nat) (rs1 : Nat) (rs2 : Nat) (aq : Nat) (rl : Nat)
  /-- AMOSWAP_W (R292): Atomic word swap at the owning port. -/
  | amoswapW (rd : Nat) (rs1 : Nat) (rs2 : Nat) (aq : Nat) (rl : Nat)
  /-- AMOSWAP_D (R292): Atomic doubleword swap at the owning port. -/
  | amoswapD (rd : Nat) (rs1 : Nat) (rs2 : Nat) (aq : Nat) (rl : Nat)
  /-- AMOADD_W (R292): Atomic word add. -/
  | amoaddW (rd : Nat) (rs1 : Nat) (rs2 : Nat) (aq : Nat) (rl : Nat)
  /-- AMOADD_D (R292): Atomic doubleword add. -/
  | amoaddD (rd : Nat) (rs1 : Nat) (rs2 : Nat) (aq : Nat) (rl : Nat)
  /-- AMOXOR_W (R292): Atomic word XOR. -/
  | amoxorW (rd : Nat) (rs1 : Nat) (rs2 : Nat) (aq : Nat) (rl : Nat)
  /-- AMOXOR_D (R292): Atomic doubleword XOR. -/
  | amoxorD (rd : Nat) (rs1 : Nat) (rs2 : Nat) (aq : Nat) (rl : Nat)
  /-- AMOAND_W (R292): Atomic word AND. -/
  | amoandW (rd : Nat) (rs1 : Nat) (rs2 : Nat) (aq : Nat) (rl : Nat)
  /-- AMOAND_D (R292): Atomic doubleword AND. -/
  | amoandD (rd : Nat) (rs1 : Nat) (rs2 : Nat) (aq : Nat) (rl : Nat)
  /-- AMOOR_W (R292): Atomic word OR. -/
  | amoorW (rd : Nat) (rs1 : Nat) (rs2 : Nat) (aq : Nat) (rl : Nat)
  /-- AMOOR_D (R292): Atomic doubleword OR. -/
  | amoorD (rd : Nat) (rs1 : Nat) (rs2 : Nat) (aq : Nat) (rl : Nat)
  /-- AMOMIN_W (R292): Atomic word signed minimum. -/
  | amominW (rd : Nat) (rs1 : Nat) (rs2 : Nat) (aq : Nat) (rl : Nat)
  /-- AMOMIN_D (R292): Atomic doubleword signed minimum. -/
  | amominD (rd : Nat) (rs1 : Nat) (rs2 : Nat) (aq : Nat) (rl : Nat)
  /-- AMOMAX_W (R292): Atomic word signed maximum. -/
  | amomaxW (rd : Nat) (rs1 : Nat) (rs2 : Nat) (aq : Nat) (rl : Nat)
  /-- AMOMAX_D (R292): Atomic doubleword signed maximum. -/
  | amomaxD (rd : Nat) (rs1 : Nat) (rs2 : Nat) (aq : Nat) (rl : Nat)
  /-- AMOMINU_W (R292): Atomic word unsigned minimum. -/
  | amominuW (rd : Nat) (rs1 : Nat) (rs2 : Nat) (aq : Nat) (rl : Nat)
  /-- AMOMINU_D (R292): Atomic doubleword unsigned minimum. -/
  | amominuD (rd : Nat) (rs1 : Nat) (rs2 : Nat) (aq : Nat) (rl : Nat)
  /-- AMOMAXU_W (R292): Atomic word unsigned maximum. -/
  | amomaxuW (rd : Nat) (rs1 : Nat) (rs2 : Nat) (aq : Nat) (rl : Nat)
  /-- AMOMAXU_D (R292): Atomic doubleword unsigned maximum. -/
  | amomaxuD (rd : Nat) (rs1 : Nat) (rs2 : Nat) (aq : Nat) (rl : Nat)
  /-- VADD (R333): Elementwise add, rounded or wrapped/clamped. -/
  | vadd (vd : Nat) (va : Nat) (vb : Nat) (sx : Nat)
  /-- VSUB (R333): Elementwise a minus b. -/
  | vsub (vd : Nat) (va : Nat) (vb : Nat) (sx : Nat)
  /-- VRSUB (R333): Elementwise b minus a. -/
  | vrsub (vd : Nat) (va : Nat) (vb : Nat) (sx : Nat)
  /-- VMUL (R333): Elementwise multiply. -/
  | vmul (vd : Nat) (va : Nat) (vb : Nat) (sx : Nat)
  /-- VMULH (R333): Elementwise high half of the integer product. -/
  | vmulh (vd : Nat) (va : Nat) (vb : Nat) (sx : Nat)
  /-- VDIV (R333): Elementwise divide. -/
  | vdiv (vd : Nat) (va : Nat) (vb : Nat) (sx : Nat)
  /-- VREM (R333): Elementwise integer remainder. -/
  | vrem (vd : Nat) (va : Nat) (vb : Nat) (sx : Nat)
  /-- VMIN (R333): Elementwise minimum. -/
  | vmin (vd : Nat) (va : Nat) (vb : Nat) (sx : Nat)
  /-- VMAX (R333): Elementwise maximum. -/
  | vmax (vd : Nat) (va : Nat) (vb : Nat) (sx : Nat)
  /-- VAND (R333): Elementwise bitwise AND. -/
  | vand (vd : Nat) (va : Nat) (vb : Nat) (sx : Nat)
  /-- VOR (R333): Elementwise bitwise OR. -/
  | vor (vd : Nat) (va : Nat) (vb : Nat) (sx : Nat)
  /-- VXOR (R333): Elementwise bitwise XOR. -/
  | vxor (vd : Nat) (va : Nat) (vb : Nat) (sx : Nat)
  /-- VSLL (R333): Elementwise left shift. -/
  | vsll (vd : Nat) (va : Nat) (vb : Nat) (sx : Nat)
  /-- VSRL (R333): Elementwise logical right shift. -/
  | vsrl (vd : Nat) (va : Nat) (vb : Nat) (sx : Nat)
  /-- VSRA (R333): Elementwise arithmetic right shift. -/
  | vsra (vd : Nat) (va : Nat) (vb : Nat) (sx : Nat)
  /-- VABS (R335): Elementwise absolute value. -/
  | vabs (vd : Nat) (va : Nat)
  /-- VFMA (R334): Fused a*b+d, rounded once. -/
  | vfma (vd : Nat) (va : Nat) (vb : Nat) (sx : Nat)
  /-- VFMS (R334): Fused a*b-d, rounded once. -/
  | vfms (vd : Nat) (va : Nat) (vb : Nat) (sx : Nat)
  /-- VFNMA (R334): Fused -(a*b)-d, rounded once. -/
  | vfnma (vd : Nat) (va : Nat) (vb : Nat) (sx : Nat)
  /-- VFNMS (R334): Fused -(a*b)+d, rounded once. -/
  | vfnms (vd : Nat) (va : Nat) (vb : Nat) (sx : Nat)
  /-- VSQRT (R335): Elementwise square root. -/
  | vsqrt (vd : Nat) (va : Nat)
  /-- VNEG (R335): Elementwise negation. -/
  | vneg (vd : Nat) (va : Nat)
  /-- VSGNJ (R333): Magnitude of a with the sign of b. -/
  | vsgnj (vd : Nat) (va : Nat) (vb : Nat) (sx : Nat)
  /-- VSCALE (R333): a times 2^n, rounded. -/
  | vscale (vd : Nat) (va : Nat) (vb : Nat) (sx : Nat)
  /-- VCMPEQ (R336): Sets predicate bits where a equals b. -/
  | vcmpeq (pd : Nat) (va : Nat) (vb : Nat) (sx : Nat)
  /-- VCMPNE (R336): Sets predicate bits where a differs from b. -/
  | vcmpne (pd : Nat) (va : Nat) (vb : Nat) (sx : Nat)
  /-- VCMPLT (R336): Sets predicate bits where a < b. -/
  | vcmplt (pd : Nat) (va : Nat) (vb : Nat) (sx : Nat)
  /-- VCMPLE (R336): Sets predicate bits where a <= b. -/
  | vcmple (pd : Nat) (va : Nat) (vb : Nat) (sx : Nat)
  /-- VCMPGT (R336): Sets predicate bits where a > b. -/
  | vcmpgt (pd : Nat) (va : Nat) (vb : Nat) (sx : Nat)
  /-- VCMPGE (R336): Sets predicate bits where a >= b. -/
  | vcmpge (pd : Nat) (va : Nat) (vb : Nat) (sx : Nat)
  /-- VCMPUO (R336): Sets predicate bits where a or b is NaN. -/
  | vcmpuo (pd : Nat) (va : Nat) (vb : Nat) (sx : Nat)
  /-- VCLASS (R335): Writes the 10-bit class mask of each element. -/
  | vclass (vd : Nat) (va : Nat)
  /-- VCVT (R337): Converts each element from the source type to the convoy's type. -/
  | vcvt (vd : Nat) (va : Nat) (ty : Nat)
  /-- VMV_V (R338): Copies elements of a vector register bit for bit. -/
  | vmvV (vd : Nat) (va : Nat)
  /-- VMV_X (R338): Broadcasts an x register into each active element. -/
  | vmvX (vd : Nat) (xs : Nat)
  /-- VMERGE (R339): Selects a or b per element by the guard. -/
  | vmerge (vd : Nat) (va : Nat) (vb : Nat) (sx : Nat)
  /-- VID (R340): Writes each element's index. -/
  | vid (vd : Nat)
  /-- VIOTA (R341): Writes the prefix count of set predicate bits. -/
  | viota (vd : Nat) (pa : Nat)
  /-- VCOMPRESS (R342): Packs active elements to the bottom of each slice. -/
  | vcompress (vd : Nat) (va : Nat)
  /-- VSLIDEUP (R343): Slides elements up within each slice. -/
  | vslideup (vd : Nat) (va : Nat) (xs : Nat)
  /-- VSLIDEDN (R343): Slides elements down within each slice, filling with zero. -/
  | vslidedn (vd : Nat) (va : Nat) (xs : Nat)
  /-- VPERM (R344): Gathers elements by index within the slice; faults PERMX across slices. -/
  | vperm (vd : Nat) (va : Nat) (vb : Nat)
  /-- VXCHG (R345): Exchanges elements between slices t and t XOR d. -/
  | vxchg (vd : Nat) (va : Nat) (xs : Nat)
  /-- VREDSUM (R346): Sum reduction in the fixed tree, plus the seed. -/
  | vredsum (vd : Nat) (va : Nat) (vb : Nat) (sx : Nat)
  /-- VREDMAX (R346): Maximum reduction. -/
  | vredmax (vd : Nat) (va : Nat) (vb : Nat) (sx : Nat)
  /-- VREDMIN (R346): Minimum reduction. -/
  | vredmin (vd : Nat) (va : Nat) (vb : Nat) (sx : Nat)
  /-- VREDAND (R346): AND reduction. -/
  | vredand (vd : Nat) (va : Nat) (vb : Nat) (sx : Nat)
  /-- VREDOR (R346): OR reduction. -/
  | vredor (vd : Nat) (va : Nat) (vb : Nat) (sx : Nat)
  /-- VREDXOR (R346): XOR reduction. -/
  | vredxor (vd : Nat) (va : Nat) (vb : Nat) (sx : Nat)
  /-- VFREDOSUM (R345): Ordered floating sum from the seed in index order. -/
  | vfredosum (vd : Nat) (va : Nat) (vb : Nat) (sx : Nat)
  /-- VEXT (R347): Reads one element into an x register, which is pending until written. -/
  | vext (xd : Nat) (va : Nat) (xs : Nat)
  /-- VINS (R348): Writes one element from an x register. -/
  | vins (vd : Nat) (xi : Nat) (xs : Nat)
  /-- VCLZ (R335): Counts leading zeros of each element. -/
  | vclz (vd : Nat) (va : Nat)
  /-- VPOPCNT (R335): Counts set bits of each element. -/
  | vpopcnt (vd : Nat) (va : Nat)
  /-- VQRECV (R349): Removes one queue-register entry and broadcasts it into active elements. -/
  | vqrecv (vd : Nat) (n : Nat)
  /-- VQSEND (R349): Appends element 0 to a queue register. -/
  | vqsend (n : Nat) (va : Nat)
  /-- PAND (R351): Predicate AND. -/
  | pand (pd : Nat) (pa : Nat) (pb : Nat)
  /-- POR (R351): Predicate OR. -/
  | por (pd : Nat) (pa : Nat) (pb : Nat)
  /-- PXOR (R351): Predicate XOR. -/
  | pxor (pd : Nat) (pa : Nat) (pb : Nat)
  /-- PANDN (R351): Predicate pa AND NOT pb. -/
  | pandn (pd : Nat) (pa : Nat) (pb : Nat)
  /-- PNOT (R351): Predicate NOT. -/
  | pnot (pd : Nat) (pa : Nat)
  /-- PSET (R351): Sets active predicate bits. -/
  | pset (pd : Nat)
  /-- PCLR (R351): Clears active predicate bits. -/
  | pclr (pd : Nat)
  /-- PFIRST (R352): Keeps only the lowest active set bit. -/
  | pfirst (pd : Nat) (pa : Nat)
  /-- VPOPC_X (R353): Counts active set predicate bits into an x register. -/
  | vpopcX (xd : Nat) (pa : Nat)
  /-- VPOPC_LQ (R353): Appends the count of active set predicate bits to a length queue. -/
  | vpopcLq (n : Nat) (pa : Nat)
  /-- PMOVV (R354): Writes predicate bits as 1 or 0 into elements. -/
  | pmovv (vd : Nat) (pa : Nat)
  /-- VMOVP (R354): Sets predicate bits where elements are nonzero. -/
  | vmovp (pd : Nat) (va : Nat)
  /-- VQNT4 (R355): Quantises eight fp32 registers into FP4 blocks with scales. -/
  | vqnt4 (vd : Nat) (vs : Nat)
  /-- VDQ4 (R356): Dequantises FP4 blocks into eight fp32 registers. -/
  | vdq4 (vd : Nat) (vs : Nat)
  /-- MLDB (R402): Loads B rows into the strand's Anvil bands. -/
  | mldb (xa : Nat) (xp : Nat)
  /-- MSTEP (R404): Steps A rows against resident B into an accumulator. -/
  | mstep (m : Nat) (xa : Nat) (xp : Nat)
  /-- MSTEPR (R413): Steps operand records, checking their B pages. -/
  | mstepr (m : Nat) (xa : Nat) (xp : Nat)
  /-- MZERO (R410): Zeroes an accumulator. -/
  | mzero (m : Nat)
  /-- MRD (R411): Writes accumulator rows to memory. -/
  | mrd (m : Nat) (xa : Nat) (xp : Nat)
  /-- MWR (R411): Reads rows from memory into an accumulator. -/
  | mwr (m : Nat) (xa : Nat) (xp : Nat)
  /-- MCOMMIT (R405): Closes the open batch and returns its id. -/
  | mcommit (xd : Nat)
  /-- GOR2 (R421): Exact 2D orientation sign. -/
  | gor2 (vd : Nat) (vs : Nat)
  /-- GOR3 (R421): Exact 3D orientation sign. -/
  | gor3 (vd : Nat) (vs : Nat)
  /-- GINC (R421): Exact in-circle sign. -/
  | ginc (vd : Nat) (vs : Nat)
  /-- GINS (R421): Exact in-sphere sign. -/
  | gins (vd : Nat) (vs : Nat)
  /-- GSEGX (R422): Exact segment-crossing test. -/
  | gsegx (vd : Nat) (vs : Nat)
  /-- VLD (R361): Unit-stride vector load. -/
  | vld (v : Nat) (xb : Nat)
  /-- VLDS (R361): Strided vector load. -/
  | vlds (v : Nat) (xb : Nat) (xs : Nat)
  /-- VLDX (R361): Indexed vector gather. -/
  | vldx (v : Nat) (xb : Nat) (vi : Nat)
  /-- VST (R362): Unit-stride vector store. -/
  | vst (v : Nat) (xb : Nat)
  /-- VSTS (R362): Strided vector store. -/
  | vsts (v : Nat) (xb : Nat) (xs : Nat)
  /-- VSTX (R362): Indexed vector scatter. -/
  | vstx (v : Nat) (xb : Nat) (vi : Nat)
  /-- VAMO (R365): Per-element atomic update at the owning port, returning nothing. -/
  | vamo (v : Nat) (xb : Nat) (vi : Nat) (fn : Nat)
  /-- VLDB4 (R368): Loads FP4 blocks and scales, setting vv bits. -/
  | vldb4 (v : Nat) (xb : Nat) (xs : Nat)
  /-- VSTB4 (R369): Stores FP4 blocks and scales, invalid blocks with scale 0xFF. -/
  | vstb4 (v : Nat) (xb : Nat) (xs : Nat)
  /-- COPY (R379): Issues one copy chunk per active element, completing with a token. -/
  | copy (xt : Nat) (xd : Nat) (xs : Nat) (xn : Nat)
  /-- COPYC (R379): Issues copy chunks, completing with one predicate bit per chunk. -/
  | copyc (pk : Nat) (xd : Nat) (xs : Nat) (xn : Nat)
  /-- COPYS (R379): Issues copy chunks with a source stride, completing with a token. -/
  | copys (xt : Nat) (xd : Nat) (xs : Nat) (xq : Nat)
  /-- RROT (R383): Rotates one block around the gang's cores in the cluster. -/
  | rrot (xt : Nat) (xd : Nat) (xs : Nat) (xn : Nat)
  /-- CMDB (R384): Offers 32-byte commands to the copy engine, recording acceptance in a predicate. -/
  | cmdb (pd : Nat) (vs : Nat)
  /-- VAMOR (R365): Per-element atomic update returning old values. -/
  | vamor (v : Nat) (xb : Nat) (vi : Nat) (fn : Nat)
  /-- CVY (R305): Opens a convoy and commits it with its mode, captured operands and VL into VA or VM. -/
  | cvy (cnt : Nat) (guard : Nat) (gneg : Nat) (etype : Nat) (rm : Nat) (sat : Nat) (tb : Nat)
  /-- SETVL (R307): Sets VL to min(request, MVL) from a register and closes the strip. -/
  | setvl (xd : Nat) (xs : Nat)
  /-- SETVLI (R307): Sets VL to min(immediate, MVL) and closes the strip. -/
  | setvli (xd : Nat) (imm : Nat)
  /-- SETVLQ (R308): Commits a length marker pair into VA and VM. -/
  | setvlq (xd : Nat) (n : Nat)
  /-- FSV (R309): Orders earlier scalar accesses before later vector accesses at a scope. -/
  | fsv (scope : Nat)
  /-- FVS (R309): Stalls until earlier vector accesses have performed at a scope. -/
  | fvs (scope : Nat)
  /-- FVV (R309): Orders earlier vector accesses before later ones at a scope. -/
  | fvv (scope : Nat)
  /-- QSEND (R310): Appends an x register to a queue register, waiting while full. -/
  | qsend (n : Nat) (xs : Nat)
  /-- QRECV (R310): Removes the oldest queue-register entry into an x register, waiting while empty. -/
  | qrecv (xd : Nat) (n : Nat)
  /-- WID (R311): Reads a field or the whole work identifier. -/
  | wid (xd : Nat) (f : Nat)
  /-- MATT (R398): Attaches to the Anvil with granted bands, or when attached waits and returns ASTAT. -/
  | matt (xd : Nat) (xs : Nat)
  /-- MDET (R399): Waits for matrix work and detaches from the Anvil. -/
  | mdet
  /-- MWAIT (R406): Waits until the batches up to an id are complete and covers them. -/
  | mwait (xs : Nat)
  /-- TSYNC (R312): Waits for earlier table stores to perform and retranslates later accesses. -/
  | tsync
  /-- BINIT (R390): Initialises a barrier object. -/
  | binit (xa : Nat) (xp : Nat)
  /-- BARRIVE (R390): Arrives at a barrier as a release. -/
  | barrive (xa : Nat)
  /-- BEXPECT (R390): Adds expected bytes to a barrier's PEND. -/
  | bexpect (xa : Nat) (xn : Nat)
  /-- BWAIT (R392): Waits for the barrier phase of the given parity to end. -/
  | bwait (xa : Nat)
  /-- PHEND (R393): Waits for earlier vector writes to be acknowledged, then arrives. -/
  | phend (xa : Nat)
  /-- MONARM (R313): Reads a doubleword and arms the monitor on its line. -/
  | monarm (xd : Nat) (xa : Nat)
  /-- MONWAIT (R315): Waits until the armed line is written, the monitor is disarmed or a spurious wake. -/
  | monwait
  /-- SPAWN (R316): Appends a child launch packet to CHILDQ and returns a token. -/
  | spawn (xd : Nat) (xa : Nat)
  /-- JOIN (R317): Waits for a child launch and returns its completion word. -/
  | join (xd : Nat) (xt : Nat)
  /-- XLTRAP (R318): Faults XLATE with the function number in FADDR. -/
  | xltrap (n : Nat)
  /-- VSYNC (R320): Stalls until every earlier convoy and marker has retired. -/
  | vsync
  /-- REMST (R322): Sends an 8-byte remote store through a peer window. -/
  | remst (xs : Nat) (xa : Nat)
  /-- FFLAGS (R321): Waits for earlier convoys, then reads and clears the sticky flags. -/
  | fflags (xd : Nat)
  /-- EDGE_UNIT_RECEIVE (R14): A 64-byte die-to-die unit arrives, is checked and corrected, or is resent from the retry buffer. Operands: port, errs. -/
  | edgeUnitReceive
  /-- FLIT_RECEIVE (R16): A link flit arrives, is corrected and CRC-checked, and is accepted or refused by sequence number. Operands: link, seq, payload, crcOk. -/
  | flitReceive
  /-- FLIT_REFUSAL (R16): A sender learns of a refused flit and resends it and every later flit in order. Operands: link, seq. -/
  | flitRefusal
  /-- FLIT_ACK (R16): The far end acknowledges flits, which leave the retry buffer. Operands: link, seq. -/
  | flitAck
  /-- IOD_READY (R23): An I/O die finishes self-test and firmware verification and reports ready. Operands: i. -/
  | iodReady
  /-- FN_READY (R23): A PCIe function becomes ready. Operands: n. -/
  | fnReady
  /-- CDIE_READY (R26): A compute die and its Cloudbank die finish their test and report ready. Operands: d, pass, temp. -/
  | cdieReady
  /-- ANVIL_READY (R26): A cluster's Anvil band test completes. Operands: c. -/
  | anvilReady
  /-- MLINK_READY (R23): A memory link completes training. Operands: n, x4, gib. -/
  | mlinkReady
  /-- MGRP_READY (R24): A memory group's modules are trained and scrubbed, and the group becomes ready. Operands: g. -/
  | mgrpReady
  /-- PLINK_READY (R23): A peer link completes training and learns FARID. Operands: n, x4, farid. -/
  | plinkReady
  /-- LINK_TRAINING_LOSS (R27): A memory or peer link loses training and starts its one retrain, holding its accesses. Operands: peer, n. -/
  | linkTrainingLoss
  /-- LINK_RETRAIN_DONE (R27): A retrain succeeds, possibly at 4 lanes, and held accesses proceed. Operands: peer, n, x4, farid. -/
  | linkRetrainDone
  /-- LINK_FAILURE (R27): A retrain fails: FAIL set, READY cleared, waiting accesses fault, posted stores dropped. Operands: peer, n. -/
  | linkFailure
  /-- MLINK_RETRAIN (R28): Writing a bit retrains a failed memory link, rescrubbing its group. Operands: n. -/
  | mlinkRetrain
  /-- PLINK_RETRAIN (R28): Writing a bit retrains a failed peer link. Operands: n. -/
  | plinkRetrain
  /-- MLINK_FAIL_CLEAR (R28): A W1C write clears memory-link FAIL bits without retraining. Operands: mask. -/
  | mlinkFailClear
  /-- PLINK_FAIL_CLEAR (R28): A W1C write clears peer-link FAIL bits without retraining. Operands: mask. -/
  | plinkFailClear
  /-- REQ_MV (R33): A voltage request is resolved to a target point, setting RESULT and REQCNT and starting a change. Operands: c, v. -/
  | reqMv
  /-- CAP_WRITE (R35): A CAP write with world-root rights sets the cap and lowers the point if needed. Operands: c, v, root. -/
  | capWrite
  /-- VOLTAGE_RAMP_DONE (R30): The rail reaches its new voltage; a raise starts its lock, a lowering ends CHANGING. Operands: c. -/
  | voltageRampDone
  /-- CLOCK_LOCK_DONE (R30): The idle clock source locks and the cluster switches to it. Operands: c. -/
  | clockLockDone
  /-- STALL_WINDOW_CLOSE (R40): Every 1,000 ticks the stall sampler writes a sample to STALL. Operands: c, mem, anvil, lane. -/
  | stallWindowClose
  /-- POWER_LIMITER_INTERVAL (R36): Each 1 ms interval the module power limiter lowers or raises LIMIT. Operands: watts. -/
  | powerLimiterInterval
  /-- THERMAL_HOT (R37): A cluster reaching 100 C clamps LIMIT to 3 and sets HOT. Operands: c, temp. -/
  | thermalHot
  /-- THERMAL_RELEASE (R37): A cluster below 95 C releases LIMIT to the power limiter's value. Operands: c, temp. -/
  | thermalRelease
  /-- THERMAL_TRIP (R37): A sensor at 115 C turns all regulators off. -/
  | thermalTrip
  /-- POWER_FLAGS_CLEAR (R32): A W1C write clears HOT or PWRLIM. Operands: c, mask. -/
  | powerFlagsClear
  /-- CLEAR (R41): A monitor CLEAR write resets MIN, MAX, COUNT, SUM and bins. Operands: b. -/
  | clear
  /-- MONITOR_CAPTURE (R42): A monitor block captures one value into MIN, MAX, COUNT, SUM and a bin. Operands: b, x. -/
  | monitorCapture
  /-- MONITOR_LEVEL_SAMPLE (R43): Every 10 ticks a level source presents a value for capture. Operands: b, x. -/
  | monitorLevelSample
  /-- STOP (R57): A STOP command puts a running or waiting context into STOPPING. Operands: w, k. -/
  | stop
  /-- RUN (R57): A RUN command loads registers and starts replay of a SAVED or FAULTED context. Operands: w, k. -/
  | run
  /-- KILL (R57): A KILL command makes a context DEAD, discarding outstanding operations. Operands: w, k, root. -/
  | kill
  /-- CMD_ZERO (R59): A CMD write of 0 is counted and IGNORED. Operands: w, k. -/
  | cmdZero
  /-- CTX_SAVED_FIELD_WRITE (R55): A write to PC, VL, FFLAGS or XREG takes effect only in SAVED or FAULTED. Operands: w, k, off, v. -/
  | ctxSavedFieldWrite
  /-- CONTEXT_SAVED (R57): The save frame is written and retired stores have performed; the context becomes SAVED, FAULTED or FROZEN. Operands: w, k. -/
  | contextSaved
  /-- REPLAY_DONE (R222): Every virga entry has been reissued; the context becomes RUNNING and saved convoys re-enter. Operands: w, k. -/
  | replayDone
  /-- WAIT_SATISFIED (R57): A strand's BWAIT, MONWAIT, JOIN or MWAIT wait is satisfied and the context returns to RUNNING. Operands: w, k. -/
  | waitSatisfied
  /-- STOP_ALL (R61): Stops every running context of a launch and sets HELD. Operands: w, l. -/
  | stopAll
  /-- RUN_ALL (R61): Runs every SAVED context of a launch and clears HELD. Operands: w, l. -/
  | runAll
  /-- KILL_ALL (R61): Kills every context of a launch and discards undispatched gangs. Operands: w, l, root. -/
  | killAll
  /-- BAR0_UNBACKED_WRITE (R82): A host write to an unbacked BAR0 offset is dropped. Operands: fn, off, v. -/
  | bar0UnbackedWrite
  /-- LAUNCH_REGISTER_WRITE (R83): A 64-byte BAR2 write appends an inline packet, or is dropped and counted. Operands: fn, off, whole, secure; data: dws. -/
  | launchRegisterWrite
  /-- PRG_RESPONSE (R86): A page request group response arrives; the request is retried once or faults. Operands: id, ok. -/
  | prgResponse
  /-- HOST_COMPLETION (R86): A completion for a host-window request arrives, successful or failed. Operands: id, ok; data: data. -/
  | hostCompletion
  /-- HOST_REQUEST_TIMEOUT (R86): A host request has no completion within 50 ms and fails TRANS. Operands: id. -/
  | hostRequestTimeout
  /-- HOST_WRITE_REFUSAL (R86): The host refuses a posted write, which is logged in AER. Operands: fn, a. -/
  | hostWriteRefusal
  /-- ATS_INVALIDATION_REQUEST (R88): An ATS invalidation arrives and cached translations in its range stop being used. Operands: fn, lo, hi. -/
  | atsInvalidationRequest
  /-- ATS_INVALIDATION_COMPLETION (R88): Once old-translation requests have completed, the Invalidation Completion is sent. Operands: fn. -/
  | atsInvalidationCompletion
  /-- MSIX_UNMASK (R90): A vector is unmasked and any pending message is sent at once. Operands: fn, v, fnMask. -/
  | msixUnmask
  /-- COALESCE_WRITE (R90): A write to CNTM1 or HOLD takes effect at once and may send a message. Operands: fn, v, x. -/
  | coalesceWrite
  /-- HOLD_EXPIRY (R90): A vector's hold time runs out and its message is sent. Operands: fn, v. -/
  | holdExpiry
  /-- VF_FLR (R92): An FLR of a VF destroys its world. Operands: n. -/
  | vfFlr
  /-- PF_FLR (R93): An FLR of the PF destroys every world and clears VF Enable. -/
  | pfFlr
  /-- HOT_RESET (R93): A PF hot reset destroys every world and resets configuration. -/
  | hotReset
  /-- LINK_DOWN (R93): Loss of the PCIe link destroys every world. -/
  | linkDown
  /-- CREATE (R99): A WCMD CREATE checks the world page and begins building the world. Operands: w, who. -/
  | create
  /-- CREATE_COMPLETE (R99): Zero-fill ends, the seed map is written and the world becomes ACTIVE. Operands: w. -/
  | createComplete
  /-- DESTROY (R99): A WCMD DESTROY starts destroying an ACTIVE world. Operands: w, who. -/
  | destroy
  /-- DESTROY_COMPLETE (R92): After outstanding host requests end, the world is scrubbed, keys zeroised and it becomes FREE. Operands: w. -/
  | destroyComplete
  /-- UNFREEZE (R99): A WCMD UNFREEZE clears FNFROZEN. Operands: w, who. -/
  | unfreeze
  /-- WCMD_ZERO (R99): A WCMD write of 0 is counted and IGNORED. Operands: w, who. -/
  | wcmdZero
  /-- LOCK_INTERFACE_REQUEST (R101): Locks an interface's configuration and returns a start nonce. Operands: mb, sess, q. -/
  | lockInterfaceRequest
  /-- START_INTERFACE_REQUEST (R101): With the correct nonce, moves a locked interface to RUN. Operands: mb, sess, q, nonce. -/
  | startInterfaceRequest
  /-- STOP_INTERFACE_REQUEST (R101): Returns an interface to CONFIG_UNLOCKED, killing its launches and discarding packets. Operands: mb, sess, q. -/
  | stopInterfaceRequest
  /-- GET_DEVICE_INTERFACE_REPORT (R101): Returns the interface's world, pages, CONF and FMASK. Operands: mb, sess, q. -/
  | getDeviceInterfaceReport
  /-- GET_DEVICE_INTERFACE_STATE (R101): Returns the interface's TDISP state. Operands: mb, sess, q. -/
  | getDeviceInterfaceState
  /-- GET_VERSION (R103): SPDM request for supported versions. Operands: mb. -/
  | getVersion
  /-- GET_CAPABILITIES (R103): SPDM request for capabilities. Operands: mb. -/
  | getCapabilities
  /-- NEGOTIATE_ALGORITHMS (R103): SPDM algorithm negotiation. Operands: mb, asym, hash, dhe, aead. -/
  | negotiateAlgorithms
  /-- GET_DIGESTS (R103): SPDM request for certificate digests. Operands: mb. -/
  | getDigests
  /-- GET_CERTIFICATE (R103): SPDM request for the device identity chain. Operands: mb, slot. -/
  | getCertificate
  /-- CHALLENGE (R103): SPDM challenge authentication. Operands: mb, slot, nonce. -/
  | challenge
  /-- GET_MEASUREMENTS (R103): SPDM request for measurements 1 to 4. Operands: mb, idx. -/
  | getMeasurements
  /-- KEY_EXCHANGE (R103): SPDM session key exchange. Operands: mb, share. -/
  | keyExchange
  /-- FINISH (R103): SPDM session finish. Operands: mb, sess, ok. -/
  | finish
  /-- KEY_UPDATE (R103): SPDM session key update. Operands: mb, sess. -/
  | keyUpdate
  /-- END_SESSION (R103): SPDM session end. Operands: mb, sess. -/
  | endSession
  /-- SET_STREAM_KEY (R106): Installs a decryption stream key and resets its counter floor. Operands: mb, sess, stream, key. -/
  | setStreamKey
  /-- SET_QUANTUM_TABLE (R141): Replaces the quantum table, or refuses it, as a logged transaction. Operands: mb, sess, n; data: entries. -/
  | setQuantumTable
  /-- GET_QUANTUM_TABLE (R141): Returns the quantum table in force. Operands: mb, sess. -/
  | getQuantumTable
  /-- IDE_INTEGRITY_FAILURE (R108): An IDE integrity failure freezes the function and puts its interfaces in ERROR. Operands: fn, stream. -/
  | ideIntegrityFailure
  /-- INBOUND_REMOTE_STORE (R109): An inbound remote store is performed, dropped and refused, or freezes the link when unauthorised. Operands: n, o, size, v. -/
  | inboundRemoteStore
  /-- INBOUND_COPY_WRITE (R109): An inbound remote copy write is performed or dropped. Operands: n, o; data: data. -/
  | inboundCopyWrite
  /-- INBOUND_COPY_READ (R109): An inbound remote copy read is performed, returning data on the response channel, or dropped. Operands: n, o, len. -/
  | inboundCopyRead
  /-- PLINK_UNFREEZE (R109): An UNFREEZE write clears PFROZEN and sets PLINK_READY again. Operands: n. -/
  | plinkUnfreeze
  /-- INWORLD_WRITE (R109): A write to INEN and INWORLD, refusing a confidential world. Operands: n, v. -/
  | inworldWrite
  /-- REMOTE_STORE_ACK (R204): A remote store's acknowledgement arrives and PEERPEND decrements. Operands: n, id. -/
  | remoteStoreAck
  /-- REMOTE_STORE_REFUSAL (R155): A refusal arrives and the remote store counts as lost. Operands: n, id. -/
  | remoteStoreRefusal
  /-- OWNER_WRITE (R110): World 0 moves an unlocked interface to another world. Operands: q, v, who. -/
  | ownerWrite
  /-- QUEUE_LOCKED_FIELD_WRITE (R112): A write to ROOT, PASID or VECTOR performs when unlocked or sends the interface to ERROR. Operands: q, off, v, who. -/
  | queueLockedFieldWrite
  /-- START (R113): QCMD START locks and starts an unlocked interface. Operands: q, who. -/
  | start
  /-- UNLOCK (R113): QCMD UNLOCK acts as STOP_INTERFACE_REQUEST. Operands: q, who. -/
  | unlock
  /-- QCMD_IGNORED (R113): A QCMD write of 0 or 3 is counted and IGNORED. Operands: q, v, who. -/
  | qcmdIgnored
  /-- TAIL_STORE (R114): A TAIL store appends ring packets to the queue, or is ignored and counted. Operands: q, v, who. -/
  | tailStore
  /-- RINGERR_CLEAR (R115): Clearing RINGERR makes the parser read the same slot again. Operands: q, who. -/
  | ringerrClear
  /-- RING_PACKET_READ (R115): The parser's ring read completes, advancing HEAD, or faults and sets RINGERR. Operands: q. -/
  | ringPacketRead
  /-- LAUNCH (R118): The parser takes a LAUNCH packet, checks it and binds a launch number. Operands: q. -/
  | launch
  /-- WAITVALUE (R119): The parser takes a WAITVALUE packet, reads and arms on its doubleword and tests it. Operands: q. -/
  | waitvalue
  /-- WAITVALUE_RETEST (R119): A store to the watched line retests a blocked WAITVALUE. Operands: q. -/
  | waitvalueRetest
  /-- WRITEVALUE (R118): The parser takes a WRITEVALUE packet and stores dw2 at dw1. Operands: q. -/
  | writevalue
  /-- WRITEVALUE_PERFORMED (R118): The WRITEVALUE store performs or fails and its completion word is written. Operands: q. -/
  | writevaluePerformed
  /-- CHECKPOINT (R126): The parser takes a CHECKPOINT packet and starts a checkpoint of the world. Operands: q. -/
  | checkpoint
  /-- NOP (R118): The parser takes a NOP packet and writes its completion word. Operands: q. -/
  | nop
  /-- LAUNCH_DONE (R121): A launch reaches DONE; its status and completion word are written and its number freed. Operands: w, l. -/
  | launchDone
  /-- WATCHDOG_EXPIRY (R124): 1 ms without a heartbeat resets the policy core. -/
  | watchdogExpiry
  /-- POLICY_CORE_RECOVERY (R124): The restarted policy core replays or undoes its log and resumes service, incrementing PCGEN. -/
  | policyCoreRecovery
  /-- CKPT_STOPPED (R130): Every context is stopped; the engine captures dirty bits and writes die shards. -/
  | ckptStopped
  /-- CKPT_DIESHARDS_DONE (R130): Die shards are written; RUN_ALL resumes the world and memory shards begin. -/
  | ckptDieshardsDone
  /-- CKPT_PAGE_COPIED (R131): A page of the page set is copied and any held write to it performs. Operands: page. -/
  | ckptPageCopied
  /-- CKPT_MEMSHARDS_DONE (R130): Memory shards are written and the manifest is written. -/
  | ckptMemshardsDone
  /-- CKPT_MANIFEST_DONE (R130): The manifest and signature are written and the completion word follows. -/
  | ckptManifestDone
  /-- RESTORE (R138): ECMD RESTORE checks a manifest chain and starts restoring a world. Operands: who. -/
  | restore
  /-- RESTORE_DONE (R139): The shards are applied and the restored launches return HELD. -/
  | restoreDone
  /-- ABORT (R137): ECMD ABORT ends a checkpoint in phases 1 to 4. Operands: who. -/
  | abort
  /-- ECMD_IGNORED (R137): An ECMD write of 0 or 3 is counted and sets LASTERR IGNORED. Operands: v, who. -/
  | ecmdIgnored
  /-- QUANTUM_END (R142): A world's quantum expires and the next table entry is resolved, switching worlds if needed. -/
  | quantumEnd
  /-- QUANTUM_IDLE_END (R142): A non-confidential world with no work ends its quantum at once. -/
  | quantumIdleEnd
  /-- SWITCH_STOPS_DONE (R143): The outgoing world's contexts are stopped; its state is written to its switch area. -/
  | switchStopsDone
  /-- SWITCH_SAVE_DONE (R143): The outgoing state is saved; the scrambler key changes and the incoming state is read. -/
  | switchSaveDone
  /-- SWITCH_RESTORE_DONE (R143): The incoming state is restored, its contexts resume and dispatch begins. -/
  | switchRestoreDone
  /-- DISPATCH_DECISION (R146): The dispatcher chooses a candidate gang and places at most one. -/
  | dispatchDecision
  /-- ROTATION_SAVE_DONE (R151): The rotated gang's state is written to the switch area and its resources freed. Operands: w, g. -/
  | rotationSaveDone
  /-- LENGTH_MARKER_TAKE (R169): A SETVLQ marker reaches its queue head and takes a length-queue entry. Operands: w, k, vm. -/
  | lengthMarkerTake
  /-- WRITE_QUEUE_UPDATE (R189): An atomic or barrier update arrives at its port and applies once, recording a sundog entry. Operands: w, k, id. -/
  | writeQueueUpdate
  /-- OPERATION_RESPONSE (R220): A port's response reaches the strand, completing the operation or being discarded after the save. Operands: w, k, id. -/
  | operationResponse
  /-- PORT_FAULT_REPORT (R456): A port reports MEMNR, TRANS or TAGFAIL after issue, faulting the strand at that element. Operands: w, k, id, cause. -/
  | portFaultReport
  /-- SUNDOG_ACK (R220): A strand's acknowledgement frees the sundog entry of its tag. Operands: tag. -/
  | sundogAck
  /-- SUNDOG_SPILL (R221): A port spills a pinned entry of a stopped context into its virga entry. Operands: tag. -/
  | sundogSpill
  /-- RESERVATION_HOLD_EXPIRY (R299): 4,096 cycles after an LR, held writes to the granule proceed. Operands: w, k. -/
  | reservationHoldExpiry
  /-- CHUNK_COMPLETE (R380): A copy chunk or RROT transfer completes, setting its bit or the token. Operands: w, k, id. -/
  | chunkComplete
  /-- ENGINE_COPY_COMMAND (R385): The engine performs an accepted copy command, charges its barrier and writes bit and status. Operands: w, k, slot. -/
  | engineCopyCommand
  /-- DECRYPT_COMMAND (R107): The engine reads, decrypts and verifies an accepted decrypt command and writes the plaintext. Operands: w, k, slot. -/
  | decryptCommand
  /-- BATCH_COMPLETE (R405): Every row of a matrix batch has applied and its record statuses are written. Operands: w, k. -/
  | batchComplete
  /-- CONTROL_WORD_WRITE (R6): A write to a control-page field with no behaviour of its own sets or ignores the field. Operands: who, kind, idx, off, v. -/
  | controlWordWrite
  /-- POWER_ON_RESET (R23): Release of power-on reset sets every page to its Reset column and starts bring-up; it is the only way back from a thermal trip. -/
  | powerOnReset
  /-- VECTOR_MASK (R90): The host sets a function mask or vector mask, so no message is sent and the PBA bit of a vector with PEND above 0 becomes 1. Operands: fn, v, fnMask. -/
  | vectorMask
  /-- POSTED_STORE_DROPPED (R453): A posted store reaches a memory link that has already failed, is dropped and counted in LOSTW, and forms a readiness event with GEN incremented. Operands: n. -/
  | postedStoreDropped
  /-- ILLEGAL (R265): The scalar stream reaches a word that decodes as no instruction, such as an unallocated encoding or a reserved major, and the strand faults ILLEGAL. Operands: word. -/
  | illegal
  /-- INSTRUCTION_FETCH_FAULT (R293): The fetch of the next word fails with TRANS, PERM, CTLVEC or MEMNR and the strand faults before any instruction is decoded. Operands: cause, a. -/
  | instructionFetchFault
  deriving DecidableEq, Repr

/-- An event with its operands, in the order that its constructor names them. -/
structure Event where
  what : Instr
  args : List Nat
  data : List Nat
  deriving DecidableEq, Repr

/-- Operand i of an event. -/
def Event.arg (e : Event) (i : Nat) : Nat := (e.args[i]?).getD 0

end Sys2Proof
end

