-- ==== Sys2Proof/WellFormed.lean ====
section
/-!
DEFINITION. Well-formed instructions: every operand fits its field in the encoding (13 R258 to R264, 15 R286) or
names a unit that the part has (00 R11), and every operand lies in the range that the spec gives it
(13 R252, R253, R261 to R264; 00 R5). A term that fails a check is no instruction of the part.
-/

namespace Sys2Proof

/-- Every operand fits its field; an event has no field. -/
def Instr.fits : Instr → Bool
  | .lui rd imm => decide (rd < 32 ∧ imm < 1048576)
  | .auipc rd imm => decide (rd < 32 ∧ imm < 1048576)
  | .jal rd off => decide (rd < 32 ∧ off < 2097152 ∧ off % 2 = 0)
  | .jalr rd rs1 imm => decide (rd < 32 ∧ rs1 < 32 ∧ imm < 4096)
  | .beq rs1 rs2 off => decide (rs1 < 32 ∧ rs2 < 32 ∧ off < 8192 ∧ off % 2 = 0)
  | .bne rs1 rs2 off => decide (rs1 < 32 ∧ rs2 < 32 ∧ off < 8192 ∧ off % 2 = 0)
  | .blt rs1 rs2 off => decide (rs1 < 32 ∧ rs2 < 32 ∧ off < 8192 ∧ off % 2 = 0)
  | .bge rs1 rs2 off => decide (rs1 < 32 ∧ rs2 < 32 ∧ off < 8192 ∧ off % 2 = 0)
  | .bltu rs1 rs2 off => decide (rs1 < 32 ∧ rs2 < 32 ∧ off < 8192 ∧ off % 2 = 0)
  | .bgeu rs1 rs2 off => decide (rs1 < 32 ∧ rs2 < 32 ∧ off < 8192 ∧ off % 2 = 0)
  | .lb rd rs1 imm => decide (rd < 32 ∧ rs1 < 32 ∧ imm < 4096)
  | .lh rd rs1 imm => decide (rd < 32 ∧ rs1 < 32 ∧ imm < 4096)
  | .lw rd rs1 imm => decide (rd < 32 ∧ rs1 < 32 ∧ imm < 4096)
  | .ld rd rs1 imm => decide (rd < 32 ∧ rs1 < 32 ∧ imm < 4096)
  | .lbu rd rs1 imm => decide (rd < 32 ∧ rs1 < 32 ∧ imm < 4096)
  | .lhu rd rs1 imm => decide (rd < 32 ∧ rs1 < 32 ∧ imm < 4096)
  | .lwu rd rs1 imm => decide (rd < 32 ∧ rs1 < 32 ∧ imm < 4096)
  | .sb rs2 rs1 imm => decide (rs2 < 32 ∧ rs1 < 32 ∧ imm < 4096)
  | .sh rs2 rs1 imm => decide (rs2 < 32 ∧ rs1 < 32 ∧ imm < 4096)
  | .sw rs2 rs1 imm => decide (rs2 < 32 ∧ rs1 < 32 ∧ imm < 4096)
  | .sd rs2 rs1 imm => decide (rs2 < 32 ∧ rs1 < 32 ∧ imm < 4096)
  | .addi rd rs1 imm => decide (rd < 32 ∧ rs1 < 32 ∧ imm < 4096)
  | .slti rd rs1 imm => decide (rd < 32 ∧ rs1 < 32 ∧ imm < 4096)
  | .sltiu rd rs1 imm => decide (rd < 32 ∧ rs1 < 32 ∧ imm < 4096)
  | .xori rd rs1 imm => decide (rd < 32 ∧ rs1 < 32 ∧ imm < 4096)
  | .ori rd rs1 imm => decide (rd < 32 ∧ rs1 < 32 ∧ imm < 4096)
  | .andi rd rs1 imm => decide (rd < 32 ∧ rs1 < 32 ∧ imm < 4096)
  | .slli rd rs1 shamt => decide (rd < 32 ∧ rs1 < 32 ∧ shamt < 64)
  | .srli rd rs1 shamt => decide (rd < 32 ∧ rs1 < 32 ∧ shamt < 64)
  | .srai rd rs1 shamt => decide (rd < 32 ∧ rs1 < 32 ∧ shamt < 64)
  | .addiw rd rs1 imm => decide (rd < 32 ∧ rs1 < 32 ∧ imm < 4096)
  | .slliw rd rs1 shamt => decide (rd < 32 ∧ rs1 < 32 ∧ shamt < 32)
  | .srliw rd rs1 shamt => decide (rd < 32 ∧ rs1 < 32 ∧ shamt < 32)
  | .sraiw rd rs1 shamt => decide (rd < 32 ∧ rs1 < 32 ∧ shamt < 32)
  | .add rd rs1 rs2 => decide (rd < 32 ∧ rs1 < 32 ∧ rs2 < 32)
  | .sub rd rs1 rs2 => decide (rd < 32 ∧ rs1 < 32 ∧ rs2 < 32)
  | .sll rd rs1 rs2 => decide (rd < 32 ∧ rs1 < 32 ∧ rs2 < 32)
  | .slt rd rs1 rs2 => decide (rd < 32 ∧ rs1 < 32 ∧ rs2 < 32)
  | .sltu rd rs1 rs2 => decide (rd < 32 ∧ rs1 < 32 ∧ rs2 < 32)
  | .xor rd rs1 rs2 => decide (rd < 32 ∧ rs1 < 32 ∧ rs2 < 32)
  | .srl rd rs1 rs2 => decide (rd < 32 ∧ rs1 < 32 ∧ rs2 < 32)
  | .sra rd rs1 rs2 => decide (rd < 32 ∧ rs1 < 32 ∧ rs2 < 32)
  | .or rd rs1 rs2 => decide (rd < 32 ∧ rs1 < 32 ∧ rs2 < 32)
  | .and rd rs1 rs2 => decide (rd < 32 ∧ rs1 < 32 ∧ rs2 < 32)
  | .mul rd rs1 rs2 => decide (rd < 32 ∧ rs1 < 32 ∧ rs2 < 32)
  | .mulh rd rs1 rs2 => decide (rd < 32 ∧ rs1 < 32 ∧ rs2 < 32)
  | .mulhsu rd rs1 rs2 => decide (rd < 32 ∧ rs1 < 32 ∧ rs2 < 32)
  | .mulhu rd rs1 rs2 => decide (rd < 32 ∧ rs1 < 32 ∧ rs2 < 32)
  | .div rd rs1 rs2 => decide (rd < 32 ∧ rs1 < 32 ∧ rs2 < 32)
  | .divu rd rs1 rs2 => decide (rd < 32 ∧ rs1 < 32 ∧ rs2 < 32)
  | .rem rd rs1 rs2 => decide (rd < 32 ∧ rs1 < 32 ∧ rs2 < 32)
  | .remu rd rs1 rs2 => decide (rd < 32 ∧ rs1 < 32 ∧ rs2 < 32)
  | .addw rd rs1 rs2 => decide (rd < 32 ∧ rs1 < 32 ∧ rs2 < 32)
  | .subw rd rs1 rs2 => decide (rd < 32 ∧ rs1 < 32 ∧ rs2 < 32)
  | .sllw rd rs1 rs2 => decide (rd < 32 ∧ rs1 < 32 ∧ rs2 < 32)
  | .srlw rd rs1 rs2 => decide (rd < 32 ∧ rs1 < 32 ∧ rs2 < 32)
  | .sraw rd rs1 rs2 => decide (rd < 32 ∧ rs1 < 32 ∧ rs2 < 32)
  | .mulw rd rs1 rs2 => decide (rd < 32 ∧ rs1 < 32 ∧ rs2 < 32)
  | .divw rd rs1 rs2 => decide (rd < 32 ∧ rs1 < 32 ∧ rs2 < 32)
  | .divuw rd rs1 rs2 => decide (rd < 32 ∧ rs1 < 32 ∧ rs2 < 32)
  | .remw rd rs1 rs2 => decide (rd < 32 ∧ rs1 < 32 ∧ rs2 < 32)
  | .remuw rd rs1 rs2 => decide (rd < 32 ∧ rs1 < 32 ∧ rs2 < 32)
  | .fence pred succ => decide (pred < 16 ∧ succ < 16)
  | .fenceTso => true
  | .fenceI => true
  | .ecall => true
  | .ebreak => true
  | .lrW rd rs1 aq rl => decide (rd < 32 ∧ rs1 < 32 ∧ aq < 2 ∧ rl < 2)
  | .lrD rd rs1 aq rl => decide (rd < 32 ∧ rs1 < 32 ∧ aq < 2 ∧ rl < 2)
  | .scW rd rs1 rs2 aq rl => decide (rd < 32 ∧ rs1 < 32 ∧ rs2 < 32 ∧ aq < 2 ∧ rl < 2)
  | .scD rd rs1 rs2 aq rl => decide (rd < 32 ∧ rs1 < 32 ∧ rs2 < 32 ∧ aq < 2 ∧ rl < 2)
  | .amoswapW rd rs1 rs2 aq rl => decide (rd < 32 ∧ rs1 < 32 ∧ rs2 < 32 ∧ aq < 2 ∧ rl < 2)
  | .amoswapD rd rs1 rs2 aq rl => decide (rd < 32 ∧ rs1 < 32 ∧ rs2 < 32 ∧ aq < 2 ∧ rl < 2)
  | .amoaddW rd rs1 rs2 aq rl => decide (rd < 32 ∧ rs1 < 32 ∧ rs2 < 32 ∧ aq < 2 ∧ rl < 2)
  | .amoaddD rd rs1 rs2 aq rl => decide (rd < 32 ∧ rs1 < 32 ∧ rs2 < 32 ∧ aq < 2 ∧ rl < 2)
  | .amoxorW rd rs1 rs2 aq rl => decide (rd < 32 ∧ rs1 < 32 ∧ rs2 < 32 ∧ aq < 2 ∧ rl < 2)
  | .amoxorD rd rs1 rs2 aq rl => decide (rd < 32 ∧ rs1 < 32 ∧ rs2 < 32 ∧ aq < 2 ∧ rl < 2)
  | .amoandW rd rs1 rs2 aq rl => decide (rd < 32 ∧ rs1 < 32 ∧ rs2 < 32 ∧ aq < 2 ∧ rl < 2)
  | .amoandD rd rs1 rs2 aq rl => decide (rd < 32 ∧ rs1 < 32 ∧ rs2 < 32 ∧ aq < 2 ∧ rl < 2)
  | .amoorW rd rs1 rs2 aq rl => decide (rd < 32 ∧ rs1 < 32 ∧ rs2 < 32 ∧ aq < 2 ∧ rl < 2)
  | .amoorD rd rs1 rs2 aq rl => decide (rd < 32 ∧ rs1 < 32 ∧ rs2 < 32 ∧ aq < 2 ∧ rl < 2)
  | .amominW rd rs1 rs2 aq rl => decide (rd < 32 ∧ rs1 < 32 ∧ rs2 < 32 ∧ aq < 2 ∧ rl < 2)
  | .amominD rd rs1 rs2 aq rl => decide (rd < 32 ∧ rs1 < 32 ∧ rs2 < 32 ∧ aq < 2 ∧ rl < 2)
  | .amomaxW rd rs1 rs2 aq rl => decide (rd < 32 ∧ rs1 < 32 ∧ rs2 < 32 ∧ aq < 2 ∧ rl < 2)
  | .amomaxD rd rs1 rs2 aq rl => decide (rd < 32 ∧ rs1 < 32 ∧ rs2 < 32 ∧ aq < 2 ∧ rl < 2)
  | .amominuW rd rs1 rs2 aq rl => decide (rd < 32 ∧ rs1 < 32 ∧ rs2 < 32 ∧ aq < 2 ∧ rl < 2)
  | .amominuD rd rs1 rs2 aq rl => decide (rd < 32 ∧ rs1 < 32 ∧ rs2 < 32 ∧ aq < 2 ∧ rl < 2)
  | .amomaxuW rd rs1 rs2 aq rl => decide (rd < 32 ∧ rs1 < 32 ∧ rs2 < 32 ∧ aq < 2 ∧ rl < 2)
  | .amomaxuD rd rs1 rs2 aq rl => decide (rd < 32 ∧ rs1 < 32 ∧ rs2 < 32 ∧ aq < 2 ∧ rl < 2)
  | .vadd vd va vb sx => decide (vd < 64 ∧ va < 64 ∧ vb < 64 ∧ sx < 2)
  | .vsub vd va vb sx => decide (vd < 64 ∧ va < 64 ∧ vb < 64 ∧ sx < 2)
  | .vrsub vd va vb sx => decide (vd < 64 ∧ va < 64 ∧ vb < 64 ∧ sx < 2)
  | .vmul vd va vb sx => decide (vd < 64 ∧ va < 64 ∧ vb < 64 ∧ sx < 2)
  | .vmulh vd va vb sx => decide (vd < 64 ∧ va < 64 ∧ vb < 64 ∧ sx < 2)
  | .vdiv vd va vb sx => decide (vd < 64 ∧ va < 64 ∧ vb < 64 ∧ sx < 2)
  | .vrem vd va vb sx => decide (vd < 64 ∧ va < 64 ∧ vb < 64 ∧ sx < 2)
  | .vmin vd va vb sx => decide (vd < 64 ∧ va < 64 ∧ vb < 64 ∧ sx < 2)
  | .vmax vd va vb sx => decide (vd < 64 ∧ va < 64 ∧ vb < 64 ∧ sx < 2)
  | .vand vd va vb sx => decide (vd < 64 ∧ va < 64 ∧ vb < 64 ∧ sx < 2)
  | .vor vd va vb sx => decide (vd < 64 ∧ va < 64 ∧ vb < 64 ∧ sx < 2)
  | .vxor vd va vb sx => decide (vd < 64 ∧ va < 64 ∧ vb < 64 ∧ sx < 2)
  | .vsll vd va vb sx => decide (vd < 64 ∧ va < 64 ∧ vb < 64 ∧ sx < 2)
  | .vsrl vd va vb sx => decide (vd < 64 ∧ va < 64 ∧ vb < 64 ∧ sx < 2)
  | .vsra vd va vb sx => decide (vd < 64 ∧ va < 64 ∧ vb < 64 ∧ sx < 2)
  | .vabs vd va => decide (vd < 64 ∧ va < 64)
  | .vfma vd va vb sx => decide (vd < 64 ∧ va < 64 ∧ vb < 64 ∧ sx < 2)
  | .vfms vd va vb sx => decide (vd < 64 ∧ va < 64 ∧ vb < 64 ∧ sx < 2)
  | .vfnma vd va vb sx => decide (vd < 64 ∧ va < 64 ∧ vb < 64 ∧ sx < 2)
  | .vfnms vd va vb sx => decide (vd < 64 ∧ va < 64 ∧ vb < 64 ∧ sx < 2)
  | .vsqrt vd va => decide (vd < 64 ∧ va < 64)
  | .vneg vd va => decide (vd < 64 ∧ va < 64)
  | .vsgnj vd va vb sx => decide (vd < 64 ∧ va < 64 ∧ vb < 64 ∧ sx < 2)
  | .vscale vd va vb sx => decide (vd < 64 ∧ va < 64 ∧ vb < 64 ∧ sx < 2)
  | .vcmpeq pd va vb sx => decide (pd < 32 ∧ va < 64 ∧ vb < 64 ∧ sx < 2)
  | .vcmpne pd va vb sx => decide (pd < 32 ∧ va < 64 ∧ vb < 64 ∧ sx < 2)
  | .vcmplt pd va vb sx => decide (pd < 32 ∧ va < 64 ∧ vb < 64 ∧ sx < 2)
  | .vcmple pd va vb sx => decide (pd < 32 ∧ va < 64 ∧ vb < 64 ∧ sx < 2)
  | .vcmpgt pd va vb sx => decide (pd < 32 ∧ va < 64 ∧ vb < 64 ∧ sx < 2)
  | .vcmpge pd va vb sx => decide (pd < 32 ∧ va < 64 ∧ vb < 64 ∧ sx < 2)
  | .vcmpuo pd va vb sx => decide (pd < 32 ∧ va < 64 ∧ vb < 64 ∧ sx < 2)
  | .vclass vd va => decide (vd < 64 ∧ va < 64)
  | .vcvt vd va ty => decide (vd < 64 ∧ va < 64 ∧ ty < 16)
  | .vmvV vd va => decide (vd < 64 ∧ va < 64)
  | .vmvX vd xs => decide (vd < 64 ∧ xs < 32)
  | .vmerge vd va vb sx => decide (vd < 64 ∧ va < 64 ∧ vb < 64 ∧ sx < 2)
  | .vid vd => decide (vd < 64)
  | .viota vd pa => decide (vd < 64 ∧ pa < 32)
  | .vcompress vd va => decide (vd < 64 ∧ va < 64)
  | .vslideup vd va xs => decide (vd < 64 ∧ va < 64 ∧ xs < 32)
  | .vslidedn vd va xs => decide (vd < 64 ∧ va < 64 ∧ xs < 32)
  | .vperm vd va vb => decide (vd < 64 ∧ va < 64 ∧ vb < 64)
  | .vxchg vd va xs => decide (vd < 64 ∧ va < 64 ∧ xs < 32)
  | .vredsum vd va vb sx => decide (vd < 64 ∧ va < 64 ∧ vb < 64 ∧ sx < 2)
  | .vredmax vd va vb sx => decide (vd < 64 ∧ va < 64 ∧ vb < 64 ∧ sx < 2)
  | .vredmin vd va vb sx => decide (vd < 64 ∧ va < 64 ∧ vb < 64 ∧ sx < 2)
  | .vredand vd va vb sx => decide (vd < 64 ∧ va < 64 ∧ vb < 64 ∧ sx < 2)
  | .vredor vd va vb sx => decide (vd < 64 ∧ va < 64 ∧ vb < 64 ∧ sx < 2)
  | .vredxor vd va vb sx => decide (vd < 64 ∧ va < 64 ∧ vb < 64 ∧ sx < 2)
  | .vfredosum vd va vb sx => decide (vd < 64 ∧ va < 64 ∧ vb < 64 ∧ sx < 2)
  | .vext xd va xs => decide (xd < 32 ∧ va < 64 ∧ xs < 32)
  | .vins vd xi xs => decide (vd < 64 ∧ xi < 32 ∧ xs < 32)
  | .vclz vd va => decide (vd < 64 ∧ va < 64)
  | .vpopcnt vd va => decide (vd < 64 ∧ va < 64)
  | .vqrecv vd n => decide (vd < 64 ∧ n < 8)
  | .vqsend n va => decide (n < 8 ∧ va < 64)
  | .pand pd pa pb => decide (pd < 32 ∧ pa < 32 ∧ pb < 32)
  | .por pd pa pb => decide (pd < 32 ∧ pa < 32 ∧ pb < 32)
  | .pxor pd pa pb => decide (pd < 32 ∧ pa < 32 ∧ pb < 32)
  | .pandn pd pa pb => decide (pd < 32 ∧ pa < 32 ∧ pb < 32)
  | .pnot pd pa => decide (pd < 32 ∧ pa < 32)
  | .pset pd => decide (pd < 32)
  | .pclr pd => decide (pd < 32)
  | .pfirst pd pa => decide (pd < 32 ∧ pa < 32)
  | .vpopcX xd pa => decide (xd < 32 ∧ pa < 32)
  | .vpopcLq n pa => decide (n < 4 ∧ pa < 32)
  | .pmovv vd pa => decide (vd < 64 ∧ pa < 32)
  | .vmovp pd va => decide (pd < 32 ∧ va < 64)
  | .vqnt4 vd vs => decide (vd < 64 ∧ vs < 64)
  | .vdq4 vd vs => decide (vd < 64 ∧ vs < 64)
  | .mldb xa xp => decide (xa < 32 ∧ xp < 32)
  | .mstep m xa xp => decide (m < 4 ∧ xa < 32 ∧ xp < 32)
  | .mstepr m xa xp => decide (m < 4 ∧ xa < 32 ∧ xp < 32)
  | .mzero m => decide (m < 4)
  | .mrd m xa xp => decide (m < 4 ∧ xa < 32 ∧ xp < 32)
  | .mwr m xa xp => decide (m < 4 ∧ xa < 32 ∧ xp < 32)
  | .mcommit xd => decide (xd < 32)
  | .gor2 vd vs => decide (vd < 64 ∧ vs < 64)
  | .gor3 vd vs => decide (vd < 64 ∧ vs < 64)
  | .ginc vd vs => decide (vd < 64 ∧ vs < 64)
  | .gins vd vs => decide (vd < 64 ∧ vs < 64)
  | .gsegx vd vs => decide (vd < 64 ∧ vs < 64)
  | .vld v xb => decide (v < 64 ∧ xb < 32)
  | .vlds v xb xs => decide (v < 64 ∧ xb < 32 ∧ xs < 32)
  | .vldx v xb vi => decide (v < 64 ∧ xb < 32 ∧ vi < 64)
  | .vst v xb => decide (v < 64 ∧ xb < 32)
  | .vsts v xb xs => decide (v < 64 ∧ xb < 32 ∧ xs < 32)
  | .vstx v xb vi => decide (v < 64 ∧ xb < 32 ∧ vi < 64)
  | .vamo v xb vi fn => decide (v < 64 ∧ xb < 32 ∧ vi < 64 ∧ fn < 8)
  | .vldb4 v xb xs => decide (v < 64 ∧ xb < 32 ∧ xs < 32)
  | .vstb4 v xb xs => decide (v < 64 ∧ xb < 32 ∧ xs < 32)
  | .copy xt xd xs xn => decide (xt < 32 ∧ xd < 32 ∧ xs < 32 ∧ xn < 32)
  | .copyc pk xd xs xn => decide (pk < 32 ∧ xd < 32 ∧ xs < 32 ∧ xn < 32)
  | .copys xt xd xs xq => decide (xt < 32 ∧ xd < 32 ∧ xs < 32 ∧ xq < 32)
  | .rrot xt xd xs xn => decide (xt < 32 ∧ xd < 32 ∧ xs < 32 ∧ xn < 32)
  | .cmdb pd vs => decide (pd < 32 ∧ vs < 64)
  | .vamor v xb vi fn => decide (v < 64 ∧ xb < 32 ∧ vi < 64 ∧ fn < 8)
  | .cvy cnt guard gneg etype rm sat tb => decide (cnt < 4 ∧ guard < 32 ∧ gneg < 2 ∧ etype < 16 ∧ rm < 8 ∧ sat < 2 ∧ tb < 2)
  | .setvl xd xs => decide (xd < 32 ∧ xs < 32)
  | .setvli xd imm => decide (xd < 32 ∧ imm < 32768)
  | .setvlq xd n => decide (xd < 32 ∧ n < 4)
  | .fsv scope => decide (scope < 8)
  | .fvs scope => decide (scope < 8)
  | .fvv scope => decide (scope < 8)
  | .qsend n xs => decide (n < 8 ∧ xs < 32)
  | .qrecv xd n => decide (xd < 32 ∧ n < 8)
  | .wid xd f => decide (xd < 32 ∧ f < 32768)
  | .matt xd xs => decide (xd < 32 ∧ xs < 32)
  | .mdet => true
  | .mwait xs => decide (xs < 32)
  | .tsync => true
  | .binit xa xp => decide (xa < 32 ∧ xp < 32)
  | .barrive xa => decide (xa < 32)
  | .bexpect xa xn => decide (xa < 32 ∧ xn < 32)
  | .bwait xa => decide (xa < 32)
  | .phend xa => decide (xa < 32)
  | .monarm xd xa => decide (xd < 32 ∧ xa < 32)
  | .monwait => true
  | .spawn xd xa => decide (xd < 32 ∧ xa < 32)
  | .join xd xt => decide (xd < 32 ∧ xt < 32)
  | .xltrap n => decide (n < 32768)
  | .vsync => true
  | .remst xs xa => decide (xs < 32 ∧ xa < 32)
  | .fflags xd => decide (xd < 32)
  | .edgeUnitReceive => true
  | .flitReceive => true
  | .flitRefusal => true
  | .flitAck => true
  | .iodReady => true
  | .fnReady => true
  | .cdieReady => true
  | .anvilReady => true
  | .mlinkReady => true
  | .mgrpReady => true
  | .plinkReady => true
  | .linkTrainingLoss => true
  | .linkRetrainDone => true
  | .linkFailure => true
  | .mlinkRetrain => true
  | .plinkRetrain => true
  | .mlinkFailClear => true
  | .plinkFailClear => true
  | .reqMv => true
  | .capWrite => true
  | .voltageRampDone => true
  | .clockLockDone => true
  | .stallWindowClose => true
  | .powerLimiterInterval => true
  | .thermalHot => true
  | .thermalRelease => true
  | .thermalTrip => true
  | .powerFlagsClear => true
  | .clear => true
  | .monitorCapture => true
  | .monitorLevelSample => true
  | .stop => true
  | .run => true
  | .kill => true
  | .cmdZero => true
  | .ctxSavedFieldWrite => true
  | .contextSaved => true
  | .replayDone => true
  | .waitSatisfied => true
  | .stopAll => true
  | .runAll => true
  | .killAll => true
  | .bar0UnbackedWrite => true
  | .launchRegisterWrite => true
  | .prgResponse => true
  | .hostCompletion => true
  | .hostRequestTimeout => true
  | .hostWriteRefusal => true
  | .atsInvalidationRequest => true
  | .atsInvalidationCompletion => true
  | .msixUnmask => true
  | .coalesceWrite => true
  | .holdExpiry => true
  | .vfFlr => true
  | .pfFlr => true
  | .hotReset => true
  | .linkDown => true
  | .create => true
  | .createComplete => true
  | .destroy => true
  | .destroyComplete => true
  | .unfreeze => true
  | .wcmdZero => true
  | .lockInterfaceRequest => true
  | .startInterfaceRequest => true
  | .stopInterfaceRequest => true
  | .getDeviceInterfaceReport => true
  | .getDeviceInterfaceState => true
  | .getVersion => true
  | .getCapabilities => true
  | .negotiateAlgorithms => true
  | .getDigests => true
  | .getCertificate => true
  | .challenge => true
  | .getMeasurements => true
  | .keyExchange => true
  | .finish => true
  | .keyUpdate => true
  | .endSession => true
  | .setStreamKey => true
  | .setQuantumTable => true
  | .getQuantumTable => true
  | .ideIntegrityFailure => true
  | .inboundRemoteStore => true
  | .inboundCopyWrite => true
  | .inboundCopyRead => true
  | .plinkUnfreeze => true
  | .inworldWrite => true
  | .remoteStoreAck => true
  | .remoteStoreRefusal => true
  | .ownerWrite => true
  | .queueLockedFieldWrite => true
  | .start => true
  | .unlock => true
  | .qcmdIgnored => true
  | .tailStore => true
  | .ringerrClear => true
  | .ringPacketRead => true
  | .launch => true
  | .waitvalue => true
  | .waitvalueRetest => true
  | .writevalue => true
  | .writevaluePerformed => true
  | .checkpoint => true
  | .nop => true
  | .launchDone => true
  | .watchdogExpiry => true
  | .policyCoreRecovery => true
  | .ckptStopped => true
  | .ckptDieshardsDone => true
  | .ckptPageCopied => true
  | .ckptMemshardsDone => true
  | .ckptManifestDone => true
  | .restore => true
  | .restoreDone => true
  | .abort => true
  | .ecmdIgnored => true
  | .quantumEnd => true
  | .quantumIdleEnd => true
  | .switchStopsDone => true
  | .switchSaveDone => true
  | .switchRestoreDone => true
  | .dispatchDecision => true
  | .rotationSaveDone => true
  | .lengthMarkerTake => true
  | .writeQueueUpdate => true
  | .operationResponse => true
  | .portFaultReport => true
  | .sundogAck => true
  | .sundogSpill => true
  | .reservationHoldExpiry => true
  | .chunkComplete => true
  | .engineCopyCommand => true
  | .decryptCommand => true
  | .batchComplete => true
  | .controlWordWrite => true
  | .powerOnReset => true
  | .vectorMask => true
  | .postedStoreDropped => true
  | .illegal => true
  | .instructionFetchFault => true

/-- Every operand lies in the range of R252 and of its instruction's row: predicates below 24, scope codes 1 to 5,
queue registers used in their direction, a guard, an element type and a rounding mode that exist. -/
def Instr.inRange : Instr → Bool
  | .vadd _ _ vb sx => decide (( sx = 1 → vb < 32 ))
  | .vsub _ _ vb sx => decide (( sx = 1 → vb < 32 ))
  | .vrsub _ _ vb sx => decide (( sx = 1 → vb < 32 ))
  | .vmul _ _ vb sx => decide (( sx = 1 → vb < 32 ))
  | .vmulh _ _ vb sx => decide (( sx = 1 → vb < 32 ))
  | .vdiv _ _ vb sx => decide (( sx = 1 → vb < 32 ))
  | .vrem _ _ vb sx => decide (( sx = 1 → vb < 32 ))
  | .vmin _ _ vb sx => decide (( sx = 1 → vb < 32 ))
  | .vmax _ _ vb sx => decide (( sx = 1 → vb < 32 ))
  | .vand _ _ vb sx => decide (( sx = 1 → vb < 32 ))
  | .vor _ _ vb sx => decide (( sx = 1 → vb < 32 ))
  | .vxor _ _ vb sx => decide (( sx = 1 → vb < 32 ))
  | .vsll _ _ vb sx => decide (( sx = 1 → vb < 32 ))
  | .vsrl _ _ vb sx => decide (( sx = 1 → vb < 32 ))
  | .vsra _ _ vb sx => decide (( sx = 1 → vb < 32 ))
  | .vfma _ _ vb sx => decide (( sx = 1 → vb < 32 ))
  | .vfms _ _ vb sx => decide (( sx = 1 → vb < 32 ))
  | .vfnma _ _ vb sx => decide (( sx = 1 → vb < 32 ))
  | .vfnms _ _ vb sx => decide (( sx = 1 → vb < 32 ))
  | .vsgnj _ _ vb sx => decide (( sx = 1 → vb < 32 ))
  | .vscale _ _ vb sx => decide (( sx = 1 → vb < 32 ))
  | .vcmpeq pd _ vb sx => decide (pd < 24 ∧ ( sx = 1 → vb < 32 ))
  | .vcmpne pd _ vb sx => decide (pd < 24 ∧ ( sx = 1 → vb < 32 ))
  | .vcmplt pd _ vb sx => decide (pd < 24 ∧ ( sx = 1 → vb < 32 ))
  | .vcmple pd _ vb sx => decide (pd < 24 ∧ ( sx = 1 → vb < 32 ))
  | .vcmpgt pd _ vb sx => decide (pd < 24 ∧ ( sx = 1 → vb < 32 ))
  | .vcmpge pd _ vb sx => decide (pd < 24 ∧ ( sx = 1 → vb < 32 ))
  | .vcmpuo pd _ vb sx => decide (pd < 24 ∧ ( sx = 1 → vb < 32 ))
  | .vcvt _ _ ty => decide (ty < 14)
  | .vmerge _ _ vb sx => decide (( sx = 1 → vb < 32 ))
  | .viota _ pa => decide (pa < 24)
  | .vredsum _ _ vb sx => decide (( sx = 1 → vb < 32 ))
  | .vredmax _ _ vb sx => decide (( sx = 1 → vb < 32 ))
  | .vredmin _ _ vb sx => decide (( sx = 1 → vb < 32 ))
  | .vredand _ _ vb sx => decide (( sx = 1 → vb < 32 ))
  | .vredor _ _ vb sx => decide (( sx = 1 → vb < 32 ))
  | .vredxor _ _ vb sx => decide (( sx = 1 → vb < 32 ))
  | .vfredosum _ _ vb sx => decide (( sx = 1 → vb < 32 ))
  | .vqrecv _ n => decide (( n < 4 ∨ n = 6 ∨ n = 7 ))
  | .vqsend n _ => decide (4 ≤ n)
  | .pand pd pa pb => decide (pd < 24 ∧ pa < 24 ∧ pb < 24)
  | .por pd pa pb => decide (pd < 24 ∧ pa < 24 ∧ pb < 24)
  | .pxor pd pa pb => decide (pd < 24 ∧ pa < 24 ∧ pb < 24)
  | .pandn pd pa pb => decide (pd < 24 ∧ pa < 24 ∧ pb < 24)
  | .pnot pd pa => decide (pd < 24 ∧ pa < 24)
  | .pset pd => decide (pd < 24)
  | .pclr pd => decide (pd < 24)
  | .pfirst pd pa => decide (pd < 24 ∧ pa < 24)
  | .vpopcX _ pa => decide (pa < 24)
  | .vpopcLq _ pa => decide (pa < 24)
  | .pmovv _ pa => decide (pa < 24)
  | .vmovp pd _ => decide (pd < 24)
  | .copyc pk _ _ _ => decide (pk < 24)
  | .cmdb pd _ => decide (pd < 24)
  | .cvy _ guard _ etype rm _ _ => decide (( guard < 24 ∨ guard = 31 ) ∧ etype < 15 ∧ rm < 5)
  | .fsv scope => decide (1 ≤ scope ∧ scope ≤ 5)
  | .fvs scope => decide (1 ≤ scope ∧ scope ≤ 5)
  | .fvv scope => decide (1 ≤ scope ∧ scope ≤ 5)
  | .qsend n _ => decide (n < 4)
  | .qrecv _ n => decide (4 ≤ n ∧ n ≤ 5)
  | .wid _ f => decide (f < 7)
  | _ => true

/-- A well-formed instruction. -/
def Instr.wellFormed (i : Instr) : Bool := i.fits && i.inRange

/-- An event that can arrive: the units that it names exist (00 R11). An encoded instruction is no event. -/
def Event.fits (e : Event) : Bool :=
  match e.what with
  | .edgeUnitReceive => true
  | .flitReceive => decide (e.arg 0 < 40)
  | .flitRefusal => decide (e.arg 0 < 40)
  | .flitAck => decide (e.arg 0 < 40)
  | .iodReady => decide (e.arg 0 < 2)
  | .fnReady => decide (e.arg 0 < 129)
  | .cdieReady => decide (e.arg 0 < 8)
  | .anvilReady => decide (e.arg 0 < 80)
  | .mlinkReady => decide (e.arg 0 < 24)
  | .mgrpReady => decide (e.arg 0 < 6)
  | .plinkReady => decide (e.arg 0 < 16)
  | .linkTrainingLoss => decide (e.arg 1 < 24 ∧ (e.arg 0 = 1 → e.arg 1 < 16))
  | .linkRetrainDone => decide (e.arg 1 < 24 ∧ (e.arg 0 = 1 → e.arg 1 < 16))
  | .linkFailure => decide (e.arg 1 < 24 ∧ (e.arg 0 = 1 → e.arg 1 < 16))
  | .mlinkRetrain => decide (e.arg 0 < 24)
  | .plinkRetrain => decide (e.arg 0 < 16)
  | .mlinkFailClear => true
  | .plinkFailClear => true
  | .reqMv => decide (e.arg 0 < 80)
  | .capWrite => decide (e.arg 0 < 80)
  | .voltageRampDone => decide (e.arg 0 < 80)
  | .clockLockDone => decide (e.arg 0 < 80)
  | .stallWindowClose => decide (e.arg 0 < 80)
  | .powerLimiterInterval => true
  | .thermalHot => decide (e.arg 0 < 80)
  | .thermalRelease => decide (e.arg 0 < 80)
  | .thermalTrip => true
  | .powerFlagsClear => decide (e.arg 0 < 80)
  | .clear => decide (e.arg 0 < 168)
  | .monitorCapture => decide (e.arg 0 < 168)
  | .monitorLevelSample => decide (e.arg 0 < 168)
  | .stop => decide (e.arg 0 < 129 ∧ e.arg 1 < 16384)
  | .run => decide (e.arg 0 < 129 ∧ e.arg 1 < 16384)
  | .kill => decide (e.arg 0 < 129 ∧ e.arg 1 < 16384)
  | .cmdZero => decide (e.arg 0 < 129 ∧ e.arg 1 < 16384)
  | .ctxSavedFieldWrite => decide (e.arg 0 < 129 ∧ e.arg 1 < 16384)
  | .contextSaved => decide (e.arg 0 < 129 ∧ e.arg 1 < 16384)
  | .replayDone => decide (e.arg 0 < 129 ∧ e.arg 1 < 16384)
  | .waitSatisfied => decide (e.arg 0 < 129 ∧ e.arg 1 < 16384)
  | .stopAll => decide (e.arg 0 < 129 ∧ e.arg 1 < 1024)
  | .runAll => decide (e.arg 0 < 129 ∧ e.arg 1 < 1024)
  | .killAll => decide (e.arg 0 < 129 ∧ e.arg 1 < 1024)
  | .bar0UnbackedWrite => decide (e.arg 0 < 129)
  | .launchRegisterWrite => decide (e.arg 0 < 129)
  | .prgResponse => true
  | .hostCompletion => true
  | .hostRequestTimeout => true
  | .hostWriteRefusal => decide (e.arg 0 < 129)
  | .atsInvalidationRequest => decide (e.arg 0 < 129)
  | .atsInvalidationCompletion => decide (e.arg 0 < 129)
  | .msixUnmask => decide (e.arg 0 < 129 ∧ e.arg 1 < 2048)
  | .coalesceWrite => decide (e.arg 0 < 129 ∧ e.arg 1 < 2048)
  | .holdExpiry => decide (e.arg 0 < 129 ∧ e.arg 1 < 2048)
  | .vfFlr => decide (e.arg 0 < 129)
  | .pfFlr => decide (e.arg 0 < 2)
  | .hotReset => decide (e.arg 0 < 2)
  | .linkDown => decide (e.arg 0 < 2)
  | .create => decide (e.arg 0 < 129 ∧ e.arg 1 < 129)
  | .createComplete => decide (e.arg 0 < 129)
  | .destroy => decide (e.arg 0 < 129 ∧ e.arg 1 < 129)
  | .destroyComplete => decide (e.arg 0 < 129)
  | .unfreeze => decide (e.arg 0 < 129 ∧ e.arg 1 < 129)
  | .wcmdZero => decide (e.arg 0 < 129 ∧ e.arg 1 < 129)
  | .lockInterfaceRequest => decide (e.arg 0 < 129 ∧ e.arg 2 < 32768)
  | .startInterfaceRequest => decide (e.arg 0 < 129 ∧ e.arg 2 < 32768)
  | .stopInterfaceRequest => decide (e.arg 0 < 129 ∧ e.arg 2 < 32768)
  | .getDeviceInterfaceReport => decide (e.arg 0 < 129 ∧ e.arg 2 < 32768)
  | .getDeviceInterfaceState => decide (e.arg 0 < 129 ∧ e.arg 2 < 32768)
  | .getVersion => decide (e.arg 0 < 129)
  | .getCapabilities => decide (e.arg 0 < 129)
  | .negotiateAlgorithms => decide (e.arg 0 < 129)
  | .getDigests => decide (e.arg 0 < 129)
  | .getCertificate => decide (e.arg 0 < 129)
  | .challenge => decide (e.arg 0 < 129)
  | .getMeasurements => decide (e.arg 0 < 129)
  | .keyExchange => decide (e.arg 0 < 129)
  | .finish => decide (e.arg 0 < 129)
  | .keyUpdate => decide (e.arg 0 < 129)
  | .endSession => decide (e.arg 0 < 129)
  | .setStreamKey => decide (e.arg 0 < 129)
  | .setQuantumTable => decide (e.arg 0 < 129)
  | .getQuantumTable => decide (e.arg 0 < 129)
  | .ideIntegrityFailure => decide (e.arg 0 < 129)
  | .inboundRemoteStore => decide (e.arg 0 < 16)
  | .inboundCopyWrite => decide (e.arg 0 < 16)
  | .inboundCopyRead => decide (e.arg 0 < 16)
  | .plinkUnfreeze => decide (e.arg 0 < 16)
  | .inworldWrite => decide (e.arg 0 < 16)
  | .remoteStoreAck => decide (e.arg 0 < 16)
  | .remoteStoreRefusal => decide (e.arg 0 < 16)
  | .ownerWrite => decide (e.arg 0 < 32768 ∧ e.arg 2 < 129)
  | .queueLockedFieldWrite => decide (e.arg 0 < 32768 ∧ e.arg 3 < 129)
  | .start => decide (e.arg 0 < 32768 ∧ e.arg 1 < 129)
  | .unlock => decide (e.arg 0 < 32768 ∧ e.arg 1 < 129)
  | .qcmdIgnored => decide (e.arg 0 < 32768 ∧ e.arg 2 < 129)
  | .tailStore => decide (e.arg 0 < 32768 ∧ e.arg 2 < 129)
  | .ringerrClear => decide (e.arg 0 < 32768 ∧ e.arg 1 < 129)
  | .ringPacketRead => decide (e.arg 0 < 32768)
  | .launch => decide (e.arg 0 < 32768)
  | .waitvalue => decide (e.arg 0 < 32768)
  | .waitvalueRetest => decide (e.arg 0 < 32768)
  | .writevalue => decide (e.arg 0 < 32768)
  | .writevaluePerformed => decide (e.arg 0 < 32768)
  | .checkpoint => decide (e.arg 0 < 32768)
  | .nop => decide (e.arg 0 < 32768)
  | .launchDone => decide (e.arg 0 < 129 ∧ e.arg 1 < 1024)
  | .watchdogExpiry => true
  | .policyCoreRecovery => true
  | .ckptStopped => true
  | .ckptDieshardsDone => true
  | .ckptPageCopied => true
  | .ckptMemshardsDone => true
  | .ckptManifestDone => true
  | .restore => decide (e.arg 0 < 129)
  | .restoreDone => true
  | .abort => decide (e.arg 0 < 129)
  | .ecmdIgnored => decide (e.arg 1 < 129)
  | .quantumEnd => true
  | .quantumIdleEnd => true
  | .switchStopsDone => true
  | .switchSaveDone => true
  | .switchRestoreDone => true
  | .dispatchDecision => true
  | .rotationSaveDone => decide (e.arg 0 < 129)
  | .lengthMarkerTake => decide (e.arg 0 < 129 ∧ e.arg 1 < 16384)
  | .writeQueueUpdate => decide (e.arg 0 < 129 ∧ e.arg 1 < 16384)
  | .operationResponse => decide (e.arg 0 < 129 ∧ e.arg 1 < 16384)
  | .portFaultReport => decide (e.arg 0 < 129 ∧ e.arg 1 < 16384)
  | .sundogAck => true
  | .sundogSpill => true
  | .reservationHoldExpiry => decide (e.arg 0 < 129 ∧ e.arg 1 < 16384)
  | .chunkComplete => decide (e.arg 0 < 129 ∧ e.arg 1 < 16384)
  | .engineCopyCommand => decide (e.arg 0 < 129 ∧ e.arg 1 < 16384)
  | .decryptCommand => decide (e.arg 0 < 129 ∧ e.arg 1 < 16384)
  | .batchComplete => decide (e.arg 0 < 129 ∧ e.arg 1 < 16384)
  | .controlWordWrite => decide (e.arg 0 < 129)
  | .powerOnReset => true
  | .vectorMask => decide (e.arg 0 < 129 ∧ e.arg 1 < 2048)
  | .postedStoreDropped => decide (e.arg 0 < 24)
  | .illegal => true
  | .instructionFetchFault => true
  | _ => false

end Sys2Proof
end

