-- ==== Sys2Proof/Decode.lean ====
section
/-!
DEFINITION. The decoder and the encoder, written from the encoding tables of 13 (R249 to R266), 15 (R286 to R292) and
spec/opcode_table.json. The decoder is total; it refuses by name. An operand that fits its field and lies outside its
range (R252) is decoded, and the instruction's legality check makes it ILLEGAL where the spec says so.
-/

namespace Sys2Proof

/-- Why bytes are no instruction (13 R250, R251, R265). -/
inductive Reject where
  /-- Fewer than four bytes. -/
  | truncated
  /-- Bits [1:0] are not 0b11: there are no 16-bit instructions (R251). -/
  | narrow
  /-- A prefix of 48-bit and longer encodings (R250). -/
  | longPrefix
  /-- A major that holds no instruction (R250). -/
  | noMajor
  /-- A function code that no row has (R265). -/
  | unallocated
  /-- A field that must be zero, or must hold the row's value, does not (R7, R265). -/
  | reserved
  deriving DecidableEq, Repr

/-- The n bits of w from bit lo upward. -/
def fld (w lo n : Nat) : Nat := w / 2 ^ lo % 2 ^ n

/-- Words of major 0x03. -/
def decodeLoad (w : Nat) : Except Reject Instr :=
  match fld w 12 3 with
  | 0 =>
    .ok (.lb (fld w 7 5) (fld w 15 5) (fld w 20 12))
  | 1 =>
    .ok (.lh (fld w 7 5) (fld w 15 5) (fld w 20 12))
  | 2 =>
    .ok (.lw (fld w 7 5) (fld w 15 5) (fld w 20 12))
  | 3 =>
    .ok (.ld (fld w 7 5) (fld w 15 5) (fld w 20 12))
  | 4 =>
    .ok (.lbu (fld w 7 5) (fld w 15 5) (fld w 20 12))
  | 5 =>
    .ok (.lhu (fld w 7 5) (fld w 15 5) (fld w 20 12))
  | 6 =>
    .ok (.lwu (fld w 7 5) (fld w 15 5) (fld w 20 12))
  | _ => .error .unallocated

/-- Words of major 0x0B. -/
def decodeVa (w : Nat) : Except Reject Instr :=
  match fld w 26 6 with
  | 0 =>
    .ok (.vadd (fld w 7 6) (fld w 19 6) (fld w 13 6) (fld w 25 1))
  | 1 =>
    .ok (.vsub (fld w 7 6) (fld w 19 6) (fld w 13 6) (fld w 25 1))
  | 2 =>
    .ok (.vrsub (fld w 7 6) (fld w 19 6) (fld w 13 6) (fld w 25 1))
  | 3 =>
    .ok (.vmul (fld w 7 6) (fld w 19 6) (fld w 13 6) (fld w 25 1))
  | 4 =>
    .ok (.vmulh (fld w 7 6) (fld w 19 6) (fld w 13 6) (fld w 25 1))
  | 5 =>
    .ok (.vdiv (fld w 7 6) (fld w 19 6) (fld w 13 6) (fld w 25 1))
  | 6 =>
    .ok (.vrem (fld w 7 6) (fld w 19 6) (fld w 13 6) (fld w 25 1))
  | 7 =>
    .ok (.vmin (fld w 7 6) (fld w 19 6) (fld w 13 6) (fld w 25 1))
  | 8 =>
    .ok (.vmax (fld w 7 6) (fld w 19 6) (fld w 13 6) (fld w 25 1))
  | 9 =>
    .ok (.vand (fld w 7 6) (fld w 19 6) (fld w 13 6) (fld w 25 1))
  | 10 =>
    .ok (.vor (fld w 7 6) (fld w 19 6) (fld w 13 6) (fld w 25 1))
  | 11 =>
    .ok (.vxor (fld w 7 6) (fld w 19 6) (fld w 13 6) (fld w 25 1))
  | 12 =>
    .ok (.vsll (fld w 7 6) (fld w 19 6) (fld w 13 6) (fld w 25 1))
  | 13 =>
    .ok (.vsrl (fld w 7 6) (fld w 19 6) (fld w 13 6) (fld w 25 1))
  | 14 =>
    .ok (.vsra (fld w 7 6) (fld w 19 6) (fld w 13 6) (fld w 25 1))
  | 15 =>
    if fld w 13 6 = 0 ∧ fld w 25 1 = 0 then .ok (.vabs (fld w 7 6) (fld w 19 6)) else
    .error .reserved
  | 16 =>
    .ok (.vfma (fld w 7 6) (fld w 19 6) (fld w 13 6) (fld w 25 1))
  | 17 =>
    .ok (.vfms (fld w 7 6) (fld w 19 6) (fld w 13 6) (fld w 25 1))
  | 18 =>
    .ok (.vfnma (fld w 7 6) (fld w 19 6) (fld w 13 6) (fld w 25 1))
  | 19 =>
    .ok (.vfnms (fld w 7 6) (fld w 19 6) (fld w 13 6) (fld w 25 1))
  | 20 =>
    if fld w 13 6 = 0 ∧ fld w 25 1 = 0 then .ok (.vsqrt (fld w 7 6) (fld w 19 6)) else
    .error .reserved
  | 21 =>
    if fld w 13 6 = 0 ∧ fld w 25 1 = 0 then .ok (.vneg (fld w 7 6) (fld w 19 6)) else
    .error .reserved
  | 22 =>
    .ok (.vsgnj (fld w 7 6) (fld w 19 6) (fld w 13 6) (fld w 25 1))
  | 23 =>
    .ok (.vscale (fld w 7 6) (fld w 19 6) (fld w 13 6) (fld w 25 1))
  | 24 =>
    if fld w 12 1 = 0 then .ok (.vcmpeq (fld w 7 5) (fld w 19 6) (fld w 13 6) (fld w 25 1)) else
    .error .reserved
  | 25 =>
    if fld w 12 1 = 0 then .ok (.vcmpne (fld w 7 5) (fld w 19 6) (fld w 13 6) (fld w 25 1)) else
    .error .reserved
  | 26 =>
    if fld w 12 1 = 0 then .ok (.vcmplt (fld w 7 5) (fld w 19 6) (fld w 13 6) (fld w 25 1)) else
    .error .reserved
  | 27 =>
    if fld w 12 1 = 0 then .ok (.vcmple (fld w 7 5) (fld w 19 6) (fld w 13 6) (fld w 25 1)) else
    .error .reserved
  | 28 =>
    if fld w 12 1 = 0 then .ok (.vcmpgt (fld w 7 5) (fld w 19 6) (fld w 13 6) (fld w 25 1)) else
    .error .reserved
  | 29 =>
    if fld w 12 1 = 0 then .ok (.vcmpge (fld w 7 5) (fld w 19 6) (fld w 13 6) (fld w 25 1)) else
    .error .reserved
  | 30 =>
    if fld w 12 1 = 0 then .ok (.vcmpuo (fld w 7 5) (fld w 19 6) (fld w 13 6) (fld w 25 1)) else
    .error .reserved
  | 31 =>
    if fld w 13 6 = 0 ∧ fld w 25 1 = 0 then .ok (.vclass (fld w 7 6) (fld w 19 6)) else
    .error .reserved
  | 32 =>
    if fld w 17 2 = 0 ∧ fld w 25 1 = 0 then .ok (.vcvt (fld w 7 6) (fld w 19 6) (fld w 13 4)) else
    .error .reserved
  | 33 =>
    if fld w 13 6 = 0 ∧ fld w 25 1 = 0 then .ok (.vmvV (fld w 7 6) (fld w 19 6)) else
    if fld w 18 8 = 128 then .ok (.vmvX (fld w 7 6) (fld w 13 5)) else
    .error .reserved
  | 34 =>
    .ok (.vmerge (fld w 7 6) (fld w 19 6) (fld w 13 6) (fld w 25 1))
  | 35 =>
    if fld w 13 13 = 0 then .ok (.vid (fld w 7 6)) else
    .error .reserved
  | 36 =>
    if fld w 13 6 = 0 ∧ fld w 24 2 = 0 then .ok (.viota (fld w 7 6) (fld w 19 5)) else
    .error .reserved
  | 37 =>
    if fld w 13 6 = 0 ∧ fld w 25 1 = 0 then .ok (.vcompress (fld w 7 6) (fld w 19 6)) else
    .error .reserved
  | 38 =>
    if fld w 18 1 = 0 ∧ fld w 25 1 = 1 then .ok (.vslideup (fld w 7 6) (fld w 19 6) (fld w 13 5)) else
    .error .reserved
  | 39 =>
    if fld w 18 1 = 0 ∧ fld w 25 1 = 1 then .ok (.vslidedn (fld w 7 6) (fld w 19 6) (fld w 13 5)) else
    .error .reserved
  | 40 =>
    if fld w 25 1 = 0 then .ok (.vperm (fld w 7 6) (fld w 19 6) (fld w 13 6)) else
    .error .reserved
  | 41 =>
    if fld w 18 1 = 0 ∧ fld w 25 1 = 1 then .ok (.vxchg (fld w 7 6) (fld w 19 6) (fld w 13 5)) else
    .error .reserved
  | 42 =>
    .ok (.vredsum (fld w 7 6) (fld w 19 6) (fld w 13 6) (fld w 25 1))
  | 43 =>
    .ok (.vredmax (fld w 7 6) (fld w 19 6) (fld w 13 6) (fld w 25 1))
  | 44 =>
    .ok (.vredmin (fld w 7 6) (fld w 19 6) (fld w 13 6) (fld w 25 1))
  | 45 =>
    .ok (.vredand (fld w 7 6) (fld w 19 6) (fld w 13 6) (fld w 25 1))
  | 46 =>
    .ok (.vredor (fld w 7 6) (fld w 19 6) (fld w 13 6) (fld w 25 1))
  | 47 =>
    .ok (.vredxor (fld w 7 6) (fld w 19 6) (fld w 13 6) (fld w 25 1))
  | 48 =>
    .ok (.vfredosum (fld w 7 6) (fld w 19 6) (fld w 13 6) (fld w 25 1))
  | 49 =>
    if fld w 12 1 = 0 ∧ fld w 18 1 = 0 ∧ fld w 25 1 = 1 then .ok (.vext (fld w 7 5) (fld w 19 6) (fld w 13 5)) else
    .error .reserved
  | 50 =>
    if fld w 18 1 = 0 ∧ fld w 24 2 = 2 then .ok (.vins (fld w 7 6) (fld w 19 5) (fld w 13 5)) else
    .error .reserved
  | 51 =>
    if fld w 13 6 = 0 ∧ fld w 25 1 = 0 then .ok (.vclz (fld w 7 6) (fld w 19 6)) else
    .error .reserved
  | 52 =>
    if fld w 13 6 = 0 ∧ fld w 25 1 = 0 then .ok (.vpopcnt (fld w 7 6) (fld w 19 6)) else
    .error .reserved
  | 53 =>
    if fld w 16 10 = 0 then .ok (.vqrecv (fld w 7 6) (fld w 13 3)) else
    .error .reserved
  | 54 =>
    if fld w 10 9 = 0 ∧ fld w 25 1 = 0 then .ok (.vqsend (fld w 7 3) (fld w 19 6)) else
    .error .reserved
  | _ => .error .unallocated

/-- Words of major 0x0F. -/
def decodeMiscMem (w : Nat) : Except Reject Instr :=
  match fld w 12 3 with
  | 0 =>
    if fld w 7 5 = 0 ∧ fld w 15 5 = 0 ∧ fld w 28 4 = 0 then .ok (.fence (fld w 24 4) (fld w 20 4)) else
    if fld w 7 5 = 0 ∧ fld w 15 17 = 67168 then .ok (.fenceTso) else
    .error .reserved
  | 1 =>
    if fld w 7 5 = 0 ∧ fld w 15 17 = 0 then .ok (.fenceI) else
    .error .reserved
  | _ => .error .unallocated

/-- Words of major 0x13. -/
def decodeOpImm (w : Nat) : Except Reject Instr :=
  match fld w 12 3 with
  | 0 =>
    .ok (.addi (fld w 7 5) (fld w 15 5) (fld w 20 12))
  | 1 =>
    if fld w 26 6 = 0 then .ok (.slli (fld w 7 5) (fld w 15 5) (fld w 20 6)) else
    .error .reserved
  | 2 =>
    .ok (.slti (fld w 7 5) (fld w 15 5) (fld w 20 12))
  | 3 =>
    .ok (.sltiu (fld w 7 5) (fld w 15 5) (fld w 20 12))
  | 4 =>
    .ok (.xori (fld w 7 5) (fld w 15 5) (fld w 20 12))
  | 5 =>
    if fld w 26 6 = 0 then .ok (.srli (fld w 7 5) (fld w 15 5) (fld w 20 6)) else
    if fld w 26 6 = 16 then .ok (.srai (fld w 7 5) (fld w 15 5) (fld w 20 6)) else
    .error .reserved
  | 6 =>
    .ok (.ori (fld w 7 5) (fld w 15 5) (fld w 20 12))
  | 7 =>
    .ok (.andi (fld w 7 5) (fld w 15 5) (fld w 20 12))
  | _ => .error .unallocated

/-- Words of major 0x17. -/
def decodeAuipc (w : Nat) : Except Reject Instr :=
  .ok (.auipc (fld w 7 5) (fld w 12 20))

/-- Words of major 0x1B. -/
def decodeOpImm32 (w : Nat) : Except Reject Instr :=
  match fld w 12 3 with
  | 0 =>
    .ok (.addiw (fld w 7 5) (fld w 15 5) (fld w 20 12))
  | 1 =>
    if fld w 25 7 = 0 then .ok (.slliw (fld w 7 5) (fld w 15 5) (fld w 20 5)) else
    .error .reserved
  | 5 =>
    if fld w 25 7 = 0 then .ok (.srliw (fld w 7 5) (fld w 15 5) (fld w 20 5)) else
    if fld w 25 7 = 32 then .ok (.sraiw (fld w 7 5) (fld w 15 5) (fld w 20 5)) else
    .error .reserved
  | _ => .error .unallocated

/-- Words of major 0x23. -/
def decodeStore (w : Nat) : Except Reject Instr :=
  match fld w 12 3 with
  | 0 =>
    .ok (.sb (fld w 20 5) (fld w 15 5) (fld w 25 7 * 32 + fld w 7 5))
  | 1 =>
    .ok (.sh (fld w 20 5) (fld w 15 5) (fld w 25 7 * 32 + fld w 7 5))
  | 2 =>
    .ok (.sw (fld w 20 5) (fld w 15 5) (fld w 25 7 * 32 + fld w 7 5))
  | 3 =>
    .ok (.sd (fld w 20 5) (fld w 15 5) (fld w 25 7 * 32 + fld w 7 5))
  | _ => .error .unallocated

/-- Words of major 0x2B. -/
def decodeVm (w : Nat) : Except Reject Instr :=
  match fld w 27 5 with
  | 0 =>
    if fld w 7 3 = 0 ∧ fld w 15 6 = 0 then .ok (.vld (fld w 21 6) (fld w 10 5)) else
    .error .reserved
  | 1 =>
    if fld w 7 3 = 0 ∧ fld w 20 1 = 0 then .ok (.vlds (fld w 21 6) (fld w 10 5) (fld w 15 5)) else
    .error .reserved
  | 2 =>
    if fld w 7 3 = 0 then .ok (.vldx (fld w 21 6) (fld w 10 5) (fld w 15 6)) else
    .error .reserved
  | 3 =>
    if fld w 7 3 = 0 ∧ fld w 15 6 = 0 then .ok (.vst (fld w 21 6) (fld w 10 5)) else
    .error .reserved
  | 4 =>
    if fld w 7 3 = 0 ∧ fld w 20 1 = 0 then .ok (.vsts (fld w 21 6) (fld w 10 5) (fld w 15 5)) else
    .error .reserved
  | 5 =>
    if fld w 7 3 = 0 then .ok (.vstx (fld w 21 6) (fld w 10 5) (fld w 15 6)) else
    .error .reserved
  | 6 =>
    .ok (.vamo (fld w 21 6) (fld w 10 5) (fld w 15 6) (fld w 7 3))
  | 7 =>
    if fld w 7 3 = 0 ∧ fld w 20 1 = 0 then .ok (.vldb4 (fld w 21 6) (fld w 10 5) (fld w 15 5)) else
    .error .reserved
  | 8 =>
    if fld w 7 3 = 0 ∧ fld w 20 1 = 0 then .ok (.vstb4 (fld w 21 6) (fld w 10 5) (fld w 15 5)) else
    .error .reserved
  | 9 =>
    .ok (.copy (fld w 7 5) (fld w 12 5) (fld w 17 5) (fld w 22 5))
  | 10 =>
    .ok (.copyc (fld w 7 5) (fld w 12 5) (fld w 17 5) (fld w 22 5))
  | 11 =>
    .ok (.copys (fld w 7 5) (fld w 12 5) (fld w 17 5) (fld w 22 5))
  | 12 =>
    .ok (.rrot (fld w 7 5) (fld w 12 5) (fld w 17 5) (fld w 22 5))
  | 13 =>
    if fld w 7 8 = 0 ∧ fld w 26 1 = 0 then .ok (.cmdb (fld w 21 5) (fld w 15 6)) else
    .error .reserved
  | 14 =>
    .ok (.vamor (fld w 21 6) (fld w 10 5) (fld w 15 6) (fld w 7 3))
  | _ => .error .unallocated

/-- Words of major 0x2F. -/
def decodeAmo (w : Nat) : Except Reject Instr :=
  match fld w 12 3 with
  | 2 =>
    if fld w 20 5 = 0 ∧ fld w 27 5 = 2 then .ok (.lrW (fld w 7 5) (fld w 15 5) (fld w 26 1) (fld w 25 1)) else
    if fld w 27 5 = 3 then .ok (.scW (fld w 7 5) (fld w 15 5) (fld w 20 5) (fld w 26 1) (fld w 25 1)) else
    if fld w 27 5 = 1 then .ok (.amoswapW (fld w 7 5) (fld w 15 5) (fld w 20 5) (fld w 26 1) (fld w 25 1)) else
    if fld w 27 5 = 0 then .ok (.amoaddW (fld w 7 5) (fld w 15 5) (fld w 20 5) (fld w 26 1) (fld w 25 1)) else
    if fld w 27 5 = 4 then .ok (.amoxorW (fld w 7 5) (fld w 15 5) (fld w 20 5) (fld w 26 1) (fld w 25 1)) else
    if fld w 27 5 = 12 then .ok (.amoandW (fld w 7 5) (fld w 15 5) (fld w 20 5) (fld w 26 1) (fld w 25 1)) else
    if fld w 27 5 = 8 then .ok (.amoorW (fld w 7 5) (fld w 15 5) (fld w 20 5) (fld w 26 1) (fld w 25 1)) else
    if fld w 27 5 = 16 then .ok (.amominW (fld w 7 5) (fld w 15 5) (fld w 20 5) (fld w 26 1) (fld w 25 1)) else
    if fld w 27 5 = 20 then .ok (.amomaxW (fld w 7 5) (fld w 15 5) (fld w 20 5) (fld w 26 1) (fld w 25 1)) else
    if fld w 27 5 = 24 then .ok (.amominuW (fld w 7 5) (fld w 15 5) (fld w 20 5) (fld w 26 1) (fld w 25 1)) else
    if fld w 27 5 = 28 then .ok (.amomaxuW (fld w 7 5) (fld w 15 5) (fld w 20 5) (fld w 26 1) (fld w 25 1)) else
    .error .reserved
  | 3 =>
    if fld w 20 5 = 0 ∧ fld w 27 5 = 2 then .ok (.lrD (fld w 7 5) (fld w 15 5) (fld w 26 1) (fld w 25 1)) else
    if fld w 27 5 = 3 then .ok (.scD (fld w 7 5) (fld w 15 5) (fld w 20 5) (fld w 26 1) (fld w 25 1)) else
    if fld w 27 5 = 1 then .ok (.amoswapD (fld w 7 5) (fld w 15 5) (fld w 20 5) (fld w 26 1) (fld w 25 1)) else
    if fld w 27 5 = 0 then .ok (.amoaddD (fld w 7 5) (fld w 15 5) (fld w 20 5) (fld w 26 1) (fld w 25 1)) else
    if fld w 27 5 = 4 then .ok (.amoxorD (fld w 7 5) (fld w 15 5) (fld w 20 5) (fld w 26 1) (fld w 25 1)) else
    if fld w 27 5 = 12 then .ok (.amoandD (fld w 7 5) (fld w 15 5) (fld w 20 5) (fld w 26 1) (fld w 25 1)) else
    if fld w 27 5 = 8 then .ok (.amoorD (fld w 7 5) (fld w 15 5) (fld w 20 5) (fld w 26 1) (fld w 25 1)) else
    if fld w 27 5 = 16 then .ok (.amominD (fld w 7 5) (fld w 15 5) (fld w 20 5) (fld w 26 1) (fld w 25 1)) else
    if fld w 27 5 = 20 then .ok (.amomaxD (fld w 7 5) (fld w 15 5) (fld w 20 5) (fld w 26 1) (fld w 25 1)) else
    if fld w 27 5 = 24 then .ok (.amominuD (fld w 7 5) (fld w 15 5) (fld w 20 5) (fld w 26 1) (fld w 25 1)) else
    if fld w 27 5 = 28 then .ok (.amomaxuD (fld w 7 5) (fld w 15 5) (fld w 20 5) (fld w 26 1) (fld w 25 1)) else
    .error .reserved
  | _ => .error .unallocated

/-- Words of major 0x33. -/
def decodeOp (w : Nat) : Except Reject Instr :=
  match fld w 12 3 with
  | 0 =>
    if fld w 25 7 = 0 then .ok (.add (fld w 7 5) (fld w 15 5) (fld w 20 5)) else
    if fld w 25 7 = 32 then .ok (.sub (fld w 7 5) (fld w 15 5) (fld w 20 5)) else
    if fld w 25 7 = 1 then .ok (.mul (fld w 7 5) (fld w 15 5) (fld w 20 5)) else
    .error .reserved
  | 1 =>
    if fld w 25 7 = 0 then .ok (.sll (fld w 7 5) (fld w 15 5) (fld w 20 5)) else
    if fld w 25 7 = 1 then .ok (.mulh (fld w 7 5) (fld w 15 5) (fld w 20 5)) else
    .error .reserved
  | 2 =>
    if fld w 25 7 = 0 then .ok (.slt (fld w 7 5) (fld w 15 5) (fld w 20 5)) else
    if fld w 25 7 = 1 then .ok (.mulhsu (fld w 7 5) (fld w 15 5) (fld w 20 5)) else
    .error .reserved
  | 3 =>
    if fld w 25 7 = 0 then .ok (.sltu (fld w 7 5) (fld w 15 5) (fld w 20 5)) else
    if fld w 25 7 = 1 then .ok (.mulhu (fld w 7 5) (fld w 15 5) (fld w 20 5)) else
    .error .reserved
  | 4 =>
    if fld w 25 7 = 0 then .ok (.xor (fld w 7 5) (fld w 15 5) (fld w 20 5)) else
    if fld w 25 7 = 1 then .ok (.div (fld w 7 5) (fld w 15 5) (fld w 20 5)) else
    .error .reserved
  | 5 =>
    if fld w 25 7 = 0 then .ok (.srl (fld w 7 5) (fld w 15 5) (fld w 20 5)) else
    if fld w 25 7 = 32 then .ok (.sra (fld w 7 5) (fld w 15 5) (fld w 20 5)) else
    if fld w 25 7 = 1 then .ok (.divu (fld w 7 5) (fld w 15 5) (fld w 20 5)) else
    .error .reserved
  | 6 =>
    if fld w 25 7 = 0 then .ok (.or (fld w 7 5) (fld w 15 5) (fld w 20 5)) else
    if fld w 25 7 = 1 then .ok (.rem (fld w 7 5) (fld w 15 5) (fld w 20 5)) else
    .error .reserved
  | 7 =>
    if fld w 25 7 = 0 then .ok (.and (fld w 7 5) (fld w 15 5) (fld w 20 5)) else
    if fld w 25 7 = 1 then .ok (.remu (fld w 7 5) (fld w 15 5) (fld w 20 5)) else
    .error .reserved
  | _ => .error .unallocated

/-- Words of major 0x37. -/
def decodeLui (w : Nat) : Except Reject Instr :=
  .ok (.lui (fld w 7 5) (fld w 12 20))

/-- Words of major 0x3B. -/
def decodeOp32 (w : Nat) : Except Reject Instr :=
  match fld w 12 3 with
  | 0 =>
    if fld w 25 7 = 0 then .ok (.addw (fld w 7 5) (fld w 15 5) (fld w 20 5)) else
    if fld w 25 7 = 32 then .ok (.subw (fld w 7 5) (fld w 15 5) (fld w 20 5)) else
    if fld w 25 7 = 1 then .ok (.mulw (fld w 7 5) (fld w 15 5) (fld w 20 5)) else
    .error .reserved
  | 1 =>
    if fld w 25 7 = 0 then .ok (.sllw (fld w 7 5) (fld w 15 5) (fld w 20 5)) else
    .error .reserved
  | 4 =>
    if fld w 25 7 = 1 then .ok (.divw (fld w 7 5) (fld w 15 5) (fld w 20 5)) else
    .error .reserved
  | 5 =>
    if fld w 25 7 = 0 then .ok (.srlw (fld w 7 5) (fld w 15 5) (fld w 20 5)) else
    if fld w 25 7 = 32 then .ok (.sraw (fld w 7 5) (fld w 15 5) (fld w 20 5)) else
    if fld w 25 7 = 1 then .ok (.divuw (fld w 7 5) (fld w 15 5) (fld w 20 5)) else
    .error .reserved
  | 6 =>
    if fld w 25 7 = 1 then .ok (.remw (fld w 7 5) (fld w 15 5) (fld w 20 5)) else
    .error .reserved
  | 7 =>
    if fld w 25 7 = 1 then .ok (.remuw (fld w 7 5) (fld w 15 5) (fld w 20 5)) else
    .error .reserved
  | _ => .error .unallocated

/-- Words of major 0x5B. -/
def decodeVx (w : Nat) : Except Reject Instr :=
  match fld w 27 5 with
  | 0 =>
    if fld w 7 5 = 0 then .ok (.pand (fld w 22 5) (fld w 17 5) (fld w 12 5)) else
    .error .reserved
  | 1 =>
    if fld w 7 5 = 0 then .ok (.por (fld w 22 5) (fld w 17 5) (fld w 12 5)) else
    .error .reserved
  | 2 =>
    if fld w 7 5 = 0 then .ok (.pxor (fld w 22 5) (fld w 17 5) (fld w 12 5)) else
    .error .reserved
  | 3 =>
    if fld w 7 5 = 0 then .ok (.pandn (fld w 22 5) (fld w 17 5) (fld w 12 5)) else
    .error .reserved
  | 4 =>
    if fld w 7 10 = 0 then .ok (.pnot (fld w 22 5) (fld w 17 5)) else
    .error .reserved
  | 5 =>
    if fld w 7 15 = 0 then .ok (.pset (fld w 22 5)) else
    .error .reserved
  | 6 =>
    if fld w 7 15 = 0 then .ok (.pclr (fld w 22 5)) else
    .error .reserved
  | 7 =>
    if fld w 7 10 = 0 then .ok (.pfirst (fld w 22 5) (fld w 17 5)) else
    .error .reserved
  | 8 =>
    if fld w 12 5 = 0 ∧ fld w 22 5 = 0 then .ok (.vpopcX (fld w 7 5) (fld w 17 5)) else
    if fld w 7 10 = 0 ∧ fld w 24 3 = 4 then .ok (.vpopcLq (fld w 22 2) (fld w 17 5)) else
    .error .reserved
  | 9 =>
    if fld w 7 8 = 0 ∧ fld w 20 1 = 0 then .ok (.pmovv (fld w 21 6) (fld w 15 5)) else
    .error .reserved
  | 10 =>
    if fld w 7 8 = 0 ∧ fld w 26 1 = 0 then .ok (.vmovp (fld w 21 5) (fld w 15 6)) else
    .error .reserved
  | 11 =>
    if fld w 7 8 = 0 then .ok (.vqnt4 (fld w 21 6) (fld w 15 6)) else
    .error .reserved
  | 12 =>
    if fld w 7 8 = 0 then .ok (.vdq4 (fld w 21 6) (fld w 15 6)) else
    .error .reserved
  | 13 =>
    if fld w 7 8 = 0 ∧ fld w 25 2 = 0 then .ok (.mldb (fld w 20 5) (fld w 15 5)) else
    .error .reserved
  | 14 =>
    if fld w 7 8 = 0 then .ok (.mstep (fld w 25 2) (fld w 20 5) (fld w 15 5)) else
    .error .reserved
  | 15 =>
    if fld w 7 8 = 0 then .ok (.mstepr (fld w 25 2) (fld w 20 5) (fld w 15 5)) else
    .error .reserved
  | 16 =>
    if fld w 7 18 = 0 then .ok (.mzero (fld w 25 2)) else
    .error .reserved
  | 17 =>
    if fld w 7 8 = 0 then .ok (.mrd (fld w 25 2) (fld w 20 5) (fld w 15 5)) else
    .error .reserved
  | 18 =>
    if fld w 7 8 = 0 then .ok (.mwr (fld w 25 2) (fld w 20 5) (fld w 15 5)) else
    .error .reserved
  | 19 =>
    if fld w 7 13 = 0 ∧ fld w 25 2 = 0 then .ok (.mcommit (fld w 20 5)) else
    .error .reserved
  | 20 =>
    if fld w 7 8 = 0 then .ok (.gor2 (fld w 21 6) (fld w 15 6)) else
    .error .reserved
  | 21 =>
    if fld w 7 8 = 0 then .ok (.gor3 (fld w 21 6) (fld w 15 6)) else
    .error .reserved
  | 22 =>
    if fld w 7 8 = 0 then .ok (.ginc (fld w 21 6) (fld w 15 6)) else
    .error .reserved
  | 23 =>
    if fld w 7 8 = 0 then .ok (.gins (fld w 21 6) (fld w 15 6)) else
    .error .reserved
  | 24 =>
    if fld w 7 8 = 0 then .ok (.gsegx (fld w 21 6) (fld w 15 6)) else
    .error .reserved
  | _ => .error .unallocated

/-- Words of major 0x63. -/
def decodeBranch (w : Nat) : Except Reject Instr :=
  match fld w 12 3 with
  | 0 =>
    .ok (.beq (fld w 15 5) (fld w 20 5) (fld w 31 1 * 4096 + fld w 25 6 * 32 + fld w 8 4 * 2 + fld w 7 1 * 2048))
  | 1 =>
    .ok (.bne (fld w 15 5) (fld w 20 5) (fld w 31 1 * 4096 + fld w 25 6 * 32 + fld w 8 4 * 2 + fld w 7 1 * 2048))
  | 4 =>
    .ok (.blt (fld w 15 5) (fld w 20 5) (fld w 31 1 * 4096 + fld w 25 6 * 32 + fld w 8 4 * 2 + fld w 7 1 * 2048))
  | 5 =>
    .ok (.bge (fld w 15 5) (fld w 20 5) (fld w 31 1 * 4096 + fld w 25 6 * 32 + fld w 8 4 * 2 + fld w 7 1 * 2048))
  | 6 =>
    .ok (.bltu (fld w 15 5) (fld w 20 5) (fld w 31 1 * 4096 + fld w 25 6 * 32 + fld w 8 4 * 2 + fld w 7 1 * 2048))
  | 7 =>
    .ok (.bgeu (fld w 15 5) (fld w 20 5) (fld w 31 1 * 4096 + fld w 25 6 * 32 + fld w 8 4 * 2 + fld w 7 1 * 2048))
  | _ => .error .unallocated

/-- Words of major 0x67. -/
def decodeJalr (w : Nat) : Except Reject Instr :=
  match fld w 12 3 with
  | 0 =>
    .ok (.jalr (fld w 7 5) (fld w 15 5) (fld w 20 12))
  | _ => .error .unallocated

/-- Words of major 0x6F. -/
def decodeJal (w : Nat) : Except Reject Instr :=
  .ok (.jal (fld w 7 5) (fld w 31 1 * 1048576 + fld w 21 10 * 2 + fld w 20 1 * 2048 + fld w 12 8 * 4096))

/-- Words of major 0x73. -/
def decodeSystem (w : Nat) : Except Reject Instr :=
  if fld w 7 25 = 0 then .ok (.ecall) else
  if fld w 7 25 = 8192 then .ok (.ebreak) else
  .error .unallocated

/-- Words of major 0x7B. -/
def decodeSc (w : Nat) : Except Reject Instr :=
  match fld w 27 5 with
  | 0 =>
    if fld w 7 3 = 0 then .ok (.cvy (fld w 25 2) (fld w 20 5) (fld w 19 1) (fld w 15 4) (fld w 12 3) (fld w 11 1) (fld w 10 1)) else
    .error .reserved
  | 1 =>
    if fld w 17 10 = 0 then .ok (.setvl (fld w 7 5) (fld w 12 5)) else
    .error .reserved
  | 2 =>
    .ok (.setvli (fld w 7 5) (fld w 12 15))
  | 3 =>
    if fld w 14 13 = 0 then .ok (.setvlq (fld w 7 5) (fld w 12 2)) else
    .error .reserved
  | 4 =>
    if fld w 7 17 = 0 then .ok (.fsv (fld w 24 3)) else
    .error .reserved
  | 5 =>
    if fld w 7 17 = 0 then .ok (.fvs (fld w 24 3)) else
    .error .reserved
  | 6 =>
    if fld w 7 17 = 0 then .ok (.fvv (fld w 24 3)) else
    .error .reserved
  | 7 =>
    if fld w 10 2 = 0 ∧ fld w 17 10 = 0 then .ok (.qsend (fld w 7 3) (fld w 12 5)) else
    .error .reserved
  | 8 =>
    if fld w 15 12 = 0 then .ok (.qrecv (fld w 7 5) (fld w 12 3)) else
    .error .reserved
  | 9 =>
    .ok (.wid (fld w 7 5) (fld w 12 15))
  | 10 =>
    if fld w 17 10 = 0 then .ok (.matt (fld w 7 5) (fld w 12 5)) else
    .error .reserved
  | 11 =>
    if fld w 7 20 = 0 then .ok (.mdet) else
    .error .reserved
  | 12 =>
    if fld w 12 15 = 0 then .ok (.mwait (fld w 7 5)) else
    .error .reserved
  | 13 =>
    if fld w 7 20 = 0 then .ok (.tsync) else
    .error .reserved
  | 14 =>
    if fld w 17 10 = 0 then .ok (.binit (fld w 7 5) (fld w 12 5)) else
    .error .reserved
  | 15 =>
    if fld w 12 15 = 0 then .ok (.barrive (fld w 7 5)) else
    .error .reserved
  | 16 =>
    if fld w 17 10 = 0 then .ok (.bexpect (fld w 7 5) (fld w 12 5)) else
    .error .reserved
  | 17 =>
    if fld w 12 15 = 0 then .ok (.bwait (fld w 7 5)) else
    .error .reserved
  | 18 =>
    if fld w 12 15 = 0 then .ok (.phend (fld w 7 5)) else
    .error .reserved
  | 19 =>
    if fld w 17 10 = 0 then .ok (.monarm (fld w 7 5) (fld w 12 5)) else
    .error .reserved
  | 20 =>
    if fld w 7 20 = 0 then .ok (.monwait) else
    .error .reserved
  | 21 =>
    if fld w 17 10 = 0 then .ok (.spawn (fld w 7 5) (fld w 12 5)) else
    .error .reserved
  | 22 =>
    if fld w 17 10 = 0 then .ok (.join (fld w 7 5) (fld w 12 5)) else
    .error .reserved
  | 23 =>
    if fld w 7 5 = 0 then .ok (.xltrap (fld w 12 15)) else
    .error .reserved
  | 24 =>
    if fld w 7 20 = 0 then .ok (.vsync) else
    .error .reserved
  | 25 =>
    if fld w 17 10 = 0 then .ok (.remst (fld w 7 5) (fld w 12 5)) else
    .error .reserved
  | 26 =>
    if fld w 12 15 = 0 then .ok (.fflags (fld w 7 5)) else
    .error .reserved
  | _ => .error .unallocated

/-- The instruction that a 32-bit word encodes (R249 to R251). -/
def decodeWord (w : Nat) : Except Reject Instr :=
  if fld w 0 2 ≠ 3 then .error .narrow
  else if fld w 0 5 = 0x1F then .error .longPrefix
  else match fld w 0 7 with
  | 0x03 => decodeLoad w
  | 0x0B => decodeVa w
  | 0x0F => decodeMiscMem w
  | 0x13 => decodeOpImm w
  | 0x17 => decodeAuipc w
  | 0x1B => decodeOpImm32 w
  | 0x23 => decodeStore w
  | 0x2B => decodeVm w
  | 0x2F => decodeAmo w
  | 0x33 => decodeOp w
  | 0x37 => decodeLui w
  | 0x3B => decodeOp32 w
  | 0x5B => decodeVx w
  | 0x63 => decodeBranch w
  | 0x67 => decodeJalr w
  | 0x6F => decodeJal w
  | 0x73 => decodeSystem w
  | 0x7B => decodeSc w
  | _ => .error .noMajor

/-- Reads one instruction from bytes, little-endian (R249), and gives back the rest. -/
def decode : List Byte → Except Reject (Instr × List Byte)
  | b0 :: b1 :: b2 :: b3 :: rest =>
    match decodeWord (b0.toNat + b1.toNat * 256 + b2.toNat * 65536 + b3.toNat * 16777216) with
    | .ok i => .ok (i, rest)
    | .error e => .error e
  | _ => .error .truncated

/-- The bytes of the first n bytes of a number, little-endian (R2). -/
def bytesLE : Nat → Nat → List Byte
  | 0, _ => []
  | n + 1, w => BitVec.ofNat 8 w :: bytesLE n (w / 256)

/-- The decoder on a word of the opcode table: its bytes as the hardware stores them. -/
def decodeTableWord (nbits w : Nat) : Option Instr :=
  if nbits ≤ 32 then
    match decode (bytesLE 4 w) with
    | .ok (i, _) => some i
    | .error _ => none
  else none

/-- Fields rd, imm of the layout that LUI uses. -/
def encU (base rd imm : Nat) : Nat :=
  base + rd * 128 + imm * 4096

/-- Fields rd, off of the layout that JAL uses. -/
def encJ (base rd off : Nat) : Nat :=
  base + rd * 128 + fld off 20 1 * 2147483648 + fld off 1 10 * 2097152 + fld off 11 1 * 1048576 + fld off 12 8 * 4096

/-- Fields rd, rs1, imm of the layout that JALR uses. -/
def encI (base rd rs1 imm : Nat) : Nat :=
  base + rd * 128 + rs1 * 32768 + imm * 1048576

/-- Fields rs1, rs2, off of the layout that BEQ uses. -/
def encB (base rs1 rs2 off : Nat) : Nat :=
  base + rs1 * 32768 + rs2 * 1048576 + fld off 12 1 * 2147483648 + fld off 5 6 * 33554432 + fld off 1 4 * 256 + fld off 11 1 * 128

/-- Fields rs2, rs1, imm of the layout that SB uses. -/
def encS (base rs2 rs1 imm : Nat) : Nat :=
  base + rs2 * 1048576 + rs1 * 32768 + fld imm 5 7 * 33554432 + fld imm 0 5 * 128

/-- Fields rd, rs1, shamt of the layout that SLLI uses. -/
def encShift (base rd rs1 shamt : Nat) : Nat :=
  base + rd * 128 + rs1 * 32768 + shamt * 1048576

/-- Fields rd, rs1, shamt of the layout that SLLIW uses. -/
def encShiftW (base rd rs1 shamt : Nat) : Nat :=
  base + rd * 128 + rs1 * 32768 + shamt * 1048576

/-- Fields pred, succ of the layout that FENCE uses. -/
def encFence (base pred succ : Nat) : Nat :=
  base + pred * 16777216 + succ * 1048576

/-- Fields rd, rs1, aq, rl of the layout that LR_W uses. -/
def encLr (base rd rs1 aq rl : Nat) : Nat :=
  base + rd * 128 + rs1 * 32768 + aq * 67108864 + rl * 33554432

/-- Fields rd, rs1, rs2, aq, rl of the layout that SC_W uses. -/
def encAmo (base rd rs1 rs2 aq rl : Nat) : Nat :=
  base + rd * 128 + rs1 * 32768 + rs2 * 1048576 + aq * 67108864 + rl * 33554432

/-- Fields vd, va, vb, sx of the layout that VADD uses. -/
def encVr (base vd va vb sx : Nat) : Nat :=
  base + vd * 128 + va * 524288 + vb * 8192 + sx * 33554432

/-- Fields vd, va of the layout that VABS uses. -/
def encVr1 (base vd va : Nat) : Nat :=
  base + vd * 128 + va * 524288

/-- Fields pd, va, vb, sx of the layout that VCMPEQ uses. -/
def encVrP (base pd va vb sx : Nat) : Nat :=
  base + pd * 128 + va * 524288 + vb * 8192 + sx * 33554432

/-- Fields vd, va, ty of the layout that VCVT uses. -/
def encCvt (base vd va ty : Nat) : Nat :=
  base + vd * 128 + va * 524288 + ty * 8192

/-- Fields vd, xs of the layout that VMV_X uses. -/
def encVrX (base vd xs : Nat) : Nat :=
  base + vd * 128 + xs * 8192

/-- Fields vd of the layout that VID uses. -/
def encVrD (base vd : Nat) : Nat :=
  base + vd * 128

/-- Fields vd, pa of the layout that VIOTA uses. -/
def encIota (base vd pa : Nat) : Nat :=
  base + vd * 128 + pa * 524288

/-- Fields vd, va, xs of the layout that VSLIDEUP uses. -/
def encVrAX (base vd va xs : Nat) : Nat :=
  base + vd * 128 + va * 524288 + xs * 8192

/-- Fields vd, va, vb of the layout that VPERM uses. -/
def encPerm (base vd va vb : Nat) : Nat :=
  base + vd * 128 + va * 524288 + vb * 8192

/-- Fields xd, va, xs of the layout that VEXT uses. -/
def encExt (base xd va xs : Nat) : Nat :=
  base + xd * 128 + va * 524288 + xs * 8192

/-- Fields vd, xi, xs of the layout that VINS uses. -/
def encIns (base vd xi xs : Nat) : Nat :=
  base + vd * 128 + xi * 524288 + xs * 8192

/-- Fields vd, n of the layout that VQRECV uses. -/
def encQrecv (base vd n : Nat) : Nat :=
  base + vd * 128 + n * 8192

/-- Fields n, va of the layout that VQSEND uses. -/
def encQsend (base n va : Nat) : Nat :=
  base + n * 128 + va * 524288

/-- Fields pd, pa, pb of the layout that PAND uses. -/
def encP3 (base pd pa pb : Nat) : Nat :=
  base + pd * 4194304 + pa * 131072 + pb * 4096

/-- Fields pd, pa of the layout that PNOT uses. -/
def encP2 (base pd pa : Nat) : Nat :=
  base + pd * 4194304 + pa * 131072

/-- Fields pd of the layout that PSET uses. -/
def encP1 (base pd : Nat) : Nat :=
  base + pd * 4194304

/-- Fields xd, pa of the layout that VPOPC_X uses. -/
def encPopX (base xd pa : Nat) : Nat :=
  base + xd * 128 + pa * 131072

/-- Fields n, pa of the layout that VPOPC_LQ uses. -/
def encPopLq (base n pa : Nat) : Nat :=
  base + n * 4194304 + pa * 131072

/-- Fields vd, pa of the layout that PMOVV uses. -/
def encGP (base vd pa : Nat) : Nat :=
  base + vd * 2097152 + pa * 32768

/-- Fields pd, va of the layout that VMOVP uses. -/
def encPG (base pd va : Nat) : Nat :=
  base + pd * 2097152 + va * 32768

/-- Fields vd, vs of the layout that VQNT4 uses. -/
def encG (base vd vs : Nat) : Nat :=
  base + vd * 2097152 + vs * 32768

/-- Fields xa, xp of the layout that MLDB uses. -/
def encM2 (base xa xp : Nat) : Nat :=
  base + xa * 1048576 + xp * 32768

/-- Fields m, xa, xp of the layout that MSTEP uses. -/
def encM3 (base m xa xp : Nat) : Nat :=
  base + m * 33554432 + xa * 1048576 + xp * 32768

/-- Fields m of the layout that MZERO uses. -/
def encM1 (base m : Nat) : Nat :=
  base + m * 33554432

/-- Fields xd of the layout that MCOMMIT uses. -/
def encMCommit (base xd : Nat) : Nat :=
  base + xd * 1048576

/-- Fields v, xb of the layout that VLD uses. -/
def encMem (base v xb : Nat) : Nat :=
  base + v * 2097152 + xb * 1024

/-- Fields v, xb, xs of the layout that VLDS uses. -/
def encMemS (base v xb xs : Nat) : Nat :=
  base + v * 2097152 + xb * 1024 + xs * 32768

/-- Fields v, xb, vi of the layout that VLDX uses. -/
def encMemX (base v xb vi : Nat) : Nat :=
  base + v * 2097152 + xb * 1024 + vi * 32768

/-- Fields v, xb, vi, fn of the layout that VAMO uses. -/
def encMemF (base v xb vi fn : Nat) : Nat :=
  base + v * 2097152 + xb * 1024 + vi * 32768 + fn * 128

/-- Fields xt, xd, xs, xn of the layout that COPY uses. -/
def encS4 (base xt xd xs xn : Nat) : Nat :=
  base + xt * 128 + xd * 4096 + xs * 131072 + xn * 4194304

/-- Fields cnt, guard, gneg, etype, rm, sat, tb of the layout that CVY uses. -/
def encCvy (base cnt guard gneg etype rm sat tb : Nat) : Nat :=
  base + cnt * 33554432 + guard * 1048576 + gneg * 524288 + etype * 32768 + rm * 4096 + sat * 2048 + tb * 1024

/-- Fields xd, xs of the layout that SETVL uses. -/
def encSc2 (base xd xs : Nat) : Nat :=
  base + xd * 128 + xs * 4096

/-- Fields xd, imm of the layout that SETVLI uses. -/
def encSi (base xd imm : Nat) : Nat :=
  base + xd * 128 + imm * 4096

/-- Fields xd, n of the layout that SETVLQ uses. -/
def encScLq (base xd n : Nat) : Nat :=
  base + xd * 128 + n * 4096

/-- Fields scope of the layout that FSV uses. -/
def encF (base scope : Nat) : Nat :=
  base + scope * 16777216

/-- Fields n, xs of the layout that QSEND uses. -/
def encScQ2 (base n xs : Nat) : Nat :=
  base + n * 128 + xs * 4096

/-- Fields xd, n of the layout that QRECV uses. -/
def encScQ (base xd n : Nat) : Nat :=
  base + xd * 128 + n * 4096

/-- Fields xs of the layout that MWAIT uses. -/
def encSc1 (base xs : Nat) : Nat :=
  base + xs * 128

/-- Fields n of the layout that XLTRAP uses. -/
def encSiN (base n : Nat) : Nat :=
  base + n * 4096

/-- The word of an encoded instruction; an event has no word and gives 0. -/
def encodeWord : Instr → Nat
  | .lui rd imm => encU 0x00000037 rd imm
  | .auipc rd imm => encU 0x00000017 rd imm
  | .jal rd off => encJ 0x0000006F rd off
  | .jalr rd rs1 imm => encI 0x00000067 rd rs1 imm
  | .beq rs1 rs2 off => encB 0x00000063 rs1 rs2 off
  | .bne rs1 rs2 off => encB 0x00001063 rs1 rs2 off
  | .blt rs1 rs2 off => encB 0x00004063 rs1 rs2 off
  | .bge rs1 rs2 off => encB 0x00005063 rs1 rs2 off
  | .bltu rs1 rs2 off => encB 0x00006063 rs1 rs2 off
  | .bgeu rs1 rs2 off => encB 0x00007063 rs1 rs2 off
  | .lb rd rs1 imm => encI 0x00000003 rd rs1 imm
  | .lh rd rs1 imm => encI 0x00001003 rd rs1 imm
  | .lw rd rs1 imm => encI 0x00002003 rd rs1 imm
  | .ld rd rs1 imm => encI 0x00003003 rd rs1 imm
  | .lbu rd rs1 imm => encI 0x00004003 rd rs1 imm
  | .lhu rd rs1 imm => encI 0x00005003 rd rs1 imm
  | .lwu rd rs1 imm => encI 0x00006003 rd rs1 imm
  | .sb rs2 rs1 imm => encS 0x00000023 rs2 rs1 imm
  | .sh rs2 rs1 imm => encS 0x00001023 rs2 rs1 imm
  | .sw rs2 rs1 imm => encS 0x00002023 rs2 rs1 imm
  | .sd rs2 rs1 imm => encS 0x00003023 rs2 rs1 imm
  | .addi rd rs1 imm => encI 0x00000013 rd rs1 imm
  | .slti rd rs1 imm => encI 0x00002013 rd rs1 imm
  | .sltiu rd rs1 imm => encI 0x00003013 rd rs1 imm
  | .xori rd rs1 imm => encI 0x00004013 rd rs1 imm
  | .ori rd rs1 imm => encI 0x00006013 rd rs1 imm
  | .andi rd rs1 imm => encI 0x00007013 rd rs1 imm
  | .slli rd rs1 shamt => encShift 0x00001013 rd rs1 shamt
  | .srli rd rs1 shamt => encShift 0x00005013 rd rs1 shamt
  | .srai rd rs1 shamt => encShift 0x40005013 rd rs1 shamt
  | .addiw rd rs1 imm => encI 0x0000001B rd rs1 imm
  | .slliw rd rs1 shamt => encShiftW 0x0000101B rd rs1 shamt
  | .srliw rd rs1 shamt => encShiftW 0x0000501B rd rs1 shamt
  | .sraiw rd rs1 shamt => encShiftW 0x4000501B rd rs1 shamt
  | .add rd rs1 rs2 => encShiftW 0x00000033 rd rs1 rs2
  | .sub rd rs1 rs2 => encShiftW 0x40000033 rd rs1 rs2
  | .sll rd rs1 rs2 => encShiftW 0x00001033 rd rs1 rs2
  | .slt rd rs1 rs2 => encShiftW 0x00002033 rd rs1 rs2
  | .sltu rd rs1 rs2 => encShiftW 0x00003033 rd rs1 rs2
  | .xor rd rs1 rs2 => encShiftW 0x00004033 rd rs1 rs2
  | .srl rd rs1 rs2 => encShiftW 0x00005033 rd rs1 rs2
  | .sra rd rs1 rs2 => encShiftW 0x40005033 rd rs1 rs2
  | .or rd rs1 rs2 => encShiftW 0x00006033 rd rs1 rs2
  | .and rd rs1 rs2 => encShiftW 0x00007033 rd rs1 rs2
  | .mul rd rs1 rs2 => encShiftW 0x02000033 rd rs1 rs2
  | .mulh rd rs1 rs2 => encShiftW 0x02001033 rd rs1 rs2
  | .mulhsu rd rs1 rs2 => encShiftW 0x02002033 rd rs1 rs2
  | .mulhu rd rs1 rs2 => encShiftW 0x02003033 rd rs1 rs2
  | .div rd rs1 rs2 => encShiftW 0x02004033 rd rs1 rs2
  | .divu rd rs1 rs2 => encShiftW 0x02005033 rd rs1 rs2
  | .rem rd rs1 rs2 => encShiftW 0x02006033 rd rs1 rs2
  | .remu rd rs1 rs2 => encShiftW 0x02007033 rd rs1 rs2
  | .addw rd rs1 rs2 => encShiftW 0x0000003B rd rs1 rs2
  | .subw rd rs1 rs2 => encShiftW 0x4000003B rd rs1 rs2
  | .sllw rd rs1 rs2 => encShiftW 0x0000103B rd rs1 rs2
  | .srlw rd rs1 rs2 => encShiftW 0x0000503B rd rs1 rs2
  | .sraw rd rs1 rs2 => encShiftW 0x4000503B rd rs1 rs2
  | .mulw rd rs1 rs2 => encShiftW 0x0200003B rd rs1 rs2
  | .divw rd rs1 rs2 => encShiftW 0x0200403B rd rs1 rs2
  | .divuw rd rs1 rs2 => encShiftW 0x0200503B rd rs1 rs2
  | .remw rd rs1 rs2 => encShiftW 0x0200603B rd rs1 rs2
  | .remuw rd rs1 rs2 => encShiftW 0x0200703B rd rs1 rs2
  | .fence pred succ => encFence 0x0000000F pred succ
  | .fenceTso => 0x8330000F
  | .fenceI => 0x0000100F
  | .ecall => 0x00000073
  | .ebreak => 0x00100073
  | .lrW rd rs1 aq rl => encLr 0x1000202F rd rs1 aq rl
  | .lrD rd rs1 aq rl => encLr 0x1000302F rd rs1 aq rl
  | .scW rd rs1 rs2 aq rl => encAmo 0x1800202F rd rs1 rs2 aq rl
  | .scD rd rs1 rs2 aq rl => encAmo 0x1800302F rd rs1 rs2 aq rl
  | .amoswapW rd rs1 rs2 aq rl => encAmo 0x0800202F rd rs1 rs2 aq rl
  | .amoswapD rd rs1 rs2 aq rl => encAmo 0x0800302F rd rs1 rs2 aq rl
  | .amoaddW rd rs1 rs2 aq rl => encAmo 0x0000202F rd rs1 rs2 aq rl
  | .amoaddD rd rs1 rs2 aq rl => encAmo 0x0000302F rd rs1 rs2 aq rl
  | .amoxorW rd rs1 rs2 aq rl => encAmo 0x2000202F rd rs1 rs2 aq rl
  | .amoxorD rd rs1 rs2 aq rl => encAmo 0x2000302F rd rs1 rs2 aq rl
  | .amoandW rd rs1 rs2 aq rl => encAmo 0x6000202F rd rs1 rs2 aq rl
  | .amoandD rd rs1 rs2 aq rl => encAmo 0x6000302F rd rs1 rs2 aq rl
  | .amoorW rd rs1 rs2 aq rl => encAmo 0x4000202F rd rs1 rs2 aq rl
  | .amoorD rd rs1 rs2 aq rl => encAmo 0x4000302F rd rs1 rs2 aq rl
  | .amominW rd rs1 rs2 aq rl => encAmo 0x8000202F rd rs1 rs2 aq rl
  | .amominD rd rs1 rs2 aq rl => encAmo 0x8000302F rd rs1 rs2 aq rl
  | .amomaxW rd rs1 rs2 aq rl => encAmo 0xA000202F rd rs1 rs2 aq rl
  | .amomaxD rd rs1 rs2 aq rl => encAmo 0xA000302F rd rs1 rs2 aq rl
  | .amominuW rd rs1 rs2 aq rl => encAmo 0xC000202F rd rs1 rs2 aq rl
  | .amominuD rd rs1 rs2 aq rl => encAmo 0xC000302F rd rs1 rs2 aq rl
  | .amomaxuW rd rs1 rs2 aq rl => encAmo 0xE000202F rd rs1 rs2 aq rl
  | .amomaxuD rd rs1 rs2 aq rl => encAmo 0xE000302F rd rs1 rs2 aq rl
  | .vadd vd va vb sx => encVr 0x0000000B vd va vb sx
  | .vsub vd va vb sx => encVr 0x0400000B vd va vb sx
  | .vrsub vd va vb sx => encVr 0x0800000B vd va vb sx
  | .vmul vd va vb sx => encVr 0x0C00000B vd va vb sx
  | .vmulh vd va vb sx => encVr 0x1000000B vd va vb sx
  | .vdiv vd va vb sx => encVr 0x1400000B vd va vb sx
  | .vrem vd va vb sx => encVr 0x1800000B vd va vb sx
  | .vmin vd va vb sx => encVr 0x1C00000B vd va vb sx
  | .vmax vd va vb sx => encVr 0x2000000B vd va vb sx
  | .vand vd va vb sx => encVr 0x2400000B vd va vb sx
  | .vor vd va vb sx => encVr 0x2800000B vd va vb sx
  | .vxor vd va vb sx => encVr 0x2C00000B vd va vb sx
  | .vsll vd va vb sx => encVr 0x3000000B vd va vb sx
  | .vsrl vd va vb sx => encVr 0x3400000B vd va vb sx
  | .vsra vd va vb sx => encVr 0x3800000B vd va vb sx
  | .vabs vd va => encVr1 0x3C00000B vd va
  | .vfma vd va vb sx => encVr 0x4000000B vd va vb sx
  | .vfms vd va vb sx => encVr 0x4400000B vd va vb sx
  | .vfnma vd va vb sx => encVr 0x4800000B vd va vb sx
  | .vfnms vd va vb sx => encVr 0x4C00000B vd va vb sx
  | .vsqrt vd va => encVr1 0x5000000B vd va
  | .vneg vd va => encVr1 0x5400000B vd va
  | .vsgnj vd va vb sx => encVr 0x5800000B vd va vb sx
  | .vscale vd va vb sx => encVr 0x5C00000B vd va vb sx
  | .vcmpeq pd va vb sx => encVrP 0x6000000B pd va vb sx
  | .vcmpne pd va vb sx => encVrP 0x6400000B pd va vb sx
  | .vcmplt pd va vb sx => encVrP 0x6800000B pd va vb sx
  | .vcmple pd va vb sx => encVrP 0x6C00000B pd va vb sx
  | .vcmpgt pd va vb sx => encVrP 0x7000000B pd va vb sx
  | .vcmpge pd va vb sx => encVrP 0x7400000B pd va vb sx
  | .vcmpuo pd va vb sx => encVrP 0x7800000B pd va vb sx
  | .vclass vd va => encVr1 0x7C00000B vd va
  | .vcvt vd va ty => encCvt 0x8000000B vd va ty
  | .vmvV vd va => encVr1 0x8400000B vd va
  | .vmvX vd xs => encVrX 0x8600000B vd xs
  | .vmerge vd va vb sx => encVr 0x8800000B vd va vb sx
  | .vid vd => encVrD 0x8C00000B vd
  | .viota vd pa => encIota 0x9000000B vd pa
  | .vcompress vd va => encVr1 0x9400000B vd va
  | .vslideup vd va xs => encVrAX 0x9A00000B vd va xs
  | .vslidedn vd va xs => encVrAX 0x9E00000B vd va xs
  | .vperm vd va vb => encPerm 0xA000000B vd va vb
  | .vxchg vd va xs => encVrAX 0xA600000B vd va xs
  | .vredsum vd va vb sx => encVr 0xA800000B vd va vb sx
  | .vredmax vd va vb sx => encVr 0xAC00000B vd va vb sx
  | .vredmin vd va vb sx => encVr 0xB000000B vd va vb sx
  | .vredand vd va vb sx => encVr 0xB400000B vd va vb sx
  | .vredor vd va vb sx => encVr 0xB800000B vd va vb sx
  | .vredxor vd va vb sx => encVr 0xBC00000B vd va vb sx
  | .vfredosum vd va vb sx => encVr 0xC000000B vd va vb sx
  | .vext xd va xs => encExt 0xC600000B xd va xs
  | .vins vd xi xs => encIns 0xCA00000B vd xi xs
  | .vclz vd va => encVr1 0xCC00000B vd va
  | .vpopcnt vd va => encVr1 0xD000000B vd va
  | .vqrecv vd n => encQrecv 0xD400000B vd n
  | .vqsend n va => encQsend 0xD800000B n va
  | .pand pd pa pb => encP3 0x0000005B pd pa pb
  | .por pd pa pb => encP3 0x0800005B pd pa pb
  | .pxor pd pa pb => encP3 0x1000005B pd pa pb
  | .pandn pd pa pb => encP3 0x1800005B pd pa pb
  | .pnot pd pa => encP2 0x2000005B pd pa
  | .pset pd => encP1 0x2800005B pd
  | .pclr pd => encP1 0x3000005B pd
  | .pfirst pd pa => encP2 0x3800005B pd pa
  | .vpopcX xd pa => encPopX 0x4000005B xd pa
  | .vpopcLq n pa => encPopLq 0x4400005B n pa
  | .pmovv vd pa => encGP 0x4800005B vd pa
  | .vmovp pd va => encPG 0x5000005B pd va
  | .vqnt4 vd vs => encG 0x5800005B vd vs
  | .vdq4 vd vs => encG 0x6000005B vd vs
  | .mldb xa xp => encM2 0x6800005B xa xp
  | .mstep m xa xp => encM3 0x7000005B m xa xp
  | .mstepr m xa xp => encM3 0x7800005B m xa xp
  | .mzero m => encM1 0x8000005B m
  | .mrd m xa xp => encM3 0x8800005B m xa xp
  | .mwr m xa xp => encM3 0x9000005B m xa xp
  | .mcommit xd => encMCommit 0x9800005B xd
  | .gor2 vd vs => encG 0xA000005B vd vs
  | .gor3 vd vs => encG 0xA800005B vd vs
  | .ginc vd vs => encG 0xB000005B vd vs
  | .gins vd vs => encG 0xB800005B vd vs
  | .gsegx vd vs => encG 0xC000005B vd vs
  | .vld v xb => encMem 0x0000002B v xb
  | .vlds v xb xs => encMemS 0x0800002B v xb xs
  | .vldx v xb vi => encMemX 0x1000002B v xb vi
  | .vst v xb => encMem 0x1800002B v xb
  | .vsts v xb xs => encMemS 0x2000002B v xb xs
  | .vstx v xb vi => encMemX 0x2800002B v xb vi
  | .vamo v xb vi fn => encMemF 0x3000002B v xb vi fn
  | .vldb4 v xb xs => encMemS 0x3800002B v xb xs
  | .vstb4 v xb xs => encMemS 0x4000002B v xb xs
  | .copy xt xd xs xn => encS4 0x4800002B xt xd xs xn
  | .copyc pk xd xs xn => encS4 0x5000002B pk xd xs xn
  | .copys xt xd xs xq => encS4 0x5800002B xt xd xs xq
  | .rrot xt xd xs xn => encS4 0x6000002B xt xd xs xn
  | .cmdb pd vs => encPG 0x6800002B pd vs
  | .vamor v xb vi fn => encMemF 0x7000002B v xb vi fn
  | .cvy cnt guard gneg etype rm sat tb => encCvy 0x0000007B cnt guard gneg etype rm sat tb
  | .setvl xd xs => encSc2 0x0800007B xd xs
  | .setvli xd imm => encSi 0x1000007B xd imm
  | .setvlq xd n => encScLq 0x1800007B xd n
  | .fsv scope => encF 0x2000007B scope
  | .fvs scope => encF 0x2800007B scope
  | .fvv scope => encF 0x3000007B scope
  | .qsend n xs => encScQ2 0x3800007B n xs
  | .qrecv xd n => encScQ 0x4000007B xd n
  | .wid xd f => encSi 0x4800007B xd f
  | .matt xd xs => encSc2 0x5000007B xd xs
  | .mdet => 0x5800007B
  | .mwait xs => encSc1 0x6000007B xs
  | .tsync => 0x6800007B
  | .binit xa xp => encSc2 0x7000007B xa xp
  | .barrive xa => encSc1 0x7800007B xa
  | .bexpect xa xn => encSc2 0x8000007B xa xn
  | .bwait xa => encSc1 0x8800007B xa
  | .phend xa => encSc1 0x9000007B xa
  | .monarm xd xa => encSc2 0x9800007B xd xa
  | .monwait => 0xA000007B
  | .spawn xd xa => encSc2 0xA800007B xd xa
  | .join xd xt => encSc2 0xB000007B xd xt
  | .xltrap n => encSiN 0xB800007B n
  | .vsync => 0xC000007B
  | .remst xs xa => encSc2 0xC800007B xs xa
  | .fflags xd => encSc1 0xD000007B xd
  | .edgeUnitReceive => 0
  | .flitReceive => 0
  | .flitRefusal => 0
  | .flitAck => 0
  | .iodReady => 0
  | .fnReady => 0
  | .cdieReady => 0
  | .anvilReady => 0
  | .mlinkReady => 0
  | .mgrpReady => 0
  | .plinkReady => 0
  | .linkTrainingLoss => 0
  | .linkRetrainDone => 0
  | .linkFailure => 0
  | .mlinkRetrain => 0
  | .plinkRetrain => 0
  | .mlinkFailClear => 0
  | .plinkFailClear => 0
  | .reqMv => 0
  | .capWrite => 0
  | .voltageRampDone => 0
  | .clockLockDone => 0
  | .stallWindowClose => 0
  | .powerLimiterInterval => 0
  | .thermalHot => 0
  | .thermalRelease => 0
  | .thermalTrip => 0
  | .powerFlagsClear => 0
  | .clear => 0
  | .monitorCapture => 0
  | .monitorLevelSample => 0
  | .stop => 0
  | .run => 0
  | .kill => 0
  | .cmdZero => 0
  | .ctxSavedFieldWrite => 0
  | .contextSaved => 0
  | .replayDone => 0
  | .waitSatisfied => 0
  | .stopAll => 0
  | .runAll => 0
  | .killAll => 0
  | .bar0UnbackedWrite => 0
  | .launchRegisterWrite => 0
  | .prgResponse => 0
  | .hostCompletion => 0
  | .hostRequestTimeout => 0
  | .hostWriteRefusal => 0
  | .atsInvalidationRequest => 0
  | .atsInvalidationCompletion => 0
  | .msixUnmask => 0
  | .coalesceWrite => 0
  | .holdExpiry => 0
  | .vfFlr => 0
  | .pfFlr => 0
  | .hotReset => 0
  | .linkDown => 0
  | .create => 0
  | .createComplete => 0
  | .destroy => 0
  | .destroyComplete => 0
  | .unfreeze => 0
  | .wcmdZero => 0
  | .lockInterfaceRequest => 0
  | .startInterfaceRequest => 0
  | .stopInterfaceRequest => 0
  | .getDeviceInterfaceReport => 0
  | .getDeviceInterfaceState => 0
  | .getVersion => 0
  | .getCapabilities => 0
  | .negotiateAlgorithms => 0
  | .getDigests => 0
  | .getCertificate => 0
  | .challenge => 0
  | .getMeasurements => 0
  | .keyExchange => 0
  | .finish => 0
  | .keyUpdate => 0
  | .endSession => 0
  | .setStreamKey => 0
  | .setQuantumTable => 0
  | .getQuantumTable => 0
  | .ideIntegrityFailure => 0
  | .inboundRemoteStore => 0
  | .inboundCopyWrite => 0
  | .inboundCopyRead => 0
  | .plinkUnfreeze => 0
  | .inworldWrite => 0
  | .remoteStoreAck => 0
  | .remoteStoreRefusal => 0
  | .ownerWrite => 0
  | .queueLockedFieldWrite => 0
  | .start => 0
  | .unlock => 0
  | .qcmdIgnored => 0
  | .tailStore => 0
  | .ringerrClear => 0
  | .ringPacketRead => 0
  | .launch => 0
  | .waitvalue => 0
  | .waitvalueRetest => 0
  | .writevalue => 0
  | .writevaluePerformed => 0
  | .checkpoint => 0
  | .nop => 0
  | .launchDone => 0
  | .watchdogExpiry => 0
  | .policyCoreRecovery => 0
  | .ckptStopped => 0
  | .ckptDieshardsDone => 0
  | .ckptPageCopied => 0
  | .ckptMemshardsDone => 0
  | .ckptManifestDone => 0
  | .restore => 0
  | .restoreDone => 0
  | .abort => 0
  | .ecmdIgnored => 0
  | .quantumEnd => 0
  | .quantumIdleEnd => 0
  | .switchStopsDone => 0
  | .switchSaveDone => 0
  | .switchRestoreDone => 0
  | .dispatchDecision => 0
  | .rotationSaveDone => 0
  | .lengthMarkerTake => 0
  | .writeQueueUpdate => 0
  | .operationResponse => 0
  | .portFaultReport => 0
  | .sundogAck => 0
  | .sundogSpill => 0
  | .reservationHoldExpiry => 0
  | .chunkComplete => 0
  | .engineCopyCommand => 0
  | .decryptCommand => 0
  | .batchComplete => 0
  | .controlWordWrite => 0
  | .powerOnReset => 0
  | .vectorMask => 0
  | .postedStoreDropped => 0
  | .illegal => 0
  | .instructionFetchFault => 0

/-- Whether the row is an encoded instruction. -/
def Instr.encoded (i : Instr) : Bool := encodeWord i ≠ 0

/-- The words of an instruction: one word for each of the 213 encoded rows, none for an event. -/
def encode (i : Instr) : List Nat := if i.encoded then [encodeWord i] else []

end Sys2Proof
end

