-- ==== Sys2Proof/Machine/State.lean ====
section
/-!
DEFINITION. The machine's state as plain data: everything the spec gives the device, one record for each kind
of page or unit, and `State.reset`. A collection of like things (contexts, queues, links) is a sparse table by
number whose missing entries have the reset value of that record. Fields marked MODEL are the model's own.
-/

namespace Sys2Proof.Machine

/-- Why the machine stops with a fault. -/
inductive Fault where
  /-- Raised by `step` alone: the package has tripped (02 R37, R38), all regulators are off, and no
  POWER_ON_RESET stands in the inputs. Safe: the device does nothing until power-on reset. -/
  | poweredOff
  deriving DecidableEq, Repr

/-- Why a step has no meaning. -/
inductive Refusal where
  /-- Raised by an arm of `exec` for an instruction that has no meaning in this model yet. Safe. -/
  | notModelled (mnemonic : String)
  deriving DecidableEq, Repr

/-- The causes of a fault record (11 R207). -/
inductive Cause where
  | illegal | misalign | trans | perm | grant | vaultbound | ctlvec | accbusy | opbusy | geomnf | permx
  | ecall | ebreak | xlate | memnr | tagfail
  deriving DecidableEq, Repr

/-- The states of a context (03 R57, R58). -/
inductive CtxState where
  | empty | running | waiting | stopping | saved | faulted | frozen | dead | resuming
  deriving DecidableEq, Repr

/-- One fault record (03 R54, R56). -/
structure FaultRec where
  cause    : Cause
  fslot    : Nat
  fpc      : Nat
  felem    : Nat
  progress : Nat
  faddr    : Nat
  deriving DecidableEq, Repr

/-- What a WAITING context waits for (03 R57): the virga kind of the wait and its operand (11 R457). -/
structure Wait where
  kind    : Nat
  operand : Nat
  reg     : Nat
  deriving DecidableEq, Repr

/-- An operation of a strand that has issued and not completed, in the fields of a virga entry (11 R217, R457). -/
structure Op where
  /-- MODEL: the operation's name within its strand. -/
  id      : Nat
  kind    : Nat
  cls     : Nat
  func    : Nat
  reg     : Nat
  elem    : Nat
  slot    : Nat
  wlog    : Nat
  addr    : Nat
  opnd    : Nat
  tag     : Nat
  applied : Bool
  old     : Nat
  /-- Chunks (R217): length, chunk index, carried status and index. On an AMO or SC, MODEL: its aq and rl bits. -/
  len     : Nat
  idx     : Nat
  cst     : Nat
  cidx    : Nat
  /-- MODEL: the copy a chunk belongs to; the x register's pending token. -/
  group   : Nat
  /-- MODEL: the update has applied at its port and its response is on the way (R220). -/
  done    : Bool
  /-- MODEL: the host request that carries the access (04 R86). -/
  host    : Option Nat
  /-- MODEL: the address of the instruction or convoy that issued the operation, and the physical address that its
  translation gave. -/
  pc      : Nat
  pa      : Nat
  /-- The engine's buffer of a chunk or a command (21 R378): the bytes that the host or a peer has returned so far. -/
  buf     : List Nat
  /-- The status that a part written at the host or a peer has come to (21 R378). -/
  part    : Nat
  /-- Read from the frame at RUN and not yet reissued (11 R222). -/
  queued  : Bool
  deriving DecidableEq, Repr

/-- An asynchronous copy of a strand: its token or predicate, and the status its completed chunks reached
(21 R380-R382). -/
structure Copy where
  id     : Nat
  op5    : Nat
  reg    : Nat
  status : Nat
  sidx   : Nat
  issued : Bool
  /-- MODEL: of a copy of a saved strand, the places of its entries in the record. -/
  places : List Nat := []
  deriving DecidableEq, Repr

/-- An accepted engine command (21 R384): four doublewords, and the address of its convoy. -/
structure Cmd where
  w0 : Nat
  w1 : Nat
  w2 : Nat
  w3 : Nat
  deriving DecidableEq, Repr

/-- An x register whose write is still to come (09 R166). -/
structure Pend where
  reg : Nat
  tok : Nat
  deriving DecidableEq, Repr

/-- Where a convoy takes its VL from (16 R306, R308). -/
inductive VlSrc where
  | fixed (n : Nat)
  | mark (id : Nat)
  deriving DecidableEq, Repr

/-- A convoy in VA or VM (09 R163, 11 R213). -/
structure Convoy where
  /-- MODEL: place in commit order over both queues (25 R428). -/
  seq    : Nat
  addr   : Nat
  head   : Nat
  words  : List Nat
  vl     : VlSrc
  /-- Captured x operands, a list for each body word (R163, R213 XCAP). -/
  caps   : List (List Word)
  resk   : Nat
  rese   : Nat
  prog   : Nat
  drop   : Bool
  /-- Ranges locked for the strand when the convoy committed (22 R407). -/
  locks  : List (Nat × Nat)
  soft   : List (Nat × Nat × Nat × Nat) := []
  /-- Slots whose matrix word faults ACCBUSY, decided at commit (22 R397, R408). -/
  busy   : List Nat
  /-- Class T elements that have gone to their ports, and that issue does not repeat where it comes back to them: those after the
  resume point that stand in the record (09 R456), as (slot, element). -/
  sent   : List (Nat × Nat)
  /-- MODEL: elements that each slot of the segment has performed past the resume point, while a word waits (10 R193). -/
  ahead  : List Nat := []
  /-- The strip in which it commits (10 R196, 16 R306). -/
  strip  : Nat := 0
  deriving DecidableEq, Repr

/-- An entry of VA or VM: a convoy, one copy of a SETVLQ marker, or one copy of a fence marker. -/
inductive QEntry where
  | convoy (c : Convoy)
  | mark (id : Nat) (drop : Bool)
  | fence (word : Nat) (seq : Nat)
  deriving DecidableEq, Repr

/-- An open SETVLQ (09 R169, 11 R214). -/
structure Mark where
  id     : Nat
  word   : Nat
  val    : Option Nat
  vaPast : Bool
  vmPast : Bool
  deriving DecidableEq, Repr

/-- What a monitor is armed on (10 R203): a 64-byte line of physical space, or of a control page instance. -/
structure Monitor where
  world : Nat
  line  : Nat
  woken : Bool
  deriving DecidableEq, Repr

/-- A reservation (15 R297, R299). -/
structure Resv where
  addr    : Nat
  width   : Nat
  granule : Nat
  hold    : Bool
  deriving DecidableEq, Repr

/-- A child token (08 R153, R154). -/
structure Child where
  q     : Nat
  count : Nat
  done  : Option Nat
  deriving DecidableEq, Repr

/-- A batch of matrix words (22 R405-R408): how many words it has, the accumulators its steps target and the ranges
it locks. A batch leaves its strand's list when an MWAIT covers it. -/
structure Batch where
  id       : Nat
  /-- Its MCOMMIT has issued. -/
  closed   : Bool
  complete : Bool
  words    : Nat
  accs     : List Nat
  locks    : List (Nat × Nat)
  /-- Ranges that are locked if their row lies below the VL that a marker has still to give (16 R308): marker, row, address, bytes. -/
  soft     : List (Nat × Nat × Nat × Nat) := []
  deriving DecidableEq, Repr

/-- A matrix operation that the Anvil holds (22 R416): a step, one record of an MSTEPR or a load of B that is not complete. -/
structure MatOp where
  /-- MODEL: its operation in the strand, the place of its entry in the latest record, and the convoy and slot of its word. -/
  op     : Nat
  place  : Nat
  pc     : Nat
  slot   : Nat
  /-- Its kind, FUNC, x[xa] and x[xp], as its virga entry has them (11 R217, R457). -/
  kind   : Nat
  func   : Nat
  xa     : Nat
  xp     : Nat
  /-- Rows done, and the record index (R416). -/
  done   : Nat
  index  : Nat
  /-- The rows that it steps or loads, the first of them next; the id of its batch. -/
  rows   : List Nat
  batch  : Nat
  /-- A step whose parameters are clipped: one word. A record (R412): its doublewords, the record bands, its B once loaded, and
  whether an invalid block was met. `loaded`: the operation has begun. -/
  words  : List Nat
  bands  : Nat
  loaded : Bool
  b      : Tbl Nat
  rinv   : Bool
  /-- It goes on: not so between a stop and its replay (R218). -/
  live   : Bool
  deriving DecidableEq, Repr

/-- A strand's state on the Anvil while attached (22 R394, R398). -/
structure Anvil where
  grant : Nat
  fmt   : Option Nat
  nc    : Nat
  /-- Resident B: element code, plus 2^16 times the block scale for fp4, by K-row × 512 + column. -/
  b     : Tbl Nat
  /-- m0 to m3 as fp32 bits by m × 32768 + row × 512 + column. -/
  acc   : Tbl Slot
  astat : Nat
  /-- The open batch (id unused) and the committed ones, oldest first, from the commit of their MCOMMIT until they are
  covered. -/
  opn   : Batch
  done  : List Batch
  /-- Matrix operations not yet complete, in issue order (R416). -/
  held  : List MatOp
  deriving DecidableEq, Repr

/-- A strand's registers and streams (09 R160-R170). -/
structure Strand where
  x      : Tbl Word
  pc     : Word
  /-- Slot i of vn by n × 4096 + i. -/
  v      : Tbl Slot
  /-- Bit i of pn by n × 4096 + i. -/
  p      : Tbl Bool
  vv     : Tbl Bool
  vl     : Nat
  q      : Tbl (List Word)
  lq     : Tbl (List Nat)
  fflags : Nat
  va     : List QEntry
  vm     : List QEntry
  /-- MODEL: next commit number. -/
  seq    : Nat
  /-- The scalar stream's VL is pending on this marker (R308). -/
  vlMark : Option Nat
  marks  : List Mark
  pend   : List Pend
  ops    : List Op
  copies : List Copy
  cmds   : Tbl Cmd
  /-- Count of class T operations issued, modulo 2^18 (11 R219). -/
  tcnt   : Nat
  /-- MODEL: next operation name. -/
  opNext : Nat
  mon    : Option Monitor
  resv   : Option Resv
  kids   : List Child
  anvil  : Option Anvil
  /-- Batch counter (22 R405). -/
  bno    : Nat
  /-- MODEL: x registers that a convoy or a copy has written, or has still to write, and that no instruction has named since
  (R166, 18 R347); true for one that a length marker alone writes (16 R308). -/
  unread : List (Nat × Bool)
  /-- MODEL: number of the open strip: how many SETVL, SETVLI and SETVLQ have executed (10 R196). -/
  strip  : Nat
  /-- MODEL: the head of the queue was found waiting and nothing has changed since. -/
  vaHold : Bool
  vmHold : Bool
  /-- MODEL: turns by which the scalar stream leads its convoys since the last of them issued; 16 where it stalls. -/
  lead   : Nat
  deriving DecidableEq, Repr

/-- A context: its page (03 R54), and the strand that is bound to it. -/
structure Ctx where
  state    : CtxState
  cmdCnt   : BitVec 32
  cmdStat  : Nat
  fseq     : BitVec 32
  fslot    : Nat
  cause    : Nat
  fpc      : Nat
  progress : Nat
  felem    : Nat
  faddr    : Nat
  hvalid   : Bool
  handler  : Nat
  notify   : BitVec 32
  lastFault : Nat
  root     : Nat
  launch   : Nat
  widv     : Word
  resident : Bool
  slotNum  : Nat
  saveFrame : Nat
  resync   : BitVec 32
  virga    : Nat
  pcS      : Word
  vlS      : Nat
  fflagsS  : Nat
  elat     : Nat
  xS       : Tbl Word
  /-- Gang index within the launch, strand index within the gang, span log2 (08 R147). -/
  gang     : Nat
  index    : Nat
  span     : Nat
  /-- The fault being saved while STATE reads STOPPING (R57). -/
  fault    : Option FaultRec
  /-- The wait of a WAITING context. -/
  wait     : Option Wait
  /-- The context ran when the world was last switched out, or its gang pre-empted or rotated (08 R143, R149). -/
  ranAtSwitch : Bool
  /-- RUN has performed while the context had no slot or its world did not hold the fabric: it reads RESUMING, and its
  registers are loaded, from the fields as they stand, once it has both. -/
  due      : Bool
  /-- The STATE code that the page shows while a world switch keeps the context stopped (R57); 0: its own. -/
  heldState : Nat
  /-- Made DEAD from FAULTED (08 R155). -/
  deadFaulted : Bool
  strand   : Strand
  deriving DecidableEq, Repr

/-- Where a gang stands (08 R146-R151). -/
inductive GangState where
  | resident | preempted | rotating | rotated | ended
  deriving DecidableEq, Repr

/-- A gang that has been placed at least once. -/
structure Gang where
  state  : GangState
  /-- Context numbers of its strands, by strand index. -/
  ctxs   : List Nat
  /-- Global cores that hold an allocation, with the allocation's offset in the vault (10 R181). -/
  allocs : List (Nat × Nat)
  /-- Allocation size A in bytes (11 R212). -/
  size   : Nat
  cluster : Nat
  span   : Nat
  /-- Bands reserved on the cluster's Anvil (08 R147). -/
  bands  : Nat
  fails  : Nat
  /-- Order of dispatch and of stopping. -/
  order  : Nat
  stopOrder : Nat
  /-- Where the image of a rotated gang begins in the last GiB of the switch area (08 R151), and the granules that were
  dirty in it, as (position of the core, granule of the allocation) (07 R128). -/
  image  : Nat
  dirtyG : List (Nat × Nat)
  /-- MODEL: the contexts whose Anvil state stands in that image, in its order. -/
  anvils : List Nat
  deriving DecidableEq, Repr

/-- States of a launch (03 R60). -/
inductive LState where
  | never | pending | active | ackwait | done
  deriving DecidableEq, Repr

/-- A launch: its page (03 R60), the packet's contents and the dispatcher's record of it. -/
structure Launch where
  lstatus : Nat
  lstate  : LState
  total   : Nat
  dispatched : Nat
  doneg   : Nat
  residentg : Nat
  elat    : Nat
  rlat    : Nat
  features : Nat
  root    : Nat
  queue   : Nat
  peerpend : Nat
  fvalid  : Bool
  firstFault : Nat
  /-- Words 0x018, 0x020, 0x028 and 0x030 of the first faulting context's page when its gang ended (08 R154). -/
  faultRec : List Nat
  held    : Bool
  prio    : Nat
  preempt : Bool
  glvl    : Nat
  widths  : List Nat
  count   : Nat
  span    : Nat
  vkib    : Nat
  bands   : Nat
  entry   : Nat
  arg     : Nat
  caddr   : Nat
  cval    : Nat
  intr    : Bool
  /-- Place in its queue's order. -/
  order   : Nat
  nextGang : Nat
  /-- Undispatched gangs were discarded (R61). -/
  discarded : Bool
  /-- Failure count of the next undispatched gang (08 R146). -/
  fails   : Nat
  gangs   : Tbl Gang
  /-- Visit set (08 R152). -/
  visited : List Nat
  /-- End causes (08 R155). -/
  worldLost : Bool
  stalled : Bool
  killed  : Bool
  faultEnd : Bool
  lost    : Nat
  /-- Token of the SPAWN that made it, as (count appended to its queue) (R153). -/
  spawn   : Option Nat
  /-- DONE, its completion word has performed or will not be written, and the number may be bound again (06 R121). -/
  free    : Bool
  deriving DecidableEq, Repr

/-- A packet waiting in a queue (06 R114): the next ring slot, or an inline packet. -/
inductive QSrc where
  | ring
  | inl (dws : List Word) (secure : Bool) (spawn : Option Nat)
  deriving DecidableEq, Repr

/-- The packet that the parser has taken and is working on. -/
structure Packet where
  dws     : List Word
  inl     : Bool
  secure  : Bool
  spawn   : Option Nat
  /-- A WAITVALUE that blocks with its monitor armed (R119), or a WRITEVALUE whose store is on the way (R118). -/
  armed   : Bool
  line    : Nat
  /-- Physical address of the doubleword that a blocked WAITVALUE tests; a store has made its test true (06 R119). -/
  pa      : Nat
  hit     : Bool
  /-- Held at the head by BARRIER: not yet taken (06 R116). -/
  barred  : Bool
  /-- Its status and PERR, while its completion word waits to be written (06 R117, R120). -/
  ending  : Option (Nat × Nat)
  deriving DecidableEq, Repr

/-- A queue interface: its page (06 R111), its TDISP record (05 R101) and the parser's record. -/
structure Queue where
  owner   : Nat
  istate  : Nat
  qcmdCnt : BitVec 32
  qcmdStat : Nat
  root    : Nat
  pasidv  : Bool
  pasid   : Nat
  vector  : Nat
  preempt : Bool
  priocap : Nat
  rbase   : Nat
  rlog2   : Nat
  head    : BitVec 32
  tail    : BitVec 32
  childv  : Bool
  childq  : Nat
  malformed : Nat
  refused : Nat
  badpkt  : Nat
  compfail : Nat
  accepted : BitVec 32
  waiting : Bool
  overflow : Nat
  ringerr : Bool
  nonce   : Option Nat
  order   : List QSrc
  cur     : Option Packet
  /-- The request to the host that reads the ring slot at HEAD (04 R85, 06 R115). -/
  fetch   : Option Nat
  /-- Packets appended to this queue as SPAWN packets or otherwise (R153 token count). -/
  appended : Nat
  deriving DecidableEq, Repr

/-- A world: its page (05 R96), its keys, and what the policy core keeps about it. -/
structure World where
  fnFrozen : Bool
  compromised : Bool
  conf    : Bool
  wstate  : Nat
  wcmdCnt : BitVec 32
  wcmdStat : Nat
  fmask   : Nat
  zeroFill : Bool
  confreq : Bool
  tregion : Nat
  pwrgnt  : Nat
  mongnt  : Nat
  hostwin : Bool
  readygnt : Bool
  pwingnt : Nat
  plgnt   : Nat
  /-- (MBASE, MSIZE) of the eight ranges. -/
  ranges  : List (Nat × Nat)
  scrambler : Nat
  /-- Decryption streams with a key installed (05 R106): key and counter floor. -/
  streams : Tbl (Nat × Nat)
  /-- PA and SEQ of the latest manifest (07 R127). -/
  manifest : Option (Nat × Nat)
  /-- Smallest LAT of an accepted pre-empting launch, by priority (08 R150). -/
  smin    : Tbl Nat
  /-- Dirty bits of its vault granules while another world holds the fabric (07 R128). -/
  imageV  : List Nat
  /-- MODEL: the contexts whose Anvil state stands in its fabric image, in its order (08 R143). -/
  anvils  : List Nat
  /-- Served queue per priority, reservation (08 R146, R148), dispatch and stop order counters. -/
  served  : Tbl Nat
  reserve : Option (Nat × Nat × Nat × Nat)
  /-- Slots that pre-emption frees for a gang (08 R149): launch, gang, slot. -/
  claims  : List (Nat × Nat × Nat)
  orderNext : Nat
  deriving DecidableEq, Repr

/-- An MSI-X table entry in the standard layout (message address and data, vector control), its PBA bit and its
coalescing word (04 R89, R90). -/
structure Vec where
  maddr  : Nat
  mdata  : Nat
  pend   : Nat
  cntm1  : Nat
  hold   : Nat
  t0     : Nat
  masked : Bool
  pba    : Bool
  deriving DecidableEq, Repr

/-- An ATS invalidation of a function, waiting for the requests that used an old translation (04 R88). -/
structure Inval where
  fn   : Nat
  lo   : Nat
  hi   : Nat
  reqs : List Nat
  deriving DecidableEq, Repr

/-- An SPDM session on a mailbox (05 R103). -/
structure Session where
  id     : Nat
  secured : Bool
  keys   : Nat
  deriving DecidableEq, Repr

/-- A PCIe function as the host sees it (04): what its configuration enables (R79), MSI-X, host requests, translations,
mailbox. -/
structure Fn where
  fnMask : Bool
  vecs   : Tbl Vec
  master : Bool
  atomics : Bool
  pasidOn : Bool
  atsOn  : Bool
  priOn  : Bool
  /-- Cached host translations, by PASID and host page (R85, R88). -/
  atc    : List (Option Nat × Nat)
  /-- Page requests that have no response yet (R79, R86). -/
  prgs   : Nat
  aer    : List Nat
  /-- SPDM progress: 0 none, 1 version, 2 capabilities, 3 algorithms (05 R103). -/
  spdm   : Nat
  sessions : List Session
  /-- Selective IDE streams of the function (04 R79, R93), and those that are insecure (05 R108). -/
  selective : List Nat
  insecure : List Nat
  deriving DecidableEq, Repr

/-- A request to the host, or of an engine to a peer, that has no completion yet (04 R85, R86; 21 R378). -/
structure HReq where
  world   : Nat
  ctx     : Nat
  op      : Nat
  addr    : Nat
  len     : Nat
  pasid   : Option Nat
  /-- The peer link that carries the request, where it goes to a peer and not to the host (21 R378, R385). -/
  link    : Option Nat
  /-- The tag of the class T operation that it carries (11 R219). -/
  tag     : Option Nat
  /-- The access is a posted write, which waits for its translation before it retires. -/
  posted  : Bool
  /-- Its translation is still to come; the translation has been refused for good. -/
  asking  : Bool
  refused : Bool
  /-- An invalidation has reached the translation that is on its way (R88). -/
  stale   : Bool
  /-- It went out with a translated address (R85). -/
  translated : Bool
  retried : Bool
  /-- Discarded by KILL; the completion is still awaited (R88). -/
  dropped : Bool
  deriving DecidableEq, Repr

/-- The power page of a cluster (02 R32) and its regulator. -/
structure Power where
  reqMv   : Nat
  reqCnt  : BitVec 16
  result  : Nat
  changing : Bool
  target  : Nat
  cur     : Nat
  cap     : Nat
  limit   : Nat
  stall   : Word
  icount  : Word
  voltMv  : Nat
  tempC   : Nat
  hot     : Bool
  pwrlim  : Bool
  /-- Phase of the change in progress (R30): 0 none, 1 ramp up, 2 lock, 3 ramp down; the point it moves to. -/
  phase   : Nat
  goal    : Nat
  /-- ICOUNT at which that phase began. -/
  since   : Word
  /-- Point that the latest request resolved to (R34). -/
  want    : Nat
  /-- LIMIT that the power limiter holds; the thermal limiter is acting (R36, R37). -/
  plim    : Nat
  thermal : Bool
  winSeq  : Nat
  winStart : Word
  deriving DecidableEq, Repr

/-- A monitor block's page (02 R41). -/
structure Monit where
  freeze : Bool
  en     : Bool
  src    : Nat
  edges  : Tbl Nat
  min    : Nat
  max    : Nat
  count  : Nat
  sum    : Nat
  bins   : Tbl Nat
  /-- The latest multiple of 10 ticks, divided by 10, at which a level source was sampled (R43). -/
  beat   : Nat
  deriving DecidableEq, Repr

/-- A peer link's page (05 R109). -/
structure Peer where
  pfrozen : Bool
  faridv  : Bool
  farid   : Nat
  inen    : Bool
  inworld : Nat
  inbase  : Nat
  insize  : Nat
  violcnt : Nat
  tbldrop : Nat
  violoff : Nat
  indrop  : Nat
  deriving DecidableEq, Repr

/-- A write that waits at a port (01 R27, 07 R131): who made it, the key slot it was made under (05 R105), its physical
address and its bytes, and the peer link and the name of the request that is owed its acknowledgement (01 R22). -/
structure HeldW where
  world : Nat
  ctx   : Nat
  slot  : Nat
  pa    : Nat
  data  : List Byte
  ack   : Option (Nat × Nat)
  /-- The strip of a vector write (10 R196). -/
  strip : Option Nat := none
  deriving DecidableEq, Repr

/-- What a 16-byte descriptor of a peer link says (01 R15, R20; 10 R204, 21 R385): a remote store, a copy write with its
data, a read; and the answer to the request of a name: an acknowledgement, a refusal, data, or that it was dropped. -/
inductive PeerMsg where
  | store (id off size v : Nat)
  | write (id off : Nat) (data : List Nat)
  | read (id off len : Nat)
  | ack (id : Nat)
  | refuse (id : Nat)
  | data (id : Nat) (bytes : List Nat)
  | drop (id : Nat)
  deriving DecidableEq, Repr

/-- A 64-byte slot of a flit (01 R15): one line, or up to four descriptors. -/
inductive FSlot where
  | line (bytes : List Nat)
  | descs (ms : List PeerMsg)
  deriving DecidableEq, Repr

/-- A link flit (01 R15): bytes 0 to 15 hold the sequence number, the acknowledged one, the returned credits of the three
channels and the slots' descriptors (channel of each slot); bytes 16 to 271 the slots; bytes 272 to 287 the check. -/
structure Flit where
  seq     : BitVec 12
  ack     : BitVec 12
  credits : List Nat
  slots   : List (Nat × FSlot)
  deriving DecidableEq, Repr

/-- A memory or peer link's training and flit layer (01 R15, R16, R20, R27). -/
structure Link where
  /-- Lost training and retraining once on its own (R27). -/
  retraining : Bool
  /-- Retraining that a RETRAIN write asked for (R28). -/
  asked   : Bool
  /-- Has failed and not retrained since (R27, R28). -/
  failed  : Bool
  /-- Flits on the wire towards the device, each with what befell it: 0 nothing, 1 errors that the forward error
  correction corrects, 2 more. -/
  wire    : List (Nat × Flit)
  rxNext  : BitVec 12
  /-- Lines of accepted flits. -/
  rxGot   : List (List Nat)
  refused : Option Nat
  /-- Credits to give back with the next flit, by channel. -/
  owed    : Tbl Nat
  /-- An accepted flit with slots has not been acknowledged yet. -/
  ackDue  : Bool
  txNext  : BitVec 12
  /-- The retry buffer (R16, R19, R21), and its flits that are to be sent again. -/
  txRetry : List Flit
  txSend  : List Flit
  /-- Slots that wait for credit, by channel, and the credits of each (R20): 0 requests, 1 responses, 2 commands. -/
  txQ     : Tbl (List FSlot)
  credit  : Tbl Nat
  /-- Data capacity in MiB found at bring-up (R18). -/
  mib     : Nat
  deriving DecidableEq, Repr

/-- A 64-byte unit on the die network (01 R14): the dies it travels between, and the direction of an edge whose receiving
buffer it stands in (MODEL). -/
structure EUnit where
  src     : Nat
  dst     : Nat
  payload : Nat
  via     : Option Nat
  deriving DecidableEq, Repr

/-- One direction of a die-to-die edge (01 R14): units that wait for a credit or for room, units in the retry buffer, the
credits in use, and the units that ended their way at its far end. -/
structure Edge where
  wait  : List EUnit
  retry : List EUnit
  used  : Nat
  got   : List EUnit
  deriving DecidableEq, Repr

/-- The engine page of one world's instance of a cluster's copy engine (21 R387). -/
structure Engine where
  efrozen : Bool
  chunks  : Word
  bytes   : Word
  refused : Nat
  failed  : Nat
  lastst  : Nat
  deriving DecidableEq, Repr

/-- An entry of a sundog table (11 R220). -/
structure Sundog where
  tag : Nat
  port : Nat
  loc : Nat
  old : Nat
  deriving DecidableEq, Repr

/-- A remote store that has been sent and not acknowledged (10 R204, 08 R155). -/
structure Remote where
  id     : Nat
  link   : Nat
  world  : Nat
  launch : Nat
  deriving DecidableEq, Repr

/-- The readiness page (01 R23); bit masks as numbers. -/
structure Ready where
  gen     : Word
  iod     : Nat
  cdie    : Nat
  clu     : Nat
  anvil   : Nat
  mlinkX4 : Nat
  mgrp    : Nat
  mlink   : Nat
  mlinkFail : Nat
  plinkX4 : Nat
  plink   : Nat
  plinkFail : Nat
  fn      : Nat
  grpBytes : Nat
  lostw   : Nat
  deriving DecidableEq, Repr

/-- A record of the policy core's write-ahead log (06 R123). BEGIN gives the transaction's id and kind, WRITE the PA of a
state doubleword and its old and new value; that WRITE and STEP carry the id is the model's own (MODEL: the log's order
tells it where transactions do not overlap). -/
inductive WalRec where
  | begin_ (id : Nat) (kind : Nat) (arg : Nat)
  | write (id : Nat) (pa old new : Nat)
  | step (id : Nat) (n : Nat)
  | commit (id : Nat)
  | fin (id : Nat)
  deriving DecidableEq, Repr

/-- The policy core (06 R122-R125): an RV32IMC with 256 KiB of memory, its firmware verified at each boot. It serves; it is
recovering from its log; the next transaction's id. Its registers and memory hold its firmware's data, which the manual
does not lay out. -/
structure Core where
  up     : Bool
  recovering : Bool
  verified : Bool
  nextId : Nat
  regs   : Tbl (BitVec 32)
  pc     : BitVec 32
  mem    : Tbl Byte
  deriving DecidableEq, Repr

/-- A store that waits for the policy core, in arrival order (06 R125): a step that a host's store asks for, or a strand
that stalls at its own. -/
inductive Waiter where
  | ev (e : Event)
  | strand (w k : Nat)
  deriving DecidableEq, Repr

/-- A checkpoint or restore in progress (07 R126-R139). -/
structure CkOp where
  q       : Nat
  area    : Nat
  asize   : Nat
  base    : Nat
  ckid    : Nat
  full    : Bool
  start   : Nat
  /-- Launches that phase 1 stopped. -/
  stopped : List Nat
  /-- Page set, and the pages not yet copied. -/
  pages   : List Nat
  left    : List Nat
  /-- Captured with them (R130 phase 2): granules as global core × 64 + granule, dies and clusters that hold state of the
  world (R133), and the bytes of the die shards that are still to be written. -/
  grans   : List Nat
  dies    : List Nat
  clus    : List Nat
  image   : List (Tbl Byte)
  /-- Shards in the image's order: kind, index, PA, length, count. In a restore, those of the chain, the oldest manifest's
  first (R139); how many of them are the newest manifest's, and its SEQ. -/
  shards  : List (Nat × Nat × Nat × Nat × Nat)
  newest  : Nat
  seq     : Nat
  deriving DecidableEq, Repr

/-- The checkpoint engine page (07 R136) and its operation. -/
structure Ckpt where
  estate  : Nat
  world   : Nat
  ecmdCnt : BitVec 32
  lasterr : Nat
  rworld  : Nat
  rmanpa  : Nat
  pause   : Nat
  donen   : Nat
  totaln  : Nat
  lastman : Nat
  lastseq : Nat
  rdig    : Nat
  lastdig : Nat
  op      : Option CkOp
  deriving DecidableEq, Repr

/-- The quantum table and the world switch (08 R141-R143). -/
structure Quantum where
  table   : List (Nat × Nat)
  next    : Option (List (Nat × Nat))
  idx     : Nat
  world   : Nat
  /-- Length of the quantum in force in µs. -/
  len     : Nat
  /-- A switch in progress: incoming world and stage (1 stops, 2 save, 3 restore). -/
  switch  : Option (Nat × Nat)
  /-- The end of the quantum waits for the policy core (R125). -/
  deferred : Bool
  /-- Functions whose FLR waits for the saves of the switch in progress (04 R95). -/
  flrs    : List Nat
  deriving DecidableEq, Repr

/-- How a request to the host is addressed (04 R85): the requester's function, its PASID, the address, and whether that
address is a translated one. -/
structure Tlp where
  fn    : Nat
  pasid : Option Nat
  translated : Bool
  addr  : Nat
  deriving DecidableEq, Repr

/-- What leaves the device: messages and writes to the host, answers to the host's reads, flits, and replies on the
mailboxes. -/
inductive Out where
  | msix (fn v maddr mdata : Nat)
  | hostWrite (t : Tlp) (data : List Nat)
  | hostRead (t : Tlp) (len id : Nat)
  | hostAtomic (t : Tlp) (len op arg id : Nat)
  | atsAsk (t : Tlp) (id : Nat)
  | pageAsk (t : Tlp) (id : Nat)
  | inval (fn lo hi : Nat)
  | hostData (tag : Nat) (data : List Nat)
  | config (fn : Nat) (words : List Nat)
  | flit (link : Nat) (f : Flit)
  | reply (mb : Nat) (code : Nat) (data : List Nat)
  deriving DecidableEq, Repr

/-- A field of the configuration that the host writes (04 R79, R80, R93): the base of BAR0, BAR2 or BAR4 of the PF, or of
the VFs' apertures; bus mastering and the capabilities' enables; SR-IOV; the IDE streams. -/
inductive Cfg where
  | bar (i base : Nat)
  | vfBar (i base : Nat)
  | memory (on : Bool)
  | master (fn : Nat) (on : Bool)
  | atomics (fn : Nat) (on : Bool)
  | pasid (fn : Nat) (on : Bool)
  | ats (fn : Nat) (on : Bool)
  | pri (fn : Nat) (on : Bool)
  | mask (fn : Nat) (on : Bool)
  | vfEnable (n : Nat)
  | ideLink (on : Bool)
  | ideStream (fn stream : Nat) (on : Bool)
  deriving DecidableEq, Repr

/-- What comes to the device from outside: a step of the opcode table, a host's read or write of its BARs or of its
configuration (a write with every byte enabled or not, and 1 for one on the function's bound IDE stream with the T bit, 2 for
one on a wrong stream or PASID, 0 for one on none), the answer to a translation request, a sensor's reading, ticks of a cluster's or an I/O die's interval
counter, a flit, a unit put on the die network, slots that a controller hands to a link. -/
inductive Input where
  | ev (e : Event)
  | hostWrite (addr : Nat) (data : List Nat) (whole : Bool) (secure : Nat)
  | hostRead (addr n tag : Nat)
  | config (c : Cfg)
  | configRead (fn : Nat)
  | translation (id : Nat) (ok : Bool)
  | sensor (cluster temp : Nat)
  | ticks (cluster n : Nat)
  | ioTicks (die n : Nat)
  | flit (link noise : Nat) (f : Flit)
  | die (src dst payload : Nat)
  | slots (link channel : Nat) (ss : List FSlot)
  deriving DecidableEq, Repr

/-- Which party moves next (MODEL). -/
inductive Turn where
  | input
  | work (n : Nat)
  | scalar (w k : Nat)
  | va (w k : Nat)
  | vm (w k : Nat)
  /-- The head of VA, a geometric word, goes as far as element e of pass p (24 R427): a stop may land there. -/
  | part (w k p e : Nat)
  deriving DecidableEq, Repr

/-- Why issue halts at an element (MODEL): a fault; something that the convoy waits for (a queue register, a length
queue, a batch, a port, a granule); a host-window load whose request now goes out, with its type code, its
register, its kind of access, its width, its virtual and its host address; class T elements that now leave the core for
their ports, the first of them where issue halts; a store to the host window, of a width, that may ask for a translation
first; or an element of a pass of a geometric word that another turn goes on with (24 R427). -/
inductive Halt where
  | fault (c : Cause) (elem progress faddr : Nat)
  | wait (elem progress : Nat)
  | ask (elem ty reg sub width va host : Nat)
  | send (elem : Nat) (os : List Op)
  | gate (elem width host : Nat)
  | pause (elem progress : Nat)
  deriving DecidableEq, Repr

/-- The convoy word under way (MODEL): the queue it came from, its convoy, the slot, and the elements lo to hi - 1
that it covers; what halts issue at an element is kept. A geometric word goes no further than a pass and an element, where one is
named (24 R427). -/
structure Issue where
  vm    : Bool
  cv    : Convoy
  vl    : Nat
  slot  : Nat
  lo    : Nat
  hi    : Nat
  halt  : Option Halt
  cut   : Option (Nat × Nat) := none
  deriving DecidableEq, Repr

/-- The device. -/
structure State where
  /-- Memory and vault bytes by physical address (03 R44); an unlisted byte reads zero (01 R23, R28; 10 R181). -/
  mem     : Tbl Byte
  /-- Key slots of the lines' tags (05 R105): runs (first line, number of lines, slot), the newest first; a line
  in no run has slot 0. Lines whose code fails. -/
  lineSlot : List (Nat × Nat × Nat)
  lineBad : Tbl Bool
  ready   : Ready
  /-- Copies of MGRP_READY, CDIE_READY and PLINK_READY at the cores' ports (01 R24). -/
  portMgrp : Nat
  portCdie : Nat
  portPlink : Nat
  mlinks  : Tbl Link
  plinks  : Tbl Link
  /-- Edge directions of the die grid (01 R12), by 2 × edge + direction. -/
  edges   : Tbl Edge
  /-- Dies, clusters and Anvils that failed their self-test (01 R26). -/
  failDie : Nat
  failClu : Nat
  failAnvil : Nat
  /-- Writes that wait at their ports, oldest first (01 R27, 07 R131). -/
  heldW   : List HeldW
  power   : Tbl Power
  /-- Regulators off after a thermal trip (02 R37); power limiter's count of low intervals (R36). -/
  tripped : Bool
  lowIntervals : Nat
  monits  : Tbl Monit
  /-- Interval counters of the two I/O dies (02 R39). -/
  iod0    : Nat
  iod1    : Nat
  peers   : Tbl Peer
  remotes : List Remote
  worlds  : Tbl World
  queues  : Tbl Queue
  /-- Launches by world × 1024 + number; contexts by world × 16384 + number. -/
  launches : Tbl Launch
  ctxs    : Tbl Ctx
  /-- Engine pages by world × 80 + cluster. -/
  engines : Tbl Engine
  sundogs : List Sundog
  fns     : Tbl Fn
  hreqs   : Tbl HReq
  /-- ATS invalidations in arrival order (04 R88). -/
  invals  : List Inval
  /-- IDE link stream up; VF Enable and the number of VFs; bases of the PF's BAR0, BAR2 and BAR4 and of the VFs' apertures;
  memory space enabled (04 R79, R80, R93). -/
  ideLink : Bool
  vfEnable : Bool
  numVfs  : Nat
  pfBars  : List Nat
  vfBars  : List Nat
  memOn   : Bool
  quantum : Quantum
  ckpt    : Ckpt
  /-- Dirty 4 KiB pages; dirty vault granules by global core × 64 + granule (07 R128). -/
  dirty   : Tbl Bool
  dirtyV  : Tbl Bool
  /-- Policy core, PCGEN, its log, oldest record first, and the stores that wait for it (06 R122-R125). -/
  core    : Core
  pcgen   : BitVec 16
  wal     : List WalRec
  deferred : List Waiter
  /-- The host's reads that wait behind a write of their function: address, length, tag (03 R52). -/
  reads   : List (Nat × Nat × Nat)
  /-- Class T requests on their way to their ports whose strands have been saved (20 R374): world, context, operation. -/
  flights : List (Nat × Nat × Op)
  /-- MODEL: class T operations are left to WRITE_QUEUE_UPDATE and OPERATION_RESPONSE when set. -/
  deferPorts : Bool
  /-- MODEL: counters that name fresh values, remote stores and host requests. -/
  fresh   : Nat
  /-- MODEL: what has left the device, oldest first. -/
  out     : List Out
  /-- MODEL: what comes from outside, the device's own follow-up steps, those of them that wait at a port, the turns to
  come, the strand in turn. -/
  inputs  : List Input
  work    : List Event
  parked  : List Event
  /-- MODEL: the event under way, whose operands its meaning reads. -/
  ev      : Event
  sched   : List Turn
  cur     : Nat × Nat
  issue   : Option Issue
  deriving DecidableEq, Repr

/-! ## Reset values: the records as they stand where nothing has been written -/

def Anvil.zero : Anvil :=
  { grant := 0, fmt := none, nc := 0, b := [], acc := [], astat := 0,
    opn := { id := 0, closed := false, complete := false, words := 0, accs := [], locks := [] }, done := [],
    held := [] }

/-- A strand at binding (09 R160): every register zero, every queue empty. -/
def Strand.zero : Strand :=
  { x := [], pc := 0, v := [], p := [], vv := [], vl := 0, q := [], lq := [], fflags := 0, va := [], vm := [],
    seq := 0, vlMark := none, marks := [], pend := [], ops := [], copies := [], cmds := [], tcnt := 0, opNext := 0,
    mon := none, resv := none, kids := [], anvil := none, bno := 0, unread := [], strip := 0, vaHold := false,
    vmHold := false, lead := 0 }

/-- An EMPTY context. -/
def Ctx.zero : Ctx :=
  { state := .empty, cmdCnt := 0, cmdStat := 0, fseq := 0, fslot := 0, cause := 0, fpc := 0, progress := 0,
    felem := 0, faddr := 0, hvalid := false, handler := 0, notify := 0, lastFault := 0, root := 0, launch := 0,
    widv := 0, resident := false, slotNum := 0, saveFrame := 0, resync := 0, virga := 0, pcS := 0, vlS := 0,
    fflagsS := 0, elat := 0, xS := [], gang := 0, index := 0, span := 0, fault := none, wait := none,
    ranAtSwitch := false, due := false, heldState := 0, deadFaulted := false, strand := Strand.zero }

def Gang.zero : Gang :=
  { state := .ended, ctxs := [], allocs := [], size := 0, cluster := 0, span := 0, bands := 0, fails := 0,
    order := 0, stopOrder := 0, image := 0, dirtyG := [], anvils := [] }

/-- A launch number never bound (03 R60). -/
def Launch.zero : Launch :=
  { lstatus := 0, lstate := .never, total := 0, dispatched := 0, doneg := 0, residentg := 0, elat := 0, rlat := 0,
    features := 0, root := 0, queue := 0, peerpend := 0, fvalid := false, firstFault := 0, faultRec := [], held := false, prio := 0,
    preempt := false, glvl := 0, widths := [], count := 0, span := 0, vkib := 0, bands := 0, entry := 0, arg := 0,
    caddr := 0, cval := 0, intr := false, order := 0, nextGang := 0, discarded := false, fails := 0, gangs := [],
    visited := [], worldLost := false, stalled := false, killed := false, faultEnd := false, lost := 0,
    spawn := none, free := false }

/-- A queue page at power-on (06 R111). -/
def Queue.zero : Queue :=
  { owner := 0, istate := 0, qcmdCnt := 0, qcmdStat := 0, root := 0, pasidv := false, pasid := 0, vector := 0,
    preempt := false, priocap := 7, rbase := 0, rlog2 := 0, head := 0, tail := 0, childv := false, childq := 0,
    malformed := 0, refused := 0, badpkt := 0, compfail := 0, accepted := 0, waiting := false, overflow := 0,
    ringerr := false, nonce := none, order := [], cur := none, fetch := none, appended := 0 }

/-- A FREE world (05 R96). -/
def World.zero : World :=
  { fnFrozen := false, compromised := false, conf := false, wstate := 0, wcmdCnt := 0, wcmdStat := 0, fmask := 0,
    zeroFill := false, confreq := false, tregion := 0, pwrgnt := 0, mongnt := 0, hostwin := false, readygnt := false,
    pwingnt := 0, plgnt := 0, ranges := [(0, 0), (0, 0), (0, 0), (0, 0), (0, 0), (0, 0), (0, 0), (0, 0)],
    scrambler := 0, streams := [], manifest := none, smin := [], imageV := [], anvils := [], served := [], reserve := none,
    claims := [], orderNext := 0 }

/-- A vector after FLR (04 R89); the standard's reset of the vector's mask is 1. -/
def Vec.zero : Vec :=
  { maddr := 0, mdata := 0, pend := 0, cntm1 := 0, hold := 0, t0 := 0, masked := true, pba := false }

def Fn.zero : Fn :=
  { fnMask := false, vecs := [], master := false, atomics := false, pasidOn := false, atsOn := false, priOn := false,
    atc := [], prgs := 0, aer := [], spdm := 0, sessions := [], selective := [], insecure := [] }

/-- A power page when its cluster becomes ready (02 R32). -/
def Power.zero : Power :=
  { reqMv := 800, reqCnt := 0, result := 0, changing := false, target := 4, cur := 4, cap := 7, limit := 7,
    stall := 0, icount := 0, voltMv := 800, tempC := 0, hot := false, pwrlim := false, phase := 0, goal := 4,
    since := 0, want := 4, plim := 7, thermal := false, winSeq := 0, winStart := 0 }

/-- A monitor page (02 R41). -/
def Monit.zero : Monit :=
  { freeze := false, en := false, src := 0, edges := [], min := 2 ^ 32 - 1, max := 0, count := 0, sum := 0,
    bins := [], beat := 0 }

/-- A peer-link page at power-on (05 R109). -/
def Peer.zero : Peer :=
  { pfrozen := false, faridv := false, farid := 0, inen := false, inworld := 0, inbase := 0, insize := 0,
    violcnt := 0, tbldrop := 0, violoff := 0, indrop := 0 }

def Link.zero : Link :=
  { retraining := false, asked := false, failed := false, wire := [], rxNext := 0, rxGot := [], refused := none, owed := [],
    ackDue := false, txNext := 0, txRetry := [], txSend := [], txQ := [], credit := [], mib := 0 }

def Edge.zero : Edge := { wait := [], retry := [], used := 0, got := [] }

/-- An engine page when its world is created (21 R387). -/
def Engine.zero : Engine := { efrozen := false, chunks := 0, bytes := 0, refused := 0, failed := 0, lastst := 0 }

/-- The readiness page at power-on reset (01 R23). -/
def Ready.zero : Ready :=
  { gen := 0, iod := 0, cdie := 0, clu := 0, anvil := 0, mlinkX4 := 0, mgrp := 0, mlink := 0, mlinkFail := 0,
    plinkX4 := 0, plink := 0, plinkFail := 0, fn := 0, grpBytes := 0, lostw := 0 }

/-- The checkpoint engine page at power-on (07 R136). -/
def Ckpt.zero : Ckpt :=
  { estate := 0, world := 0, ecmdCnt := 0, lasterr := 0, rworld := 0, rmanpa := 0, pause := 0, donen := 0,
    totaln := 0, lastman := 0, lastseq := 0, rdig := 0, lastdig := 0, op := none }

/-- The quantum table at power-on (08 R141): one entry, world 0 with 10,000 µs. -/
def Quantum.zero : Quantum :=
  { table := [(0, 10000)], next := none, idx := 0, world := 0, len := 10000, switch := none, deferred := false,
    flrs := [] }

/-- The policy core before it has booted. -/
def Core.zero : Core :=
  { up := false, recovering := false, verified := false, nextId := 0, regs := [], pc := 0, mem := [] }

/-- The machine right after power-on reset: every page at its Reset column, no world, no context, no launch; the
policy core has not booted and nothing is ready. -/
def State.reset : State :=
  { mem := [], lineSlot := [], lineBad := [], ready := Ready.zero, portMgrp := 0, portCdie := 0, portPlink := 0,
    mlinks := [], plinks := [], edges := [],
    failDie := 0, failClu := 0, failAnvil := 0, heldW := [], power := [], tripped := false, lowIntervals := 0, monits := [],
    iod0 := 0, iod1 := 0, peers := [], remotes := [], worlds := [], queues := [], launches := [], ctxs := [],
    engines := [], sundogs := [], fns := [], hreqs := [], invals := [],
    ideLink := false, vfEnable := false, numVfs := 0, pfBars := [0, 0, 0], vfBars := [0, 0, 0], memOn := false,
    quantum := Quantum.zero, ckpt := Ckpt.zero, dirty := [], dirtyV := [], core := Core.zero, pcgen := 0, wal := [],
    deferred := [], reads := [], flights := [], deferPorts := false, fresh := 0, out := [], inputs := [], work := [], parked := [], ev := { what := .nop, args := [], data := [] }, sched := [],
    cur := (0, 0), issue := none }

end Sys2Proof.Machine
end

