-- ==== Sys2Proof/Machine/Tables.lean ====
section
/-!
DEFINITION. Sparse tables and the bit fields of numbers: how the machine's plain data are read and written.
-/

namespace Sys2Proof.Machine

/-! ## Sparse tables -/

/-- The value at a key; a key that is not listed has the default. -/
def tget {α : Type} (d : α) : Tbl α → Nat → α
  | [], _ => d
  | (j, v) :: t, k => if j = k then v else tget d t k

/-- Write one entry, keeping the keys rising. -/
def tset {α : Type} (k : Nat) (v : α) : Tbl α → Tbl α
  | [] => [(k, v)]
  | (j, w) :: t =>
    if k < j then (k, v) :: (j, w) :: t else if k = j then (k, v) :: t else (j, w) :: tset k v t

/-- Write one entry and keep the canonical form: an entry equal to the default is not listed. -/
def tput {α : Type} [DecidableEq α] (d : α) (k : Nat) (v : α) (t : Tbl α) : Tbl α :=
  if v = d then t.filter (fun e => decide (e.1 ≠ k)) else tset k v t

/-- Entries with keys from lo to lo + n - 1. -/
def tslice {α : Type} (lo n : Nat) (t : Tbl α) : Tbl α :=
  t.filter fun e => decide (lo ≤ e.1) && decide (e.1 < lo + n)

/-- The table without its entries from lo to lo + n - 1. -/
def terase {α : Type} (lo n : Nat) (t : Tbl α) : Tbl α :=
  t.filter fun e => decide (e.1 < lo) || decide (lo + n ≤ e.1)

/-- Entries for a run of values from a key on, those equal to the default left out. -/
def trun {α : Type} [DecidableEq α] (d : α) : Nat → List α → Tbl α
  | _, [] => []
  | k, v :: vs => if v = d then trun d (k + 1) vs else (k, v) :: trun d (k + 1) vs

/-- Replace a run of values. -/
def tputRun {α : Type} [DecidableEq α] (d : α) (k : Nat) (vs : List α) (t : Tbl α) : Tbl α :=
  t.filter (fun e => decide (e.1 < k)) ++ trun d k vs ++ t.filter (fun e => decide (k + vs.length ≤ e.1))

/-- The values at the keys from k on. -/
def tvals {α : Type} (d : α) (k n : Nat) (t : Tbl α) : List α := (List.range n).map fun i => tget d t (k + i)

/-- The canonical form: keys strictly rising, no entry equal to the default. -/
def twf {α : Type} [DecidableEq α] (d : α) : Tbl α → Bool
  | [] => true
  | [(_, v)] => decide (v ≠ d)
  | (j, v) :: (k, w) :: t => decide (v ≠ d) && decide (j < k) && twf d ((k, w) :: t)

/-! ## Bits of numbers (R2) -/

/-- Bits hi to lo of a number. -/
def bits (v hi lo : Nat) : Nat := v / 2 ^ lo % 2 ^ (hi + 1 - lo)

/-- Bit i of a number. -/
def bit (v i : Nat) : Bool := v / 2 ^ i % 2 == 1

/-- A number with its bits hi to lo replaced. -/
def setBits (v hi lo x : Nat) : Nat :=
  v - bits v hi lo * 2 ^ lo + x % 2 ^ (hi + 1 - lo) * 2 ^ lo

/-- A number with one bit set or cleared. -/
def setBit (v i : Nat) (b : Bool) : Nat := setBits v i i b.toNat

/-- Bits of `v` that are clear in `mask` (a W1C write, R6). -/
def clearBits (v mask : Nat) : Nat := Nat.xor v (Nat.land v mask)

/-- Sign extension of the low w bits to a doubleword. -/
def sext (w v : Nat) : Word := (BitVec.ofNat w v).signExtend 64

/-- The low w bits as a signed number. -/
def toSigned (w v : Nat) : Int := (BitVec.ofNat w v).toInt

/-- The low w bits of a signed number. -/
def ofSigned (w : Nat) (v : Int) : Nat := (BitVec.ofInt w v).toNat

/-- Little-endian bytes of a number (R2). -/
def bytesOf : Nat → Nat → List Byte
  | 0, _ => []
  | n + 1, v => BitVec.ofNat 8 v :: bytesOf n (v / 256)

/-- The number that little-endian bytes hold. -/
def natOf : List Byte → Nat
  | [] => 0
  | b :: r => b.toNat + 256 * natOf r

/-- A count that saturates at 2^w - 1. -/
def satInc (w v : Nat) : Nat := if v + 1 < 2 ^ w then v + 1 else 2 ^ w - 1

/-- Position i of a list, or a default. -/
def nth {α : Type} (d : α) (l : List α) (i : Nat) : α := (l[i]?).getD d

/-- A list with position i replaced. -/
def setNth {α : Type} (l : List α) (i : Nat) (v : α) : List α := l.set i v

/-- Numbers from lo to hi - 1. -/
def rangeFrom (lo hi : Nat) : List Nat := (List.range (hi - lo)).map (lo + ·)

end Sys2Proof.Machine
end

