-- ==== Sys2Proof/Machine/Ops.lean ====
section
/-!
DEFINITION. The named operations over the machine: records by number, registers, physical memory with its
line tags, what a write wakes, and taking a fault.
-/

namespace Sys2Proof.Machine

/-- An event without data. -/
def event (i : Instr) (args : List Nat) : Event := { what := i, args := args, data := [] }

/-- What a meaning answers. -/
abbrev Res := Host.Outcome State Fault Refusal

/-! ## Records by number -/

def ctxKey (w k : Nat) : Nat := w * 16384 + k
def launchKey (w l : Nat) : Nat := w * 1024 + l
def engineKey (w c : Nat) : Nat := w * 80 + c

def State.ctx (s : State) (w k : Nat) : Ctx := tget Ctx.zero s.ctxs (ctxKey w k)
def State.putCtx (s : State) (w k : Nat) (c : Ctx) : State := { s with ctxs := tset (ctxKey w k) c s.ctxs }
def State.modCtx (s : State) (w k : Nat) (f : Ctx → Ctx) : State := s.putCtx w k (f (s.ctx w k))
def State.modStrand (s : State) (w k : Nat) (f : Strand → Strand) : State :=
  s.modCtx w k fun c => { c with strand := f c.strand }

def State.launch (s : State) (w l : Nat) : Launch := tget Launch.zero s.launches (launchKey w l)
def State.modLaunch (s : State) (w l : Nat) (f : Launch → Launch) : State :=
  { s with launches := tset (launchKey w l) (f (s.launch w l)) s.launches }

def State.world (s : State) (w : Nat) : World := tget World.zero s.worlds w
def State.modWorld (s : State) (w : Nat) (f : World → World) : State :=
  { s with worlds := tset w (f (s.world w)) s.worlds }

def State.queue (s : State) (q : Nat) : Queue := tget Queue.zero s.queues q
def State.modQueue (s : State) (q : Nat) (f : Queue → Queue) : State :=
  { s with queues := tset q (f (s.queue q)) s.queues }

def State.engine (s : State) (w c : Nat) : Engine := tget Engine.zero s.engines (engineKey w c)
def State.modEngine (s : State) (w c : Nat) (f : Engine → Engine) : State :=
  { s with engines := tset (engineKey w c) (f (s.engine w c)) s.engines }

def State.fn (s : State) (n : Nat) : Fn := tget Fn.zero s.fns n
def State.modFn (s : State) (n : Nat) (f : Fn → Fn) : State := { s with fns := tset n (f (s.fn n)) s.fns }

def State.pow (s : State) (c : Nat) : Power := tget Power.zero s.power c
def State.modPow (s : State) (c : Nat) (f : Power → Power) : State := { s with power := tset c (f (s.pow c)) s.power }

def State.monit (s : State) (b : Nat) : Monit := tget Monit.zero s.monits b
def State.modMonit (s : State) (b : Nat) (f : Monit → Monit) : State :=
  { s with monits := tset b (f (s.monit b)) s.monits }

def State.peer (s : State) (n : Nat) : Peer := tget Peer.zero s.peers n
def State.modPeer (s : State) (n : Nat) (f : Peer → Peer) : State := { s with peers := tset n (f (s.peer n)) s.peers }

def State.mlink (s : State) (n : Nat) : Link := tget Link.zero s.mlinks n
def State.modMlink (s : State) (n : Nat) (f : Link → Link) : State :=
  { s with mlinks := tset n (f (s.mlink n)) s.mlinks }

def State.plink (s : State) (n : Nat) : Link := tget Link.zero s.plinks n
def State.modPlink (s : State) (n : Nat) (f : Link → Link) : State :=
  { s with plinks := tset n (f (s.plink n)) s.plinks }

/-! ## Stores that wait for the policy core (06 R125) -/

/-- Those that wait, oldest first; a strand that has stopped waits no longer. -/
def State.waiting (s : State) : List Waiter :=
  s.deferred.filter fun x => match x with | .strand w k => (s.ctx w k).state == .running | .ev _ => true

/-- The oldest of them, where it is a step, is to be tried. -/
def State.drain (s : State) : State :=
  match s.waiting with
  | .ev e :: _ => if s.core.up && !s.work.contains e then { s with work := s.work ++ [e] } else s
  | _ => s

/-- The step under way needs the policy core: it is done if the core serves and no earlier store waits; otherwise it waits
in arrival order. -/
def State.serve (s : State) (f : State → State) : State :=
  if !s.core.up then { s with deferred := s.deferred ++ [.ev s.ev] }
  else match s.waiting with
    | [] => f { s with deferred := [] }
    | x :: r => if x = .ev s.ev then (f { s with deferred := r }).drain
      else { s with deferred := s.deferred ++ [.ev s.ev] }

/-- A write of a function to its BAR0 or BAR2 waits: its later ones come after it (03 R52, 04 R84). -/
def State.barWaits (s : State) (fn : Nat) : Bool :=
  s.deferred.any fun x => match x with
    | .ev e => (e.what == .controlWordWrite || e.what == .launchRegisterWrite) && e.arg 0 == fn
    | .strand _ _ => false

/-- A store of strand (w, k) needs the policy core: it may go now, or the strand stalls and keeps its place. -/
def State.mayServe (s : State) (w k : Nat) : Bool :=
  s.core.up && match s.waiting with | [] => true | x :: _ => x == .strand w k

/-- The strand's place among those that wait: taken, or given up where its store goes. -/
def State.enqueue (s : State) (w k : Nat) : State :=
  if s.deferred.contains (.strand w k) then s else { s with deferred := s.deferred ++ [.strand w k] }
def State.dequeue (s : State) (w k : Nat) : State :=
  ({ s with deferred := s.deferred.filter fun x => x != .strand w k } : State).drain

/-- The context numbers of a world that are bound, in rising order (03 R53). -/
def State.bound (s : State) (w : Nat) : List Nat :=
  (tslice (w * 16384) 16384 s.ctxs).filterMap fun e =>
    if e.2.state = .empty then none else some (e.1 - w * 16384)

/-- Bound contexts of a launch. -/
def State.ctxsOf (s : State) (w l : Nat) : List Nat := (s.bound w).filter fun k => (s.ctx w k).launch == l

/-! ## The strand in turn -/

def State.me (s : State) : Ctx := s.ctx s.cur.1 s.cur.2
def State.strand (s : State) : Strand := s.me.strand
def State.onStrand (s : State) (f : Strand → Strand) : State := s.modStrand s.cur.1 s.cur.2 f

/-- A scalar register; x0 reads zero (09 R160). -/
def Strand.rx (t : Strand) (n : Nat) : Word := if n = 0 then 0 else tget 0 t.x n

/-- Write a scalar register; a write to x0 is discarded (13 R252). -/
def Strand.wx (t : Strand) (n : Nat) (v : Word) : Strand := if n = 0 then t else { t with x := tput 0 n v t.x }

def State.rx (s : State) (n : Nat) : Word := s.strand.rx n
def State.wx (s : State) (n : Nat) (v : Word) : State := s.onStrand fun t => t.wx n v
def State.pc (s : State) : Word := s.strand.pc
def State.setPc (s : State) (v : Word) : State := s.onStrand fun t => { t with pc := v }

/-- The launch of the strand in turn. -/
def State.myLaunch (s : State) : Launch := s.launch s.cur.1 s.me.launch

/-- A context of a launch has retired an instruction, or its wait is over: the launch's visit set is emptied (08 R152). -/
def State.progress (s : State) (w l : Nat) : State :=
  if (s.launch w l).visited.isEmpty then s else s.modLaunch w l fun x => { x with visited := [] }

/-- A scalar instruction retires, and PC moves on (13 R249). -/
def State.retire (s : State) (pc : Word) : State :=
  (s.onStrand fun t => { t with pc := pc }).progress s.cur.1 s.me.launch

/-- PC past a scalar instruction (13 R249). -/
def State.advance (s : State) : State := s.retire (s.pc + 4)

/-! ## Where a gang's strands lie (08 R147, 10 R183, 11 R212) -/

/-- Virga limit N of a latency class (R150, R212). -/
def virgaLimit : Nat → Nat | 0 => 256 | 1 => 1024 | 2 => 4096 | _ => 8192

/-- Vector slots for each slice (R173, R212). -/
def mvlSlice : Nat → Nat | 0 => 128 | 1 => 256 | _ => 512

/-- Band clamp of a class (R150). -/
def bandClamp : Nat → Nat | 0 => 4 | 1 => 8 | _ => 16

/-- Maximum vector length of a strand (R173). -/
def mvlOf (elat span : Nat) : Nat :=
  if span = 0 then mvlSlice elat else if elat ≥ 2 then 512 * 2 ^ span else mvlSlice elat

def Ctx.mvl (c : Ctx) : Nat := mvlOf c.elat c.span

/-- Private slice size S (R183). -/
def sliceSize (vkib : Nat) : Nat := Nat.min 65536 (vkib * 128) / 4096 * 4096

/-- Save frame size F (R212). -/
def frameSize (elat : Nat) : Nat := 24576 + 32 * virgaLimit elat + 256 * mvlSlice elat

/-- Largest number of a gang's strands on one core. -/
def perCore (n span : Nat) : Nat := if span = 0 then (n + 7) / 8 else n

/-- Allocation size A (R212). -/
def allocSize (vkib n span elat : Nat) : Nat :=
  Nat.max (vkib * 1024) (perCore n span * (sliceSize vkib + frameSize elat))

/-- Position of strand j on its core (R183). -/
def position (j span : Nat) : Nat := if span = 0 then j / 8 else j

/-- Physical address of a vault byte (R44). -/
def vaultPA (core off : Nat) : Nat := 8 * 2 ^ 48 + core / 80 * 2 ^ 29 + core % 80 * 2 ^ 22 + off

/-- Global core on which a context's slice t lies. -/
def Ctx.core (c : Ctx) (t : Nat) : Nat := c.slotNum / 4 + 80 * t

/-- Cluster of a global core: eight cores each, numbered die × 10 + cluster. -/
def clusterOf (core : Nat) : Nat := core / 80 * 10 + core % 80 / 8

/-- Global cores of a global cluster. -/
def coresOf (cluster : Nat) : List Nat := (List.range 8).map fun c => cluster / 10 * 80 + cluster % 10 * 8 + c

/-- The gang of a context. -/
def State.gangOf (s : State) (w k : Nat) : Gang :=
  tget Gang.zero (s.launch w (s.ctx w k).launch).gangs (s.ctx w k).gang

/-- Where a gang's allocation begins in the vault of a core. -/
def Gang.allocAt (g : Gang) (core : Nat) : Option Nat := (g.allocs.find? fun a => a.1 == core).map (·.2)

/-! ## The physical map (03 R44-R46) -/

/-- What a physical address names. -/
inductive Place where
  | memory
  | vault (core off : Nat)
  | page (kind idx off : Nat)
  | peer (id off : Nat)
  | host (a : Nat)
  | nothing
  deriving DecidableEq, Repr

/-- How many pages a control-page kind has (R46). -/
def pageCount : Nat → Nat
  | 0x00 => 1 | 0x01 => 129 | 0x02 => 32768 | 0x03 => 1024 | 0x04 => 16384 | 0x05 => 80 | 0x06 => 168
  | 0x07 => 80 | 0x08 => 16 | 0x09 => 1 | _ => 0

/-- Kinds with a page for each world (R47). -/
def instanced (kind : Nat) : Bool := kind == 3 || kind == 4 || kind == 7

/-- First byte of the policy core's protected region (05 R98). -/
def protectedBase (s : State) : Nat := 6 * s.ready.grpBytes - 2 ^ 30

def place (s : State) (pa : Nat) : Place :=
  let r := bits pa 51 48
  if r < 8 then (if pa < protectedBase s then .memory else .nothing)
  else if r = 8 then
    (if bits pa 47 32 = 0 ∧ bits pa 28 22 < 80 ∧ bits pa 21 0 < 0x300000 then
      .vault (bits pa 31 29 * 80 + bits pa 28 22) (bits pa 21 0) else .nothing)
  else if r = 9 then
    (if bits pa 39 12 < pageCount (bits pa 47 40) then .page (bits pa 47 40) (bits pa 39 12) (bits pa 11 0)
     else .nothing)
  else if r = 10 then .peer (bits pa 47 42) (bits pa 41 0)
  else if r = 11 then .host (bits pa 47 0)
  else .nothing

/-- Physical address of a control word. -/
def pagePA (kind idx off : Nat) : Nat := 9 * 2 ^ 48 + kind * 2 ^ 40 + idx * 2 ^ 12 + off

/-- Memory link and group of an address (01 R18). -/
def groupOf (s : State) (pa : Nat) : Nat := pa / s.ready.grpBytes
def linkOf (s : State) (pa : Nat) : Nat := 4 * groupOf s pa + Nat.xor (bits pa 13 12) (bits pa 17 16)

/-- Channel of its buffer chip that an address lies on (01 R18). -/
def channelOf (pa : Nat) : Nat := bits pa 8 8

/-- Whether an address is in the memory region, whose lines carry tags (05 R105). -/
def isMem (pa : Nat) : Bool := decide (pa < 2 ^ 51)

/-! ## The fabric and the switch area (08 R143, R144) -/

/-- The world's state stands on the fabric: it holds the quantum, and no switch has saved it (08 R143). -/
def onFabric (s : State) (w : Nat) : Bool :=
  s.quantum.world == w && match s.quantum.switch with | none => true | some (_, st) => st != 2

/-- Used ranges of a world (05 R96): base and size in GiB. -/
def usedRanges (x : World) : List (Nat × Nat) := x.ranges.filter fun r => r.2 != 0

/-- The highest-numbered used range of a world (R144). -/
def topRange (x : World) : Nat × Nat := (usedRanges x).getLastD (0, 0)

/-- First byte of a world's switch area of 4 GiB (R144). -/
def switchArea (s : State) (w : Nat) : Nat :=
  let r := if w = 0 then nth (0, 0) (s.world 0).ranges 0 else topRange (s.world w)
  (r.1 + r.2 - 4) * 2 ^ 30

/-- Where a vault byte stands in a world's fabric image. The manual lays the image out nowhere: a core's 3 MiB follow one
another by global core, then come the Anvils (DESIGN CHOICE, assumption 61). -/
def imagePA (s : State) (w core off : Nat) : Nat := switchArea s w + core * 0x300000 + off

/-- Where the parser, the dispatcher and the engines of a world find a byte: a vault byte of a world off the fabric stands
in its image. -/
def unitPA (s : State) (w pa : Nat) : Nat :=
  match place s pa with
  | .vault core off => if onFabric s w then pa else imagePA s w core off
  | _ => pa

/-! ## Line tags (05 R104, R105) -/

def keySlot (s : State) (w : Nat) : Nat := if (s.world w).conf then w else 0

def slotOf : List (Nat × Nat × Nat) → Nat → Nat
  | [], _ => 0
  | (f, n, k) :: r, line => if f ≤ line ∧ line < f + n then k else slotOf r line

/-- Lines that a run of bytes touches. -/
def linesOf (pa n : Nat) : List Nat := rangeFrom (pa / 64) ((pa + n + 63) / 64)

/-- A read under a key slot meets a line of that slot whose code fails. -/
def tagFails (s : State) (slot pa n : Nat) : Bool :=
  isMem pa && (linesOf pa n).any fun l => tget false s.lineBad l && slotOf s.lineSlot l == slot

/-- A write under a key slot meets such a line and does not cover it (R455). -/
def writeTagFails (s : State) (slot pa n : Nat) : Bool :=
  isMem pa && (linesOf pa n).any fun l =>
    tget false s.lineBad l && slotOf s.lineSlot l == slot && !(decide (pa ≤ l * 64) && decide (l * 64 + 64 ≤ pa + n))

/-- One byte as a party with a key slot reads it: a line of another slot reads zero. -/
def readByte (s : State) (slot pa : Nat) : Byte :=
  if isMem pa && slotOf s.lineSlot (pa / 64) != slot then 0 else tget 0 s.mem pa

def readBytes (s : State) (slot pa n : Nat) : List Byte := (List.range n).map fun i => readByte s slot (pa + i)

/-- A little-endian number of n bytes. -/
def readNum (s : State) (slot pa n : Nat) : Nat := natOf (readBytes s slot pa n)

/-- The bytes of a range that are not zero, by offset: a long read. -/
def readCells (s : State) (slot pa n : Nat) : Tbl Byte :=
  ((tslice pa n s.mem).filter fun e => !(isMem e.1 && slotOf s.lineSlot (e.1 / 64) != slot)).map
    fun e => (e.1 - pa, e.2)

/-! ## Writes and what they wake -/

/-- A line range is written: reservations on it fall (15 R298) and monitors on it wake (10 R203). -/
def Strand.touch (l0 l1 world : Nat) (t : Strand) : Strand :=
  { t with
    resv := match t.resv with
      | some r => if l0 ≤ r.granule ∧ r.granule ≤ l1 then none else some r
      | none => none
    mon := match t.mon with
      | some m => if l0 ≤ m.line ∧ m.line ≤ l1 ∧ m.world = world then some { m with woken := true } else some m
      | none => none }

/-- The test of a WAITVALUE (06 R119). -/
def waitTest (cond v cmp mask : Nat) : Bool :=
  let x := Nat.land v mask
  match cond with
  | 0 => x == cmp
  | 1 => x != cmp
  | 2 => decide (cmp ≤ x)
  | _ => decide (x < cmp)

def Packet.dw (p : Packet) (i : Nat) : Nat := (nth 0 p.dws i).toNat

/-- The WAITVALUE of a packet finds its test true. -/
def Packet.test (p : Packet) (v : Nat) : Bool := waitTest (bits (p.dw 0) 10 8) v (p.dw 2) (p.dw 3)

/-- A store to a line makes the test of a blocked WAITVALUE true, or not: it is tested after every store (06 R119). -/
def Queue.retest (s : State) (l0 l1 : Nat) (x : Queue) : Queue :=
  match x.cur with
  | some p =>
    if p.armed ∧ !p.hit ∧ l0 ≤ p.line ∧ p.line ≤ l1 ∧ (isMem p.pa || onFabric s x.owner) then
      { x with cur := some { p with hit := p.test (readNum s (keySlot s x.owner) (unitPA s x.owner p.pa) 8) } }
    else x
  | none => x

/-- A reservation ends while it holds its granule: what waits there goes on (15 R299). The key is the context's. -/
def Ctx.freed (key : Nat) (c : Ctx) : List Event :=
  if c.strand.resv.any (·.hold) then [event .reservationHoldExpiry [key / 16384, key % 16384, 1]] else []

/-- Follow-up steps of a written line range: MONWAITs that end, WAITVALUEs to test again (06 R119), granules that are no
longer held. -/
def wakes (s : State) (l0 l1 world : Nat) : List Event :=
  (s.ctxs.filterMap fun e =>
    match e.2.wait, e.2.strand.mon with
    | some wt, some m =>
      if wt.kind = 0x31 ∧ l0 ≤ m.line ∧ m.line ≤ l1 ∧ m.world = world then
        some (event .waitSatisfied [e.1 / 16384, e.1 % 16384]) else none
    | _, _ => none) ++
  (s.queues.filterMap fun e =>
    match e.2.cur with
    | some p => if p.armed ∧ l0 ≤ p.line ∧ p.line ≤ l1 then some (event .waitvalueRetest [e.1]) else none
    | none => none) ++
  (s.ctxs.flatMap fun e =>
    match e.2.strand.resv with
    | some r => if l0 ≤ r.granule ∧ r.granule ≤ l1 then e.2.freed e.1 else []
    | none => [])

def touchLines (s : State) (l0 l1 world : Nat) : State :=
  { s with
    ctxs := s.ctxs.map fun e => (e.1, { e.2 with strand := e.2.strand.touch l0 l1 world })
    queues := s.queues.map fun e => (e.1, e.2.retest s l0 l1)
    work := s.work ++ wakes s l0 l1 world }

/-- A store to a vault page of a world off the fabric: its WAITVALUEs are tested again. -/
def touchImage (s : State) (w l : Nat) : State :=
  { s with
    queues := s.queues.map fun e => (e.1, match e.2.cur with
      | some p =>
        if e.2.owner = w ∧ p.armed ∧ p.line = l then
          { e.2 with cur := some { p with hit := p.hit || p.test (readNum s (keySlot s w) (unitPA s w p.pa) 8) } }
        else e.2
      | none => e.2)
    work := s.work ++ s.queues.filterMap fun e => match e.2.cur with
      | some p => if e.2.owner = w ∧ p.armed ∧ p.line = l then some (event .waitvalueRetest [e.1]) else none
      | none => none }

/-- The device changes a control word (10 R203, R47). -/
def wakePage (s : State) (w kind idx off : Nat) : State :=
  let l := pagePA kind idx off / 64
  touchLines s l l (if instanced kind then w else 0)

/-- The keys of a table set to true. -/
def setAll (ks : List Nat) (t : Tbl Bool) : Tbl Bool := ks.foldl (fun t k => tput false k true t) t

/-- Dirty bits of a written range (07 R128). -/
def markDirty (s : State) (pa n : Nat) : State :=
  match place s pa with
  | .vault core off =>
    { s with dirtyV := setAll (rangeFrom (off / 65536) ((off + n + 65535) / 65536) |>.map (core * 64 + ·)) s.dirtyV }
  | _ => { s with dirty := setAll (rangeFrom (pa / 4096) ((pa + n + 4095) / 4096)) s.dirty }

/-- Lines of a range that another key slot holds. -/
def foreignLines (s : State) (slot pa n : Nat) : List Nat :=
  if isMem pa then (linesOf pa n).filter fun l => slotOf s.lineSlot l != slot else []

/-- The written range's lines stand under the writer's key slot, and their codes are good (05 R105). -/
def retag (s : State) (slot pa n : Nat) : State :=
  if isMem pa then
    let l0 := pa / 64
    let m := (pa + n + 63) / 64 - l0
    { s with
      lineSlot := if (foreignLines s slot pa n).isEmpty then s.lineSlot else (l0, m, slot) :: s.lineSlot
      lineBad := terase l0 m s.lineBad }
  else s

/-- Memory with the lines cleared that a write finds under another key slot. -/
def clearForeign (s : State) (slot pa n : Nat) : Tbl Byte :=
  (foreignLines s slot pa n).foldl (fun m l => terase (l * 64) 64 m) s.mem

/-- Bytes laid over a memory, in their order; the canonical form stays. -/
def layCells (m cells : Tbl Byte) : Tbl Byte := cells.foldl (fun t e => tput 0 e.1 e.2 t) m

/-- The cells of a run of n bytes in canonical form. -/
def canonCells (n : Nat) (cells : Tbl Byte) : Tbl Byte :=
  if twf 0 cells && cells.all fun e => decide (e.1 < n) then cells
  else layCells [] (cells.filter fun e => decide (e.1 < n))

/-- Replace the bytes of a range by cells given by offset. -/
def putCells (lo n : Nat) (cells : Tbl Byte) (m : Tbl Byte) : Tbl Byte :=
  m.filter (fun e => decide (e.1 < lo)) ++ (canonCells n cells).map (fun e => (lo + e.1, e.2)) ++
    m.filter (fun e => decide (lo + n ≤ e.1))

/-- A long write performs: n bytes at pa, those not listed zero. -/
def performCells (s : State) (slot pa n : Nat) (cells : Tbl Byte) : State :=
  if n = 0 then s else
  touchLines (markDirty (retag { s with mem := putCells pa n cells (clearForeign s slot pa n) } slot pa n) pa n)
    (pa / 64) ((pa + n - 1) / 64) 0

/-- A write performs. -/
def performWrite (s : State) (slot pa : Nat) (data : List Byte) : State :=
  performCells s slot pa data.length (trun 0 0 data)

/-- A write of a number of n bytes. -/
def writeNum (s : State) (slot pa n v : Nat) : State := performWrite s slot pa (bytesOf n v)

/-! ## Writes that wait at their ports (01 R27, 07 R131, 10 R193) -/

/-- The memory link of an address retrains (01 R27). -/
def retrains (s : State) (pa : Nat) : Bool := isMem pa && (s.mlink (linkOf s pa)).retraining

/-- The page of an address is captured and the checkpoint has not copied it yet (07 R131). Writes are held from the capture
on, not from phase 4 on alone: only so does each shard hold its pages as they stood at the end of phase 1, as R131 says
(DEDUCED, assumption 70). -/
def uncopied (s : State) (pa : Nat) : Bool :=
  isMem pa && (match s.ckpt.op with
    | some o => (s.ckpt.estate == 2 || s.ckpt.estate == 3) && o.left.contains (pa / 4096)
    | none => false)

/-- The first byte of each page that a run of bytes touches. -/
def pagesOf (pa n : Nat) : List Nat := (rangeFrom (pa / 4096) ((pa + n + 4095) / 4096)).map (4096 * ·)

/-- A held write shares a location, an aligned doubleword (10 R192), with a run of bytes. -/
def HeldW.meets (h : HeldW) (pa n : Nat) : Bool :=
  decide (h.pa / 8 ≤ (pa + n - 1) / 8) && decide (pa / 8 ≤ (h.pa + h.data.length - 1) / 8)

/-- Some write to these locations still waits at its port (10 R193). -/
def heldOver (s : State) (pa n : Nat) : Bool := isMem pa && s.heldW.any fun h => h.meets pa n

/-- A read waits at its port: a link retrains, or an earlier write to its locations waits there. -/
def portBusy (s : State) (pa n : Nat) : Bool := (pagesOf pa n).any (retrains s) || heldOver s pa n

/-- A write waits at its port; it waits for a page that the checkpoint has not copied too. -/
def writeWaits (s : State) (pa n : Nat) : Bool := portBusy s pa n || (pagesOf pa n).any (uncopied s)

/-- Lines of the write queue of a memory link (01 R19), and those of them that held writes take. -/
def writeQueueLines : Nat := 256
def heldLines (s : State) (link : Nat) : Nat :=
  s.heldW.foldl (fun n h =>
    n + ((linesOf h.pa h.data.length).filter fun l => isMem (64 * l) && linkOf s (64 * l) == link).length) 0

/-- A write would wait at its port, and the write queue of a memory link that it goes to has no room: its party waits. -/
def queueFull (s : State) (pa n : Nat) : Bool :=
  writeWaits s pa n &&
    (linesOf pa n).any fun l => isMem (64 * l) && decide (writeQueueLines ≤ heldLines s (linkOf s (64 * l)))

/-- A posted write of a party: it performs, or it waits at its port, behind what waits there for its locations. The
checkpoint copies a page that a write waits for next. -/
def postHeld (s : State) (h : HeldW) : State :=
  if writeWaits s h.pa h.data.length then
    { s with
      heldW := s.heldW ++ [h]
      work := (((pagesOf h.pa h.data.length).filter (uncopied s)).map fun p => event .ckptPageCopied [p / 4096]) ++ s.work }
  else performWrite s h.slot h.pa h.data

/-- A posted write of a strand or an engine of world w, under that world's key slot; a vector write has its strip. -/
def postWrite (s : State) (w k pa : Nat) (data : List Byte) (strip : Option Nat := none) : State :=
  postHeld s { world := w, ctx := k, slot := keySlot s w, pa := pa, data := data, ack := none, strip := strip }

/-! ## Faults (11 R207-R211, 03 R56, R57) -/

def Cause.code : Cause → Nat
  | .illegal => 1 | .misalign => 2 | .trans => 3 | .perm => 4 | .grant => 5 | .vaultbound => 6 | .ctlvec => 7
  | .accbusy => 8 | .opbusy => 9 | .geomnf => 10 | .permx => 11 | .ecall => 12 | .ebreak => 13 | .xlate => 14
  | .memnr => 15 | .tagfail => 16

/-- The cause of a code; a number that is no code reads as ILLEGAL. -/
def causeOf : Nat → Cause
  | 2 => .misalign | 3 => .trans | 4 => .perm | 5 => .grant | 6 => .vaultbound | 7 => .ctlvec | 8 => .accbusy
  | 9 => .opbusy | 10 => .geomnf | 11 => .permx | 12 => .ecall | 13 => .ebreak | 14 => .xlate | 15 => .memnr
  | 16 => .tagfail | _ => .illegal

def CtxState.code : CtxState → Nat
  | .empty => 0 | .running => 1 | .waiting => 2 | .stopping => 3 | .saved => 4 | .faulted => 5 | .frozen => 6
  | .dead => 7 | .resuming => 8

/-- Change STATE; the device's write wakes monitors on the word. -/
def State.setCtxState (s : State) (w k : Nat) (st : CtxState) : State :=
  (wakePage (s.modCtx w k fun c => { c with state := st }) w 4 k 0).drain

/-- An operation that records an abandoned wait (11 R216, R218). -/
def waitOp (t : Strand) (wt : Wait) (pc : Nat) : Op :=
  { id := t.opNext, kind := wt.kind, cls := 3, func := 0, reg := wt.reg, elem := 0, slot := 0, wlog := 0, addr := 0,
    opnd := 0, tag := wt.operand, applied := false, old := 0, len := 0, idx := 0, cst := 0, cidx := 0, group := 0,
    done := false, host := none, pc := pc, pa := 0, buf := [], part := 0, queued := false }

/-- Issue halts where it stands (R57): the reservation and the monitor go (15 R298, 16 R314), and an abandoned wait
is recorded for replay. The page shows the context's own state. -/
def Ctx.halt (c : Ctx) : Ctx :=
  { c with
    wait := none
    heldState := 0
    strand :=
      { c.strand with
        resv := none, mon := none, vaHold := false, vmHold := false
        ops := match c.wait with
          | some wt => c.strand.ops ++ [waitOp c.strand wt c.strand.pc.toNat]
          | none => c.strand.ops
        opNext := match c.wait with | some _ => c.strand.opNext + 1 | none => c.strand.opNext } }

/-- Outstanding operations are discarded (R211, KILL). -/
def Strand.discardOps (t : Strand) : Strand :=
  { t with ops := [], copies := [], cmds := [], pend := [], anvil := t.anvil.map fun a => { a with held := [] } }

/-- Can take a fault of any cause but TAGFAIL (R57). -/
def CtxState.live : CtxState → Bool
  | .running | .waiting | .resuming => true
  | _ => false

/-- A strand faults: issue halts, STATE reads STOPPING until the frame is saved, and then the record is written
(R56, R57). A context that is STOPPING keeps the operation in its record; TAGFAIL freezes it all the same. -/
def takeFault (s : State) (w k : Nat) (f : FaultRec) : State :=
  let c := s.ctx w k
  if f.cause = .tagfail ∧ (c.state.live ∨ c.state = .stopping) then
    let s := s.putCtx w k { c.halt with fault := some f, strand := c.halt.strand.discardOps }
    let s := (s.setCtxState w k .stopping).modWorld w fun x => { x with compromised := true }
    { s with work := s.work ++ event .contextSaved [w, k] :: c.freed (ctxKey w k) }
  else if c.state.live then
    let s := s.putCtx w k { c.halt with fault := some f }
    let s := s.setCtxState w k .stopping
    { s with work := s.work ++ event .contextSaved [w, k] :: c.freed (ctxKey w k) }
  else s

/-- A fault of the scalar stream in turn: FPC and the saved PC hold the instruction's address (R208). -/
def scalarFault (s : State) (c : Cause) (faddr : Nat) : State :=
  takeFault s s.cur.1 s.cur.2
    { cause := c, fslot := 0, fpc := s.pc.toNat, felem := 0, progress := 0, faddr := faddr }

/-! ## Operations, pending registers, outputs -/

def Op.zero : Op :=
  { id := 0, kind := 0, cls := 0, func := 0, reg := 0, elem := 0, slot := 0, wlog := 0, addr := 0, opnd := 0, tag := 0,
    applied := false, old := 0, len := 0, idx := 0, cst := 0, cidx := 0, group := 0, done := false, host := none,
    pc := 0, pa := 0, buf := [], part := 0, queued := false }

/-- An operation issues: it takes the next name of its strand. -/
def Strand.addOp (t : Strand) (o : Op) : Strand :=
  { t with ops := t.ops ++ [{ o with id := t.opNext }], opNext := t.opNext + 1 }

def Strand.dropOp (t : Strand) (id : Nat) : Strand := { t with ops := t.ops.filter fun o => o.id != id }
def Strand.modOp (t : Strand) (id : Nat) (f : Op → Op) : Strand :=
  { t with ops := t.ops.map fun o => if o.id = id then f o else o }
def Strand.findOp (t : Strand) (id : Nat) : Option Op := t.ops.find? fun o => o.id == id

/-- The tag of the strand's next class T operation (11 R219). -/
def nextTag (w k : Nat) (t : Strand) : Nat := w * 2 ^ 32 + k * 2 ^ 18 + t.tcnt

/-- x register n waits for a write named tok (09 R166). -/
def Strand.addPend (t : Strand) (n tok : Nat) : Strand :=
  if n = 0 then t else { t with pend := t.pend ++ [{ reg := n, tok := tok }] }

def Strand.pending (t : Strand) (n : Nat) : Bool := t.pend.any fun p => p.reg == n

/-- Pending writes without those to register n up to the one named tok. -/
def dropPend (n tok : Nat) : List Pend → List Pend
  | [] => []
  | p :: r => if p.reg = n then (if p.tok = tok then r else dropPend n tok r) else p :: dropPend n tok r

/-- The pending write named tok happens; earlier ones to the register no longer count. A write that is no longer
pending has been overtaken by a later one, which stands. -/
def Strand.settle (t : Strand) (n tok : Nat) (v : Word) : Strand :=
  if t.pend.any fun p => p.reg == n && p.tok == tok then { (t.wx n v) with pend := dropPend n tok t.pend } else t

def State.emit (s : State) (o : Out) : State := { s with out := s.out ++ [o] }

/-- The device's own follow-up step. -/
def State.push (s : State) (i : Instr) (args : List Nat) : State := { s with work := s.work ++ [event i args] }

/-- Operand i of the event under way. -/
def State.arg (s : State) (i : Nat) : Nat := s.ev.arg i

/-- Queues try their heads again after something that a stream may wait for has changed. -/
def Strand.unhold (t : Strand) : Strand := { t with vaHold := false, vmHold := false }

/-- GEN advances by one for each event that changes the readiness page, and monitors on it wake (01 R453, R25). What
changes no field is no event. -/
def State.readyEvent (s : State) (f : Ready → Ready) : State :=
  if f s.ready = s.ready then s
  else
  let s := { s with ready := { f s.ready with gen := s.ready.gen + 1 } }
  touchLines s (pagePA 0 0 0 / 64) (pagePA 0 0 0xFFF / 64) 0

end Sys2Proof.Machine
end

