-- ==== Sys2Proof/Machine/Translate.lean ====
section
/-!
DEFINITION. Translation (03 R65-R69), the vault windows (10 R182-R185), where an access goes, and the check of a
table store (03 R71, R72).
-/

namespace Sys2Proof.Machine

/-- What an access asks of its leaf (R69). -/
inductive Acc where
  | load | store | fetch | amo
  deriving DecidableEq, Repr

/-- Rights as bits of an entry: R 1, W 2, X 4. -/
def Acc.need : Acc → Nat
  | .load => 1 | .store => 2 | .fetch => 4 | .amo => 3

def Acc.writes : Acc → Bool
  | .store | .amo => true
  | _ => false

/-- A leaf entry and where it stands. -/
structure Leaf where
  ppn    : Nat
  rights : Nat
  tag    : Nat
  level  : Nat
  /-- Physical address of the entry, and the entry. -/
  loc    : Nat
  entry  : Nat
  deriving DecidableEq, Repr

/-- Pages that a leaf of a level maps (R68). -/
def leafPages (level : Nat) : Nat := 512 ^ (3 - level)

/-- Physical address that a leaf gives a virtual address. -/
def Leaf.pa (l : Leaf) (va : Nat) : Nat := l.ppn * 4096 + va % (leafPages l.level * 4096)

/-- A page lies in a world's table region (R71). -/
def inRegion (s : State) (w pa : Nat) : Bool := pa / 2 ^ 21 == (s.world w).tregion && (s.world w).wstate != 0

/-- The address lies in some world's table region. -/
def tableByte (s : State) (pa : Nat) : Bool :=
  s.worlds.any fun e => e.2.wstate != 0 && pa / 2 ^ 21 == e.2.tregion

/-- The memory group of an address is ready at the port (01 R24, R25). -/
def memReady (s : State) (pa : Nat) : Bool := !isMem pa || bit s.portMgrp (groupOf s pa)

/-- A run of bytes overlaps some world's table region. -/
def tableRange (s : State) (pa n : Nat) : Bool := tableByte s pa || tableByte s (pa + n - 1)

/-- The walk (R68), from a table page at a level; the first argument bounds its depth. -/
def walk (s : State) (w va : Nat) : Nat → Nat → Nat → Except Cause Leaf
  | 0, _, _ => .error .trans
  | f + 1, level, t =>
    let ea := t + 8 * bits va (47 - 9 * level) (39 - 9 * level)
    if !inRegion s w t then .error .trans
    else if !memReady s ea then .error .memnr
    else if tagFails s (keySlot s w) ea 8 then .error .tagfail
    else
      let e := readNum s (keySlot s w) ea 8
      if !bit e 0 || bits e 11 6 != 0 then .error .trans
      else if bits e 3 1 = 0 then
        (if bits e 63 52 ≠ 0 ∨ level ≥ 3 then .error .trans else walk s w va f (level + 1) (bits e 51 12 * 4096))
      else if level = 0 ∨ bits e 51 12 % leafPages level ≠ 0 then .error .trans
      else .ok { ppn := bits e 51 12, rights := bits e 3 1, tag := bits e 63 52, level := level, loc := ea, entry := e }

/-- Bits 63 to 47 are equal (R66). -/
def canonical (va : Nat) : Bool := bits va 63 47 == 0 || bits va 63 47 == 2 ^ 17 - 1

/-- The address lies in the direct vault windows (R66). -/
def inWindows (va : Nat) : Bool := decide (0xFFFFF00000000000 ≤ va) && decide (va < 0xFFFFF30000000000)

/-- A gang of a launch that holds an allocation in the vault of a core, the lowest first (R182). -/
def holderAt (s : State) (w l core : Nat) : Option Gang :=
  ((s.launch w l).gangs.find? fun e => (e.2.allocAt core).isSome).map (·.2)

/-- An access through a window by strand (w, k) from a core (R182, R183): the vault byte, or none for VAULTBOUND. -/
def window (s : State) (w k core va : Nat) : Option Nat :=
  let g := s.gangOf w k
  let c := s.ctx w k
  let o := va - 0xFFFFF00000000000
  if o < 0x80000000 then
    (if o < g.size then (g.allocAt core).map fun b => vaultPA core (b + o) else none)
  else if o < 0x10000000000 then
    let sl := sliceSize (s.launch w c.launch).vkib
    let p := o - 0x80000000
    (if p < sl then (g.allocAt core).map fun b => vaultPA core (b + g.size - (position c.index c.span + 1) * sl + p)
     else none)
  else if o < 0x20000000000 then
    let i := (o - 0x10000000000) / 0x400000
    let p := o % 0x400000
    let t := core / 8 * 8 + i
    (if i < 8 ∧ p < g.size then (g.allocAt t).map fun b => vaultPA t (b + p) else none)
  else
    let i := (o - 0x20000000000) / 0x400000
    let p := o % 0x400000
    match holderAt s w c.launch i with
    | some h => if i < 640 ∧ p < h.size then (h.allocAt i).map fun b => vaultPA i (b + p) else none
    | none => none

/-- Some allocation of the world holds a vault byte (R185). -/
def vaultHeld (s : State) (w core off : Nat) : Bool :=
  (tslice (w * 1024) 1024 s.launches).any fun e => e.2.gangs.any fun g =>
    match g.2.allocAt core with
    | some b => decide (b ≤ off) && decide (off < b + g.2.size)
    | none => false

/-- Where an access goes. -/
inductive Target where
  | mem (pa : Nat)
  | page (kind idx off : Nat)
  | peer (id off : Nat)
  | host (a : Nat)
  deriving DecidableEq, Repr

/-- A translated access: its target, and the leaf that the walk met. -/
structure Xlat where
  target : Target
  leaf   : Option Leaf
  deriving DecidableEq, Repr

/-- The target that a physical address names for a world (R45, R185); none: TRANS. -/
def targetOf (s : State) (w pa : Nat) : Option Target :=
  match place s pa with
  | .memory => some (.mem pa)
  | .vault core off => if vaultHeld s w core off then some (.mem pa) else none
  | .page kind idx off => some (.page kind idx off)
  | .peer id off => some (.peer id off)
  | .host a => some (.host a)
  | .nothing => none

/-- Translation through tables alone, in a root of a world (R66 to R69, R45). -/
def resolveIn (s : State) (w root va : Nat) (a : Acc) : Except Cause Xlat :=
  if !canonical va then .error .trans
  else if inWindows va then .error .trans
  else
    match walk s w va 4 0 root with
    | .error c => .error c
    | .ok l =>
      if Nat.land l.rights a.need ≠ a.need then .error .perm
      else
        match targetOf s w (l.pa va) with
        | some t => .ok { target := t, leaf := some l }
        | none => .error .trans

/-- Translation of a strand's access from a core: its windows, then its tables (R182, R66). -/
def resolve (s : State) (w k core va : Nat) (a : Acc) : Except Cause Xlat :=
  if canonical va && inWindows va then
    (if a = .fetch then .error .perm
     else match window s w k core va with
       | some pa => .ok { target := .mem pa, leaf := none }
       | none => .error .vaultbound)
  else resolveIn s w (s.ctx w k).root va a

/-- The walker sets A, and D for a write, as an atomic update of the entry (R69). -/
def setAD (s : State) (w : Nat) (x : Xlat) (a : Acc) : State :=
  match x.leaf with
  | none => s
  | some l =>
    let e := setBit (if a.writes then setBit l.entry 5 true else l.entry) 4 true
    if e = l.entry then s else writeNum s (keySlot s w) l.loc 8 e

/-- Addresses of the entries that a walk reads (R68), as far as it comes. -/
def walkTrace (s : State) (w va : Nat) : Nat → Nat → Nat → List Nat
  | 0, _, _ => []
  | f + 1, level, t =>
    let ea := t + 8 * bits va (47 - 9 * level) (39 - 9 * level)
    if !inRegion s w t || !memReady s ea then []
    else
      let e := readNum s (keySlot s w) ea 8
      if bit e 0 && bits e 3 1 == 0 && decide (level < 3) then ea :: walkTrace s w va f (level + 1) (bits e 51 12 * 4096)
      else [ea]

/-- The leaf's A or D is still to be set for an access (R69). -/
def Leaf.unset (l : Leaf) (a : Acc) : Bool := !bit l.entry 4 || (a.writes && !bit l.entry 5)

/-- The walk of an access waits at a port (01 R27): an entry lies behind a link that retrains or a write that waits
there, or the entry's A or D is to be set in a page that the checkpoint has not copied (07 R131). -/
def walkWaits (s : State) (w root va : Nat) (a : Acc) : Bool :=
  canonical va && !inWindows va &&
  ((walkTrace s w va 4 0 root).any (fun ea => portBusy s ea 8) ||
    (match walk s w va 4 0 root with
      | .ok l => l.unset a && uncopied s l.loc
      | .error _ => false))

/-- The walk of an access of strand (w, k) waits. -/
def xlatWaits (s : State) (w k va : Nat) (a : Acc) : Bool := walkWaits s w (s.ctx w k).root va a

/-- The link that an access to a peer travels on (10 R188). -/
def route (s : State) (id : Nat) : Except Cause Nat :=
  let ls := (List.range 16).filter fun n => (s.peer n).faridv && (s.peer n).farid == id
  if ls.isEmpty then .error .trans
  else match ls.find? fun n => bit s.portPlink n && !(s.peer n).pfrozen with
    | some n => .ok n
    | none => .error .memnr

/-! ## The map-through rule (R72) -/

/-- The entries of a table page that are not zero. -/
def entriesOf (s : State) (w t : Nat) : List Nat :=
  (((tslice t 4096 s.mem).map fun e => e.1 / 8).eraseDups).map fun i => readNum s (keySlot s w) (i * 8) 8

def isPointer (s : State) (w e : Nat) : Bool :=
  bit e 0 && bits e 3 1 == 0 && bits e 63 52 == 0 && bits e 11 6 == 0 && inRegion s w (bits e 51 12 * 4096)

def isLeaf (e : Nat) : Bool := bit e 0 && bits e 3 1 != 0 && bits e 11 6 == 0

/-- Table pages reached from given pages by n more pointers, level by level. -/
def reach (s : State) (w : Nat) : Nat → List Nat → List (List Nat)
  | 0, ts => [ts]
  | n + 1, ts =>
    ts :: reach s w n (((ts.map fun t => (entriesOf s w t).filterMap fun e =>
      if isPointer s w e then some (bits e 51 12 * 4096) else none).flatten).eraseDups)

/-- The roots of a world (R72): its seed root, and every ROOT of its queue pages and bound context pages. -/
def rootsOf (s : State) (w : Nat) : List Nat :=
  (((s.world w).tregion * 2 ^ 21) :: (s.queues.filterMap fun e => if e.2.owner = w then some e.2.root else none) ++
    (s.bound w).map fun k => (s.ctx w k).root).eraseDups.filter (inRegion s w)

/-- What a leaf grants: first page, pages, rights, tag. -/
structure Grant where
  ppn    : Nat
  pages  : Nat
  rights : Nat
  tag    : Nat
  deriving DecidableEq, Repr

/-- The entry as a leaf of a level; none where it maps nothing there. -/
def grantAt (level e : Nat) : Option Grant :=
  if isLeaf e ∧ level ≠ 0 ∧ bits e 51 12 % leafPages level = 0 then
    some { ppn := bits e 51 12, pages := leafPages level, rights := bits e 3 1, tag := bits e 63 52 }
  else none

def grantsOf (s : State) (w level : Nat) (ts : List Nat) : List Grant :=
  (ts.map fun t => (entriesOf s w t).filterMap (grantAt level)).flatten

/-- Everything that an address space grants. -/
def grantsIn (s : State) (w root : Nat) : List Grant :=
  let r := reach s w 3 (if inRegion s w root then [root] else [])
  grantsOf s w 1 (nth [] r 1) ++ grantsOf s w 2 (nth [] r 2) ++ grantsOf s w 3 (nth [] r 3)

/-- The union of rights that cover one page; with a tag, of the leaves that carry it. -/
def heldRights (gs : List Grant) (q : Nat) (tag : Option Nat) : Nat :=
  gs.foldl (fun r g =>
    if g.ppn ≤ q ∧ q < g.ppn + g.pages ∧ (tag = none ∨ tag = some g.tag) then Nat.lor r g.rights else r) 0

/-- Intervals cover every page from lo to hi - 1; the first argument bounds the steps. -/
def covers : Nat → Nat → Nat → List (Nat × Nat) → Bool
  | 0, lo, hi, _ => decide (hi ≤ lo)
  | f + 1, lo, hi, iv =>
    if hi ≤ lo then true
    else
      let e := iv.foldl (fun m i => if i.1 ≤ lo ∧ m < i.2 then i.2 else m) lo
      if e ≤ lo then false else covers f e hi iv

/-- leafcheck of R72: every page that the leaf covers is held with its rights. -/
def leafCheck (gs : List Grant) (root : Bool) (f : Grant) : Bool :=
  [1, 2, 4].all fun r =>
    if Nat.land f.rights r = 0 then true
    else
      let iv := (gs.filter fun g => Nat.land g.rights r != 0 && (root || g.tag == f.tag)).map
        fun g => (g.ppn, g.ppn + g.pages)
      covers (iv.length + 1) f.ppn (f.ppn + f.pages) iv

/-- World-root rights of an address space (R77): it maps the world's own world page with W. -/
def worldRoot (w : Nat) (gs : List Grant) : Bool :=
  bit (heldRights gs (pagePA 1 w 0 / 4096) none) 1

/-- A strand holds world-root rights. -/
def rootRights (s : State) (w k : Nat) : Bool := worldRoot w (grantsIn s w (s.ctx w k).root)

/-- The table store of doubleword e at table address t is allowed (R72). A store of world w into another world's region
(03 R71, R72 say "some world's table region" and "a root of the world") is judged by the roots of w, the world of the
storing strand: T counts as unreached there, and its leaf is checked at 4 KiB (DESIGN CHOICE, assumption 53). -/
def tableStoreOk (s : State) (w root t e : Nat) : Bool :=
  let gs := grantsIn s w root
  let wr := worldRoot w gs
  if !bit e 0 then true
  else if bits e 11 6 ≠ 0 then false
  else
    let before := reach s w 3 (rootsOf s w)
    if bits e 3 1 = 0 then
      bits e 63 52 == 0 && inRegion s w (bits e 51 12 * 4096) && bit (heldRights gs (bits e 51 12) none) 1 &&
      (let s' := { s with mem := putCells t 8 (trun 0 0 (bytesOf 8 e)) s.mem }
       let after := reach s' w 3 (rootsOf s w)
       [1, 2, 3].all fun lv =>
         (nth [] after lv).all fun u =>
           (nth [] before lv).contains u || ((entriesOf s' w u).filterMap (grantAt lv)).all (leafCheck gs wr))
    else
      let page := t / 4096 * 4096
      let at0 := [0, 1, 2, 3].filter fun lv => (nth [] before lv).contains page
      let ls := if at0.isEmpty then [3] else at0.filter (· != 0)
      (ls.filterMap fun lv => grantAt lv e).all (leafCheck gs wr)

end Sys2Proof.Machine
end

