-- ==== Sys2Proof/Machine/Access.lean ====
section
/-!
DEFINITION. Checking an access of a strand in the order of 19 R360 and 15 R293, R294, and performing loads and
stores at memory, vaults, the host window and the peer windows.
-/

namespace Sys2Proof.Machine

/-- An access: its address and width, what it does, whether a vector element makes it, and the doubleword of an
aligned 8-byte scalar store, which alone may write a table region (03 R71). -/
structure Ask where
  va    : Nat
  width : Nat
  acc   : Acc
  vec   : Bool
  sd    : Option Nat
  /-- Ranges that the strand has locked (22 R407). -/
  locks : List (Nat × Nat)
  /-- A scalar AMOADD or AMOSWAP: of the updates these alone go to the host (04 R87). -/
  fetch : Bool := false
  deriving DecidableEq, Repr

/-- Ranges locked for a strand (22 R407). -/
def Strand.locked (t : Strand) : List (Nat × Nat) :=
  match t.anvil with
  | some a => a.opn.locks ++ a.done.flatMap (·.locks)
  | none => []

/-- Ranges whose lock depends on a VL that a marker has still to give. -/
def Strand.softLocked (t : Strand) : List (Nat × Nat × Nat × Nat) :=
  match t.anvil with
  | some a => a.opn.soft ++ a.done.flatMap (·.soft)
  | none => []

/-- A range meets a locked range. -/
def meets (va n : Nat) (rs : List (Nat × Nat)) : Bool :=
  rs.any fun r => decide (va < r.1 + r.2) && decide (r.1 < va + n)

/-- Whether a scalar write meets a lock depends on a VL that is still to come: the write waits for it (22 R407). -/
def Strand.lockPending (t : Strand) (va n : Nat) : Bool :=
  t.softLocked.any fun l => (t.marks.any fun m => m.id == l.1 && m.val.isNone) && meets va n [l.2.2]

/-- The ranges below the VL that a marker has given are locked; the others are not. -/
def hardened (id g : Nat) (soft : List (Nat × Nat × Nat × Nat)) : List (Nat × Nat) :=
  (soft.filter fun l => l.1 == id && decide (l.2.1 < g)).map (·.2.2)

def Batch.harden (id g : Nat) (b : Batch) : Batch :=
  { b with locks := b.locks ++ hardened id g b.soft, soft := b.soft.filter fun l => l.1 != id }

/-- What a control page accepts (03 R48). -/
def pageRefuses (a : Ask) : Option Cause :=
  if a.vec then some .ctlvec
  else match a.acc with
    | .load => if a.width = 4 ∨ a.width = 8 then none else some .misalign
    | .store => if a.width = 8 then none else some .misalign
    | .fetch | .amo => some .ctlvec

/-- What the target of an access refuses (R360). -/
def refusedBy (s : State) (w root : Nat) (a : Ask) : Target → Option Cause
  | .page _ _ _ => pageRefuses a
  | .host _ =>
    if a.acc = .fetch ∨ (a.acc = .amo ∧ !(a.fetch && (s.fn w).atomics)) then some .perm
    else if (s.world w).fnFrozen then some .trans else none
  | .peer id _ =>
    if a.acc = .store then (match route s id with | .ok _ => none | .error c => some c) else some .perm
  | .mem pa =>
    if a.acc.writes && tableRange s pa a.width &&
        !(match a.sd with | some e => a.acc = .store && tableStoreOk s w root pa e | none => false) then some .grant
    else if !memReady s pa then some .memnr else none

/-- The checks that follow translation (R360); last, a write's addresses are held against the locked ranges (22 R407). -/
def checkTarget (s : State) (w root : Nat) (a : Ask) (x : Xlat) : Except Cause Xlat :=
  match refusedBy s w root a x.target with
  | some c => .error c
  | none => if a.acc.writes && meets a.va a.width a.locks then .error .opbusy else .ok x

/-- The whole check of an access of strand (w, k) from a core. An access that passes its translation and is refused by a
later check (GRANT, CTLVEC, the page's MISALIGN, OPBUSY, MEMNR) leaves A as it was: 03 R69 says when A may be set, and not
that such an access sets it (DESIGN CHOICE, assumption 54). -/
def checkAccess (s : State) (w k core : Nat) (a : Ask) : Except Cause Xlat :=
  if a.va % a.width ≠ 0 then .error .misalign
  else match resolve s w k core a.va a.acc with
    | .error c => .error c
    | .ok x => checkTarget s w (s.ctx w k).root a x

/-- A granule that another strand's LR holds (15 R299). -/
def granuleHeld (s : State) (w k pa n : Nat) : Bool :=
  s.ctxs.any fun e => e.1 != ctxKey w k && match e.2.strand.resv with
    | some r => r.hold && decide (pa / 64 ≤ r.granule) && decide (r.granule ≤ (pa + n - 1) / 64)
    | none => false

/-- A granule that a strand's LR holds: a unit's write or a peer's waits (15 R299). -/
def unitHeld (s : State) (pa n : Nat) : Bool :=
  s.ctxs.any fun e => match e.2.strand.resv with
    | some r => r.hold && decide (pa / 64 ≤ r.granule) && decide (r.granule ≤ (pa + n - 1) / 64)
    | none => false

/-- A granule of a held write is held against its party. -/
def HeldW.reserved (s : State) (h : HeldW) : Bool :=
  if h.ctx < 16384 then granuleHeld s h.world h.ctx h.pa h.data.length else unitHeld s h.pa h.data.length

/-- The value that a load finds, or TAGFAIL (05 R105). -/
def loadNum (s : State) (w pa n : Nat) : Except Cause Nat :=
  if tagFails s (keySlot s w) pa n then .error .tagfail else .ok (readNum s (keySlot s w) pa n)

/-! ## Requests to the host (04 R79, R85, R86) -/

/-- The PASID of a strand's requests: that of its launch's queue interface. -/
def pasidOf (s : State) (w k : Nat) : Option Nat :=
  let x := s.queue (s.launch w (s.ctx w k).launch).queue
  if x.pasidv then some x.pasid else none

/-- The address translation cache of a function holds a page. -/
def Fn.holds (f : Fn) (pasid : Option Nat) (a : Nat) : Bool := f.atc.contains (pasid, a / 4096)

/-- How a request of world w to a host address goes out: with a translated address where the cache holds one. -/
def tlp (s : State) (w : Nat) (pasid : Option Nat) (a : Nat) : Tlp :=
  { fn := w, pasid := pasid, translated := (s.fn w).holds pasid a, addr := a }

/-- Up to 4,096 non-posted requests stand for the device (R79). -/
def hostRoom (s : State) : Bool := decide ((s.hreqs.filter fun (e : Nat × HReq) => e.2.link.isNone).length < 4096)

/-- A function with ATS asks for the translation of a page that its cache does not hold. -/
def asksFirst (s : State) (w : Nat) (pasid : Option Nat) (a : Nat) : Bool := (s.fn w).atsOn && !(s.fn w).holds pasid a

/-- A request to the host has this tag: the low 14 bits of its id (R79). -/
def tagTaken (s : State) (id : Nat) : Bool :=
  s.hreqs.any fun (e : Nat × HReq) => e.2.link.isNone && e.1 % 2 ^ 14 == id % 2 ^ 14

/-- The next id from a number on whose tag is free. -/
def freeId (s : State) : Nat → Nat → Nat
  | 0, id => id
  | n + 1, id => if tagTaken s id then freeId s n (id + 1) else id

/-- The id of the next request to the host: no outstanding one has its tag (R79). At most 4,096 stand, of 16,384 tags. -/
def nextId (s : State) : Nat := freeId s 4096 s.fresh

/-- A request is made: its translation is asked for first, or it goes out as `msg`. -/
def hostRequest (s : State) (r : HReq) (msg : Tlp → Nat → Out) : State :=
  let h := tlp s r.world r.pasid r.addr
  let ask := asksFirst s r.world r.pasid r.addr
  let id := nextId s
  { s with
    hreqs := tset id { r with asking := ask, translated := h.translated } s.hreqs
    out := s.out ++ [if ask then .atsAsk h id else msg h id]
    fresh := id + 1 }

def HReq.zero : HReq :=
  { world := 0, ctx := 0, op := 0, addr := 0, len := 0, pasid := none, link := none, tag := none, posted := false, asking := false, refused := false,
    stale := false, translated := false, retried := false, dropped := false }

/-- A read or an AtomicOp of a strand's operation goes out. -/
def hostAsk (s : State) (w k op : Nat) (a len : Nat) (msg : Tlp → Nat → Out) : State :=
  hostRequest s { HReq.zero with world := w, ctx := k, op := op, addr := a, len := len, pasid := pasidOf s w k } msg

/-- Whether a posted write to the host may go now (R86): it goes out, it waits for a translation that has been asked for,
or that translation was refused. -/
inductive Gate where
  | go
  | waits (s : State)
  | refused (s : State)

/-- The gate of a posted write of party k of world w under a PASID. -/
def hostGate (s : State) (w k : Nat) (pasid : Option Nat) (a : Nat) : Gate :=
  if !asksFirst s w pasid a then .go
  else match s.hreqs.find? fun (e : Nat × HReq) =>
      e.2.posted && !e.2.dropped && e.2.world == w && e.2.ctx == k && e.2.pasid == pasid && e.2.addr / 4096 == a / 4096 with
    | some (id, r) =>
      if r.refused then .refused { s with hreqs := s.hreqs.filter fun (e : Nat × HReq) => e.1 != id } else .waits s
    | none =>
      if hostRoom s then
        .waits (hostRequest s { HReq.zero with world := w, ctx := k, addr := a, pasid := pasid, posted := true } .atsAsk)
      else .waits s

/-! ## Traffic to a peer (01 R15, R20) -/

/-- Slots of a message: its descriptor, and its data as lines of 64 bytes. -/
def lineSlots : Nat → List Nat → List FSlot
  | 0, _ => []
  | n + 1, bs => if bs.isEmpty then [] else .line (bs.take 64) :: lineSlots n (bs.drop 64)

def PeerMsg.slots (m : PeerMsg) : List FSlot :=
  match m with
  | .write _ _ bs => .descs [m] :: lineSlots (bs.length / 64 + 1) bs
  | .data _ bs => .descs [m] :: lineSlots (bs.length / 64 + 1) bs
  | _ => [.descs [m]]

/-- The virtual channel of a message (R20). The request of a remote copy's read goes with the requests: R20 names stores and copy
writes there and the read's data among the responses, and not the read itself (DESIGN CHOICE, assumption 57). -/
def PeerMsg.channel : PeerMsg → Nat
  | .store .. | .write .. | .read .. => 0
  | _ => 1

/-- A message joins its channel's queue: up to four descriptors share a slot. -/
def joinSlots (q : List FSlot) (m : PeerMsg) : List FSlot :=
  match q.reverse, m.slots with
  | .descs ms :: r, [.descs [_]] => if ms.length < 4 then (FSlot.descs (ms ++ [m]) :: r).reverse else q ++ m.slots
  | _, ss => q ++ ss

/-- Room in the retry buffer (R19, R21): 32 flits at a memory link, 320 KiB at a peer link. -/
def retryRoom (peer : Bool) (l : Link) : Bool := decide (l.txRetry.length < if peer then 320 * 1024 / 288 else 32)

/-- Slots that leave a channel's queue for a flit with room for n: as many as there are credits. -/
def takeSlots0 (l : Link) (ch n : Nat) : List FSlot := (tget [] l.txQ ch).take (Nat.min n (tget 0 l.credit ch))

def Link.spend (l : Link) (ch n : Nat) : Link :=
  { l with
    txQ := tset ch ((tget [] l.txQ ch).drop n) l.txQ
    credit := tset ch (tget 0 l.credit ch - n) l.credit }

/-- The channels of a link, in the order in which a flit takes from them. Of a peer link: responses first, so that no request
holds them up (R20). Of a memory link: the requests of its buffer chip's two channels, and their lines of write data (R19). -/
def linkChannels (peer : Bool) : List Nat := if peer then [1, 0, 2] else [0, 1, 2, 3]

/-- The next flit (R15, R16): slots of the channels; it acknowledges what was received and gives credits back. None where
there is nothing to send. -/
def Link.nextFlit (peer : Bool) (l : Link) : Option (Link × Flit) :=
  let pick := fun (a : Link × List (Nat × FSlot)) ch =>
    let ss := takeSlots0 a.1 ch (4 - a.2.length)
    (a.1.spend ch ss.length, a.2 ++ ss.map fun x => (ch, x))
  let r := (linkChannels peer).foldl pick (l, [])
  if r.2.isEmpty && !l.ackDue then none
  else
    let f : Flit := { seq := l.txNext, ack := l.rxNext - 1, credits := (List.range (linkChannels peer).length).map (tget 0 l.owed), slots := r.2 }
    some ({ r.1 with txNext := l.txNext + 1, txRetry := l.txRetry ++ [f], owed := [], ackDue := false }, f)

/-- A link sends what it may: flits that were refused, in order, and then new ones (R16). Nothing goes while it retrains
or has failed. The first argument bounds the flits. -/
def Link.pump (peer : Bool) : Nat → Link → Link × List Flit
  | 0, l => (l, [])
  | n + 1, l =>
    if l.retraining || l.failed then (l, [])
    else match l.txSend with
      | f :: r =>
        let p := Link.pump peer n { l with txSend := r }
        (p.1, f :: p.2)
      | [] =>
        if !retryRoom peer l then (l, [])
        else match l.nextFlit peer with
          | some (l', f) =>
            let p := Link.pump peer n l'
            (p.1, f :: p.2)
          | none => (l, [])

/-- Peer link n sends its flits. -/
def pumpPeer (s : State) (n : Nat) : State :=
  let p := (s.plink n).pump true 2048
  if p.2.isEmpty then s
  else { s.modPlink n fun _ => p.1 with out := s.out ++ p.2.map fun f => .flit (24 + n) f }

/-- A message goes to peer link n. -/
def sendPeer (s : State) (n : Nat) (m : PeerMsg) : State :=
  pumpPeer (s.modPlink n fun l => { l with txQ := tset m.channel (joinSlots (tget [] l.txQ m.channel) m) l.txQ }) n

/-- A remote store is sent (10 R204): PEERPEND counts it. -/
def remoteStore (s : State) (w k id off size v : Nat) : State :=
  match route s id with
  | .error _ => s
  | .ok n =>
    let l := (s.ctx w k).launch
    let s := { s with
      remotes := s.remotes ++ [Remote.mk s.fresh n w l]
      fresh := s.fresh + 1 }
    let s := sendPeer s n (.store (s.fresh - 1) off size v)
    wakePage (s.modLaunch w l fun x => { x with peerpend := x.peerpend + 1 }) w 3 l 0x50

/-! ## Stores of a strand -/

/-- What a checked store comes to. -/
inductive StoreDone where
  | done (s : State)
  | fault (s : State) (c : Cause)
  | waits (s : State)

/-- A checked store of n bytes performs, or waits at its port as a retired store. TAGFAIL: the partial write meets
a line of its own slot that fails (R455). A table store does not retire before it performs, so that the next is checked
on what it left (03 R72); a write to the host does not retire before its translation stands (04 R86). -/
def storeNum (s : State) (w k : Nat) (x : Xlat) (a : Ask) (v : Nat) (strip : Option Nat := none) : StoreDone :=
  match x.target with
  | .mem pa =>
    if writeTagFails s (keySlot s w) pa a.width then .fault s .tagfail
    else if (tableRange s pa a.width && writeWaits s pa a.width) || queueFull s pa a.width then .waits s
    else .done (postWrite (setAD s w x a.acc) w k pa (bytesOf a.width v) strip)
  | .host h =>
    match hostGate s w k (pasidOf s w k) h with
    | .go => .done ((setAD s w x a.acc).emit (.hostWrite (tlp s w (pasidOf s w k) h) ((bytesOf a.width v).map (·.toNat))))
    | .waits s => .waits s
    | .refused s => .fault s .trans
  | .peer id off => .done (remoteStore (setAD s w x a.acc) w k id off a.width v)
  | .page _ _ _ => .done s

/-! ## Accesses of the parser, the dispatcher and the engines (06 R115 to R121): a queue's translation context -/

/-- Translate and check in a root, without a strand. -/
def checkIn (s : State) (w root va : Nat) (a : Acc) : Except Cause Xlat :=
  match resolveIn s w root va a with
  | .error c => .error c
  | .ok x =>
    match x.target with
    | .page _ _ _ => .error .ctlvec
    | .peer _ _ => .error .perm
    | .host _ => if (s.world w).fnFrozen then .error .trans else .ok x
    | .mem pa =>
      if a.writes && tableByte s pa then .error .grant
      else if !memReady s pa then .error .memnr else .ok x

/-- A line of a world's own key slot failed: COMPROMISED (05 R105, R455). -/
def compromise (s : State) (w : Nat) : State := s.modWorld w fun x => { x with compromised := true }

/-- What an access of a unit comes to: it is done, it failed (R121, R455), or it waits at a port. -/
inductive Reached (α : Type) where
  | done (s : State) (r : α)
  | failed (s : State)
  | waits (s : State)

/-- The PASID of a queue's translation context (06 R111). -/
def Queue.pasidOf (x : Queue) : Option Nat := if x.pasidv then some x.pasid else none

/-- An aligned store of n bytes by a unit of the device in a queue's translation context. Unlike a strand's store it
waits where it cannot perform: what follows it follows its performing. -/
def unitStore (s : State) (x : Queue) (va n v : Nat) : Reached Unit :=
  let w := x.owner
  if walkWaits s w x.root va .store then .waits s
  else match checkIn s w x.root va .store with
  | .error _ => .failed s
  | .ok t =>
    match t.target with
    | .mem a =>
      let pa := unitPA s w a
      if !memReady s pa then .failed s
      else if writeTagFails s (keySlot s w) pa n then .failed (compromise s w)
      else if writeWaits s pa n || unitHeld s pa n then .waits s
      else
        let s := performWrite (setAD s w t .store) (keySlot s w) pa (bytesOf n v)
        .done (if pa = a then s else touchImage s w (a / 64)) ()
    | .host h =>
      match hostGate s w 16384 x.pasidOf h with
      | .go => .done ((setAD s w t .store).emit (.hostWrite (tlp s w x.pasidOf h) ((bytesOf n v).map (·.toNat)))) ()
      | .waits s => .waits s
      | .refused s => .failed s
    | _ => .failed s

/-- An aligned read of n bytes in memory or a translated vault page in a queue's translation context. -/
def unitLoad (s : State) (x : Queue) (va n : Nat) : Reached Nat :=
  let w := x.owner
  if walkWaits s w x.root va .load then .waits s
  else match checkIn s w x.root va .load with
  | .error _ => .failed s
  | .ok t =>
    match t.target with
    | .mem a =>
      let pa := unitPA s w a
      if !memReady s pa then .failed s
      else if tagFails s (keySlot s w) pa n then .failed (compromise s w)
      else if portBusy s pa n then .waits s
      else .done (setAD s w t .load) (readNum s (keySlot s w) pa n)
    | _ => .failed s

/-- An event waits at a port: it is tried again when a port changes. -/
def park (s : State) (e : Event) : State := { s with parked := s.parked ++ [e] }

end Sys2Proof.Machine
end

