-- ==== Sys2Proof/Machine/Frame.lean ====
section
/-!
DEFINITION. The save frame (11 R212-R217): what the device writes there at a stop, and what it reads back at RUN.
-/

namespace Sys2Proof.Machine

/-! ## The words of a convoy -/

/-- The instruction that a word encodes. -/
def wordOf (w : Nat) : Option Instr :=
  match decodeWord w with
  | .ok i => some i
  | .error _ => none

/-- Words that end a segment (R175, 18 R330, 24 R427). -/
def isCross : Instr → Bool
  | .vslideup .. | .vslidedn .. | .vperm .. | .vxchg .. | .vcompress .. | .viota .. | .vredsum .. | .vredmax ..
  | .vredmin .. | .vredand .. | .vredor .. | .vredxor .. | .vfredosum .. | .vext .. | .vqsend .. | .vqrecv ..
  | .vpopcX .. | .vpopcLq .. | .pfirst .. | .mldb .. | .mstep .. | .mstepr .. | .mzero .. | .mrd .. | .mwr ..
  | .mcommit .. | .gor2 .. | .gor3 .. | .ginc .. | .gins .. | .gsegx .. => true
  | _ => false

/-- The instruction in a slot, counted from 1. -/
def Convoy.word (c : Convoy) (slot : Nat) : Option Instr := wordOf (nth 0 c.words (slot - 1))
/-- Captured operand j of a slot. -/
def Convoy.cap (c : Convoy) (slot j : Nat) : Word := nth 0 (nth [] c.caps (slot - 1)) j

/-- Two slots of a convoy lie in one segment (09 R175). -/
def Convoy.sameSegment (c : Convoy) (j k : Nat) : Bool :=
  j == k || ((rangeFrom (Nat.min j k) (Nat.max j k + 1)).all fun i =>
    match c.word i with | some w => !isCross w | none => true)

/-- The position that follows a position of an elementwise word (09 R176). -/
def Convoy.after (c : Convoy) (slot e : Nat) : Nat × Nat :=
  if slot + 1 ≤ c.words.length ∧ c.sameSegment slot (slot + 1) then (slot + 1, e)
  else (((rangeFrom 1 (slot + 1)).find? fun j => c.sameSegment j slot).getD slot, e + 1)

/-! ## Writing -/

/-- Cells of a doubleword, a word or a halfword at an offset. -/
def numCells (off n v : Nat) : Tbl Byte := trun 0 off (bytesOf n v)

/-- Doublewords at rising offsets. -/
def dwordCells : Nat → List Nat → Tbl Byte
  | _, [] => []
  | off, d :: ds => numCells off 8 d ++ dwordCells (off + 8) ds

/-- The four doublewords of a virga entry (R217). -/
def Op.words (o : Op) : List Nat :=
  [ o.kind % 256 + o.cls % 4 * 2 ^ 12 + (o.applied && o.cls == 1).toNat * 2 ^ 16 + o.slot % 8 * 2 ^ 17 + o.wlog % 16 * 2 ^ 20 +
      o.func % 256 * 2 ^ 32 + o.reg % 256 * 2 ^ 40 + o.elem % 65536 * 2 ^ 48,
    o.addr % 2 ^ 64, o.opnd % 2 ^ 64,
    if o.kind = 4 ∨ o.kind = 5 then
      o.len % 2 ^ 17 + o.cidx % 2 ^ 12 * 2 ^ 17 + o.idx % 2 ^ 16 * 2 ^ 32 + o.cst % 256 * 2 ^ 56
    else if o.applied && o.cls == 1 then o.old % 2 ^ 64 else o.tag % 2 ^ 64 ]

/-- A chunk of a copy, or a transfer of RROT. -/
def Op.chunk (o : Op) : Bool := o.kind == 4 || o.kind == 5

/-- The chunks of a copy stand together, at the first of them (21 R382). -/
def together : Nat → List Op → List Op
  | 0, os => os
  | _, [] => []
  | n + 1, o :: os =>
    if o.chunk then
      let mine := fun (x : Op) => x.chunk && x.group == o.group && x.queued == o.queued
      o :: os.filter mine ++ together n (os.filter fun x => !mine x)
    else o :: together n os

/-- The record of a strand (R216): its operations in issue order, each chunk with the status that its copy carries
(21 R382), and a status carrier for each copy that has a token to write and no chunk outstanding (21 R381). A read of
an element that issue has still to come to, or of SPAWN's packet, is not recorded (R216, 16 R316). -/
def Strand.record (t : Strand) : List Op :=
  ((together t.ops.length (t.ops.filter fun o => !(o.kind == 2 && o.group != 0))).map fun o =>
    if o.kind = 4 ∨ o.kind = 5 then
      match t.copies.find? fun c => c.id == o.group with
      | some c => { o with cst := c.status, cidx := if c.status = 0 then 0 else c.sidx }
      | none => o
    else o) ++
  t.copies.filterMap fun c =>
    if c.op5 = 0x0A ∨ (t.ops.any fun o => (o.kind == 4 || o.kind == 5) && o.group == c.id) then none
    else some { Op.zero with
      kind := if c.op5 = 0x0C then 5 else 4, func := c.op5, reg := c.reg, cst := c.status,
      cidx := if c.status = 0 then 0 else c.sidx, group := c.id }

/-- An element of MWR or MRD, by row and column of the accumulator (R457): the Anvil is that of the home die. -/
def Op.matrix (o : Op) : Bool := (o.kind == 2 && o.func / 16 == 2) || (o.kind == 3 && o.func / 16 == 3)

/-- The slice of an entry, whose frame holds it and whose core makes its access: that of its element for vector accesses, slice 0
otherwise (R212, 09 R174). -/
def Op.slice (o : Op) : Nat :=
  if (o.kind = 2 ∨ o.kind = 3 ∨ o.kind = 0x12 ∨ o.kind = 0x13) ∧ !o.matrix then o.elem / 512 else 0

/-- The address and the scale address of a block of VLDB4 at an element (19 R367). -/
def Convoy.blockAt (c : Convoy) (slot e : Nat) : Nat × Nat :=
  let cap := fun j => nth 0 (nth [] c.caps (slot - 1)) j
  ((cap 0 + BitVec.ofNat 64 (4 * e)).toNat, (cap 1 + BitVec.ofNat 64 e).toNat)

/-- The head convoy of VM has sent the read of its element at the resume point to the host: the element has issued, and its entry
stands in the record as kind 0x02 (04 R86, 19 R361, R368); issue resumes behind it. Not so where the convoy has faulted there. -/
def Strand.outstand (f : Option FaultRec) (t : Strand) : Strand :=
  match t.vm with
  | .convoy c :: r =>
    let here := fun (o : Op) => o.kind == 2 && o.group == c.seq + 1 && o.slot == c.resk && o.elem == c.rese && !o.done
    match t.ops.find? here, f.any fun f => f.fpc == c.addr && f.fslot != 0 with
    | some o, false =>
      let b := c.blockAt o.slot o.elem
      let o := if o.func / 16 = 1 then { o with wlog := 2, addr := b.1, opnd := b.2 } else o
      let p := c.after c.resk c.rese
      { t with
        ops := (t.ops.filter fun x => !(x.kind == 2 && x.group == c.seq + 1)) ++ [{ o with group := 0, host := none }]
        vm := .convoy { c with resk := p.1, rese := p.2, prog := 0 } :: r }
    | _, _ => t
  | _ => t

/-- The 32 doublewords of a saved convoy (R213). -/
def Convoy.words32 (c : Convoy) : List Nat :=
  let w := fun i => nth 0 c.words i
  [ c.head + w 0 * 2 ^ 32, w 1 + w 2 * 2 ^ 32, w 3, c.addr,
    c.resk % 8 + c.drop.toNat * 2 ^ 15 + c.rese % 65536 * 2 ^ 16 + c.prog % 2 ^ 32 * 2 ^ 32,
    match c.vl with | .fixed n => n | .mark _ => 0, 0, 0 ] ++
  (List.range 4).flatMap fun sl =>
    (List.range 4).map fun j => (nth 0 (nth [] c.caps sl) j).toNat

/-- The doublewords of a marker copy (R214) or of a fence marker (16 R309). -/
def markWords (m : Mark) (drop : Bool) : List Nat :=
  [ m.word, 0, 0, 0, drop.toNat * 2 ^ 15 + 2 ^ 14 + m.val.isSome.toNat * 2 ^ 13, m.val.getD 0, 0, 0 ]

def QEntry.words32 (ms : List Mark) : QEntry → List Nat
  | .convoy c => c.words32
  | .mark id drop => match ms.find? fun m => m.id == id with
    | some m => markWords m drop
    | none => markWords { id := id, word := 0, val := none, vaPast := false, vmPast := false } drop
  | .fence w _ => [w, 0, 0, 0, 0, 0, 0, 0]

/-- A queue's area: the copies that have passed stand first with DROP 1 (R214), then the queue in order. -/
def Strand.area (t : Strand) (vm : Bool) : List QEntry :=
  (t.marks.filterMap fun m => if (if vm then m.vmPast else m.vaPast) then some (.mark m.id true) else none) ++
  (if vm then t.vm else t.va)

def areaCells (off : Nat) (ms : List Mark) : Nat → List QEntry → Tbl Byte
  | _, [] => []
  | i, e :: es => dwordCells (off + 256 * i) (e.words32 ms) ++ areaCells off ms (i + 1) es

/-- Bits of a predicate table in a slice, packed into bytes: register n at base + 64 n. -/
def bitCells (base n t : Nat) (p : Tbl Bool) : Tbl Byte :=
  let here := tslice (n * 4096 + t * 512) 512 p
  let byte := fun j => (List.range 8).foldl (fun b i =>
    if tget false here (n * 4096 + t * 512 + 8 * j + i) then b + 2 ^ i else b) 0
  (((here.map fun e => (e.1 - n * 4096 - t * 512) / 8).eraseDups).map fun j =>
    (base + 64 * n + j, BitVec.ofNat 8 (byte j)))

/-- Vector slots of a slice. -/
def slotCells (vbase mvls t : Nat) (v : Tbl Slot) : Tbl Byte :=
  (v.filter fun e => e.1 % 4096 / 512 == t).flatMap fun e =>
    numCells (vbase + 4 * (e.1 / 4096 * mvls + e.1 % 512)) 4 e.2.toNat

def packCounts (width : Nat) (ns : List Nat) : Nat :=
  (List.range ns.length).foldl (fun a i => a + nth 0 ns i * 2 ^ (width * i)) 0

/-- The contents of the frame of slice t (R213). -/
def frameCells (c : Ctx) (t : Nat) : Tbl Byte :=
  let st := c.strand
  let n := virgaLimit c.elat
  let mvls := mvlSlice c.elat
  let vbase := 0x6000 + 32 * n
  let ent := (st.record.filter fun o => o.slice == t)
  let qs := (List.range 8).map fun i => tget [] st.q i
  let ls := (List.range 4).map fun i => tget [] st.lq i
  let va := st.area false
  let vm := st.area true
  let head := dwordCells 0
    [ (if t = 0 then va.length + vm.length * 256 else 0) + ent.length * 65536,
      if t = 0 then packCounts 5 (qs.map (·.length)) else 0,
      if t = 0 then packCounts 4 (ls.map (·.length)) else 0,
      mvls + t * 65536, vbase ]
  let one :=
    if t = 0 then
      ((List.range 8).flatMap fun i => dwordCells (0x100 + 128 * i) ((tget [] st.q i).map (·.toNat))) ++
      ((List.range 4).flatMap fun i =>
        (List.range 8).flatMap fun j => numCells (0x500 + 16 * i + 2 * j) 2 (nth 0 (tget [] st.lq i) j)) ++
      (st.cmds.flatMap fun e => numCells (0x600 + 8 * e.1) 8 e.2.w3) ++
      areaCells 0x1000 st.marks 0 va ++ areaCells 0x3000 st.marks 0 vm
    else []
  head ++ one ++ ((List.range 24).flatMap fun i => bitCells 0x5000 i t st.p) ++ bitCells 0x5600 0 t st.vv ++
    dwordCells 0x6000 (ent.flatMap Op.words) ++ slotCells vbase mvls t st.v

/-- Slices that a context's frames stand on (R212). -/
def Ctx.slices (c : Ctx) : List Nat := List.range (2 ^ c.span)

/-- The device writes the save frame and the saved fields (R56): every frame of the strand, then the page. -/
def saveFrame (s : State) (w k : Nat) : State :=
  let c := s.ctx w k
  let s := c.slices.foldl (fun s t =>
    performCells s 0 (c.saveFrame + t * 2 ^ 29) (frameSize c.elat) (frameCells c t)) s
  s.modCtx w k fun c => { c with
    pcS := c.strand.pc, vlS := c.strand.vl, fflagsS := c.strand.fflags, xS := c.strand.x,
    virga := c.strand.record.length }

/-! ## Reading -/

/-- An operation from the four doublewords of an entry (R217). -/
def opOf (id d0 addr opnd d3 : Nat) : Op :=
  let kind := bits d0 7 0
  let chunk := kind == 4 || kind == 5
  { id := id, kind := kind, cls := bits d0 13 12, func := bits d0 39 32, reg := bits d0 47 40, elem := bits d0 63 48,
    slot := bits d0 19 17, wlog := bits d0 23 20, addr := addr, opnd := opnd, tag := d3, applied := bit d0 16,
    old := d3, len := if chunk then bits d3 16 0 else 0, idx := if chunk then bits d3 47 32 else 0,
    cst := if chunk then bits d3 63 56 else 0, cidx := if chunk then bits d3 28 17 else 0, group := 0, done := false,
    host := none, pc := 0, pa := 0, buf := [], part := 0, queued := true }

/-- A doubleword of a vault. -/
def vaultDword (s : State) (pa : Nat) : Nat := readNum s 0 pa 8

/-- Entry i of a frame. -/
def readOp (s : State) (base id i : Nat) : Op :=
  let a := base + 0x6000 + 32 * i
  { opOf id (vaultDword s a) (vaultDword s (a + 8)) (vaultDword s (a + 16)) (vaultDword s (a + 24)) with pc := a }

/-- Where the entries of a context's frames stand, in record order: slice by slice (R215 bounds each count). -/
def recordPlaces (s : State) (c : Ctx) : List (Nat × Nat) :=
  c.slices.flatMap fun t =>
    let base := c.saveFrame + t * 2 ^ 29
    (List.range (Nat.min (bits (vaultDword s base) 29 16) (virgaLimit c.elat))).map fun i => (base, i)

/-- The entries of a context's frames; each operation names its entry's PA, which no instruction's address equals. -/
def readRecord (s : State) (c : Ctx) (id0 : Nat) : List Op :=
  let per := recordPlaces s c
  (List.range per.length).map fun j =>
    let e := nth (0, 0) per j
    readOp s e.1 (id0 + j) e.2

/-- A saved convoy, as it stands (R213). -/
def readConvoy (s : State) (mvl a seq : Nat) (vl : Option VlSrc) : Convoy :=
  let d := fun i => vaultDword s (a + 8 * i)
  let n := bits (d 0) 26 25 + 1
  { seq := seq, addr := d 3, head := bits (d 0) 31 0,
    words := [bits (d 0) 63 32, bits (d 1) 31 0, bits (d 1) 63 32, bits (d 2) 31 0].take n,
    vl := vl.getD (.fixed (Nat.min (bits (d 5) 15 0) mvl)),
    caps := (List.range n).map fun sl => (List.range 4).map fun j => BitVec.ofNat 64 (d (8 + 4 * sl + j)),
    resk := bits (d 4) 2 0, rese := bits (d 4) 31 16, prog := bits (d 4) 63 32, drop := bit (d 4) 15,
    locks := [], busy := [], sent := [] }

/-- One raw entry of a queue area. -/
inductive Saved where
  | mark (word cvl : Nat) (val drop : Bool)
  | fence (word : Nat)
  | convoy (a : Nat)
  deriving DecidableEq, Repr

def readSaved (s : State) (a : Nat) : Saved :=
  let d0 := vaultDword s a
  let d4 := vaultDword s (a + 32)
  if bit d4 14 then .mark (bits d0 31 0) (bits (vaultDword s (a + 40)) 15 0) (bit d4 13) (bit d4 15)
  else if bits d0 6 0 = 0x7B ∧ (bits d0 31 27 = 4 ∨ bits d0 31 27 = 6) then .fence (bits d0 31 0)
  else .convoy a

def readArea (s : State) (base off n : Nat) : List Saved :=
  (List.range (Nat.min n 32)).map fun i => readSaved s (base + off + 256 * i)

/-- The SETVLQ pairs of the two areas, oldest first (R214): value and instruction word, and which copies passed. The
device keeps each pair's name; a pair beyond them is named from `new` on. -/
def pairMarks (mvl new : Nat) (kept : List Mark) (va vm : List Saved) : List Mark :=
  let ms := fun l => l.filterMap fun e => match e with | Saved.mark w c v d => some (w, c, v, d) | _ => none
  let a := ms va
  let b := ms vm
  (List.range (Nat.min a.length b.length)).map fun i =>
    let x := nth (0, 0, false, false) a i
    let y := nth (0, 0, false, false) b i
    { id := match kept[i]? with | some m => m.id | none => new + i
      word := match kept[i]? with | some m => m.word | none => x.1
      val := if x.2.2.1 then some (Nat.min x.2.1 mvl) else none
      vaPast := x.2.2.2
      vmPast := y.2.2.2 }

/-- The convoys of a queue. -/
def convoysOf (q : List QEntry) : List Convoy := q.filterMap fun e => match e with | .convoy c => some c | _ => none

/-- What the device keeps of a saved queue entry beside its frame (DESIGN CHOICE, assumption 15): its commit number, since the frame holds
no order between the two queues (R428), the locks and busy slots that its commit decided (22 R407, R408), the elements
after its resume point that the record holds (09 R456), and its strip (10 R196). -/
structure Kept where
  seq   : Nat
  locks : List (Nat × Nat)
  busy  : List Nat
  sent  : List (Nat × Nat)
  strip : Nat
  soft  : List (Nat × Nat × Nat × Nat) := []
  deriving DecidableEq, Repr

def Kept.new (seq : Nat) : Kept := { seq := seq, locks := [], busy := [], sent := [], strip := 0 }

def keptOf (q : List QEntry) : List Kept :=
  q.filterMap fun e => match e with
    | .convoy c => some { seq := c.seq, locks := c.locks, busy := c.busy, sent := c.sent, strip := c.strip, soft := c.soft }
    | .fence _ n => some (Kept.new n)
    | .mark _ _ => none

/-- A queue rebuilt from its area: marker i is the i-th pair; a convoy behind a copy with DROP 0 takes its VL from
it (R214). `src` is where the convoys behind take their VL from; an entry that the device has nothing of takes `new`. -/
def buildQueue (s : State) (mvl : Nat) (marks : List Mark) :
    List Kept → Nat → Nat → Option VlSrc → List Saved → List QEntry
  | _, _, _, _, [] => []
  | kept, new, i, src, .mark _ _ _ drop :: r =>
    match marks[i]? with
    | some m =>
      if drop then buildQueue s mvl marks kept new (i + 1) src r
      else .mark m.id false :: buildQueue s mvl marks kept new (i + 1)
        (some (match m.val with | some v => .fixed v | none => .mark m.id)) r
    | none => buildQueue s mvl marks kept new (i + 1) src r
  | kept, new, i, src, .fence w :: r =>
    .fence w (kept.headD (Kept.new new)).seq :: buildQueue s mvl marks kept.tail (new + 2) i src r
  | kept, new, i, src, .convoy a :: r =>
    let h := kept.headD (Kept.new new)
    .convoy { readConvoy s mvl a h.seq src with locks := h.locks, busy := h.busy, sent := h.sent, strip := h.strip, soft := h.soft } :: buildQueue s mvl marks kept.tail (new + 2) i src r

/-- Slots of a register file region of a frame. -/
def readSlots (s : State) (base vbase mvls t : Nat) : Tbl Slot :=
  let lo := base + vbase
  (((tslice lo (256 * mvls) s.mem).map fun e => (e.1 - lo) / 4).eraseDups).map fun j =>
    (j / mvls * 4096 + t * 512 + j % mvls, BitVec.ofNat 32 (readNum s 0 (lo + 4 * j) 4))

/-- Bits of n predicate registers of a frame. -/
def readBits (s : State) (base off n mvls t : Nat) : Tbl Bool :=
  (tslice (base + off) (64 * n) s.mem).flatMap fun e =>
    (List.range 8).filterMap fun i =>
      let j := e.1 - base - off
      if bit e.2.toNat i ∧ 8 * (j % 64) + i < mvls then some (j / 64 * 4096 + t * 512 + 8 * (j % 64) + i, true)
      else none

/-- Tables merged by key. -/
def merge {α : Type} (t u : Tbl α) : Tbl α := u.foldl (fun t e => tset e.1 e.2 t) t

/-- The x registers that the open SETVLQs have still to write (16 R308): those that no later instruction had written at
the stop, and those of pairs that the frame alone names. -/
def markPends (kept : List Mark) (old : List Pend) (marks : List Mark) : List Pend :=
  marks.filterMap fun m =>
    let p : Pend := { reg := bits m.word 11 7, tok := 4 * m.id + 2 }
    if m.val.isSome || p.reg == 0 then none
    else if (kept.any fun x => x.id == m.id) && !old.contains p then none
    else some p

/-- The matrix operations that the Anvil holds, each under the name of its entry (22 R416); one whose entry the frames no
longer hold is discarded as one of KIND 0 is (11 R218). -/
def Anvil.relink (id0 n : Nat) (a : Anvil) : Anvil :=
  { a with held := (a.held.filter fun o => decide (o.place < n)).map fun o => { o with op := id0 + o.place, live := false } }

/-- The places of the entries of a record in the frame of slice 0, as they are saved (22 R416). -/
def Strand.parkHeld (t : Strand) : Option Anvil :=
  let ids := (t.record.filter fun o => o.slice == 0).map (·.id)
  t.anvil.map fun a => { a with held := a.held.map fun o =>
    { o with place := (ids.findIdx? (· == o.op)).getD ids.length, live := false } }

/-- The copies of a strand, with the places of their entries in the frame of slice 0, as they are saved. -/
def Strand.parkCopies (t : Strand) : List Copy :=
  let os := t.record.filter fun o => o.slice == 0
  let groups := ((os.filter fun o => o.chunk && o.group != 0).map (·.group)).eraseDups
  groups.map fun g =>
    { id := g, op5 := 0, reg := 0, status := 0, sidx := 0, issued := false
      places := (List.range os.length).filter fun i => (os[i]?.map fun o => o.chunk && o.group == g) == some true }

/-- A chunk's entry read back belongs to the copy that it belonged to at the save; the copy takes a new name. An entry that the
device knows nothing of keeps group 0. -/
def regroup (id0 : Nat) (cs : List Copy) (o : Op) : Op :=
  if o.chunk then match cs.find? fun c => c.places.contains (o.id - id0) with
    | some c => { o with group := 4 * (id0 + c.places.headD 0) + 3 }
    | none => o
  else o

/-- The strand that RUN loads from the context page and the frames (R55, R214, R215, R222). -/
def loadFrame (s : State) (w k : Nat) : Strand :=
  let c := s.ctx w k
  let st := c.strand
  let base := c.saveFrame
  let mvls := mvlSlice c.elat
  let h0 := vaultDword s base
  let qc := vaultDword s (base + 8)
  let lc := vaultDword s (base + 16)
  let va := readArea s base 0x1000 (bits h0 7 0)
  let vm := readArea s base 0x3000 (bits h0 15 8)
  let marks := pairMarks c.mvl (st.seq + 64) st.marks va vm
  let ops := (readRecord s c st.opNext).map (regroup st.opNext st.copies)
  { Strand.zero with
    x := c.xS, pc := c.pcS, vl := Nat.min c.vlS c.mvl, fflags := c.fflagsS
    v := c.slices.foldl (fun t i => merge t (readSlots s (base + i * 2 ^ 29) (0x6000 + 32 * virgaLimit c.elat) mvls i)) []
    p := c.slices.foldl (fun t i => merge t (readBits s (base + i * 2 ^ 29) 0x5000 24 mvls i)) []
    vv := c.slices.foldl (fun t i => merge t (readBits s (base + i * 2 ^ 29) 0x5600 1 mvls i)) []
    q := (List.range 8).foldl (fun t i =>
      tput [] i ((List.range (Nat.min (bits qc (5 * i + 4) (5 * i)) 16)).map fun j =>
        BitVec.ofNat 64 (vaultDword s (base + 0x100 + 128 * i + 8 * j))) t) []
    lq := (List.range 4).foldl (fun t i =>
      tput [] i ((List.range (Nat.min (bits lc (4 * i + 3) (4 * i)) 8)).map fun j =>
        readNum s 0 (base + 0x500 + 16 * i + 2 * j) 2) t) []
    marks := marks
    va := buildQueue s c.mvl marks (keptOf st.va) st.seq 0 none va
    vm := buildQueue s c.mvl marks (keptOf st.vm) (st.seq + 1) 0 none vm
    seq := st.seq + 128
    pend := markPends st.marks st.pend marks
    vlMark := match st.vlMark with
      | some id => if marks.any fun m => m.id == id && m.val.isNone then some id else none
      | none => none
    ops := ops
    opNext := st.opNext + ops.length
    cmds := ops.foldl (fun t o =>
      if o.kind = 6 then
        tset o.reg { w0 := o.tag, w1 := o.addr, w2 := o.opnd, w3 := vaultDword s (base + 0x600 + 8 * (o.reg % 256)) } t
      else t) []
    tcnt := st.tcnt, kids := st.kids, bno := st.bno, unread := st.unread, strip := st.strip
    anvil := st.anvil.map (Anvil.relink st.opNext (Nat.min (bits h0 29 16) (virgaLimit c.elat))) }

end Sys2Proof.Machine
end

