-- ==== Sys2Proof/Machine/Contexts.lean ====
section
/-!
DEFINITION. Contexts and launches under command: stopping, saving and recording a fault, running again, killing,
and how gangs and launches end (03 R55-R61, 08 R155, 11 R209-R211).
-/

namespace Sys2Proof.Machine

/-! ## Attachment -/

/-- A strand is attached to its Anvil. -/
def attached (s : State) (w k : Nat) : Bool := (s.ctx w k).strand.anvil.isSome

/-- The Anvil holds the strand's state: a gang that rotation stopped has left it (08 R151), a pre-empted one has not (08 R149). -/
def holdsAnvil (s : State) (w k : Nat) : Bool := attached s w k && (s.gangOf w k).state != .rotated

/-! ## The strands of a core -/

/-- A context that holds its strand on the fabric: it may issue, or its save is not complete. -/
def Ctx.busy (c : Ctx) : Bool := (c.state.live || c.state == .stopping) && !c.due

/-- Convoys of a strand in a queue. -/
def Strand.entries (t : Strand) (vm : Bool) : Nat := (convoysOf (if vm then t.vm else t.va)).length

/-- Convoys that a context's strand has in a queue of its core: none before its replay has ended, or after its save. -/
def Ctx.entered (c : Ctx) (vm : Bool) : Nat := if c.busy && c.state != .resuming then c.strand.entries vm else 0

/-- The other strands of a core of which f holds. -/
def siblings (s : State) (w k : Nat) (f : Ctx → Bool) : List Nat :=
  (s.bound w).filter fun j => j != k && (s.ctx w j).resident && (s.ctx w j).slotNum / 4 == (s.ctx w k).slotNum / 4 && f (s.ctx w j)

/-- What the other resident strands of a core take of its queue: f of each. -/
def othersIn (s : State) (w k : Nat) (vm : Bool) (f : Nat → Nat) : Nat :=
  ((siblings s w k fun _ => true).map fun j => f ((s.ctx w j).entered vm)).foldl (· + ·) 0

/-- Entries of a queue of its core have become free: a strand that waits with more convoys than its eight may re-enter them
(09 R164, 11 R222). -/
def wakeResuming (s : State) (w k : Nat) : State :=
  { s with work := s.work ++ (siblings s w k fun c => c.state == .resuming && !c.due &&
      decide (8 < Nat.max (c.strand.entries false) (c.strand.entries true))).map fun j => event .replayDone [w, j] }

/-! ## The end of a gang and of a launch -/

/-- Granules that an allocation takes (10 R181). -/
def granules (size : Nat) : Nat := (size + 65535) / 65536

/-- The vault range of a world's allocation is released (10 R181): its dirty bits are no world's (07 R128). Its contents stand
until it is scrubbed, before it is allocated again. While the world is off the fabric the vault holds nothing of it, and its
image is not read again there. -/
def releaseAlloc (s : State) (w core off size : Nat) : State :=
  let g0 := core * 64 + off / 65536
  let n := granules size
  if onFabric s w then { s with dirtyV := terase g0 n s.dirtyV }
  else s.modWorld w fun x => { x with imageV := x.imageV.filter fun g => decide (g < g0) || decide (g0 + n ≤ g) }

/-- It is released and scrubbed at once. -/
def scrubAlloc (s : State) (w core off size : Nat) : State :=
  let s := releaseAlloc s w core off size
  if onFabric s w then { s with mem := terase (vaultPA core off) size s.mem } else s

/-- A vault range is allocated for a gang that is placed for the first time: it has been scrubbed, and reads zero (10 R181). The
scrub writes it, so that its granules are dirty (07 R128; DEDUCED, assumption 87). -/
def freshAlloc (s : State) (size : Nat) (a : Nat × Nat) : State :=
  let n := granules size
  { s with
    mem := terase (vaultPA a.1 a.2) (n * 65536) s.mem
    dirtyV := setAll ((List.range n).map fun i => a.1 * 64 + a.2 / 65536 + i) s.dirtyV }

/-- Every gang of a launch has been placed, or will not be (08 R155, 03 R61). -/
def Launch.allPlaced (l : Launch) : Bool := l.discarded || decide (l.total ≤ l.nextGang)

/-- Gangs of a launch that are still to place: new ones, and stopped ones (08 R146, R149, R151). -/
def Launch.toPlace (x : Launch) : Bool :=
  (x.gangs.any fun (e : Nat × Gang) => e.2.state == .preempted || e.2.state == .rotated) || !x.allPlaced

/-- A launch whose gangs have all been placed and whose contexts are all DEAD moves to ACKWAIT, and to DONE once no
remote store is outstanding (08 R155). -/
def launchEnd (s : State) (w l : Nat) : State :=
  let x := s.launch w l
  let dead := (s.ctxsOf w l).all fun k => (s.ctx w k).state == .dead
  if (x.lstate = .pending ∨ x.lstate = .active) ∧ x.allPlaced ∧ dead then
    let s := wakePage (s.modLaunch w l fun x => { x with lstate := .ackwait }) w 3 l 0
    if x.peerpend = 0 then s.push .launchDone [w, l] else s
  else s

/-- The words of a context page that a fault record holds (08 R154): 0x018, 0x020, 0x028, 0x030. -/
def Ctx.faultWords (c : Ctx) : List Nat :=
  [c.cause + c.fslot * 2 ^ 8 + c.fseq.toNat * 2 ^ 32, c.fpc, c.felem + c.progress * 2 ^ 32, c.faddr]

/-- A gang whose contexts are all DEAD ends: its numbers, its allocation and its bands are freed (03 R57, 10 R181). It stays
in the visit set (08 R152), and the fault record of its first faulting context is kept (08 R154). -/
def gangEnd (s : State) (w l g : Nat) : State :=
  let x := s.launch w l
  let gg := tget Gang.zero x.gangs g
  if gg.state ≠ .ended ∧ gg.ctxs.all (fun k => (s.ctx w k).state == .dead) then
    let first := if x.fvalid && gg.ctxs.contains x.firstFault then (s.ctx w x.firstFault).faultWords else x.faultRec
    let s := gg.ctxs.foldl (fun s k => s.setCtxState w k .empty) s
    let s := gg.allocs.foldl (fun s a => releaseAlloc s w a.1 a.2 gg.size) s
    let s := s.modLaunch w l fun x => { x with
      doneg := x.doneg + 1
      residentg := if gg.state = .resident ∨ gg.state = .rotating then x.residentg - 1 else x.residentg
      faultRec := first
      gangs := tset g { gg with state := .ended, ctxs := [], allocs := [], bands := 0 } x.gangs }
    (wakePage s w 3 l 0).push .dispatchDecision []
  else s

/-- What waits for a context to leave STOPPING is tried again: a rotation, a pre-empting gang, a world switch, a
checkpoint, the dispatcher. -/
def settled (s : State) (w k : Nat) : State :=
  let c := s.ctx w k
  let g := s.gangOf w k
  let s := if g.state = .preempted then s.modCtx w k fun c => { c with resident := false } else s
  let s := if g.state = .rotating then s.push .rotationSaveDone [w, c.launch + 1024 * c.gang] else s
  let s := match s.quantum.switch with
    | some (_, 1) => if s.quantum.world = w then s.push .switchStopsDone [] else s
    | _ => s
  let s := if s.ckpt.estate = 1 ∧ s.ckpt.world = w then s.push .ckptStopped [] else s
  let s := wakeResuming s w k
  if (s.launch w c.launch).toPlace then s.push .dispatchDecision [] else s

/-- A context becomes DEAD: outstanding operations are discarded, its sundog entries are freed, its slot is given up
(R57); retired stores still perform. -/
def killCtx (s : State) (w k : Nat) : State :=
  let c := s.ctx w k
  let s := s.putCtx w k { c.halt with
    resident := false, fault := none, wait := none, ranAtSwitch := false, due := false, deadFaulted := c.state == .faulted
    strand := { c.halt.strand.discardOps with kids := [], anvil := none, va := [], vm := [], marks := [] } }
  let s := { s with
    sundogs := s.sundogs.filter fun d => d.tag / 2 ^ 18 != w * 2 ^ 14 + k
    flights := s.flights.filter fun x => !(x.1 == w && x.2.1 == k)
    hreqs := (s.hreqs.filter fun (e : Nat × HReq) => !(e.2.world == w && e.2.ctx == k && e.2.posted && !e.2.asking)).map
      fun (e : Nat × HReq) => if e.2.world = w ∧ e.2.ctx = k then (e.1, { e.2 with dropped := true }) else e }
  let s := if c.state = .faulted then s.modLaunch w c.launch fun x => { x with faultEnd := true } else s
  let s := settled (s.setCtxState w k .dead) w k
  let s := { s with work := s.work ++ c.freed (ctxKey w k) }
  launchEnd (gangEnd s w c.launch c.gang) w c.launch

/-! ## Stopping -/

/-- STOP takes effect: issue halts, and the frame will be saved (R57, 11 R216). A context whose registers have not been
loaded since RUN has its frame saved as it stands. -/
def stopCtx (s : State) (w k : Nat) : State :=
  if (s.ctx w k).due then (s.modCtx w k fun c => { c with due := false, heldState := 0 }).setCtxState w k .saved
  else if (s.ctx w k).state.live then
    let c := s.ctx w k
    let s := ((s.putCtx w k c.halt).setCtxState w k .stopping).push .contextSaved [w, k]
    { s with work := s.work ++ c.freed (ctxKey w k) }
  else s

/-- KILL_ALL on a launch (R61): a FROZEN context survives unless the command holds world-root rights. -/
def killAll (s : State) (w l : Nat) (root : Bool) : State :=
  let s := s.modLaunch w l fun x => { x with discarded := true, held := false }
  let s := (s.ctxsOf w l).foldl (fun s k =>
    let st := (s.ctx w k).state
    if st = .dead ∨ st = .empty ∨ (st = .frozen ∧ !root) then s else killCtx s w k) s
  launchEnd (wakePage s w 3 l 0) w l

/-- A retired store of the strand still waits at a port (R206). -/
def storesHeld (s : State) (w k : Nat) : Bool :=
  s.heldW.any fun h => h.world == w && h.ctx == k

/-- A posted write of a world waits at a port: completion words wait for it (06 R121). -/
def worldStoresHeld (s : State) (w : Nat) : Bool :=
  s.heldW.any fun h => h.world == w

/-- The fault goes to the handler that HANDLER names, if it may (R56, R209). -/
def handlerOf (s : State) (w k : Nat) : Option Nat :=
  let c := s.ctx w k
  if c.hvalid ∧ (s.ctx w c.handler).state ≠ .empty ∧ c.handler ≠ k then some c.handler else none

/-- The record of a fault (R54, R56, R207). -/
def recordFault (s : State) (w k : Nat) (f : FaultRec) : State :=
  let frozen := f.cause == .tagfail
  let s := s.modCtx w k fun c => { c with
    fseq := c.fseq + 1, fslot := f.fslot, cause := f.cause.code, fpc := f.fpc, felem := f.felem,
    progress := f.progress, faddr := f.faddr, fault := none, heldState := 0 }
  let s := s.setCtxState w k (if frozen then .frozen else .faulted)
  let l := (s.ctx w k).launch
  let s := if (s.launch w l).fvalid then s
    else wakePage (s.modLaunch w l fun x => { x with fvalid := true, firstFault := k }) w 3 l 0x58
  match handlerOf s w k with
  | some h =>
    wakePage (s.modCtx w h fun c => { c with lastFault := k, notify := c.notify + 1 }) w 4 h 0x40
  | none =>
    if frozen then s
    else killAll (s.modLaunch w l fun x => { x with faultEnd := true }) w l false

/-- What is outstanding stands in the record now. The device keeps which registers the length markers have still to
write (16 R308, 11 R214), which entries belong to one copy (21 R382), and the Anvil its operations (22 R416). -/
def Strand.shelve (t : Strand) : Strand :=
  { t.discardOps with pend := (t.pend.filter fun p => p.tok % 4 == 2), anvil := t.parkHeld, copies := t.parkCopies }

/-- Requests of a saved strand: what its replay sends again is awaited, and not needed; an AtomicOp that has gone out under its
tag still applies (11 R220), and a translation that has been asked for serves the write that waits for it. -/
def leaveRequests (s : State) (w k : Nat) : State :=
  { s with hreqs := s.hreqs.map fun (e : Nat × HReq) =>
      if e.2.world = w ∧ e.2.ctx = k ∧ !e.2.posted ∧ (e.2.tag.isNone ∨ e.2.asking) then (e.1, { e.2 with dropped := true }) else e }

/-- Class T requests that have left the core travel on to their ports (20 R374). An SC does not: the stop has cleared its
reservation (11 R218). -/
def launchFlights (s : State) (w k : Nat) : State :=
  { s with flights := s.flights ++ ((s.ctx w k).strand.ops.filter fun o =>
      o.cls == 1 && o.kind != 0x11 && !o.done && !o.queued && o.host.isNone).map fun o => (w, k, o) }

/-- Requests of saved strands go on to their ports. -/
def flightEvents (s : State) (f : Nat → Nat → Bool) : List Event :=
  (s.flights.filter fun x => f x.1 x.2.1).map fun x => event .writeQueueUpdate [x.1, x.2.1, x.2.2.id]

/-- Entries of a port's sundog table (11 R220). -/
def sundogLimit (port : Nat) : Nat := if port < 24 then 2048 else 256

/-- A port's table is more than three quarters full (11 R221). -/
def portCrowded (s : State) (port : Nat) : Bool :=
  decide (3 * sundogLimit port < 4 * (s.sundogs.filter fun d => d.port == port).length)

/-- Entries of a context that has stopped leave the tables that are more than three quarters full (11 R221). -/
def crowdedSpills (s : State) (w k : Nat) : List Event :=
  (s.sundogs.filter fun d => d.tag / 2 ^ 18 == w * 2 ^ 14 + k && portCrowded s d.port).map fun d => event .sundogSpill [d.tag]

/-- CONTEXT_SAVED (R57, R56): the frame and the saved fields are written, every retired store has performed, and the
context reads SAVED, FAULTED or FROZEN. -/
def contextSaved (s : State) (w k : Nat) : State :=
  let c := s.ctx w k
  if c.state ≠ .stopping ∨ storesHeld s w k then s
  else
    let s := launchFlights (saveFrame (s.modStrand w k (Strand.outstand c.fault)) w k) w k
    let s := s.modStrand w k Strand.shelve
    let s := leaveRequests s w k
    let s := touchLines s (pagePA 4 k 0x40 / 64) (pagePA 4 k 0x1FF / 64) w
    let s := { s with work := s.work ++ crowdedSpills s w k }
    match c.fault with
    | none => settled (s.setCtxState w k .saved) w k
    | some f => settled (recordFault s w k f) w k

/-! ## Running again -/

/-- The registers are loaded from the page and the frame, and replay begins (R55, R57, 11 R222). After a world switch the page goes
on showing the state that the context had (R57). -/
def loadCtx (s : State) (w k : Nat) : State :=
  let s := s.modCtx w k fun c => { c with
    strand := loadFrame s w k, fault := none, wait := none, ranAtSwitch := false, due := false }
  let s := s.setCtxState w k .resuming
  ({ s with work := s.work ++ flightEvents s fun a b => a == w && b == k } : State).push .replayDone [w, k]

/-- RUN takes effect on a SAVED or FAULTED context (R57): it reads RESUMING from here. The registers are loaded now, or,
where it has no slot, loses it to a rotation, or its world is off the fabric, once it has both; no field can be written
meanwhile (R55). -/
def runCtx (s : State) (w k : Nat) : State :=
  if (s.ctx w k).resident ∧ s.quantum.world = w ∧ s.quantum.switch.isNone ∧ (s.gangOf w k).state ≠ .rotating then loadCtx s w k
  else (s.modCtx w k fun c => { c with due := true, ranAtSwitch := false, fault := none }).setCtxState w k .resuming

/-- RUN leads to a transition (R57): the context is SAVED or FAULTED, and its page shows so. -/
def canRun (s : State) (w k : Nat) : Bool :=
  let c := s.ctx w k
  (c.state == .saved || c.state == .faulted) && c.heldState == 0

/-! ## Commands (R59, R61) -/

/-- Every CMD write is counted and its result is shown. -/
def cmdResult (s : State) (w k r : Nat) : State :=
  wakePage (s.modCtx w k fun c => { c with cmdCnt := c.cmdCnt + 1, cmdStat := r }) w 4 k 0

/-- STOP of a context that runs, or that a world switch keeps stopped (its page shows the state it had, R57). -/
def stopCmd (s : State) (w k : Nat) : State :=
  if (s.ctx w k).state.live ∨ (s.ctx w k).heldState = 0 then stopCtx s w k
  else wakePage (s.modCtx w k fun c => { c with heldState := 0, ranAtSwitch := false }) w 4 k 0

def cmdStop (s : State) (w k : Nat) : State :=
  if (s.ctx w k).state.live ∨ (s.ctx w k).heldState ≠ 0 then stopCmd (cmdResult s w k 0) w k else cmdResult s w k 1

def cmdRun (s : State) (w k : Nat) : State :=
  if canRun s w k then runCtx (cmdResult s w k 0) w k else cmdResult s w k 1

/-- States from which KILL leads to DEAD. -/
def CtxState.killable : CtxState → Bool
  | .running | .waiting | .stopping | .resuming | .saved | .faulted => true
  | _ => false

/-- CMD KILL of the last context not yet DEAD makes the launch KILLED, unless that context was FAULTED (08 R155). -/
def cmdKill (s : State) (w k : Nat) (root : Bool) : State :=
  let c := s.ctx w k
  if c.state.killable ∨ (c.state = .frozen ∧ root) then
    let last := (s.ctxsOf w c.launch).all fun j => j == k || (s.ctx w j).state == .dead
    let s := cmdResult s w k 0
    let s := if last ∧ c.state ≠ .faulted ∧ (s.launch w c.launch).allPlaced then
      s.modLaunch w c.launch fun x => { x with killed := true } else s
    killCtx s w k
  else if c.state = .frozen then cmdResult s w k 2
  else cmdResult s w k 1

/-- A launch that is bound and has contexts or gangs. -/
def Launch.bound (l : Launch) : Bool := l.lstate == .pending || l.lstate == .active

/-- A launch that is not DONE. -/
def Launch.open (l : Launch) : Bool := l.bound || l.lstate == .ackwait

/-- A launch whose number is bound: a GCMD store acts on it (R61). -/
def Launch.numbered (l : Launch) : Bool := l.open || (l.lstate == .done && !l.free)

def stopAll (s : State) (w l : Nat) : State :=
  if (s.launch w l).numbered then
    wakePage ((s.ctxsOf w l).foldl (fun s k => stopCmd s w k)
      (s.modLaunch w l fun x => { x with held := true })) w 3 l 0x60
  else s

def runAll (s : State) (w l : Nat) : State :=
  if (s.launch w l).numbered then
    let s := (s.ctxsOf w l).foldl (fun s k =>
      if (s.ctx w k).state = .saved ∧ canRun s w k then runCtx s w k else s) (s.modLaunch w l fun x => { x with held := false })
    (wakePage s w 3 l 0x60).push .dispatchDecision []
  else s

/-- KILL_ALL of a launch that waits for its acknowledgements makes it KILLED all the same (08 R155). -/
def killAllCmd (s : State) (w l : Nat) (root : Bool) : State :=
  if (s.launch w l).numbered then
    killAll (s.modLaunch w l fun x => { x with killed := x.killed || x.open }) w l root
  else s

/-- A write to PC, VL, FFLAGS or XREG (R55): only in SAVED or FAULTED. -/
def savedFieldWrite (s : State) (w k off v : Nat) : State :=
  let c := s.ctx w k
  if (c.state = .saved ∨ c.state = .faulted) ∧ c.heldState = 0 then
    if off = 0x80 then s.modCtx w k fun c => { c with pcS := BitVec.ofNat 64 v }
    else if off = 0x88 then s.modCtx w k fun c => { c with vlS := bits v 47 32, fflagsS := bits v 4 0 }
    else if 0x108 ≤ off ∧ off < 0x200 then
      s.modCtx w k fun c => { c with xS := tput 0 ((off - 0x100) / 8) (BitVec.ofNat 64 v) c.xS }
    else s
  else s

/-! ## The meanings -/

/-- STOP (R57, R59). -/
def execStop (s : State) : Res := .next (cmdStop s (s.arg 0) (s.arg 1))
/-- RUN (R57, R59). -/
def execRun (s : State) : Res := .next (cmdRun s (s.arg 0) (s.arg 1))
/-- KILL (R57, R59). -/
def execKill (s : State) : Res := .next (cmdKill s (s.arg 0) (s.arg 1) (s.arg 2 != 0))
/-- CMD_ZERO (R59): counted and IGNORED. -/
def execCmdZero (s : State) : Res := .next (cmdResult s (s.arg 0) (s.arg 1) 1)
/-- CTX_SAVED_FIELD_WRITE (R55). -/
def execCtxSavedFieldWrite (s : State) : Res := .next (savedFieldWrite s (s.arg 0) (s.arg 1) (s.arg 2) (s.arg 3))
/-- CONTEXT_SAVED (R56, R57). -/
def execContextSaved (s : State) : Res := .next (contextSaved s (s.arg 0) (s.arg 1))
/-- STOP_ALL (R61). -/
def execStopAll (s : State) : Res := .next (stopAll s (s.arg 0) (s.arg 1))
/-- RUN_ALL (R61). -/
def execRunAll (s : State) : Res := .next (runAll s (s.arg 0) (s.arg 1))
/-- KILL_ALL (R61). -/
def execKillAll (s : State) : Res := .next (killAllCmd s (s.arg 0) (s.arg 1) (s.arg 2 != 0))

end Sys2Proof.Machine
end

