-- ==== Sys2Proof/Machine/Host.lean ====
section
/-!
DEFINITION. The PCIe endpoint as the device sees it: MSI-X vectors and coalescing (04 R89-R91), cached host
translations and their invalidation (R88), requests that the host refuses.
-/

namespace Sys2Proof.Machine

/-! ## Vectors -/

def Fn.vec (f : Fn) (v : Nat) : Vec := tget Vec.zero f.vecs v
def State.modVec (s : State) (n v : Nat) (f : Vec → Vec) : State :=
  s.modFn n fun x => { x with vecs := tset v (f (x.vec v)) x.vecs }

/-- The function mask or the vector mask is set. -/
def masked (s : State) (n v : Nat) : Bool := (s.fn n).fnMask || ((s.fn n).vec v).masked

/-- The message of a vector is sent. -/
def sendVec (s : State) (n v : Nat) : State :=
  let x := (s.fn n).vec v
  (s.modVec n v fun x => { x with pend := 0, pba := false }).emit (.msix n v x.maddr x.mdata)

/-- "At every instant" of R90, for one vector; HOLD is in µs and the counter in units of 10 ns. -/
def checkVec (s : State) (n v : Nat) : State :=
  let x := (s.fn n).vec v
  if x.pend = 0 then s
  else if masked s n v then s.modVec n v fun x => { x with pba := true }
  else if x.pend ≥ x.cntm1 + 1 ∨ s.iod0 - x.t0 ≥ 100 * x.hold then sendVec s n v
  else s

/-- A completion is recorded for a vector (R90). -/
def recordVec (s : State) (n v : Nat) : State :=
  checkVec (s.modVec n v fun x =>
    { x with t0 := if x.pend = 0 then s.iod0 else x.t0, pend := satInc 16 x.pend }) n v

/-- A vector that is unmasked now sends what it holds, at once (R90, R91). -/
def unmaskVec (s : State) (n v : Nat) : State :=
  if ((s.fn n).vec v).pend > 0 ∧ !masked s n v then sendVec s n v else s

/-- MSIX_UNMASK fn v fnMask (R90): the mask of the vector, or of the whole function, is cleared. -/
def execMsixUnmask (s : State) : Res :=
  let n := s.arg 0
  .next (if s.arg 2 = 0 then unmaskVec (s.modVec n (s.arg 1) fun x => { x with masked := false }) n (s.arg 1)
    else
      let s := s.modFn n fun f => { f with fnMask := false }
      ((s.fn n).vecs.map (·.1)).foldl (fun s v => unmaskVec s n v) s)

/-- VECTOR_MASK fn v fnMask (R90): no message is sent, and the PBA bit of a vector with PEND above 0 becomes 1. -/
def execVectorMask (s : State) : Res :=
  let n := s.arg 0
  .next (if s.arg 2 = 0 then checkVec (s.modVec n (s.arg 1) fun x => { x with masked := true }) n (s.arg 1)
    else
      let s := s.modFn n fun f => { f with fnMask := true }
      ((s.fn n).vecs.map (·.1)).foldl (fun s v => checkVec s n v) s)

/-- COALESCE_WRITE fn v x (R89, R91): takes effect at once against the current PEND and t0. -/
def execCoalesceWrite (s : State) : Res :=
  let n := s.arg 0
  let v := s.arg 1
  .next (checkVec (s.modVec n v fun y =>
    { y with cntm1 := bits (s.arg 2) 23 16, hold := Nat.min (bits (s.arg 2) 9 0) 1000 }) n v)

/-- Every vector of every function is looked at (R90, "at every instant"). -/
def checkVecs (s : State) : State :=
  (s.fns.flatMap fun (e : Nat × Fn) => e.2.vecs.map fun v => (e.1, v.1)).foldl (fun s v => checkVec s v.1 v.2) s

/-- A number put into a rising list. -/
def insertNat (n : Nat) : List Nat → List Nat
  | [] => [n]
  | m :: r => if n ≤ m then n :: m :: r else m :: insertNat n r

/-- Instants, up to a tick of I/O die 0's counter, at which an unmasked vector's hold ends, earliest first. -/
def holdEnds (s : State) (t : Nat) : List Nat :=
  (s.fns.flatMap fun (e : Nat × Fn) => e.2.vecs.filterMap fun v =>
    let due := v.2.t0 + 100 * v.2.hold
    if 0 < v.2.pend ∧ !masked s e.1 v.1 ∧ s.iod0 < due ∧ due ≤ t then some due else none).foldl (fun l d => insertNat d l) []

/-- I/O die 0's counter reaches tick t (02 R39); every hold that ends on the way sends its message at its own tick (R91). -/
def advanceIod0 (s : State) (t : Nat) : State :=
  let s := (holdEnds s t).foldl (fun s due => checkVecs { s with iod0 := Nat.max s.iod0 due }) s
  checkVecs { s with iod0 := Nat.max s.iod0 t }

/-- HOLD_EXPIRY fn v (R90): the counter of I/O die 0 has reached the end of the vector's hold. -/
def execHoldExpiry (s : State) : Res :=
  let n := s.arg 0
  let x := (s.fn n).vec (s.arg 1)
  .next (if x.pend = 0 then s else advanceIod0 s (x.t0 + 100 * x.hold))

/-! ## Translations of the host (R88) -/

/-- Outstanding requests of a function's world that use a translation of a range of host addresses. -/
def requestsIn (s : State) (w lo hi : Nat) : List Nat :=
  s.hreqs.filterMap fun (e : Nat × HReq) =>
    if e.2.world = w ∧ e.2.translated ∧ lo < e.2.addr + Nat.max 1 e.2.len ∧ e.2.addr < hi then some e.1 else none

/-- ATS_INVALIDATION_REQUEST fn lo hi (R88): cached translations of the range are used no more, and one on its way is asked
for again; up to 32 invalidations stand for the device. -/
def execAtsInvalidationRequest (s : State) : Res :=
  let n := s.arg 0
  let lo := s.arg 1
  let hi := s.arg 2
  .next (if s.invals.length ≥ 32 then s
    else
      let s := s.modFn n fun f => { f with
        atc := f.atc.filter fun p => decide (p.2 * 4096 + 4096 ≤ lo) || decide (hi ≤ p.2 * 4096) }
      ({ s with
        invals := s.invals ++ [{ fn := n, lo := lo, hi := hi, reqs := requestsIn s n lo hi }]
        hreqs := s.hreqs.map fun (e : Nat × HReq) =>
          (e.1, if e.2.world = n ∧ e.2.asking ∧ lo ≤ e.2.addr ∧ e.2.addr < hi then { e.2 with stale := true } else e.2)
      } : State).push .atsInvalidationCompletion [])

/-- ATS_INVALIDATION_COMPLETION (R88): the oldest invalidation of the device ends once every request that used an old
translation has completed. -/
def execAtsInvalidationCompletion (s : State) : Res :=
  .next (match s.invals with
    | [] => s
    | i :: r =>
      if i.reqs.any fun id => s.hreqs.any fun (e : Nat × HReq) => e.1 == id then s
      else
        let s := ({ s with invals := r } : State).emit (.inval i.fn i.lo i.hi)
        if r.isEmpty then s else s.push .atsInvalidationCompletion [])

/-- HOST_WRITE_REFUSAL fn a (R86): logged in AER, not reported to the strand. -/
def execHostWriteRefusal (s : State) : Res := .next (s.modFn (s.arg 0) fun f => { f with aer := f.aer ++ [s.arg 1] })

/-- BAR0_UNBACKED_WRITE fn off v (R82): dropped. -/
def execBar0UnbackedWrite (s : State) : Res := .next s

end Sys2Proof.Machine
end

