-- ==== Sys2Proof/Machine/Power.lean ====
section
/-!
DEFINITION. Operating points, limiters, the stall sampler and the monitor blocks (02 R29-R43).
-/

namespace Sys2Proof.Machine

/-- Voltage of an operating point in mV (R29). -/
def pointMv (p : Nat) : Nat := 600 + 50 * p

/-- The lowest point whose voltage is at least v, for v up to 950 (R33). -/
def pointFor (v : Nat) : Nat := if v ≤ 600 then 0 else (v - 600 + 49) / 50

/-- A change starts towards TARGET where none is under way (R30): up, the ramp comes first; down, the lock. A change that
a lowered CAP or LIMIT asks for (R35, "at once") while another is in progress waits for that one to complete, as R34 says
of a request (DESIGN CHOICE, assumption 55: R35 names no such case). -/
def Power.begin (p : Power) : Power :=
  if p.changing ∨ p.target = p.cur then p
  else { p with changing := true, goal := p.target, phase := if p.target > p.cur then 1 else 2, since := p.icount }

/-- The rail's voltage at a tick of ICOUNT (R30, R32): 25 mV/µs is 1 mV in four ticks. -/
def Power.voltAt (p : Power) (t : Word) : Nat :=
  let d := (t - p.since).toNat / 4
  if p.phase = 1 then Nat.min (pointMv p.goal) (p.voltMv + d)
  else if p.phase = 3 then Nat.max (pointMv p.goal) (p.voltMv - d)
  else p.voltMv

/-- A closed window's sample (R40). -/
def stallWord (seq : Nat) (short : Bool) (rates win : Nat) : Word :=
  BitVec.ofNat 64 (seq % 4096 * 2 ^ 52 + short.toNat * 2 ^ 51 + rates % 2 ^ 30 * 2 ^ 10 + win % 1024)

/-- Whole windows that ended before tick t with no STALL_WINDOW_CLOSE (R40): each closes; the rates are free values. -/
def Power.windows (p : Power) (fresh : Nat) (t : Word) : Power :=
  let n := ((t - p.winStart).toNat - 1) / 1000
  if n = 0 then p
  else { p with
    stall := stallWord (p.winSeq + n) false (Config.stallSample (fresh + n)) 1000
    winSeq := p.winSeq + n, winStart := p.winStart + BitVec.ofNat 64 (1000 * n) }

/-! ## Monitor blocks (R41-R43) -/

/-- CLEAR of a block (R41). -/
def Monit.clear (m : Monit) : Monit := { m with min := 2 ^ 32 - 1, max := 0, count := 0, sum := 0, bins := [] }

/-- CLEAR b (R41). -/
def execClear (s : State) : Res := .next (s.modMonit (s.arg 0) Monit.clear)

/-- A listed source code (R43). -/
def srcListed (v : Nat) : Bool := (decide (1 ≤ v) && decide (v ≤ 9)) || (decide (0x20 ≤ v) && decide (v ≤ 0x22))

/-- The block's source is present where the block stands: blocks 0 to 159 on clusters, 160 to 167 on the I/O dies. -/
def srcPresent (b v : Nat) : Bool :=
  if b < 160 then decide (1 ≤ v) && decide (v ≤ 9) else decide (0x20 ≤ v) && decide (v ≤ 0x22)

/-- The bin that counts a value (R42): the lowest whose edge exceeds it, or bin 15. -/
def binOf (edges : Tbl Nat) (x : Nat) : Nat :=
  ((List.range 15).find? fun i => decide (x < tget 0 edges i)).getD 15

/-- A value is captured in one step (R42), unless capture is off or held. -/
def Monit.capture (m : Monit) (b x : Nat) : Monit :=
  if !m.en || m.freeze || !srcPresent b m.src then m
  else
    let x := x % 2 ^ 32
    let i := binOf m.edges x
    { m with
      min := Nat.min m.min x, max := Nat.max m.max x, count := satInc 64 m.count
      sum := Nat.min (2 ^ 64 - 1) (m.sum + x), bins := tset i (satInc 32 (tget 0 m.bins i)) m.bins }

/-- A level source (R43), and whether it is one. -/
def levelSrc (v : Nat) : Bool := decide (5 ≤ v) && decide (v ≤ 9)

/-- Convoys in the VA or VM queues of a cluster's cores (R43, sources 0x05 and 0x06): those of a saved or switched-out context stand
in its frame. -/
def occupancy (s : State) (c : Nat) (vm : Bool) : Nat :=
  s.ctxs.foldl (fun n e =>
    if e.2.resident ∧ e.2.busy ∧ e.2.state ≠ .resuming ∧ onFabric s (e.1 / 16384) ∧ clusterOf (e.2.core 0) = c then
      n + ((if vm then e.2.strand.vm else e.2.strand.va).filter fun q => match q with | .convoy _ => true | _ => false).length
    else n) 0

/-- What a level source presents at beat j, tick 10 j, of a cluster's counter (R43). The occupancy of a clock-crossing FIFO
is no state of this model: a free value. -/
def levelAt (s : State) (c src j : Nat) : Nat :=
  match src with
  | 5 => occupancy s c false
  | 6 => occupancy s c true
  | 7 => Config.fifoLevel s.fresh j
  | 8 => (s.pow c).voltAt (BitVec.ofNat 64 (10 * j))
  | _ => (s.pow c).tempC

/-- Block b of cluster c captures a level source at every beat up to one. -/
def catchUp (c upto : Nat) (s : State) (b : Nat) : State :=
  let m := s.monit b
  if upto ≤ m.beat then s
  else
    let s := if m.en && !m.freeze && levelSrc m.src then
      { (rangeFrom (m.beat + 1) (upto + 1)).foldl (fun s j => s.modMonit b fun m => m.capture b (levelAt s c m.src j)) s with
        fresh := s.fresh + 1 } else s
    s.modMonit b fun m => { m with beat := upto }

/-- A cluster's ICOUNT reaches a tick (R39), if it has not passed it: its level sources are sampled at every 10 ticks up to
beat `upto`, and its stall windows close. -/
def advanceTo (s : State) (c : Nat) (t : Word) (upto : Nat) : State :=
  let p := s.pow c
  if t ≤ p.icount then s
  else
    let s := [2 * c, 2 * c + 1].foldl (catchUp c upto) s
    { s.modPow c fun p => { p.windows s.fresh t with icount := t } with fresh := s.fresh + (t - p.winStart).toNat / 1000 }

/-- ICOUNT reaches a tick. -/
def State.tick (s : State) (c : Nat) (t : Word) : State := advanceTo s c t (t.toNat / 10)

/-- The power page of a cluster changes. -/
def State.onPow (s : State) (c : Nat) (f : Power → Power) : State := wakePage (s.modPow c f) 0 5 c 0

/-- The rail has reached its voltage: a raise locks its source next, a lowering ends, and a new change starts when the
latest request asks for another point (R30, R34). -/
def Power.rampDone (p : Power) : Power :=
  let p := { p with voltMv := pointMv p.goal, since := p.icount }
  match p.phase with
  | 1 => { p with phase := 2 }
  | 3 => { p with phase := 0, changing := false }.begin
  | _ => p

/-- Ticks that the ramp in progress takes (R30): 100 for each 25 mV. -/
def Power.rampTicks (p : Power) : Nat :=
  4 * (if pointMv p.goal < p.voltMv then p.voltMv - pointMv p.goal else pointMv p.goal - p.voltMv)

/-- The clock switches (R30): CUR takes the new point, the stall window closes early (R40), a lowering then ramps. -/
def Power.lockDone (p : Power) (rates : Nat) : Power :=
  let up := decide (p.goal > p.cur)
  let p := { p with
    cur := p.goal, stall := stallWord (p.winSeq + 1) true rates ((p.icount - p.winStart).toNat)
    winSeq := p.winSeq + 1, winStart := p.icount, since := p.icount }
  if up then { p with phase := 0, changing := false }.begin else { p with phase := 3 }

/-- The tick at which the ramp or the lock in progress ends (R30): a lock takes 1 µs. -/
def Power.ends (p : Power) : Word := p.since + if p.phase = 2 then 100 else BitVec.ofNat 64 p.rampTicks

/-- The ramp or the lock in progress ends at its tick. -/
def endPhase (s : State) (c : Nat) : State :=
  let s := s.tick c (s.pow c).ends
  if (s.pow c).phase = 2 then { s with fresh := s.fresh + 1 }.onPow c fun p => p.lockDone (Config.stallSample s.fresh)
  else s.onPow c Power.rampDone

/-- Ramps and locks that end by a tick that the page gives have ended, each at its own; a change has two, and one change may follow
another (R34). -/
def settleTo (c : Nat) (t : Power → Word) : Nat → State → State
  | 0, s => s
  | n + 1, s =>
    let p := s.pow c
    if p.phase ≠ 0 ∧ p.ends ≤ t p then settleTo c t n (endPhase s c) else s

/-- Time passes for a cluster up to a tick. -/
def State.passTo (s : State) (c : Nat) (t : Word) : State := (settleTo c (fun _ => t) 8 s).tick c t

/-- MONITOR_CAPTURE b x (R42, R43): an operation of a latency source completes, or flits were counted; a level source is
sampled by the counter alone. How long an operation takes, and so the moment at which its latency is captured, is timing: the
captures of latency sources come from outside (DESIGN CHOICE, assumption 94). -/
def execMonitorCapture (s : State) : Res :=
  .next (s.modMonit (s.arg 0) fun m => if levelSrc m.src then m else m.capture (s.arg 0) (s.arg 1))

/-- MONITOR_LEVEL_SAMPLE b x (R43): the next beat of the cluster's counter that the block has not sampled; a source that
State holds presents what State holds, the FIFO's occupancy is x. -/
def execMonitorLevelSample (s : State) : Res :=
  let b := s.arg 0
  let c := b / 2
  .next (if b < 160 ∧ levelSrc (s.monit b).src then
      let beat := Nat.max ((s.monit b).beat + 1) ((s.pow c).icount.toNat / 10)
      let s := settleTo c (fun _ => BitVec.ofNat 64 (10 * beat - 1)) 8 s
      let s := advanceTo s c (BitVec.ofNat 64 (10 * beat)) (beat - 1)
      let s := [2 * c, 2 * c + 1].foldl (catchUp c (beat - 1)) s
      s.modMonit b fun m =>
        { m.capture b (if m.src = 7 then s.arg 1 else levelAt s c m.src beat) with beat := beat }
    else s)

/-! ## The power page -/

/-- A write of REQ_MV (R33, R34). -/
def Power.request (p : Power) (v : Nat) : Power :=
  let p := { p with reqMv := v % 1024, reqCnt := p.reqCnt + 1 }
  if v < 600 then { p with result := 1 }
  else
    let want := pointFor (Nat.min v 950)
    let grant := Nat.min want (Nat.min p.cap p.limit)
    let p := { p with result := if grant < want then 2 else if v > 950 then 3 else 0, target := grant, want := grant }
    p.begin

/-- A CAP or LIMIT that is lowered takes TARGET down to it: where it lies below CUR a change downwards starts at once (R35); where a
raise is in progress towards a point above it, that change completes and a change down to it follows (DESIGN CHOICE,
assumption 55: R35 speaks of CUR only). -/
def Power.bound (p : Power) (b : Nat) : Power := { p with target := Nat.min p.target b }.begin

def Power.setCap (p : Power) (v : Nat) : Power :=
  if v < p.cap then ({ p with cap := v }).bound v else { p with cap := v }

/-- LIMIT from the two limiters (R36, R37). -/
def Power.setLimit (p : Power) : Power :=
  let n := if p.thermal then Nat.min p.plim 3 else p.plim
  if n < p.limit then ({ p with limit := n }).bound n else { p with limit := n }

/-- REQ_MV c v (R33). -/
def execReqMv (s : State) : Res := .next (s.onPow (s.arg 0) fun p => p.request (s.arg 1 % 1024))

/-- CAP_WRITE c v root (R35): without world-root rights it is ignored; while the policy core restarts the store waits
(06 R125). -/
def execCapWrite (s : State) : Res :=
  .next (if s.arg 2 = 0 then s else s.serve fun s => s.onPow (s.arg 0) fun p => p.setCap (s.arg 1 % 8))

/-- VOLTAGE_RAMP_DONE c (R30): at the tick at which the ramp ends. -/
def execVoltageRampDone (s : State) : Res :=
  let c := s.arg 0
  let p := s.pow c
  .next (if p.phase = 1 ∨ p.phase = 3 then endPhase s c else s)

/-- CLOCK_LOCK_DONE c (R30): the lock takes 1 µs. -/
def execClockLockDone (s : State) : Res :=
  let c := s.arg 0
  .next (if (s.pow c).phase = 2 then endPhase s c else s)

/-- STALL_WINDOW_CLOSE c mem anvil lane (R40): 1,000 ticks after the window began; a clock switch on the way begins a new one. -/
def execStallWindowClose (s : State) : Res :=
  let c := s.arg 0
  let s := settleTo c (fun p => p.winStart + 1000) 8 s
  let now := (s.pow c).winStart + 1000
  .next ((s.tick c now).onPow c fun p => { p with
      stall := stallWord (p.winSeq + 1) false (s.arg 1 % 1024 * 2 ^ 20 + s.arg 2 % 1024 * 2 ^ 10 + s.arg 3 % 1024) 1000
      winSeq := p.winSeq + 1, winStart := now })

/-- Ready clusters, the highest CUR first, ties to the lowest index (R36). -/
def byPoint (s : State) : List Nat :=
  (List.range 8).reverse.flatMap fun p => (List.range 80).filter fun c => bit s.ready.clu c && (s.pow c).cur == p

/-- POWER_LIMITER_INTERVAL watts (R36): at each millisecond of I/O die 0's counter. R36 does not say the following, which
are the model's choice (DESIGN CHOICE, assumption 56): the count of intervals below 2,660 W starts afresh after a raise; on a
cluster that the thermal limiter clamps, the value that the power limiter holds (R37) becomes one less than the clamped
LIMIT, and a raise adds one to that value and leaves the clamp in force; a LIMIT of 0 stays 0; only ready clusters count
among the ten. -/
def execPowerLimiterInterval (s : State) : Res :=
  let w := s.arg 0
  let s := advanceIod0 s ((s.iod0 / 100000 + 1) * 100000)
  .next (if w > 2800 then
      ((byPoint s).take 10).foldl (fun s c => s.onPow c fun p =>
        ({ p with plim := p.limit - 1, pwrlim := true }).setLimit) { s with lowIntervals := 0 }
    else if w < 2660 then
      (if s.lowIntervals ≥ 2 then
        ((List.range 80).filter fun c => bit s.ready.clu c && decide ((s.pow c).limit < 7)).foldl
          (fun s c => s.onPow c fun p => ({ p with plim := Nat.min 7 (p.plim + 1) }).setLimit) { s with lowIntervals := 0 }
      else { s with lowIntervals := s.lowIntervals + 1 })
    else { s with lowIntervals := 0 })

/-- The thermal limiter acts on a ready cluster's TEMP_C (R37): from 100 °C on it clamps, below 95 °C it releases. It acts on every
reading of 100 °C or more, so that HOT, once cleared, is set again by the next one, with no fall in between (DESIGN CHOICE,
assumption 93: R37 says "reaches 100 °C"). -/
def Power.react (p : Power) : Power :=
  if 100 ≤ p.tempC then ({ p with hot := true, thermal := true }).setLimit
  else if p.tempC < 95 ∧ p.thermal then ({ p with thermal := false }).setLimit
  else p

/-- A sensor's reading (R32, R37): TEMP_C, what the thermal limiter makes of it, and the trip at 115 °C. -/
def sense (s : State) (c t : Nat) : State :=
  let s := s.onPow c fun p =>
    let p := { p with tempC := t % 256 }
    if bit s.ready.clu c then p.react else p
  if 115 ≤ t then { s with tripped := true } else s

/-- THERMAL_HOT c temp (R37): at 100 °C. -/
def execThermalHot (s : State) : Res := .next (if s.arg 1 < 100 then s else sense s (s.arg 0) (s.arg 1))

/-- THERMAL_RELEASE c temp (R37): below 95 °C. -/
def execThermalRelease (s : State) : Res := .next (if s.arg 1 ≥ 95 then s else sense s (s.arg 0) (s.arg 1))

/-- THERMAL_TRIP (R37): every regulator turns off until power-on reset. -/
def execThermalTrip (s : State) : Res := .next { s with tripped := true }

/-- The pages of a cluster that becomes ready take their reset values (R32, R41), but for TEMP_C, which the sensors give. The
thermal limiter acts at once where TEMP_C is 100 °C or more (DESIGN CHOICE, assumption 93: HOT and LIMIT read 0 and 7 at reset
otherwise). -/
def clusterPages (s : State) (c : Nat) : State :=
  let s := [2 * c, 2 * c + 1].foldl (fun s b => s.modMonit b fun _ => Monit.zero) s
  s.onPow c fun p => ({ Power.zero with tempC := p.tempC } : Power).react

def clearPowerFlags (s : State) (c m : Nat) : State :=
  s.modPow c fun p => { p with hot := p.hot && !bit m 1, pwrlim := p.pwrlim && !bit m 0 }

/-- POWER_FLAGS_CLEAR c mask (R32): W1C. -/
def execPowerFlagsClear (s : State) : Res := .next (clearPowerFlags s (s.arg 0) (s.arg 1))

end Sys2Proof.Machine
end

