-- ==== Sys2Proof/Machine/Links.lean ====
section
/-!
DEFINITION. The package's die network, links and readiness page (01 R12-R28, R453).
-/

namespace Sys2Proof.Machine

/-! ## The die network (R12-R14) -/

/-- Row and column of a compute die (R12). -/
def dieRow (d : Nat) : Nat := d / 4
def dieCol (d : Nat) : Nat := d % 4

/-- The 14 edges (R12): pairs of dies; 8 and 9 are I/O dies 0 and 1. -/
def dieEdges : List (Nat × Nat) :=
  [(0, 1), (1, 2), (2, 3), (4, 5), (5, 6), (6, 7), (0, 4), (1, 5), (2, 6), (3, 7), (8, 0), (8, 4), (9, 3), (9, 7)]

/-- The direction of an edge from one die to a neighbour: 2 × edge, plus 1 against the order in which R12 names them. -/
def edgePort (a b : Nat) : Option Nat :=
  match dieEdges.findIdx? fun e => e == (a, b) with
  | some i => some (2 * i)
  | none => (dieEdges.findIdx? fun e => e == (b, a)).map fun i => 2 * i + 1

/-- The next die on the way to another (R13): along the row first and then across; to an I/O die along the row to column 0
or 3. From an I/O die a route enters the row of its destination, and the way between the two I/O dies takes row 0 (DESIGN
CHOICE, assumption 57). -/
def nextDie (at_ dst : Nat) : Nat :=
  if at_ ≥ 8 then (if dst < 8 then dieRow dst * 4 else 0) + (if at_ = 9 then 3 else 0)
  else
    let col := if dst = 8 then 0 else if dst = 9 then 3 else dieCol dst
    if dieCol at_ < col then at_ + 1
    else if col < dieCol at_ then at_ - 1
    else dst

/-- The dies that a unit comes through, its destination last; the first argument bounds them. -/
def dieRoute : Nat → Nat → Nat → List Nat
  | 0, _, _ => []
  | n + 1, at_, dst => if at_ = dst then [] else nextDie at_ dst :: dieRoute n (nextDie at_ dst) dst

/-- The die at which a direction of an edge ends. -/
def edgeEnd (port : Nat) : Nat :=
  let e := nth (0, 0) dieEdges (port / 2)
  if port % 2 = 0 then e.2 else e.1

def State.edge (s : State) (p : Nat) : Edge := tget Edge.zero s.edges p
def State.modEdge (s : State) (p : Nat) (f : Edge → Edge) : State := { s with edges := tset p (f (s.edge p)) s.edges }

/-- Units that the retry buffer holds at each end (R14), and credits of a direction. That there are as many credits as the
buffer has units is the model's choice (DESIGN CHOICE, assumption 57). -/
def edgeUnits : Nat := 64

/-- A direction sends what waits for it, in order, while it has room in its retry buffer and credit (R14). A unit that goes
on gives back the credit of the edge it came over, which may then send; the first argument bounds the units in turn. -/
def pumpEdge : Nat → State → Nat → State
  | 0, s, _ => s
  | f + 1, s, p =>
    let e := s.edge p
    match e.wait with
    | [] => s
    | u :: r =>
      if e.retry.length < edgeUnits ∧ e.used < edgeUnits then
        let s := s.modEdge p fun e => { e with wait := r, retry := e.retry ++ [{ u with via := none }], used := e.used + 1 }
        let s := match u.via with
          | some v => pumpEdge f (s.modEdge v fun e => { e with used := e.used - 1 }) v
          | none => s
        pumpEdge f s p
      else s

/-- A unit stands at a die: it waits for the next edge of its way. -/
def forwardUnit (s : State) (at_ : Nat) (u : EUnit) : State :=
  match edgePort at_ (nextDie at_ u.dst) with
  | some p => pumpEdge 70 (s.modEdge p fun e => { e with wait := e.wait ++ [u] }) p
  | none => s

/-- A unit is put on the network at its source. -/
def sendUnit (s : State) (src dst payload : Nat) : State :=
  if src < 10 ∧ dst < 10 ∧ src ≠ dst then forwardUnit s src { src := src, dst := dst, payload := payload, via := none } else s

/-- EDGE_UNIT_RECEIVE port errs (R13, R14): the oldest unit of the retry buffer of a direction of an edge arrives with `errs`
bit errors. At most one is corrected, and the unit leaves the retry buffer and is delivered or goes on; otherwise it stays
there and is sent again. -/
def execEdgeUnitReceive (s : State) : Res :=
  let p := s.arg 0
  .next (match (s.edge p).retry with
    | [] => s
    | u :: r =>
      if 1 < s.arg 1 then s
      else
        let s := s.modEdge p fun e => { e with retry := r }
        if edgeEnd p = u.dst then
          pumpEdge 70 (s.modEdge p fun e => { e with used := e.used - 1, got := e.got ++ [u] }) p
        else pumpEdge 70 (forwardUnit s (edgeEnd p) { u with via := some p }) p)

/-! ## Flits (R15, R16, R19-R21) -/

/-- Bytes of a flit and of a beat, and the parts of the flit as first and last byte (R15): header, slots, check. -/
def flitBytes : Nat := 288
def beatBytes : Nat := 32
def flitHeader : Nat × Nat := (0, 15)
def flitSlot (i : Nat) : Nat × Nat := (16 + 64 * i, 79 + 64 * i)
def flitCheck : Nat × Nat := (272, 287)

/-- Links 0 to 23 are memory links, 24 to 39 peer links. -/
def State.flitLink (s : State) (n : Nat) : Link := if n < 24 then s.mlink n else s.plink (n - 24)
def State.modFlitLink (s : State) (n : Nat) (f : Link → Link) : State :=
  if n < 24 then s.modMlink n f else s.modPlink (n - 24) f

/-- A link sends what it may. -/
def pumpLink (s : State) (n : Nat) : State :=
  if n < 24 then
    let p := (s.mlink n).pump false 64
    if p.2.isEmpty then s else { s.modMlink n fun _ => p.1 with out := s.out ++ p.2.map fun f => .flit n f }
  else pumpPeer s (n - 24)

/-- Flits up to a sequence number have been acknowledged: they leave the retry buffer (R16). -/
def Link.acked (l : Link) (seq : BitVec 12) : Link :=
  if l.txRetry.any fun f => f.seq == seq then
    { l with
      txRetry := (l.txRetry.dropWhile fun f => f.seq != seq).drop 1
      txSend := if l.txSend.any fun f => f.seq == seq then (l.txSend.dropWhile fun f => f.seq != seq).drop 1 else l.txSend }
  else l

/-- Credits that a flit gives back. -/
def Link.gain (l : Link) (cs : List Nat) : Link :=
  { l with credit := (List.range cs.length).foldl (fun t c => tset c (tget 0 t c + nth 0 cs c) t) l.credit }

/-- The device's step that a peer's message asks for (R20, 05 R109, 10 R204). -/
def PeerMsg.step (n : Nat) : PeerMsg → Event
  | .store id off size v => event .inboundRemoteStore [n, off, size, v, id]
  | .write id off bs => { what := .inboundCopyWrite, args := [n, off, id], data := bs }
  | .read id off len => event .inboundCopyRead [n, off, len, id]
  | .ack id => event .remoteStoreAck [n, id]
  | .refuse id => event .remoteStoreRefusal [n, id]
  | .data id bs => { what := .hostCompletion, args := [id, 1], data := bs }
  | .drop id => event .hostCompletion [id, 0]

/-- The peer link that an event is a request of (R22). -/
def requestLink (e : Event) : Option Nat :=
  match e.what with
  | .inboundRemoteStore | .inboundCopyWrite | .inboundCopyRead => some (e.arg 0)
  | _ => none

/-- Events of a list that are requests of a peer link, and the others. -/
def requestsOf (n : Nat) (es : List Event) : List Event := es.filter fun e => requestLink e == some n
def withoutRequests (n : Nat) (es : List Event) : List Event := es.filter fun e => requestLink e != some n

/-- Steps that messages of a peer link ask for: its requests are delivered in the order they were sent (R22), so that they
wait behind one that waits at a port. -/
def deliverRequests (s : State) (n : Nat) (es : List Event) : State :=
  if (requestsOf n s.parked).isEmpty then { s with work := s.work ++ es }
  else { s with work := s.work ++ withoutRequests n es, parked := s.parked ++ requestsOf n es }

/-- A request of peer link n waits at a port, and those that came after it wait behind it (R22). -/
def parkRequest (s : State) (n : Nat) (e : Event) : State :=
  { s with work := withoutRequests n s.work, parked := s.parked ++ e :: requestsOf n s.work }

/-- A flit is accepted (R16): its slots are handed on, the credit of each is owed, and what it acknowledges and gives back
is taken. -/
def acceptFlit (s : State) (n : Nat) (f : Flit) : State :=
  let s := s.modFlitLink n fun l =>
    let l := (l.acked f.ack).gain f.credits
    { l with
      rxNext := l.rxNext + 1, refused := none
      rxGot := l.rxGot ++ f.slots.filterMap fun x => match x.2 with | .line bs => some bs | .descs _ => none
      owed := f.slots.foldl (fun t x => tset x.1 (tget 0 t x.1 + 1) t) l.owed
      ackDue := l.ackDue || !f.slots.isEmpty }
  let s := if n < 24 then s else
    deliverRequests s (n - 24) (f.slots.flatMap fun x => match x.2 with
      | .descs ms => (ms.take 4).map (PeerMsg.step (n - 24))
      | .line _ => [])
  pumpLink s n

/-- FLIT_RECEIVE link (R16): the next flit on the wire. What the forward error correction can correct is corrected; a flit
whose CRC then fails is refused by its number, and later flits are not accepted until it has come again. -/
def execFlitReceive (s : State) : Res :=
  let n := s.arg 0
  .next (match (s.flitLink n).wire with
    | [] => s
    | (noise, f) :: r =>
      let s := s.modFlitLink n fun l => { l with wire := r }
      if f.seq ≠ (s.flitLink n).rxNext then s
      else if noise ≤ 1 then acceptFlit s n f
      else s.modFlitLink n fun l => { l with refused := some f.seq.toNat })

/-- FLIT_REFUSAL link seq (R16): that flit and every later one are sent again, in order, from the retry buffer (R21). -/
def execFlitRefusal (s : State) : Res :=
  let n := s.arg 0
  .next (pumpLink (s.modFlitLink n fun l => { l with txSend := l.txRetry.dropWhile fun f => f.seq.toNat != s.arg 1 }) n)

/-- FLIT_ACK link seq (R16): flits up to that one leave the retry buffer. -/
def execFlitAck (s : State) : Res :=
  let n := s.arg 0
  .next (pumpLink (s.modFlitLink n fun l => l.acked (BitVec.ofNat 12 (s.arg 1))) n)

/-- A flit comes onto the wire (MODEL), and the next step takes it. -/
def wireFlit (s : State) (n noise : Nat) (f : Flit) : State :=
  (s.modFlitLink n fun l => { l with wire := l.wire ++ [(noise, f)] }).push .flitReceive [n]

/-- A controller hands slots of a channel to a link. -/
def handSlots (s : State) (n ch : Nat) (ss : List FSlot) : State :=
  pumpLink (s.modFlitLink n fun l => { l with txQ := tset ch (tget [] l.txQ ch ++ ss) l.txQ }) n

/-- A link that has trained begins anew: numbers from 0, and credits of its far end. -/
def Link.fresh (l : Link) (credits : List Nat) : Link :=
  { l with
    retraining := false, asked := false, failed := false, wire := [], rxNext := 0, refused := none, owed := [], ackDue := false
    txNext := 0, txRetry := [], txSend := [], txQ := []
    credit := (List.range credits.length).map fun c => (c, nth 0 credits c) }

/-- What a buffer chip gives (R19): 256 requests on each of its two channels, and 128 lines of write data on each. -/
def memoryCredits : List Nat := [256, 256, 128, 128]

/-! ## Readiness (R23-R26, R453) -/

def orBit (v i : Nat) : Nat := setBit v i true

/-- FN_READY n (R23). -/
def execFnReady (s : State) : Res := .next (s.readyEvent fun r => { r with fn := orBit r.fn (s.arg 0) })

/-- CDIE_READY d pass (R23, R26): bit 10 of pass says that the die passed its self-test, bits 9 to 0 which of its clusters
did; what fails stays not ready until power-on reset. CLU_READY follows CDIE_READY, and counts in GEN as an event of its own (DEDUCED,
assumption 26: R23 sets them one after the other, and R453 says "a function becoming ready"); a cluster's power and
monitor pages take their reset values then (02 R32, R41). -/
def execCdieReady (s : State) : Res :=
  let d := s.arg 0
  let cs := (List.range 10).filter fun c =>
    bit (s.arg 1) c && !bit s.failClu (d * 10 + c) && !bit s.ready.clu (d * 10 + c)
  .next (if bit s.failDie d ∨ bit s.ready.cdie d then s
    else if !bit (s.arg 1) 10 then { s with failDie := orBit s.failDie d }
    else
      let s := { s with
        portCdie := orBit s.portCdie d
        failClu := ((List.range 10).filter fun c => !bit (s.arg 1) c).foldl (fun v c => orBit v (d * 10 + c)) s.failClu
      }.readyEvent fun r => { r with cdie := orBit r.cdie d }
      let s := s.readyEvent fun r => { r with clu := cs.foldl (fun v c => orBit v (d * 10 + c)) r.clu }
      (cs.foldl (fun s c => clusterPages s (d * 10 + c)) s).push .dispatchDecision [])

/-- ANVIL_READY c failed (R23, R26): on a ready cluster; an Anvil that fails its band test stays not ready. -/
def execAnvilReady (s : State) : Res :=
  let c := s.arg 0
  .next (if !bit s.ready.clu c ∨ bit s.failAnvil c ∨ bit s.ready.anvil c then s
    else if s.arg 1 ≠ 0 then { s with failAnvil := orBit s.failAnvil c }
    else s.readyEvent fun r => { r with anvil := orBit r.anvil c })

/-- MLINK_READY n x4 mib (R23): the link has trained and found its capacity, in MiB. -/
def execMlinkReady (s : State) : Res :=
  let n := s.arg 0
  .next ((s.modMlink n fun l => { l.fresh memoryCredits with mib := s.arg 2 }).readyEvent fun r =>
    { r with mlink := orBit r.mlink n, mlinkX4 := setBit r.mlinkX4 n (s.arg 1 != 0) })

/-- PLINK_READY n x4 farid credits (R23, 05 R109): the port copies come first (R24). -/
def execPlinkReady (s : State) : Res :=
  let n := s.arg 0
  let s1 := s.modPeer n fun p => { p with faridv := true, farid := s.arg 2 % 64 }
  let s1 := s1.modPlink n fun l => l.fresh [s.arg 3, s.arg 4, s.arg 5]
  .next ({ s1 with portPlink := orBit s1.portPlink n }.readyEvent fun r =>
    { r with plink := orBit r.plink n, plinkX4 := setBit r.plinkX4 n (s.arg 1 != 0) })

/-- G (R18): four times the smallest capacity that any trained link found, down to a whole GiB. -/
def groupBytes (s : State) : Nat :=
  let ms := (s.mlinks.map fun e => e.2.mib).filter (· != 0)
  4 * (ms.foldl Nat.min (ms.headD 0)) / 1024 * 2 ^ 30

/-- A group's scrub (R23, R28): data zero, tags initialised. -/
def scrubGroup (s : State) (g : Nat) : State :=
  let n := s.ready.grpBytes
  { s with
    mem := terase (g * n) n s.mem
    lineSlot := (g * n / 64, n / 64, 0) :: s.lineSlot
    lineBad := terase (g * n / 64) (n / 64) s.lineBad }

/-- The four links of a group are ready (R24). -/
def groupLinks (s : State) (g : Nat) : Bool := (List.range 4).all fun i => bit s.ready.mlink (4 * g + i)

/-- A memory group becomes ready (R23, R24): sized with the first, scrubbed, the port copies set before the page. -/
def groupReady (s : State) (g : Nat) : State :=
  if groupLinks s g ∧ !bit s.ready.mgrp g then
    let s := if s.ready.grpBytes = 0 then s.readyEvent fun r => { r with grpBytes := groupBytes s } else s
    let s := scrubGroup s g
    { s with portMgrp := orBit s.portMgrp g }.readyEvent fun r => { r with mgrp := orBit r.mgrp g }
  else s

/-! ## Loss of training, failure, retraining (R27, R28) -/

/-- A held write performs; its peer is told, and a context that stops waits for its own (R22, 03 R57). -/
def performHeld (s : State) (h : HeldW) : State :=
  let s := performWrite s h.slot h.pa h.data
  let s := match h.ack with | some a => sendPeer s a.1 (.ack a.2) | none => s
  if h.ctx < 16384 ∧ (s.ctx h.world h.ctx).state = .stopping then s.push .contextSaved [h.world, h.ctx] else s

/-- Held writes are looked at in order: one performs unless a port or a reservation still keeps it, or an earlier write to a location of its
own that stays (10 R193). The second argument is what stays, so far. -/
def releaseScan : List HeldW → List HeldW → State → State
  | [], kept, s => { s with heldW := kept }
  | h :: r, kept, s =>
    if (pagesOf h.pa h.data.length).any (fun p => retrains s p || uncopied s p) || h.reserved s ||
        kept.any (fun k => k.meets h.pa h.data.length)
    then releaseScan r (kept ++ [h]) s
    else releaseScan r kept (performHeld s h)

/-- A port has opened: what waits for it alone performs. -/
def releaseWrites (s : State) : State := if s.heldW.isEmpty then s else releaseScan s.heldW [] { s with heldW := [] }

/-- Copies, commands and updates of every strand, and replays that wait, to be tried again. -/
def retryCopies (s : State) : List Event :=
  (s.ctxs.flatMap fun e =>
   (if e.2.state = .resuming ∧ !e.2.due then [event .replayDone [e.1 / 16384, e.1 % 16384]] else []) ++
   (e.2.strand.ops.filter fun (o : Op) => !o.queued).filterMap fun o =>
    let a := [e.1 / 16384, e.1 % 16384]
    if o.kind = 4 ∨ o.kind = 5 then some (event .chunkComplete (a ++ [o.id]))
    else if o.kind = 6 then some (event (if bits o.tag 7 0 = 0x40 then .decryptCommand else .engineCopyCommand) (a ++ [o.reg]))
    else if o.cls = 1 ∧ !o.done then some (event .writeQueueUpdate (a ++ [o.id]))
    else none) ++ flightEvents s fun _ _ => true

/-- Every strand's queues, and what waits at the ports, try again. -/
def wakeAll (s : State) : State :=
  { s with
    ctxs := s.ctxs.map fun e => (e.1, { e.2 with strand := e.2.strand.unhold })
    work := s.work ++ s.parked ++ retryCopies s
    parked := [] }

/-- A port has opened: held writes perform, and whatever waits tries again. -/
def unholdAll (s : State) : State := wakeAll (releaseWrites s)

/-- A peer link that carries traffic, or would if it were not frozen, can lose training (R27, 05 R109). -/
def peerTrained (s : State) (n : Nat) : Bool := bit s.ready.plink n || ((s.peer n).pfrozen && !(s.plink n).failed)

/-- LINK_TRAINING_LOSS peer n (R27): accesses to the link wait while it retrains once. -/
def execLinkTrainingLoss (s : State) : Res :=
  let n := s.arg 1
  .next (if s.arg 0 = 0 then
      (if bit s.ready.mlink n then s.modMlink n fun l => { l with retraining := true } else s)
    else if peerTrained s n then s.modPlink n fun l => { l with retraining := true } else s)

/-- LINK_RETRAIN_DONE peer n x4 farid credits (R27, R28): the link is ready, possibly on 4 lanes; held accesses proceed. A
link that had not failed sends again what its far end has not acknowledged; one that had begins anew. A failed memory link's
group is not ready until its scrub has finished (MGRP_READY). -/
def execLinkRetrainDone (s : State) : Res :=
  let n := s.arg 1
  let x4 := s.arg 2 != 0
  let back := fun (l : Link) (cs : List Nat) =>
    if l.failed then l.fresh cs else { l with retraining := false, asked := false, txSend := l.txRetry }
  .next (if s.arg 0 = 0 then
      (if (s.mlink n).retraining then
        let s1 := s.modMlink n fun l => back l memoryCredits
        unholdAll (pumpLink (s1.readyEvent fun r => { r with mlink := orBit r.mlink n, mlinkX4 := setBit r.mlinkX4 n x4 }) n)
      else s)
    else if (s.plink n).retraining then
      let s1 := s.modPlink n fun l => back l [s.arg 4, s.arg 5, s.arg 6]
      let s2 := s1.modPeer n fun p => { p with faridv := true, farid := s.arg 3 % 64 }
      let s3 := if (s.peer n).pfrozen then s2.readyEvent fun r => { r with plinkX4 := setBit r.plinkX4 n x4 }
        else { s2 with portPlink := orBit s2.portPlink n }.readyEvent fun r =>
          { r with plink := orBit r.plink n, plinkX4 := setBit r.plinkX4 n x4 }
      unholdAll (pumpPeer s3 n)
    else s)

/-- A remote store leaves PEERPEND; a lost one is counted (08 R155). A launch in ACKWAIT ends when none is left. -/
def settleRemote (s : State) (r : Remote) (lost : Bool) : State :=
  let s := { s with remotes := s.remotes.filter fun x => x.id != r.id }
  let s := s.modLaunch r.world r.launch fun x =>
    { x with peerpend := x.peerpend - 1, lost := if lost then x.lost + 1 else x.lost }
  let s := wakePage s r.world 3 r.launch 0x40
  let x := s.launch r.world r.launch
  if x.lstate = .ackwait ∧ x.peerpend = 0 then s.push .launchDone [r.world, r.launch] else s

/-- Every remote store in flight on a link is lost, and every part of a copy chunk that was on its way there fails (21 R378). -/
def loseRemotes (s : State) (n : Nat) : State :=
  let s := { s with work := s.work ++ s.hreqs.filterMap fun (e : Nat × HReq) =>
    if e.2.link = some n then some (event .hostCompletion [e.1, 0]) else none }
  (s.remotes.filter fun r => r.link == n).foldl (fun s r => settleRemote s r true) s

/-- Reports of MEMNR for the operations that wait at a failed memory link (R27, 09 R456). -/
def failedOps (s : State) (n : Nat) : List Event :=
  s.ctxs.flatMap fun e => (e.2.strand.ops.filter fun o => o.cls == 1 && !o.done && !o.queued && o.host.isNone && isMem o.pa && linkOf s o.pa == n).map
    fun o => event .portFaultReport [e.1 / 16384, e.1 % 16384, o.id, 15]

/-- A held write goes to a failed memory link. -/
def heldAt (s : State) (n : Nat) (h : HeldW) : Bool := (pagesOf h.pa h.data.length).any fun p => linkOf s p == n

/-- An inbound request that is dropped is counted (05 R109). -/
def dropInbound (s : State) (n : Nat) (table : Bool) : State :=
  wakePage (s.modPeer n fun p =>
    if table then { p with tbldrop := satInc 64 p.tbldrop } else { p with indrop := satInc 64 p.indrop }) 0 8 n
      (if table then 0x30 else 0x40)

/-- A held write is dropped at its failed link. A peer's is counted and refused as one whose memory was not ready (R27, 05
R109); that it counts in INDROP and in LOSTW both is the model's choice (DESIGN CHOICE, assumption 85). -/
def dropHeld (s : State) (h : HeldW) : State :=
  match h.ack with
  | some a => sendPeer (dropInbound s a.1 false) a.1 (.refuse a.2)
  | none => s

/-- LINK_FAILURE peer n (R27): the page changes before the copies (R24); posted stores are dropped and counted in the
same event (R453); waiting operations fault; remote stores are lost. -/
def execLinkFailure (s : State) : Res :=
  let n := s.arg 1
  .next (if s.arg 0 = 0 then
      (if (s.mlink n).retraining then
        let lost := s.heldW.filter (heldAt s n)
        let g := n / 4
        let s1 := s.modMlink n fun l => { l with retraining := false, asked := false, failed := true }
        let s2 := { s1 with heldW := s.heldW.filter fun h => !heldAt s n h }.readyEvent fun r => { r with
          mlink := setBit r.mlink n false, mlinkFail := orBit r.mlinkFail n, mgrp := setBit r.mgrp g false,
          mlinkX4 := setBit r.mlinkX4 n false, lostw := Nat.min (2 ^ 32 - 1) (r.lostw + lost.length) }
        let stopped := (lost.filter fun h => decide (h.ctx < 16384)).map fun h => event .contextSaved [h.world, h.ctx]
        let s2 := lost.foldl dropHeld s2
        unholdAll { s2 with
          portMgrp := setBit s2.portMgrp g false
          work := s2.work ++ failedOps s n ++ stopped }
      else s)
    else if (s.plink n).retraining then
      let s1 := s.modPlink n fun l => { l with retraining := false, asked := false, failed := true }
      let s2 := s1.readyEvent fun r => { r with
        plink := setBit r.plink n false, plinkFail := orBit r.plinkFail n, plinkX4 := setBit r.plinkX4 n false }
      unholdAll (loseRemotes { s2 with portPlink := setBit s2.portPlink n false } n)
    else s)

/-- A failed link starts to retrain; the bit of a link that has not failed does nothing (R28). -/
def retrainMem (s : State) (n : Nat) : State :=
  if (s.mlink n).failed then s.modMlink n fun l => { l with retraining := true, asked := true } else s
def retrainPeer (s : State) (n : Nat) : State :=
  if (s.plink n).failed then s.modPlink n fun l => { l with retraining := true, asked := true } else s

/-- MLINK_RETRAIN n (R28). -/
def execMlinkRetrain (s : State) : Res := .next (retrainMem s (s.arg 0))
/-- PLINK_RETRAIN n (R28). -/
def execPlinkRetrain (s : State) : Res := .next (retrainPeer s (s.arg 0))

/-- W1C of MLINK_FAIL (R28, R453): an event when it clears a bit. -/
def clearMlinkFail (s : State) (m : Nat) : State :=
  if Nat.land s.ready.mlinkFail m = 0 then s
  else s.readyEvent fun r => { r with mlinkFail := clearBits r.mlinkFail m }
def clearPlinkFail (s : State) (m : Nat) : State :=
  if Nat.land s.ready.plinkFail m = 0 then s
  else s.readyEvent fun r => { r with plinkFail := clearBits r.plinkFail m }

/-- MLINK_FAIL_CLEAR mask (R28). -/
def execMlinkFailClear (s : State) : Res := .next (clearMlinkFail s (s.arg 0))
/-- PLINK_FAIL_CLEAR mask (R28). -/
def execPlinkFailClear (s : State) : Res := .next (clearPlinkFail s (s.arg 0))

/-- POSTED_STORE_DROPPED n count (R453): stores dropped at one moment at a memory link that has already failed. -/
def execPostedStoreDropped (s : State) : Res :=
  .next (if (s.mlink (s.arg 0)).failed then
      s.readyEvent fun r => { r with lostw := Nat.min (2 ^ 32 - 1) (r.lostw + Nat.max 1 (s.arg 1)) }
    else s)

end Sys2Proof.Machine
end

