-- ==== Sys2Proof/Machine/Wal.lean ====
section
/-!
DEFINITION. The policy core's write-ahead log (06 R123): a ring of 16 MiB of 32-byte records, its transactions, and what
recovery does with one (R124).
-/

namespace Sys2Proof.Machine

/-- Records that the ring holds. -/
def walRing : Nat := 16 * 2 ^ 20 / 32

/-- A record is written; the oldest gives way in a full ring. -/
def State.log (s : State) (r : WalRec) : State :=
  let l := s.wal ++ [r]
  { s with wal := l.drop (l.length - walRing) }

def WalRec.txn : WalRec → Nat
  | .begin_ id _ _ => id
  | .write id _ _ _ => id
  | .step id _ => id
  | .commit id => id
  | .fin id => id

/-- Kinds of transactions: the duties of R122. The argument is the world, queue or function concerned. -/
def txCreate : Nat := 1
def txDestroy : Nat := 2
def txUnfreeze : Nat := 3
def txTable : Nat := 4
def txSwitch : Nat := 5
def txTdisp : Nat := 6
def txKeys : Nat := 7
def txQcmd : Nat := 8
def txCkpt : Nat := 9
def txRestore : Nat := 10
/-- The transaction of a destruction that is no WCMD store's: that of an FLR or a wider reset. -/
def txReset : Nat := 11
/-- A WCMD store that leads to no other transaction. -/
def txWcmd : Nat := 12

/-- Doubleword i of the policy core's own state, in its protected region (05 R98). The manual gives that state no address; the
layout is the model's (DESIGN CHOICE, assumption 69): the world in its quantum, the table's index, the table's entries, the
worlds' stream keys, the PA and SEQ of the worlds' latest manifests. -/
def corePA (s : State) (i : Nat) : Nat := protectedBase s + 8 * i
def entryAt (j : Nat) : Nat := 16 + j
def keyAt (w stream : Nat) : Nat := 1024 + 256 * w + stream
def manifestAt (w i : Nat) : Nat := 65536 + 2 * w + i

/-- BEGIN; the transaction's id is the one before the next. -/
def State.beginTxn (s : State) (kind arg : Nat) : State :=
  { s.log (.begin_ s.core.nextId kind arg) with core := { s.core with nextId := s.core.nextId + 1 } }

/-- The open transaction of a kind and argument: BEGIN without END. -/
def State.openTxn (s : State) (kind arg : Nat) : Option Nat :=
  s.wal.findSome? fun r => match r with
    | .begin_ id k a => if k = kind ∧ a = arg ∧ !s.wal.contains (.fin id) then some id else none
    | _ => none

/-- Records of the open transaction of a kind and argument. -/
def State.logOpen (s : State) (kind arg : Nat) (f : Nat → WalRec) : State :=
  match s.openTxn kind arg with | some id => s.log (f id) | none => s

def State.logStep (s : State) (kind arg n : Nat) : State := s.logOpen kind arg fun id => .step id n

/-- COMMIT and END of a transaction that commits after its last step. -/
def State.closeTxn (s : State) (kind arg : Nat) : State :=
  match s.openTxn kind arg with
  | some id => (s.log (.commit id)).log (.fin id)
  | none => s

/-- END of a transaction that has committed. -/
def State.endTxn (s : State) (kind arg : Nat) : State := s.logOpen kind arg .fin

/-- A transaction of one step: BEGIN, its WRITEs (address, old and new value), COMMIT, END. -/
def State.logOnce (s : State) (kind arg : Nat) (ws : List (Nat × Nat × Nat)) : State :=
  let id := s.core.nextId
  let s := ws.foldl (fun s x => s.log (.write id x.1 x.2.1 x.2.2)) (s.beginTxn kind arg)
  (s.log (.commit id)).log (.fin id)

/-- BEGIN of every transaction that is not at its END, in log order: id, kind, argument. -/
def State.openTxns (s : State) : List (Nat × Nat × Nat) :=
  s.wal.filterMap fun r => match r with
    | .begin_ id k a => if s.wal.contains (.fin id) then none else some (id, k, a)
    | _ => none

/-- The doubleword at 0x010 of a world page (05 R96). -/
def World.wcmdWord (x : World) : Nat := x.wcmdCnt.toNat * 2 ^ 32 + x.wcmdStat % 8

/-- The word at 0x000 of a world page as the log's WRITEs hold it: CONF and WSTATE (05 R96). -/
def World.stateWord (x : World) : Nat := x.conf.toNat * 2 ^ 8 + x.wstate % 8

/-- A state doubleword takes a value that a WRITE names (R124): WSTATE and CONF of a world page, its count of WCMD stores with the
latest result, ISTATE of a queue page. -/
def writeStateWord (s : State) (pa v : Nat) : State :=
  match place s pa with
  | .page 1 w 0 => wakePage (s.modWorld w fun x => { x with wstate := v % 8, conf := bit v 8 }) 0 1 w 0
  | .page 1 w 0x10 => wakePage (s.modWorld w fun x => { x with wcmdCnt := BitVec.ofNat 32 (v / 2 ^ 32), wcmdStat := v % 8 }) 0 1 w 0
  | .page 2 q 0 => wakePage (s.modQueue q fun x => { x with istate := v % 4 }) 0 2 q 0
  | _ => s

/-- A WRITE is logged, and then the doubleword changes (R123). -/
def State.logWrite (s : State) (kind arg pa old new : Nat) : State :=
  writeStateWord (s.logOpen kind arg fun id => .write id pa old new) pa new

end Sys2Proof.Machine
end

