-- ==== Sys2Proof/Machine/Queues.lean ====
section
/-!
DEFINITION. Queue interfaces, the fixed parser, launch packets and completion words (06 R110-R121, 04 R83).
-/

namespace Sys2Proof.Machine

/-- The device changes fields of a queue page: monitors on its lines wake (10 R203). -/
def State.onQueue (s : State) (q : Nat) (f : Queue → Queue) : State :=
  touchLines (s.modQueue q f) (pagePA 2 q 0 / 64) (pagePA 2 q 0x68 / 64) 0

/-! ## Children (08 R153, R154; 16 R317) -/

/-- A child of some strand of the world has completed: its word is kept for JOIN. -/
def finishChild (s : State) (w q count word : Nat) : State :=
  (s.bound w).foldl (fun s k =>
    let t := (s.ctx w k).strand
    if t.kids.any fun c => c.q == q && c.count == count then
      let s := s.modStrand w k fun t => { t with kids := t.kids.map fun c =>
        if c.q = q ∧ c.count = count then { c with done := some word } else c }
      match (s.ctx w k).wait with
      | some wt => if wt.kind = 0x32 then s.push .waitSatisfied [w, k] else s
      | none => s
    else s) s

/-- A packet that is discarded without a completion word: JOIN reads KILLED (16 R317). -/
def discardPacket (s : State) (q : Nat) (spawn : Option Nat) : State :=
  match spawn with
  | some c => finishChild s (s.queue q).owner q c (2 * 2 ^ 32)
  | none => s

/-! ## The parser's order (R114, R115) -/

def Packet.kind (p : Packet) : Nat := bits (p.dw 0) 7 0

/-- A packet that the parser takes in hand. -/
def Packet.new (dws : List Word) (inl secure : Bool) (spawn : Option Nat) : Packet :=
  { dws := dws, inl := inl, secure := secure, spawn := spawn, armed := false, line := 0, pa := 0, hit := false,
    barred := false, ending := none }

/-- The parser's step for a packet by its KIND; a KIND that is none is checked, and refused, as a LAUNCH would be. -/
def kindStep (p : Packet) : Instr :=
  match p.kind with
  | 2 => .waitvalue
  | 3 => .writevalue
  | 4 => .checkpoint
  | 5 => .nop
  | _ => .launch

/-- Launches of a queue that are not DONE. -/
def openLaunches (s : State) (q : Nat) : List Nat :=
  let w := (s.queue q).owner
  (tslice (w * 1024) 1024 s.launches).filterMap fun e =>
    if e.2.queue = q ∧ e.2.open then some (e.1 - w * 1024) else none

/-- BARRIER holds the packet at the head of its queue (R118). -/
def Packet.behind (s : State) (q : Nat) (p : Packet) : Bool := bit (p.dw 0) 19 && !(openLaunches s q).isEmpty

/-- The parser turns to the head of a queue: a packet in hand is tried again, an inline packet is taken, or stands at the head
behind its BARRIER, a ring packet is read. -/
def kick (s : State) (q : Nat) : State :=
  let x := s.queue q
  match x.cur with
  | some p => s.push (kindStep p) [q]
  | none =>
    if x.ringerr then s
    else match x.order with
      | [] => s
      | .ring :: _ => s.push .ringPacketRead [q]
      | .inl dws secure spawn :: r =>
        let p := Packet.new dws true secure spawn
        (s.modQueue q fun x => { x with cur := some { p with barred := p.behind s q }, order := r }).push (kindStep p) [q]

/-- The packet in hand has been dealt with. -/
def nextPacket (s : State) (q : Nat) : State :=
  kick (s.modQueue q fun x => { x with cur := none, waiting := false }) q

/-- A ring packet has been read (R115): HEAD advances. -/
def ringGot (s : State) (q : Nat) (ds : List Word) : State :=
  let p := Packet.new ds false true none
  (wakePage (s.modQueue q fun x => { x with cur := some p, order := x.order.tail, head := x.head + 1, fetch := none }) 0 2 q 0x38).push
    (kindStep p) [q]

/-- The read of a ring packet has faulted (R115). -/
def ringFault (s : State) (q : Nat) : State :=
  wakePage (s.modQueue q fun x => { x with ringerr := true, fetch := none }) 0 2 q 0x68

/-- The slot at HEAD as eight doublewords. -/
def ringLoad (s : State) (x : Queue) (va : Nat) : Reached (List Word) :=
  (List.range 8).foldl (fun (a : Reached (List Word)) i =>
    match a with
    | .done s ds => match unitLoad s x (va + 8 * i) 8 with
      | .done s v => .done s (ds ++ [BitVec.ofNat 64 v])
      | .failed s => .failed s
      | .waits s => .waits s
    | r => r) (.done s [])

/-- RING_PACKET_READ q (R115): HEAD advances once the read has completed; a read that faults sets RINGERR. A slot in the
host window is read by a request to the host (04 R85). -/
def ringRead (s : State) (q : Nat) : State :=
  let x := s.queue q
  match x.cur, x.order with
  | none, .ring :: _ =>
    if x.ringerr ∨ x.fetch.isSome then s
    else
      let va := (sext 48 (x.rbase * 4096)).toNat + 64 * (x.head.toNat % 2 ^ x.rlog2)
      match checkIn s x.owner x.root va .load with
      | .ok { target := .host h, .. } =>
        if walkWaits s x.owner x.root va .load ∨ !hostRoom s then park s (event .ringPacketRead [q])
        else hostRequest (s.modQueue q fun y => { y with fetch := some (nextId s) })
          { HReq.zero with world := x.owner, ctx := 16384, op := q, addr := h, len := 64, pasid := x.pasidOf }
          fun t id => .hostRead t 64 id
      | _ => match ringLoad s x va with
        | .done s ds => ringGot s q ds
        | .failed s => ringFault s q
        | .waits s => park s (event .ringPacketRead [q])
  | _, _ => s

/-- The data of a ring slot arrive from the host, or its read has failed. -/
def ringData (s : State) (q id : Nat) (data : Option (List Byte)) : State :=
  if (s.queue q).fetch ≠ some id then s
  else match data with
    | some d => ringGot s q ((List.range 8).map fun i => BitVec.ofNat 64 (natOf ((d.drop (8 * i)).take 8)))
    | none => ringFault s q

/-- RING_PACKET_READ q. -/
def execRingPacketRead (s : State) : Res := .next (ringRead s (s.arg 0))

/-! ## Completion words (R120, R121) -/

def completionWord (status perr detail cval : Nat) : Nat :=
  cval % 2 ^ 32 + status * 2 ^ 32 + perr * 2 ^ 40 + detail % 2 ^ 16 * 2 ^ 48

/-- The completion word is written in the queue's translation context; a write that faults counts in COMPFAIL. Nothing
follows it before it has performed. -/
def putCompletion (s : State) (q caddr word : Nat) : Reached Unit :=
  if caddr = 0 then .done s ()
  else match unitStore s (s.queue q) caddr 8 word with
    | .failed s => .done (s.onQueue q fun x => { x with compfail := satInc 32 x.compfail }) ()
    | r => r

/-- The completion is recorded for the queue's vector when the packet asks for it. -/
def putInterrupt (s : State) (q : Nat) (intr : Bool) : State :=
  if intr then recordVec s (s.queue q).owner (s.queue q).vector else s

/-- The packet in hand, which is no launch, writes its completion word, and then the parser goes on. A packet whose error is
0x01 or 0x02 has not had its CADDR checked (R117 stops at the first failed check): its word is written at CADDR as it stands,
a multiple of 8 or not (DESIGN CHOICE, assumption 59). -/
def finishPacket (s : State) (q : Nat) : State :=
  match (s.queue q).cur with
  | some p => match p.ending with
    | some (status, perr) =>
      let word := completionWord status perr 0 (p.dw 6)
      match if perr = 3 then Reached.done s () else putCompletion s q (p.dw 5) word with
      | .done s _ =>
        let s := putInterrupt s q (bit (p.dw 0) 18)
        let s := match p.spawn with | some c => finishChild s (s.queue q).owner q c word | none => s
        nextPacket s q
      | .failed s => s
      | .waits s => park s (event (kindStep p) [q])
    | none => s
  | none => s

/-- A packet that is no launch ends with a status. -/
def endPacket (s : State) (q : Nat) (p : Packet) (status perr : Nat) : State :=
  let s := s.modQueue q fun x => { x with cur := some { p with ending := some (status, perr), barred := false } }
  finishPacket (if perr = 0 then s else s.onQueue q fun x => { x with badpkt := satInc 32 x.badpkt }) q

/-! ## Checks (R102, R116, R117) -/

/-- Widths of the work identifier's fields. -/
def Packet.widths (p : Packet) : List Nat := (List.range 6).map fun i => bits (p.dw 1) (6 * i + 5) (6 * i)

/-- Index of the top field: the present field of highest index. -/
def topField (ws : List Nat) : Option Nat := ((List.range 6).reverse).find? fun i => nth 0 ws i != 0

/-- Extent of field i: COUNT for the top field, 2^w below it, 1 where absent. -/
def extent (ws : List Nat) (count i : Nat) : Nat :=
  match topField ws with
  | some t => if i = t then count else if i < t then 2 ^ nth 0 ws i else 1
  | none => 1

/-- Product of the extents of fields lo to hi - 1. -/
def extents (ws : List Nat) (count lo hi : Nat) : Nat :=
  (rangeFrom lo hi).foldl (fun a i => a * extent ws count i) 1

/-- Effective feature mask (03 R63). -/
def effFeatures (fmask dw7 : Nat) : Nat :=
  let f := Nat.land (bits dw7 4 0) fmask
  if bit f 0 then f else 0

/-- Reserved bits and unused fields are zero; COND is 0 to 3 (check 0x02). -/
def reservedOk (p : Packet) : Bool :=
  let z := fun i => p.dw i == 0
  let k := p.kind
  if k = 1 then
    bits (p.dw 0) 31 20 == 0 && bits (p.dw 1) 63 41 == 0 && bits (p.dw 2) 63 32 == 0 && bits (p.dw 6) 63 32 == 0 &&
      bits (p.dw 7) 63 16 == 0
  else
    bits (p.dw 0) 63 20 == 0 && bits (p.dw 0) 17 11 == 0 && bits (p.dw 6) 63 32 == 0 && z 7 &&
    (if k = 2 then decide (bits (p.dw 0) 10 8 ≤ 3) else bits (p.dw 0) 10 8 == 0) &&
    (match k with
      | 2 => z 4
      | 3 => z 3 && z 4
      | 4 => true
      | _ => z 1 && z 2 && z 3 && z 4)

/-- The doubleword of a WAITVALUE or WRITEVALUE can be reached (check 0x07). -/
def valueOk (s : State) (q : Nat) (p : Packet) : Bool :=
  let x := s.queue q
  p.dw 1 % 8 == 0 &&
  (match checkIn s x.owner x.root (p.dw 1) (if p.kind = 2 then .load else .store) with
    | .ok { target := .mem pa, .. } => !(p.kind == 2 && tagFails s (keySlot s x.owner) pa 8)
    | .ok { target := .host _, .. } => p.kind == 3
    | _ => false)

/-- The first failed check of R117, or 0. -/
def perrOf (s : State) (q : Nat) (p : Packet) : Nat :=
  let k := p.kind
  let ws := p.widths
  let count := bits (p.dw 2) 31 0
  let span := bits (p.dw 0) 15 14
  let glvl := bits (p.dw 0) 13 11
  if k = 0 ∨ k > 5 then 1
  else if !reservedOk p then 2
  else if p.dw 5 % 8 ≠ 0 then 3
  else if k = 1 then
    match topField ws with
    | none => 4
    | some t =>
      if ws.foldl (· + ·) 0 > 64 ∨ count = 0 ∨ count > 2 ^ nth 0 ws t then 4
      else if extents ws count 0 (Nat.min glvl 6) > (if span > 0 then 4 else 32) then 5
      else if bits (p.dw 0) 63 32 > 3072 ∨ bits (p.dw 1) 40 36 > 16 then 6
      else if span > 0 ∧ !bit (effFeatures (s.world (s.queue q).owner).fmask (p.dw 7)) 4 then 8
      else 0
  else if (k = 2 ∨ k = 3) ∧ !valueOk s q p then 7
  else 0

/-- The acceptance test of R102. -/
def accepts (s : State) (q : Nat) (p : Packet) : Bool :=
  let x := s.queue q
  x.istate == 2 && (s.world x.owner).wstate == 2 && (!(s.world x.owner).conf || p.secure)

/-- What becomes of the packet in hand before it is performed. -/
inductive Taken where
  | none
  | gone (s : State)
  | holds (s : State)
  | go (p : Packet)

/-- The test of R102, the checks of R117 and the wait of BARRIER (R118). -/
def takePacket (s : State) (q : Nat) : Taken :=
  match (s.queue q).cur with
  | none => .none
  | some p =>
    if p.ending.isSome then .gone (finishPacket s q)
    else if p.armed then .go p
    else if !accepts s q p then
      .gone (nextPacket (discardPacket (s.onQueue q fun x => { x with refused := satInc 32 x.refused }) q p.spawn) q)
    else
      let e := perrOf s q p
      if e ≠ 0 then .gone (endPacket s q p 1 e)
      else if p.behind s q then
        .holds (s.modQueue q fun x => { x with waiting := true, cur := some { p with barred := true } })
      else .go { p with barred := false }

/-! ## Launches (R118, 03 R60, 08 R150) -/

/-- The lowest launch number of a world that is free. -/
def freeLaunch (s : State) (w : Nat) : Option Nat :=
  (List.range 1024).find? fun l => let x := s.launch w l; x.lstate == .never || x.free

/-- Effective latency class (08 R150). -/
def elatOf (x : World) (lat prio : Nat) : Nat :=
  (rangeFrom (prio + 1) 8).foldl (fun m p => Nat.min m (tget 3 x.smin p)) lat

/-- The launch page at binding (03 R60), from the packet and its queue. -/
def bindLaunch (s : State) (q : Nat) (p : Packet) : Launch :=
  let x := s.queue q
  let w := s.world x.owner
  let d0 := p.dw 0
  let ws := p.widths
  let count := bits (p.dw 2) 31 0
  let glvl := Nat.min (bits d0 13 11) 6
  let prio := Nat.min (bits d0 10 8) x.priocap
  { Launch.zero with
    lstate := .pending, total := extents ws count glvl 6, elat := elatOf w (bits d0 17 16) prio
    rlat := bits d0 17 16, features := effFeatures w.fmask (p.dw 7), root := x.root, queue := q, prio := prio
    preempt := x.preempt, glvl := glvl, widths := ws, count := count, span := bits d0 15 14, vkib := bits d0 63 32
    bands := bits (p.dw 1) 40 36, entry := p.dw 3, arg := p.dw 4, caddr := p.dw 5, cval := bits (p.dw 6) 31 0
    intr := bit d0 18, order := w.orderNext, spawn := p.spawn }

/-- LAUNCH q (R118): a number is bound, or the packet waits at the head. -/
def takeLaunch (s : State) (q : Nat) : State :=
  match takePacket s q with
  | .none => s
  | .gone s => s
  | .holds s => s
  | .go p =>
    if p.kind ≠ 1 then s
    else
      let w := (s.queue q).owner
      match freeLaunch s w with
      | none => s.modQueue q fun x => { x with waiting := true, cur := some p }
      | some l =>
        let n := bindLaunch s q p
        let s := { s with launches := tset (launchKey w l) n s.launches }
        let s := s.modWorld w fun x => { x with
          orderNext := x.orderNext + 1
          smin := if n.preempt then tset n.prio (Nat.min n.rlat (tget 3 x.smin n.prio)) x.smin else x.smin }
        let s := s.onQueue q fun x => { x with accepted := x.accepted + 1 }
        nextPacket ((wakePage s w 3 l 0).push .dispatchDecision []) q

/-- LAUNCH q. -/
def execLaunch (s : State) : Res := .next (takeLaunch s (s.arg 0))

/-! ## WAITVALUE, WRITEVALUE, NOP (R118, R119) -/

/-- The parser reads the doubleword and arms its monitor in one step, and tests (R119). A test that a store has made true
since then is not missed. -/
def testWait (s : State) (q : Nat) (p : Packet) : State :=
  let x := s.queue q
  if p.hit then endPacket s q p 0 0
  else match checkIn s x.owner x.root (p.dw 1) .load with
  | .ok { target := .mem pa, .. } =>
    match unitLoad s x (p.dw 1) 8 with
    | .done s v =>
      if p.test v then endPacket s q p 0 0
      else s.modQueue q fun x => { x with waiting := true, cur := some { p with armed := true, line := pa / 64, pa := pa } }
    | .failed s => endPacket s q p 1 7
    | .waits s => park s (event (if p.armed then .waitvalueRetest else .waitvalue) [q])
  | _ =>
    if walkWaits s x.owner x.root (p.dw 1) .load then park s (event (if p.armed then .waitvalueRetest else .waitvalue) [q])
    else endPacket s q p 1 7

/-- WAITVALUE q (R118, R119). -/
def execWaitvalue (s : State) : Res :=
  let q := s.arg 0
  .next (match takePacket s q with
    | .none => s
    | .gone s => s
    | .holds s => s
    | .go p => if p.kind = 2 then testWait s q p else s)

/-- WAITVALUE_RETEST q (R119): after a store to the watched line. -/
def execWaitvalueRetest (s : State) : Res :=
  let q := s.arg 0
  .next (match (s.queue q).cur with
    | some p => if p.kind = 2 ∧ p.armed ∧ p.ending.isNone then testWait s q p else s
    | none => s)

/-- WRITEVALUE q (R118): the store of dw2 goes out. -/
def execWritevalue (s : State) : Res :=
  let q := s.arg 0
  .next (match takePacket s q with
    | .none => s
    | .gone s => s
    | .holds s => s
    | .go p =>
      if p.kind = 3 ∧ !p.armed then
        (s.modQueue q fun x => { x with cur := some { p with armed := true } }).push .writevaluePerformed [q]
      else s)

/-- WRITEVALUE_PERFORMED q (R118): the store performs and the completion word follows, or it fails. -/
def execWritevaluePerformed (s : State) : Res :=
  let q := s.arg 0
  let x := s.queue q
  .next (match x.cur with
    | some p =>
      if p.kind = 3 ∧ p.armed ∧ p.ending.isNone then
        match unitStore s x (p.dw 1) 8 (p.dw 2) with
        | .done s _ => endPacket s q p 0 0
        | .failed s => endPacket s q p 1 7
        | .waits s => park s (event .writevaluePerformed [q])
      else s
    | none => s)

/-- NOP q (R118): the completion word is written at once. -/
def execNop (s : State) : Res :=
  let q := s.arg 0
  .next (match takePacket s q with
    | .none => s
    | .gone s => s
    | .holds s => s
    | .go p => if p.kind = 5 then endPacket s q p 0 0 else s)

/-! ## The end of a launch (R120, R121, 08 R155) -/

/-- The first status that applies. -/
def Launch.status (x : Launch) : Nat :=
  if x.worldLost then 5 else if x.stalled then 4 else if x.killed then 2 else if x.faultEnd then 1
  else if x.lost > 0 then 3 else 0

def Launch.detail (x : Launch) : Nat :=
  let st := x.status
  if st = 1 ∨ st = 2 then (if x.fvalid then 2 ^ 15 + x.firstFault else 0)
  else if st = 3 then Nat.min 0xFFFF x.lost else 0

/-- The fault record of a child's first faulting context, at CADDR + 8 (08 R154). -/
def putFaultRecord (s : State) (x : Launch) : Reached Unit :=
  if x.spawn.isSome ∧ (x.status = 1 ∨ x.status = 2) ∧ x.fvalid ∧ x.caddr ≠ 0 then
    (List.range 4).foldl (fun (a : Reached Unit) i => match a with
      | .done s _ => match unitStore s (s.queue x.queue) (x.caddr + 8 + 8 * i) 8 (nth 0 x.faultRec i) with
        | .failed s => .done s ()
        | r => r
      | r => r) (.done s ())
  else .done s ()

/-- The heads of a world's queues that wait for a launch are tried again. -/
def kickWaiting (s : State) (w : Nat) : State :=
  (s.queues.filterMap fun (e : Nat × Queue) => if e.2.waiting ∧ e.2.owner = w then some e.1 else none).foldl kick s

/-- The completion word has performed, or none is written (R121): the interrupt is recorded and the number is free. -/
def launchFreed (s : State) (w l word : Nat) : State :=
  let x := s.launch w l
  let s := putInterrupt (s.modLaunch w l fun x => { x with free := true }) x.queue x.intr
  kickWaiting (match x.spawn with | some c => finishChild s w x.queue c word | none => s) w

/-- LSTATE DONE with its status (08 R155): the launch leaves the dispatch set, and what the dispatcher kept for it. -/
def launchClosed (s : State) (w l : Nat) : State :=
  (wakePage (s.modLaunch w l fun x => { x with lstate := .done, lstatus := x.status }) w 3 l 0).modWorld w fun y => { y with
    reserve := match y.reserve with
      | some r => if r.1 = l then none else some r
      | none => none
    claims := y.claims.filter fun c => c.1 != l }

/-- LAUNCH_DONE w l (R121): LSTATE DONE, the completion word once every store of the launch has performed, then the
interrupt and the number. A BARRIER packet waits for DONE alone (R118). -/
def launchDone (s : State) (w l : Nat) : State :=
  let x := s.launch w l
  if (x.lstate = .ackwait ∧ x.peerpend = 0) ∨ (x.lstate = .done ∧ !x.free) then
    let waits := fun (s : State) => park (if x.lstate = .done then s else kickWaiting s w) (event .launchDone [w, l])
    let s := if x.lstate = .done then s else launchClosed s w l
    let x := s.launch w l
    let word := completionWord x.lstatus 0 x.detail x.cval
    if x.caddr ≠ 0 ∧ worldStoresHeld s w then waits s
    else match putFaultRecord s x with
      | .waits s => waits s
      | .failed s => s
      | .done s _ => match putCompletion s x.queue x.caddr word with
        | .waits s => waits s
        | .failed s => s
        | .done s _ => launchFreed s w l word
  else s

/-- LAUNCH_DONE w l. -/
def execLaunchDone (s : State) : Res := .next (launchDone s (s.arg 0) (s.arg 1))

/-! ## Leaving RUN (05 R101, R108) -/

/-- Launches carried by an interface are killed: status KILLED. -/
def killCarried (s : State) (q : Nat) : State :=
  let w := (s.queue q).owner
  (openLaunches s q).foldl (fun s l => killAllCmd s w l true) s

/-- Packets of a queue are dropped without completion words: HEAD := TAIL. -/
def dropPackets (s : State) (q : Nat) : State :=
  let x := s.queue q
  let gone := x.order.filterMap fun o => match o with | .inl _ _ sp => sp | .ring => none
  let s := s.onQueue q fun x => { x with order := [], cur := none, waiting := false, head := x.tail, fetch := none }
  let s := match x.cur with | some p => discardPacket s q p.spawn | none => s
  gone.foldl (fun s c => discardPacket s q (some c)) s

/-- STOP_INTERFACE_REQUEST and UNLOCK (R101, R113). -/
def stopInterface (s : State) (q : Nat) : State :=
  dropPackets (killCarried (s.modQueue q fun x => { x with istate := 0, nonce := none }) q) q

/-- The interface goes to ERROR. A blocked WAITVALUE is discarded (R119). -/
def interfaceError (s : State) (q : Nat) : State :=
  let x := s.queue q
  let s := s.onQueue q fun x => { x with istate := 3 }
  match x.cur with
  | some p => if p.kind = 2 ∧ p.armed then nextPacket (discardPacket s q p.spawn) q else s
  | none => s

/-- A violation on the interface (05 R108), or a write to a locked field: ERROR, and the launches that it carries are killed
(05 R101). -/
def toError (s : State) (q : Nat) : State := interfaceError (killCarried s q) q

/-! ## Writes of the queue page (R112 to R115) -/

/-- OWNER (R110): through world 0's mapping, while unlocked, to world 0 or a FREE world. -/
def ownerWrite (s : State) (q v who : Nat) : State :=
  if who = 0 ∧ (s.queue q).istate = 0 ∧ v < 129 ∧ (v = 0 ∨ (s.world v).wstate = 0) then
    s.modQueue q fun x => { x with owner := v }
  else s

/-- The mapping may write the owner's fields (R112). -/
def mayConfigure (s : State) (q who : Nat) : Bool := who == 0 || who == (s.queue q).owner

/-- A store to a doubleword with locked fields, judged field by field (R112). -/
def lockedWrite (s : State) (q off v who : Nat) : State :=
  let x := s.queue q
  if !mayConfigure s q who then s
  else
    let y : Queue :=
      if off = 0x18 then { x with root := v }
      else if off = 0x20 then { x with pasid := bits v 19 0, pasidv := bit v 20 }
      else { x with vector := bits v 26 16 }
    let free := fun (z : Queue) =>
      if off = 0x28 ∧ who = 0 then { z with preempt := bit v 11, priocap := bits v 10 8 } else z
    if x.istate = 0 then s.modQueue q fun _ => free y
    else if y = x ∨ x.istate = 3 then s.modQueue q fun _ => free x
    else toError s q

/-- RBASE, RLOG2, CHILDV and CHILDQ (R112). -/
def configWrite (s : State) (q off v who : Nat) : State :=
  if mayConfigure s q who ∧ (s.queue q).istate = 0 then
    s.modQueue q fun x =>
      if off = 0x30 then { x with rbase := bits v 47 12, rlog2 := bits v 3 0 }
      else { x with childv := bit v 15, childq := bits v 14 0 }
  else s

/-- QCMD's result (R113). -/
def qcmdResult (s : State) (q r : Nat) : State :=
  wakePage (s.modQueue q fun x => { x with qcmdCnt := x.qcmdCnt + 1, qcmdStat := r }) 0 2 q 0

/-- What START asks of an interface beside its owner's state (R113): ROOT lies in the owner's table region, and VECTOR is one
of the function's. -/
def assignable (s : State) (x : Queue) : Bool := inRegion s x.owner x.root && decide (x.vector < 2048)

/-- A LOCK assigns the translation context (05 R100), with a PASID that the function holds. Which PASIDs a function holds is said
nowhere: this model takes it that a function with PASID enabled holds each of its 20-bit PASIDs and another none (DESIGN CHOICE,
assumption 62). -/
def lockable (s : State) (x : Queue) : Bool := assignable s x && (!x.pasidv || (s.fn x.owner).pasidOn)

/-- The interface goes to a state, as a transaction of one step (06 R123). -/
def interfaceTo (s : State) (kind q n : Nat) : State :=
  let old := (s.queue q).istate
  (s.logOnce kind q [(pagePA 2 q 0, old, n)]).onQueue q fun x => { x with istate := n, nonce := if n = 0 then none else x.nonce }

/-- A QCMD write that the policy core performs (R113): 1 START, 2 UNLOCK, 0 and 3 IGNORED; for a confidential owner every
write is DENIED. -/
def qcmd (s : State) (q v who : Nat) : State :=
  let x := s.queue q
  if who ≠ 0 then s
  else if (s.world x.owner).conf then qcmdResult s q 2
  else if v = 1 then
    (if x.istate ≠ 0 then qcmdResult s q 1
     else if (s.world x.owner).wstate = 2 ∧ assignable s x then qcmdResult (interfaceTo s txQcmd q 2) q 0
     else qcmdResult s q 2)
  else if v = 2 then qcmdResult (stopInterface (s.logOnce txQcmd q [(pagePA 2 q 0, x.istate, 0)]) q) q 0
  else qcmdResult s q 1

/-- A TAIL store (R114). RLOG2 = 0 stands for no ring (R111), so every store that would advance TAIL is counted in MALFORMED,
where R114's limit 2^RLOG2 would be 1 (DESIGN CHOICE, assumption 58). -/
def tailStore (s : State) (q v who : Nat) : State :=
  let x := s.queue q
  let v := v % 2 ^ 32
  let n := (v + 2 ^ 32 - x.head.toNat) % 2 ^ 32
  let m := (x.tail - x.head).toNat
  if !mayConfigure s q who then s
  else if n > (if x.rlog2 = 0 then 0 else 2 ^ x.rlog2) ∨ n < m then
    s.onQueue q fun x => { x with malformed := satInc 32 x.malformed }
  else if n = m then s
  else
    let s := s.modQueue q fun x => { x with
      tail := BitVec.ofNat 32 v, order := x.order ++ List.replicate (n - m) .ring, appended := x.appended + (n - m) }
    if x.cur.isNone ∧ x.order.isEmpty then kick s q else s

/-- RINGERR is cleared: the parser reads the same slot again (R115). -/
def ringerrClear (s : State) (q who : Nat) : State :=
  if mayConfigure s q who ∧ (s.queue q).ringerr then
    kick (s.modQueue q fun x => { x with ringerr := false }) q
  else s

/-- Inline packets appended and not yet taken (R114): one that BARRIER holds at the head is not taken (R116). A LAUNCH that
waits there for a number and a WAITVALUE that blocks count as taken (DESIGN CHOICE, assumption 60). -/
def Queue.inlines (x : Queue) : Nat :=
  (x.order.filter fun o => match o with | .inl _ _ _ => true | .ring => false).length +
    (match x.cur with | some p => (p.inl && p.barred).toNat | none => 0)

/-- An inline packet is appended, or dropped and counted in OVERFLOW. -/
def appendInline (s : State) (q : Nat) (dws : List Word) (secure : Bool) (spawn : Option Nat) : State :=
  let x := s.queue q
  if x.inlines ≥ 8 then s.onQueue q fun x => { x with overflow := satInc 32 x.overflow }
  else
    let s := s.onQueue q fun x =>
      { x with order := x.order ++ [.inl dws secure spawn], appended := x.appended + 1 }
    if x.cur.isNone ∧ x.order.isEmpty then kick s q else s

/-- LAUNCH_REGISTER_WRITE fn off whole secure; data: the eight doublewords (04 R83, 05 R108). `secure` is 1 for a write
on the function's bound IDE stream with the T bit, 0 for one on no stream, 2 for one on a wrong stream or PASID. -/
def launchWrite (s : State) (fn off whole secure : Nat) (dws : List Nat) : State :=
  let q := off / 64
  let x := s.queue q
  let run := x.istate == 2 && (s.world x.owner).conf
  if (s.world fn).fnFrozen ∨ q ≥ 32768 then s
  else if x.owner ≠ fn then
    let s := s.onQueue q fun x => { x with malformed := satInc 32 x.malformed }
    if run then toError s q else s
  else if whole = 0 ∨ off % 64 ≠ 0 ∨ dws.length ≠ 8 then
    s.onQueue q fun x => { x with malformed := satInc 32 x.malformed }
  else if run ∧ secure = 2 then toError s q
  else appendInline s q (dws.map (BitVec.ofNat 64)) (secure == 1) none

/-- LAUNCH_REGISTER_WRITE. -/
def execLaunchRegisterWrite (s : State) : Res :=
  let go := fun (s : State) => launchWrite s (s.arg 0) (s.arg 1) (s.arg 2) (s.arg 3) s.ev.data
  .next (if s.barWaits (s.arg 0) then s.serve go else go s)

/-- OWNER_WRITE q v who (R110). -/
def execOwnerWrite (s : State) : Res := .next (ownerWrite s (s.arg 0) (s.arg 1) (s.arg 2))
/-- QUEUE_LOCKED_FIELD_WRITE q off v who (R112). -/
def execQueueLockedFieldWrite (s : State) : Res := .next (lockedWrite s (s.arg 0) (s.arg 1) (s.arg 2) (s.arg 3))
/-- START q who (R113). -/
def execStart (s : State) : Res := .next (s.serve fun s => qcmd s (s.arg 0) 1 (s.arg 1))
/-- UNLOCK q who (R113). -/
def execUnlock (s : State) : Res := .next (s.serve fun s => qcmd s (s.arg 0) 2 (s.arg 1))
/-- QCMD_IGNORED q v who (R113). -/
def execQcmdIgnored (s : State) : Res := .next (s.serve fun s => qcmd s (s.arg 0) (if s.arg 1 = 3 then 3 else 0) (s.arg 2))
/-- TAIL_STORE q v who (R114). -/
def execTailStore (s : State) : Res := .next (tailStore s (s.arg 0) (s.arg 1) (s.arg 2))
/-- RINGERR_CLEAR q who (R115). -/
def execRingerrClear (s : State) : Res := .next (ringerrClear s (s.arg 0) (s.arg 1))

end Sys2Proof.Machine
end

