-- ==== Sys2Proof/Machine/Worlds.lean ====
section
/-!
DEFINITION. Worlds: creation with its seed map, destruction and the resets that cause it (03 R76, R454; 04 R92, R93;
05 R96-R99; 06 R123), inbound peer requests and frozen masters (05 R108, R109).
-/

namespace Sys2Proof.Machine

/-! ## Memory ranges (05 R96, R99) -/

def rangesMeet (a b : Nat × Nat) : Bool := decide (a.1 < b.1 + b.2) && decide (b.1 < a.1 + a.2)

/-- A physical address lies in a world's ranges. -/
def inRanges (x : World) (pa : Nat) : Bool :=
  (usedRanges x).any fun r => decide (r.1 * 2 ^ 30 ≤ pa) && decide (pa < (r.1 + r.2) * 2 ^ 30)

/-- World 0's switch area (08 R144): the highest 4 GiB of its MRANGE0. -/
def switchArea0 (s : State) : Nat × Nat :=
  let r := nth (0, 0) (s.world 0).ranges 0
  (r.1 + r.2 - 4, 4)

/-- Two of a list meet. -/
def anyMeet : List (Nat × Nat) → Bool
  | [] => false
  | r :: rs => rs.any (rangesMeet r) || anyMeet rs

/-- The checks of CREATE (R99): 0 good, 3 OVERLAP, 4 BADREGION. -/
def createCheck (s : State) (w : Nat) : Nat :=
  let x := s.world w
  let us := usedRanges x
  let region := x.tregion
  let top := 6 * s.ready.grpBytes / 2 ^ 30 - 1
  let others := s.worlds.filter fun (e : Nat × World) => e.1 != w && e.2.wstate != 0
  if !(us.any fun r => decide (r.1 * 512 ≤ region) && decide (region < (r.1 + r.2) * 512)) then 4
  else if anyMeet us ∨ us.any (fun r => decide (top < r.1 + r.2)) ∨ us.any (rangesMeet (switchArea0 s)) ∨
      (others.any fun e => e.1 != 0 && (usedRanges e.2).any fun r => us.any (rangesMeet r)) ∨
      (others.any fun e => e.2.tregion == region) then 3
  else 0

/-! ## The seed map (03 R76, R454; 05 R97) -/

/-- One leaf of the seed map: virtual address, level, physical page, rights. -/
structure Seed where
  va     : Nat
  level  : Nat
  ppn    : Nat
  rights : Nat
  deriving DecidableEq, Repr

/-- Memory ranges, end to end: 1 GiB leaves, and 2 MiB leaves in the GiB of the table region. -/
def seedMemory (x : World) : List Seed :=
  let gibs := (usedRanges x).flatMap fun r => rangeFrom r.1 (r.1 + r.2)
  (List.range gibs.length).flatMap fun i =>
    let g := nth 0 gibs i
    if g = x.tregion / 512 then
      (List.range 512).map fun j => { va := i * 2 ^ 30 + j * 2 ^ 21, level := 2, ppn := g * 2 ^ 18 + j * 512, rights := 7 }
    else [{ va := i * 2 ^ 30, level := 1, ppn := g * 2 ^ 18, rights := 7 }]

/-- Control pages of a kind. -/
def seedPages (kind rights : Nat) (idx : List Nat) : List Seed :=
  idx.map fun i =>
    { va := 0x700000000000 + kind * 0x10000000000 + i * 0x1000, level := 3, ppn := pagePA kind i 0 / 4096, rights := rights }

/-- A run of n GiB leaves. -/
def seedWindow (va pa n : Nat) : List Seed :=
  (List.range n).map fun i => { va := va + i * 2 ^ 30, level := 1, ppn := pa / 4096 + i * 2 ^ 18, rights := 3 }

/-- Bits of a mask that are set. -/
def setBitsOf (m n : Nat) : List Nat := (List.range n).filter (bit m)

/-- Queue interfaces that a world owns (R76). -/
def ownedQueues (s : State) (w : Nat) : List Nat := (List.range 32768).filter fun q => (s.queue q).owner == w

/-- The leaves of a world's seed map. -/
def seedLeaves (s : State) (w : Nat) : List Seed :=
  let x := s.world w
  let peers := if w = 0 then List.range 64
    else if x.conf then []
    else ((setBitsOf x.pwingnt 16).filter fun n => bit s.ready.plink n).map (fun n => (s.peer n).farid) |>.eraseDups
  seedMemory x ++
  [{ va := 0x7F0000000000, level := 2, ppn := x.tregion * 512, rights := 3 }] ++
  seedPages 4 3 (List.range 16384) ++ seedPages 3 3 (List.range 1024) ++ seedPages 7 3 (List.range 80) ++
  (if w = 0 then
    seedPages 1 3 (List.range 129) ++ seedPages 0 3 [0] ++ seedPages 9 3 [0] ++ seedPages 5 3 (List.range 80) ++
      seedPages 6 3 (List.range 168) ++ seedPages 8 3 (List.range 16) ++ seedPages 2 3 (List.range 32768)
  else
    seedPages 1 3 [w] ++ seedPages 0 1 (if x.readygnt then [0] else []) ++ seedPages 5 3 (setBitsOf x.pwrgnt 80) ++
      seedPages 6 3 (setBitsOf x.mongnt 168) ++ seedPages 8 1 (setBitsOf x.plgnt 16) ++
      seedPages 2 3 (ownedQueues s w)) ++
  (if w = 0 ∨ x.hostwin then seedWindow 0x600000000000 (0xB * 2 ^ 48) 16384 else []) ++
  peers.flatMap fun id => seedWindow (0x500000000000 + id * 2 ^ 36) (0xA * 2 ^ 48 + id * 2 ^ 42) 64

/-- Position of a number in a list. -/
def posIn (l : List Nat) (n : Nat) : Nat := (l.findIdx? (· == n)).getD 0

/-- A list without entries that equal the one before them. -/
def dropRepeats : List Nat → List Nat
  | a :: b :: t => if a = b then dropRepeats (b :: t) else a :: dropRepeats (b :: t)
  | l => l

/-- Table pages of the seed after the root, by level and address prefix: levels 1, 2 and 3. -/
def seedTables (ls : List Seed) (level : Nat) : List Nat :=
  (dropRepeats ((ls.filter fun l => decide (level ≤ l.level)).map fun l => l.va / 2 ^ (48 - 9 * level))).eraseDups

/-- Cells of the seed's table pages, from its root on (R454): the root first, then the tables of levels 1, 2, 3. -/
def seedCells (ls : List Seed) (base : Nat) : Tbl Byte :=
  let p1 := seedTables ls 1
  let p2 := seedTables ls 2
  let p3 := seedTables ls 3
  let ptr := fun k => (base + k * 4096) + 1
  let entry := fun (l : Seed) => l.ppn * 4096 + l.rights * 2 + 1
  let n1 := 1
  let n2 := 1 + p1.length
  let n3 := n2 + p2.length
  let page := fun (level prefix_ : Nat) (below : List Nat) (nb : Nat) =>
    let mine := ls.filter fun l => l.level == level && l.va / 2 ^ (48 - 9 * level) == prefix_
    (List.range 512).filterMap fun i =>
      let key := prefix_ * 512 + i
      if below.contains key then some (i, ptr (nb + posIn below key))
      else ((mine.find? fun l => l.va / 2 ^ (39 - 9 * level) == key).map fun l => (i, entry l))
  let pages := [page 0 0 p1 n1] ++ p1.map (fun p => page 1 p p2 n2) ++ p2.map (fun p => page 2 p p3 n3) ++
    p3.map fun p => page 3 p [] 0
  (List.range pages.length).flatMap fun k =>
    (nth [] pages k).flatMap fun e => numCells (k * 4096 + 8 * e.1) 8 e.2

/-- The policy core writes a world's seed map into the first MiB of its region. Every page of that MiB is written: one that holds
no table of the map holds zeros (DESIGN CHOICE, assumption 48: 03 R76 names the map alone). -/
def writeSeed (s : State) (w : Nat) : State :=
  let base := (s.world w).tregion * 2 ^ 21
  let cells := (seedCells (seedLeaves s w) base).filter fun e => decide (e.1 < 2 ^ 20)
  performCells s (keySlot s w) base (2 ^ 20) cells

/-! ## CREATE -/

/-- Zero in every line of a range, under a key slot. -/
def zeroRange (s : State) (slot : Nat) (r : Nat × Nat) : State :=
  { s with
    mem := terase (r.1 * 2 ^ 30) (r.2 * 2 ^ 30) s.mem
    lineSlot := (r.1 * 2 ^ 24, r.2 * 2 ^ 24, slot) :: s.lineSlot
    lineBad := terase (r.1 * 2 ^ 24) (r.2 * 2 ^ 24) s.lineBad }

def clearDirty (s : State) (r : Nat × Nat) : State :=
  { s with dirty := terase (r.1 * 2 ^ 18) (r.2 * 2 ^ 18) s.dirty }

/-- A context page whose number is free (17 R325): STATE and RESIDENT read 0, every other field stays as it stood. -/
def Ctx.unbound (c : Ctx) : Ctx :=
  { c with
    state := .empty, resident := false, fault := none, wait := none, ranAtSwitch := false, due := false, heldState := 0
    strand := Strand.zero }

/-- Records of a world that begin anew; its context pages keep their fields until their numbers are bound again (17 R325). -/
def clearRecords (s : State) (w : Nat) : State :=
  { s with
    launches := terase (w * 1024) 1024 s.launches
    flights := s.flights.filter fun x => x.1 != w
    ctxs := s.ctxs.map fun (e : Nat × Ctx) => if e.1 / 16384 = w then (e.1, e.2.unbound) else e
    engines := terase (w * 80) 80 s.engines }

/-- Every WCMD store is counted and its result is shown (R99), as a transaction of one step (06 R123). -/
def wcmdResult (s : State) (w r : Nat) : State :=
  let x := s.world w
  let y := { x with wcmdCnt := x.wcmdCnt + 1, wcmdStat := r }
  wakePage ((s.logOnce txWcmd w [(pagePA 1 w 0x10, x.wcmdWord, y.wcmdWord)]).modWorld w fun _ => y) 0 1 w 0

/-- The result of a WCMD store is logged and shown, within its transaction. -/
def State.logStat (s : State) (kind w r : Nat) : State :=
  let x := s.world w
  (s.logOpen kind w fun id => .write id (pagePA 1 w 0x10) x.wcmdWord { x with wcmdStat := r }.wcmdWord).modWorld w fun x =>
    { x with wcmdStat := r }

/-- A WCMD store is counted (R99). -/
def wcmdCount (s : State) (w : Nat) : State := s.modWorld w fun x => { x with wcmdCnt := x.wcmdCnt + 1 }

/-- CREATE begins (R99, R123): BEGIN, WSTATE BUILDING, a fresh scrambler key as its first step. -/
def beginCreate (s : State) (w : Nat) : State :=
  let x := s.world w
  let s := (s.beginTxn txCreate w).logWrite txCreate w (pagePA 1 w 0) x.stateWord (x.confreq.toNat * 2 ^ 8 + 1)
  let s := s.modWorld w fun x => { x with
    scrambler := Config.scramblerKey s.fresh
    streams := [], manifest := none, smin := [], imageV := [], served := [], reserve := none, claims := [], orderNext := 0 }
  ({ clearRecords s w with fresh := s.fresh + 1 }.logStep txCreate w 1).push .createComplete [w]

/-- CREATE_COMPLETE (R99): the fill, the seed map, WSTATE ACTIVE, COMMIT and END. -/
def createComplete (s : State) (w : Nat) : State :=
  let x := s.world w
  if x.wstate ≠ 1 ∨ !s.core.up then s
  else
    let us := usedRanges x
    let s := if x.conf ∨ x.zeroFill then us.foldl (fun s r => zeroRange s (keySlot s w) r) s else s
    let s := (us.foldl clearDirty s).logStep txCreate w 2
    let s := (writeSeed s w).logStep txCreate w 3
    let s := s.logWrite txCreate w (pagePA 1 w 0) x.stateWord (x.conf.toNat * 2 ^ 8 + 2)
    wakePage ((s.logStat txCreate w 0).closeTxn txCreate w) 0 1 w 0

/-! ## DESTROY, and the resets (04 R92, R93) -/

/-- CHECKPOINT packets that wait for the engine are tried again (07 R126). -/
def kickCkpt (s : State) : State :=
  { s with work := s.work ++ s.queues.filterMap fun (e : Nat × Queue) =>
      match e.2.cur with | some p => if p.kind = 4 ∧ !p.armed then some (event .checkpoint [e.1]) else none | none => none }

/-- A checkpoint or restore of a world that is destroyed is abandoned (R92, 07 R132). Writes that waited for its pages
perform, packets that waited for the engine are tried again, and a quantum end that it held back follows. -/
def abandonCkpt (s : State) (w : Nat) : State :=
  if s.ckpt.estate ≠ 0 ∧ s.ckpt.world = w then
    let s := unholdAll (wakePage { s with ckpt := { s.ckpt with estate := 0, op := none } } 0 9 0 0)
    let s := kickCkpt ((s.endTxn txCkpt w).endTxn txRestore w)
    if s.quantum.deferred then { s with quantum := { s.quantum with deferred := false } }.push .quantumEnd [] else s
  else s

/-- Steps 1 and 2 of R92: contexts are killed, launches and packets go without completion words. The transaction commits as
soon as WSTATE has been logged (06 R123). -/
def beginDestroy (s : State) (kind w : Nat) : State :=
  let x := s.world w
  let s := (s.beginTxn kind w).logWrite kind w (pagePA 1 w 0) x.stateWord (x.conf.toNat * 2 ^ 8 + 3)
  let s := s.logOpen kind w .commit
  let s := abandonCkpt s w
  let s := (s.bound w).foldl (fun s k => if (s.ctx w k).state = .dead then s else killCtx s w k) s
  let s := { s with
    launches := s.launches.map fun (e : Nat × Launch) =>
      if e.1 / 1024 = w then (e.1, { e.2 with lstate := .never }) else e
    remotes := s.remotes.filter fun r => r.world != w }
  let qs := s.queues.filterMap fun (e : Nat × Queue) => if e.2.owner = w then some e.1 else none
  let s := qs.foldl (fun s q => s.modQueue q fun x =>
    { x with order := [], cur := none, waiting := false, head := x.tail, fetch := none }) (s.logStep kind w 1)
  (s.logStep kind w 2).push .destroyComplete [w]

/-- Scrub every vault allocation of a world. -/
def scrubWorld (s : State) (w : Nat) : State :=
  ((tslice (w * 1024) 1024 s.launches).flatMap fun e => e.2.gangs.flatMap fun g =>
    g.2.allocs.map fun a => (a.1, a.2, g.2.size)).foldl (fun s a => scrubAlloc s w a.1 a.2.1 a.2.2) s

/-- A world page after its world is destroyed (R96): reset, but for WCMDCNT and WCMDSTAT. -/
def World.freed (x : World) : World := { World.zero with wcmdCnt := x.wcmdCnt, wcmdStat := x.wcmdStat }

/-- Step 5 of R92 for a function: its interfaces return to CONFIG_UNLOCKED and hold no packet, its MSI-X table, PBA and
coalescing words are cleared, and its cached translations go. -/
def resetFunction (s : State) (w : Nat) : State :=
  let qs := s.queues.filterMap fun (e : Nat × Queue) => if e.2.owner = w then some e.1 else none
  let s := qs.foldl (fun s q => wakePage (s.modQueue q fun x =>
    { x with istate := 0, nonce := none, order := [], cur := none, waiting := false, head := x.tail, fetch := none }) 0 2 q 0) s
  s.modFn w fun f => { f with vecs := [], fnMask := false, atc := [] }

/-- WRITEs of the ISTATE that a function's interfaces lose, in the open transaction of its reset (06 R123). -/
def logUnlock (s : State) (kind w : Nat) : State :=
  (s.queues.filter fun (e : Nat × Queue) => e.2.owner == w && e.2.istate != 0).foldl
    (fun s e => s.logOpen kind w fun id => .write id (pagePA 2 e.1 0) e.2.istate 0) s

/-- A function whose world is FREE is reset, as a transaction (06 R123). -/
def resetFree (s : State) (w : Nat) : State :=
  (resetFunction (logUnlock (s.beginTxn txReset w) txReset w) w).closeTxn txReset w

/-- The policy core makes world 0 (05): FMASK 0x1F, MRANGE0 all memory below the protected region, the first 2 MiB as
table region. It is ACTIVE once that memory is ready to hold the seed map. WCMDCNT and WCMDSTAT stay (R96). -/
def bootWorld0 (s : State) : State :=
  if s.core.up ∧ (s.world 0).wstate = 0 ∧ bit s.ready.mgrp 0 then
    let n := 6 * s.ready.grpBytes / 2 ^ 30 - 1
    let s := s.logOnce txCreate 0 [(pagePA 1 0 0, 0, 2)]
    let s := s.modWorld 0 fun x => { x with
      fmask := 0x1F, tregion := 0, ranges := [(0, n)] ++ List.replicate 7 (0, 0), wstate := 2,
      scrambler := Config.scramblerKey s.fresh }
    writeSeed { s with fresh := s.fresh + 1 } 0
  else s

/-- DESTROY_COMPLETE (R92 steps 3 to 5): once no host request of the function is outstanding. World 0 is made again by
the policy core, which alone can. -/
def destroyComplete (s : State) (w : Nat) : State :=
  if (s.world w).wstate ≠ 3 ∨ !(s.core.up || s.core.recovering) then s
  else if s.hreqs.any fun (e : Nat × HReq) => e.2.world == w && e.2.link.isNone then s
  else
    let kind := if (s.openTxn txDestroy w).isSome then txDestroy else txReset
    let s := (clearRecords (scrubWorld (s.logStep kind w 3) w) w).logStep kind w 4
    let s := (resetFunction (logUnlock s kind w) w).logStep kind w 5
    let s := s.logOpen kind w fun id => .write id (pagePA 1 w 0) (s.world w).stateWord 0
    let s := if kind = txDestroy then s.logStat kind w 0 else s
    let s := wakePage ((s.modWorld w World.freed).endTxn kind w) 0 1 w 0
    let s := if s.quantum.world = w ∧ w ≠ 0 then s.push .quantumEnd [] else s
    let s := if s.core.recovering then s.push .policyCoreRecovery [] else s
    if w = 0 then bootWorld0 s else s

/-- A WCMD store that the policy core performs (R99). -/
def wcmd (s : State) (w v who : Nat) : State :=
  let x := s.world w
  if w = 0 ∨ who ≠ 0 then wcmdResult s w 2
  else if x.wstate = 1 ∨ x.wstate = 3 then wcmdResult s w 1
  else match v with
    | 1 =>
      if x.wstate ≠ 0 then wcmdResult s w 1
      else
        let e := createCheck s w
        if e ≠ 0 then wcmdResult s w e else beginCreate (wcmdCount s w) w
    | 2 => if x.wstate ≠ 2 then wcmdResult s w 1 else beginDestroy (wcmdCount s w) txDestroy w
    | 3 =>
      if x.fnFrozen then
        let word := x.stateWord
        wcmdResult ((s.logOnce txUnfreeze w [(pagePA 1 w 0, word + 2 ^ 10, word)]).modWorld w fun x => { x with fnFrozen := false })
          w 0
      else wcmdResult s w 1
    | _ => wcmdResult s w 1

/-- CREATE w who (R99). -/
def execCreate (s : State) : Res := .next (s.serve fun s => wcmd s (s.arg 0) 1 (s.arg 1))
/-- CREATE_COMPLETE w (R99). -/
def execCreateComplete (s : State) : Res := .next (createComplete s (s.arg 0))
/-- DESTROY w who (R99). -/
def execDestroy (s : State) : Res := .next (s.serve fun s => wcmd s (s.arg 0) 2 (s.arg 1))
/-- DESTROY_COMPLETE w (R92). -/
def execDestroyComplete (s : State) : Res := .next (destroyComplete s (s.arg 0))
/-- UNFREEZE w who (R99). -/
def execUnfreeze (s : State) : Res := .next (s.serve fun s => wcmd s (s.arg 0) 3 (s.arg 1))
/-- WCMD_ZERO w who (R99). -/
def execWcmdZero (s : State) : Res := .next (s.serve fun s => wcmd s (s.arg 0) 0 (s.arg 1))

/-- A world's function is reset (R92): the effect of DESTROY on a world that exists; a FREE world has only its interfaces,
its vectors and its translations to lose. -/
def flr (s : State) (n : Nat) : State :=
  if (s.world n).wstate = 2 ∨ (s.world n).wstate = 1 then beginDestroy s txReset n
  else if (s.world n).wstate = 0 then resetFree s n else s

/-- A world is being switched in or out, and the switch's saves are not complete (R95). -/
def inSwitch (s : State) (n : Nat) : Bool :=
  match s.quantum.switch with
  | some (w, st) => (w == n || s.quantum.world == n) && st == 1
  | none => false

/-- VF_FLR n (R92, R95): in a world switch it waits for the saves. -/
def execVfFlr (s : State) : Res :=
  let n := s.arg 0
  .next (if n = 0 then s
    else s.serve fun s => if inSwitch s n then { s with quantum := { s.quantum with flrs := s.quantum.flrs ++ [n] } } else flr s n)

/-- What configuration a function loses when it is reset (R93). -/
def Fn.unconfigured (f : Fn) : Fn :=
  { f with master := false, atomics := false, pasidOn := false, atsOn := false, priOn := false, fnMask := false, prgs := 0
           aer := [] }

/-- Sessions and selective IDE streams are lost, and the configuration, the BARs and the SR-IOV setup are reset: with VF Enable every
VF disappears, so that its own configuration goes too (R93). A reset of a VF that waits ends (R95). -/
def resetConfig (s : State) : State :=
  { s with
    fns := s.fns.map fun (e : Nat × Fn) =>
      (e.1, { e.2.unconfigured with sessions := [], spdm := 0, selective := [], insecure := [], vecs := [], atc := [] })
    vfEnable := false, numVfs := 0, pfBars := [0, 0, 0], vfBars := [0, 0, 0], memOn := false, reads := []
    quantum := { s.quantum with flrs := [] } }

/-- Every world is destroyed, with its locks and its keys (R93). -/
def destroyAll (s : State) : State :=
  let s := (s.worlds.filterMap fun (e : Nat × World) => if e.2.wstate = 1 ∨ e.2.wstate = 2 then some e.1 else none).foldl
    (fun s w => beginDestroy s txReset w) s
  let free := (s.queues.map fun (e : Nat × Queue) => e.2.owner).eraseDups.filter fun w => (s.world w).wstate == 0
  free.foldl resetFree s

/-- The worlds of a reset are the policy core's part of it, which waits for the core (06 R125); the rest has happened. The event
with operand 1 stands for that part alone. -/
def resetWorlds (s : State) : State :=
  ({ s with ev := event s.ev.what [1] } : State).serve destroyAll

/-- PF_FLR (R93): the IDE link stream is kept. -/
def execPfFlr (s : State) : Res := .next (resetWorlds (if s.arg 0 = 0 then resetConfig s else s))
/-- HOT_RESET (R93): the IDE link stream is lost too. -/
def execHotReset (s : State) : Res :=
  .next (resetWorlds (if s.arg 0 = 0 then { resetConfig s with ideLink := false } else s))

/-- Outstanding host requests fail at once with the link, each as its own timeout would (R93, R86). -/
def dropRequests (s : State) : State :=
  let gone := fun (r : HReq) => r.link.isNone && r.posted && (r.dropped || r.ctx == 16384)
  let reads := s.hreqs.filter fun (e : Nat × HReq) => e.2.link.isNone && !e.2.posted
  unholdAll { s with
    hreqs := (s.hreqs.filter fun (e : Nat × HReq) => !gone e.2).map fun e =>
      if e.2.link.isSome then e else (e.1, { e.2 with asking := false, refused := e.2.posted })
    work := s.work ++ reads.map fun e => event .hostRequestTimeout [e.1] }

/-- LINK_DOWN (R93): as a hot reset, and outstanding host requests fail. -/
def execLinkDown (s : State) : Res :=
  .next (resetWorlds (if s.arg 0 = 0 then dropRequests { resetConfig s with ideLink := false } else s))

/-! ## Bring-up of world 0 (05, 01 R23) -/

/-- IOD_READY i failed (01 R23): I/O die 0 brings the policy core up, which verifies its firmware's signature; where that
fails (arg 1) the core does not serve, which is the model's choice (DESIGN CHOICE, assumption 65: R23 names no outcome). The
monitor pages of the die take their reset values (02 R41). -/
def execIodReady (s : State) : Res :=
  let i := s.arg 0
  .next (if bit s.ready.iod i then s
    else
      let s := s.readyEvent fun r => { r with iod := orBit r.iod i }
      let s := (List.range 4).foldl (fun s b => s.modMonit (160 + 4 * i + b) fun _ => Monit.zero) s
      if i = 0 ∧ s.arg 1 = 0 then bootWorld0 { s with core := { s.core with up := true, verified := true } } else s)

/-- MGRP_READY g (01 R24). -/
def execMgrpReady (s : State) : Res := .next (bootWorld0 (groupReady s (s.arg 0)))

/-! ## Frozen functions and peer links (05 R108, R109) -/

/-- IDE_INTEGRITY_FAILURE fn stream (R108): the function freezes; its interfaces go to ERROR, whatever their state. Their launches
are not killed, though R101 kills those of an interface that a violation takes out of RUN: this row says that contexts keep
running (DEDUCED, assumption 29). -/
def execIdeIntegrityFailure (s : State) : Res :=
  let n := s.arg 0
  let s := s.modFn n fun f => { f with insecure := f.insecure ++ [s.arg 1] }
  let s := wakePage (s.modWorld n fun x => { x with fnFrozen := true }) 0 1 n 0
  .next ((ownedQueues s n).foldl interfaceError s)

/-- An unauthorised inbound request freezes the link (R109). -/
def freezePeer (s : State) (n o : Nat) : State :=
  let s := s.modPeer n fun p => { p with pfrozen := true, violcnt := satInc 64 p.violcnt, violoff := o }
  let s := wakePage s 0 8 n 0
  let s := s.readyEvent fun r => { r with plink := setBit r.plink n false }
  unholdAll (loseRemotes { s with portPlink := setBit s.portPlink n false } n)

/-- What becomes of an inbound request of n bytes (R109). -/
inductive Inbound where
  | dead
  | bad
  | drop
  | table
  | ok (pa : Nat)
  deriving DecidableEq, Repr

/-- How a request is judged. A request that begins inside the window and INWORLD's ranges and ends outside them is taken as
unauthorised, where R109 tests o and the PA alone (DESIGN CHOICE, assumption 63). The ranges of a FREE INWORLD are its MRANGE
fields as world 0 has written them, which no CREATE has checked (DESIGN CHOICE, assumption 64: R109 says "INWORLD's
ranges"). -/
def inbound (s : State) (n o len : Nat) (write : Bool) : Inbound :=
  let p := s.peer n
  let pa := p.inbase * 4096 + o
  if p.pfrozen ∨ !bit s.ready.plink n then .dead
  else if !p.inen ∨ o + len > p.insize * 4096 ∨ !inRanges (s.world p.inworld) pa ∨
      !inRanges (s.world p.inworld) (pa + len - 1) then .bad
  else if !memReady s pa then .drop
  else if write && tableRange s pa len then .table
  else .ok pa

/-- An inbound write of a peer performs, or waits at its port; it is acknowledged once it has performed (01 R22, 10 R204). Where
the write queue is full (01 R19) or a strand's reservation holds the granule (15 R299), the request itself waits. -/
def inboundWrite (s : State) (n w pa id : Nat) (data : List Byte) : State :=
  let h : HeldW := { world := w, ctx := 16384, slot := keySlot s w, pa := pa, data := data, ack := some (n, id) }
  if queueFull s pa data.length || unitHeld s pa data.length then parkRequest s n s.ev
  else if writeWaits s pa data.length then postHeld s h
  else sendPeer (postHeld s h) n (.ack id)

/-- INBOUND_REMOTE_STORE n o size v id (R109): performed and acknowledged, or dropped and refused, or the link freezes. -/
def execInboundRemoteStore (s : State) : Res :=
  let n := s.arg 0
  let w := (s.peer n).inworld
  let id := s.arg 4
  .next (match inbound s n (s.arg 1) (s.arg 2) true with
    | .dead => s
    | .bad => freezePeer s n (s.arg 1)
    | .drop => sendPeer (dropInbound s n false) n (.refuse id)
    | .table => sendPeer (dropInbound s n true) n (.refuse id)
    | .ok pa =>
      if writeTagFails s (keySlot s w) pa (s.arg 2) then sendPeer (compromise s w) n (.refuse id)
      else inboundWrite s n w pa id (bytesOf (s.arg 2) (s.arg 3)))

/-- INBOUND_COPY_WRITE n o id; data (R109). -/
def execInboundCopyWrite (s : State) : Res :=
  let n := s.arg 0
  let w := (s.peer n).inworld
  let id := s.arg 2
  let d := s.ev.data.map (BitVec.ofNat 8)
  .next (if d.isEmpty then s else match inbound s n (s.arg 1) d.length true with
    | .dead => s
    | .bad => freezePeer s n (s.arg 1)
    | .drop => sendPeer (dropInbound s n false) n (.drop id)
    | .table => sendPeer (dropInbound s n true) n (.drop id)
    | .ok pa =>
      if writeTagFails s (keySlot s w) pa d.length then sendPeer (compromise s w) n (.drop id)
      else inboundWrite s n w pa id d)

/-- INBOUND_COPY_READ n o len id (R109): the data return on the response channel (01 R20), once no port keeps the read. A
line that fails is read by no strand and no engine; the request ends as a dropped one. -/
def execInboundCopyRead (s : State) : Res :=
  let n := s.arg 0
  let w := (s.peer n).inworld
  let len := s.arg 2
  let id := s.arg 3
  .next (if len = 0 then s else match inbound s n (s.arg 1) len false with
    | .dead => s
    | .bad => freezePeer s n (s.arg 1)
    | .drop => sendPeer (dropInbound s n false) n (.drop id)
    | .table => s
    | .ok pa =>
      if portBusy s pa len then parkRequest s n s.ev
      else if tagFails s (keySlot s w) pa len then sendPeer (compromise s w) n (.drop id)
      else sendPeer s n (.data id ((readBytes s (keySlot s w) pa len).map (·.toNat))))

/-- UNFREEZE of a peer link (R109): PLINK_READY is set again, unless the link has failed meanwhile. -/
def peerUnfreeze (s : State) (n : Nat) : State :=
  if !(s.peer n).pfrozen then s
  else
    let s := wakePage (s.modPeer n fun p => { p with pfrozen := false }) 0 8 n 0
    if (s.plink n).failed then s
    else unholdAll ({ s with portPlink := orBit s.portPlink n }.readyEvent fun r => { r with plink := orBit r.plink n })

/-- PLINK_UNFREEZE n (R109). -/
def execPlinkUnfreeze (s : State) : Res := .next (peerUnfreeze s (s.arg 0))

/-- A write of INEN and INWORLD (R109): a confidential world is refused. -/
def inworldWrite (s : State) (n v : Nat) : State :=
  let w := bits v 7 0
  s.modPeer n fun p => { p with
    inen := bit v 8, inworld := if (s.world w).conf ∧ (s.world w).wstate ≠ 0 then p.inworld else w }

/-- INWORLD_WRITE n v (R109). -/
def execInworldWrite (s : State) : Res := .next (inworldWrite s (s.arg 0) (s.arg 1))

/-- A remote store's answer arrives (10 R204, 08 R155); or that of a copy chunk's write (21 R385). -/
def remoteAnswer (s : State) (n id : Nat) (lost : Bool) : State :=
  match s.remotes.find? fun r => r.id == id && r.link == n with
  | some r => settleRemote s r lost
  | none => if s.hreqs.any fun (e : Nat × HReq) => e.1 == id then s.push .hostCompletion [id, (!lost).toNat] else s

/-- REMOTE_STORE_ACK n id (R204). -/
def execRemoteStoreAck (s : State) : Res := .next (remoteAnswer s (s.arg 0) (s.arg 1) false)
/-- REMOTE_STORE_REFUSAL n id (R155). -/
def execRemoteStoreRefusal (s : State) : Res := .next (remoteAnswer s (s.arg 0) (s.arg 1) true)

end Sys2Proof.Machine
end

