-- ==== Sys2Proof/Machine/Attest.lean ====
section
/-!
DEFINITION. The SPDM responder and the TDISP device interface on the mailboxes (05 R101, R103, R106; 08 R141). The
manual names the messages and not their layouts: a reply is a code and its values. Code 0 is the error response, code n
the answer to the n-th request of this file.
-/

namespace Sys2Proof.Machine

/-- A reply on a mailbox. -/
def State.answer (s : State) (mb code : Nat) (data : List Nat) : State := s.emit (.reply mb code data)

/-- A request reaches the responder only while the policy core runs: one that finds it restarting gets no response, and
the requester tries again (06 R125). -/
def served (s : State) (f : State → State) : Res := .next (if s.core.up then f s else s)

/-- The responder's progress must be at least n: 1 version, 2 capabilities, 3 algorithms. -/
def afterStep (s : State) (mb n : Nat) (f : State → State) : State :=
  if (s.fn mb).spdm < n then s.answer mb 0 [] else f s

/-- A secured session of a mailbox. -/
def secured (s : State) (mb sess : Nat) : Bool := (s.fn mb).sessions.any fun x => x.id == sess && x.secured

/-! ## SPDM (R103) -/

/-- GET_VERSION mb: SPDM 1.2 and 1.3; the exchange begins anew. -/
def execGetVersion (s : State) : Res :=
  served s fun s => (s.modFn (s.arg 0) fun f => { f with spdm := 1 }).answer (s.arg 0) 1 [0x12, 0x13]

/-- GET_CAPABILITIES mb: no mutual authentication and no PSK. -/
def execGetCapabilities (s : State) : Res :=
  served s fun s => afterStep s (s.arg 0) 1 fun s =>
    (s.modFn (s.arg 0) fun f => { f with spdm := Nat.max f.spdm 2 }).answer (s.arg 0) 2 [0, 0]

/-- NEGOTIATE_ALGORITHMS mb asym hash dhe aead: each operand is 1 when the requester offers the one supported choice
(RSAPSS_3072, SHA-256, FFDHE3072, AES-256-GCM). -/
def execNegotiateAlgorithms (s : State) : Res :=
  served s fun s => afterStep s (s.arg 0) 2 fun s =>
    if s.arg 1 = 1 ∧ s.arg 2 = 1 ∧ s.arg 3 = 1 ∧ s.arg 4 = 1 then
      (s.modFn (s.arg 0) fun f => { f with spdm := 3 }).answer (s.arg 0) 3 [1, 1, 1, 1]
    else s.answer (s.arg 0) 0 []

/-- GET_DIGESTS mb: the digest of slot 0's chain; other slots are empty. -/
def execGetDigests (s : State) : Res :=
  served s fun s => afterStep s (s.arg 0) 3 fun s => s.answer (s.arg 0) 4 [Config.sha256 Config.certificate]

/-- GET_CERTIFICATE mb slot: slot 0 alone holds a chain. -/
def execGetCertificate (s : State) : Res :=
  served s fun s => afterStep s (s.arg 0) 3 fun s =>
    if s.arg 1 = 0 then s.answer (s.arg 0) 5 Config.certificate else s.answer (s.arg 0) 0 []

/-- CHALLENGE mb slot nonce: signed with the device key. -/
def execChallenge (s : State) : Res :=
  served s fun s => afterStep s (s.arg 0) 3 fun s =>
    if s.arg 1 = 0 then s.answer (s.arg 0) 6 (Config.signature [s.arg 2]) else s.answer (s.arg 0) 0 []

/-- Word 0x000 of a world page (R96). -/
def World.word0 (x : World) : Nat :=
  x.wstate + x.conf.toNat * 2 ^ 8 + x.compromised.toNat * 2 ^ 9 + x.fnFrozen.toNat * 2 ^ 10

/-- Word 0x018. -/
def World.word18 (x : World) : Nat := x.confreq.toNat + x.zeroFill.toNat * 2 + x.fmask % 32 * 2 ^ 8

/-- Word 0x058. -/
def World.word58 (x : World) : Nat :=
  x.plgnt % 2 ^ 16 + x.pwingnt % 2 ^ 16 * 2 ^ 16 + x.readygnt.toNat * 2 ^ 33 + x.hostwin.toNat * 2 ^ 34

/-- Word 0x080 + 8k. -/
def rangeWord (r : Nat × Nat) : Nat := r.1 % 2 ^ 13 + r.2 % 2 ^ 16 * 2 ^ 32

/-- Measurement block 4 (R103): words 0x000, 0x018, 0x020, 0x030 to 0x058, 0x080 to 0x0B8 of the function's page. -/
def measure4 (x : World) : List Nat :=
  [x.word0, x.word18, x.tregion * 2 ^ 21, bits x.pwrgnt 63 0, bits x.pwrgnt 79 64, bits x.mongnt 63 0,
    bits x.mongnt 127 64, bits x.mongnt 167 128, x.word58] ++ x.ranges.map rangeWord

/-- GET_MEASUREMENTS mb idx. -/
def execGetMeasurements (s : State) : Res :=
  served s fun s => afterStep s (s.arg 0) 3 fun s =>
    let i := s.arg 1
    if i = 4 then s.answer (s.arg 0) 7 (measure4 (s.world (s.arg 0)))
    else if 1 ≤ i ∧ i ≤ 3 then s.answer (s.arg 0) 7 (Config.measurement i)
    else s.answer (s.arg 0) 0 []

/-- KEY_EXCHANGE mb share: up to four sessions; the session takes the lowest free number. -/
def execKeyExchange (s : State) : Res :=
  served s fun s => afterStep s (s.arg 0) 3 fun s =>
    let mb := s.arg 0
    match (List.range 4).find? fun i => !((s.fn mb).sessions.any (fun x => x.id == i)) with
    | none => s.answer mb 0 []
    | some i =>
      ({ s with fresh := s.fresh + 1 }.modFn mb fun f =>
        { f with sessions := f.sessions ++ [Session.mk i false 0] }).answer mb 8
          [i, Config.keyShare s.fresh]

/-- FINISH mb sess ok: the session is secured, or it ends. -/
def execFinish (s : State) : Res :=
  served s fun s =>
    let mb := s.arg 0
    let i := s.arg 1
    if !((s.fn mb).sessions.any (fun x => x.id == i && !x.secured)) then s.answer mb 0 []
    else if s.arg 2 = 0 then
      (s.modFn mb fun f => { f with sessions := f.sessions.filter fun x => x.id != i }).answer mb 0 []
    else
      (s.modFn mb fun f => { f with sessions := f.sessions.map fun x =>
        if x.id = i then { x with secured := true } else x }).answer mb 9 [i]

/-- KEY_UPDATE mb sess: the session's keys advance. -/
def execKeyUpdate (s : State) : Res :=
  served s fun s =>
    let mb := s.arg 0
    let i := s.arg 1
    if secured s mb i then
      (s.modFn mb fun f => { f with sessions := f.sessions.map fun x =>
        if x.id = i then { x with keys := x.keys + 1 } else x }).answer mb 10 [s.arg 1]
    else s.answer mb 0 []

/-- END_SESSION mb sess. -/
def execEndSession (s : State) : Res :=
  served s fun s =>
    let mb := s.arg 0
    if secured s mb (s.arg 1) then
      (s.modFn mb fun f => { f with sessions := f.sessions.filter fun x => x.id != s.arg 1 }).answer mb 11 [s.arg 1]
    else s.answer mb 0 []

/-! ## TDISP (R101) -/

/-- A TDISP request is accepted in a secured session on the mailbox of the interface's function or of the PF. -/
def tdisp (s : State) (f : State → State) : Res :=
  served s fun s =>
    let mb := s.arg 0
    if secured s mb (s.arg 1) ∧ (mb = 0 ∨ mb = (s.queue (s.arg 2)).owner) then f s else s.answer mb 0 []

/-- LOCK_INTERFACE_REQUEST mb sess q: CONFIG_UNLOCKED to CONFIG_LOCKED, with a start nonce, where the translation context may
be assigned (R100). -/
def execLockInterfaceRequest (s : State) : Res :=
  tdisp s fun s =>
    let q := s.arg 2
    if (s.queue q).istate = 0 ∧ lockable s (s.queue q) then
      let n := Config.startNonce s.fresh
      ((interfaceTo { s with fresh := s.fresh + 1 } txTdisp q 1).modQueue q fun x => { x with nonce := some n }).answer
        (s.arg 0) 12 [n]
    else s.answer (s.arg 0) 0 []

/-- START_INTERFACE_REQUEST mb sess q nonce: with the nonce, CONFIG_LOCKED to RUN. -/
def execStartInterfaceRequest (s : State) : Res :=
  tdisp s fun s =>
    let q := s.arg 2
    if (s.queue q).istate = 1 ∧ (s.queue q).nonce = some (s.arg 3) then
      ((interfaceTo s txTdisp q 2).modQueue q fun x => { x with nonce := none }).answer (s.arg 0) 13 []
    else s.answer (s.arg 0) 0 []

/-- STOP_INTERFACE_REQUEST mb sess q: from any state to CONFIG_UNLOCKED. -/
def execStopInterfaceRequest (s : State) : Res :=
  tdisp s fun s =>
    let q := s.arg 2
    (stopInterface (s.logOnce txTdisp q [(pagePA 2 q 0, (s.queue q).istate, 0)]) q).answer (s.arg 0) 14 []

/-- GET_DEVICE_INTERFACE_REPORT mb sess q: the world, the queue page, the launch register, CONF and FMASK. -/
def execGetDeviceInterfaceReport (s : State) : Res :=
  tdisp s fun s =>
    let q := s.arg 2
    let x := s.queue q
    if x.istate = 3 then s.answer (s.arg 0) 0 []
    else s.answer (s.arg 0) 15
      [x.owner, pagePA 2 q 0, q * 64, (s.world x.owner).conf.toNat, (s.world x.owner).fmask]

/-- GET_DEVICE_INTERFACE_STATE mb sess q. -/
def execGetDeviceInterfaceState (s : State) : Res :=
  tdisp s fun s =>
    if (s.queue (s.arg 2)).istate = 3 then s.answer (s.arg 0) 0 []
    else s.answer (s.arg 0) 16 [(s.queue (s.arg 2)).istate]

/-! ## Vendor-defined requests -/

/-- SET_STREAM_KEY mb sess stream key (R106): installs the key and resets the stream's floor. On the mailbox of a function
whose world is not ACTIVE the request is answered with an error and installs nothing (DESIGN CHOICE, assumption 66: R106 says
nothing of such a mailbox). -/
def execSetStreamKey (s : State) : Res :=
  served s fun s =>
    let mb := s.arg 0
    if secured s mb (s.arg 1) ∧ s.arg 2 < 256 ∧ (s.world mb).wstate = 2 then
      let old := (tget (0, 0) (s.world mb).streams (s.arg 2)).1
      ((s.logOnce txKeys mb [(corePA s (keyAt mb (s.arg 2)), old, s.arg 3)]).modWorld mb fun x =>
        { x with streams := tset (s.arg 2) (s.arg 3, 0) x.streams }).answer mb 17 []
    else s.answer mb 0 []

/-- An entry of the quantum table as a doubleword (08 R141). -/
def entryWord (e : Nat × Nat) : Nat := e.1 + e.2 * 2 ^ 32

/-- An entry of the quantum table that may stand (08 R141). -/
def quantumEntryOk (e : Nat) : Bool :=
  decide (bits e 7 0 ≤ 128) && decide (1000 ≤ bits e 63 32) && bits e 31 8 == 0

/-- SET_QUANTUM_TABLE mb sess n; data: entries (08 R141): takes effect at the next quantum boundary. -/
def execSetQuantumTable (s : State) : Res :=
  served s fun s =>
    let mb := s.arg 0
    let n := s.arg 2
    let es := s.ev.data
    if mb = 0 ∧ secured s mb (s.arg 1) ∧ 1 ≤ n ∧ n ≤ 256 ∧ es.length = n ∧ es.all quantumEntryOk then
      let s := s.logOnce txTable 0 ((List.range n).map fun j =>
        (corePA s (entryAt j), entryWord (nth (0, 0) (s.quantum.next.getD s.quantum.table) j), nth 0 es j))
      { s with quantum := { s.quantum with next := some (es.map fun e => (bits e 7 0, bits e 63 32)) } }.answer mb 18 []
    else s.answer mb 0 []

/-- GET_QUANTUM_TABLE mb sess (08 R141): the table in force. -/
def execGetQuantumTable (s : State) : Res :=
  served s fun s =>
    let mb := s.arg 0
    if mb = 0 ∧ secured s mb (s.arg 1) then
      s.answer mb 19 (s.quantum.table.map entryWord)
    else s.answer mb 0 []

end Sys2Proof.Machine
end

