-- ==== Sys2Proof/Machine/Flags.lean ====
section
/-!
DEFINITION. Number formats, rounding and the sticky flags (12 R227-R242): every value is exact until it is rounded
once, and every operation answers its bits and the flags it raises.
-/

namespace Sys2Proof.Machine

/-! ## Element types by code (R227) -/

/-- Width of an element in bits; an fp4 block counts as 64, its two slots. -/
def tyWidth : Nat → Nat
  | 0 | 1 | 12 | 13 => 8
  | 2 | 3 | 8 | 9 => 16
  | 4 | 5 | 10 => 32
  | _ => 64

/-- Types that use the register pair v2n, v2n+1. -/
def tyPair (t : Nat) : Bool := t == 6 || t == 7 || t == 11 || t == 14

def tyInt (t : Nat) : Bool := decide (t < 8)
def tySigned (t : Nat) : Bool := decide (t < 8) && t % 2 == 0
def tyFloat (t : Nat) : Bool := decide (8 ≤ t) && decide (t < 14)

/-- A binary format: fraction bits, bias, exponent of the largest finite value and its fraction (R229, R231, R233). -/
structure Fmt where
  mant : Nat
  bias : Nat
  expo : Nat
  maxE : Nat
  maxF : Nat
  deriving DecidableEq, Repr

/-- The format of a type code; 14 is one FP4 code. -/
def fmtOf : Nat → Fmt
  | 8 => { mant := 10, bias := 15, expo := 5, maxE := 30, maxF := 1023 }
  | 9 => { mant := 7, bias := 127, expo := 8, maxE := 254, maxF := 127 }
  | 10 => { mant := 23, bias := 127, expo := 8, maxE := 254, maxF := 2 ^ 23 - 1 }
  | 11 => { mant := 52, bias := 1023, expo := 11, maxE := 2046, maxF := 2 ^ 52 - 1 }
  | 12 => { mant := 3, bias := 7, expo := 4, maxE := 15, maxF := 6 }
  | 13 => { mant := 2, bias := 15, expo := 5, maxE := 30, maxF := 3 }
  | _ => { mant := 1, bias := 1, expo := 2, maxE := 3, maxF := 1 }

/-- Canonical NaN (R229). -/
def canonNaN : Nat → Nat
  | 8 => 0x7E00 | 9 => 0x7FC0 | 10 => 0x7FC00000 | 11 => 0x7FF8000000000000 | 12 => 0x7F | _ => 0x7E

/-- A floating-point value: NaN (signalling or not), infinity, or (-1)^neg × m × 2^e. -/
inductive Fp where
  | nan (sig : Bool)
  | inf (neg : Bool)
  | fin (neg : Bool) (m : Nat) (e : Int)
  deriving DecidableEq, Repr

/-- The value of the bits of a type (R229, R231, R233). -/
def fpOf (t v : Nat) : Fp :=
  let f := fmtOf t
  let frac := v % 2 ^ f.mant
  let ex := v / 2 ^ f.mant % 2 ^ f.expo
  let neg := bit v (f.mant + f.expo)
  if t = 12 ∧ ex = 15 ∧ frac = 7 then .nan false
  else if t ≠ 12 ∧ t ≠ 14 ∧ ex = 2 ^ f.expo - 1 then
    (if frac = 0 then .inf neg else .nan (!bit v (f.mant - 1)))
  else if ex = 0 then .fin neg frac (1 - (f.bias : Int) - f.mant)
  else .fin neg (2 ^ f.mant + frac) ((ex : Int) - f.bias - f.mant)

/-! ## Flags (R238) -/

def NV : Nat := 16
def DZ : Nat := 8
def OF : Nat := 4
def UF : Nat := 2
def NX : Nat := 1

/-! ## Rounding (R237) -/

/-- An exact magnitude m × 2^-sh (with a tail below when sticky) brought to an integer under a mode; whether that
changed it. -/
def roundInt (rm : Nat) (neg : Bool) (m sh : Nat) (sticky : Bool) : Nat × Bool :=
  let q := m / 2 ^ sh
  let r := m % 2 ^ sh
  let inexact := r != 0 || sticky
  let half := 2 ^ (sh - 1)
  let above := decide (sh ≠ 0) && (decide (half < r) || (r == half && sticky))
  let tie := decide (sh ≠ 0) && r == half && !sticky
  let up := match rm with
    | 0 => above || (tie && q % 2 == 1)
    | 1 => false
    | 2 => neg && inexact
    | 3 => !neg && inexact
    | _ => above || tie
  (if up then q + 1 else q, inexact)

/-- m × 2^e brought to a multiple of 2^q: the multiple, and whether that changed it. -/
def roundAt (rm : Nat) (neg : Bool) (m : Nat) (e q : Int) (sticky : Bool) : Nat × Bool :=
  if q ≤ e then (m * 2 ^ (e - q).toNat, sticky) else roundInt rm neg m (q - e).toNat sticky

/-- n × 2^q encoded; n is at most 2^(mant+1), and below 2^mant only at the smallest exponent. -/
def encodeFin (t : Nat) (neg : Bool) (n : Nat) (q : Int) : Nat :=
  let f := fmtOf t
  let s := neg.toNat * 2 ^ (f.mant + f.expo)
  if n < 2 ^ f.mant then s + n
  else if n = 2 ^ (f.mant + 1) then s + (q + 1 + f.mant + f.bias).toNat * 2 ^ f.mant
  else s + (q + f.mant + f.bias).toNat * 2 ^ f.mant + (n - 2 ^ f.mant)

/-- Largest finite value, with a sign. -/
def maxFinite (t : Nat) (neg : Bool) : Nat :=
  let f := fmtOf t
  neg.toNat * 2 ^ (f.mant + f.expo) + f.maxE * 2 ^ f.mant + f.maxF

/-- Infinity, with a sign. -/
def infOf (t : Nat) (neg : Bool) : Nat :=
  let f := fmtOf t
  neg.toNat * 2 ^ (f.mant + f.expo) + (2 ^ f.expo - 1) * 2 ^ f.mant

/-- What an overflow gives (R237, R232, R233). -/
def overflowOf (t rm : Nat) (sat neg : Bool) : Nat :=
  let signed := neg.toNat * 2 ^ ((fmtOf t).mant + (fmtOf t).expo)
  if t = 14 then maxFinite t neg
  else if t = 12 then (if sat then maxFinite t neg else signed + 0x7F)
  else if t = 13 ∧ sat then maxFinite t neg
  else match rm with
    | 1 => maxFinite t neg
    | 2 => if neg then infOf t true else maxFinite t false
    | 3 => if neg then maxFinite t true else infOf t false
    | _ => infOf t neg

/-- Number of bits of a magnitude. -/
def bitLen (m : Nat) : Nat := if m = 0 then 0 else Nat.log2 m + 1

/-- Round a finite exact value to a type (R237): bits and flags. A sticky value has a tail below m, and m then has
more bits than any type. -/
def roundFin (t rm : Nat) (sat neg : Bool) (m : Nat) (e : Int) (sticky : Bool) : Nat × Nat :=
  let f := fmtOf t
  let emin : Int := 1 - (f.bias : Int)
  let qmin : Int := emin - f.mant
  if m = 0 ∧ !sticky then (neg.toNat * 2 ^ (f.mant + f.expo), 0)
  else
    let qu : Int := e + bitLen m - (f.mant + 1)
    let u := roundAt rm neg m e qu sticky
    let maxM := 2 ^ f.mant + f.maxF
    let maxQ : Int := (f.maxE : Int) - f.bias - f.mant
    let beyond := if qu ≥ maxQ then decide (maxM < u.1 * 2 ^ (qu - maxQ).toNat)
      else decide (maxM * 2 ^ (maxQ - qu).toNat < u.1)
    if beyond then (overflowOf t rm sat neg, OF + NX)
    else
      let q := max qu qmin
      let r := roundAt rm neg m e q sticky
      let tiny := if qu ≥ qmin then decide (u.1 * 2 ^ (qu - qmin).toNat < 2 ^ f.mant)
        else decide (u.1 < 2 ^ f.mant * 2 ^ (qmin - qu).toNat)
      (encodeFin t neg r.1 q, if r.2 then (if tiny then UF + NX else NX) else 0)

/-- Infinity to a type (R232). -/
def roundInf (t : Nat) (sat neg : Bool) : Nat × Nat :=
  if t = 12 then (if sat then (maxFinite 12 neg, 0) else (neg.toNat * 128 + 0x7F, NV))
  else if t = 13 ∧ sat then (maxFinite 13 neg, 0)
  else (infOf t neg, 0)

/-- A result that is NaN, with NV when it is invalid. -/
def nanOut (t : Nat) (nv : Bool) : Nat × Nat := (canonNaN t, if nv then NV else 0)

/-- Round any value to a type. -/
def roundFp (t rm : Nat) (sat : Bool) : Fp → Nat × Nat
  | .nan sig => nanOut t sig
  | .inf neg => roundInf t sat neg
  | .fin neg m e => roundFin t rm sat neg m e false

/-! ## Arithmetic (R229, R237, R238) -/

def Fp.sig : Fp → Bool
  | .nan s => s
  | _ => false

def Fp.isNaN : Fp → Bool
  | .nan _ => true
  | _ => false

/-- A finite value as an exact multiple of 2^e, for e no higher than its own exponent. -/
def scaleTo (neg : Bool) (m : Nat) (e0 e : Int) : Int :=
  let v : Int := (m * 2 ^ (e0 - e).toNat : Nat)
  if neg then -v else v

/-- The exact sum of two finite values; the sign of an exact zero as R237 gives. -/
def addFin (rm : Nat) (na : Bool) (ma : Nat) (ea : Int) (nb : Bool) (mb : Nat) (eb : Int) : Fp :=
  let e := min ea eb
  let v := scaleTo na ma ea e + scaleTo nb mb eb e
  if v = 0 then .fin (if na = nb then na else rm == 2) 0 e
  else .fin (decide (v < 0)) v.natAbs e

/-- Sum: the exact value and the flags that are not those of rounding. -/
def addExact (rm : Nat) (a b : Fp) : Fp × Nat :=
  let nv := if a.sig || b.sig then NV else 0
  match a, b with
  | .nan _, _ => (.nan false, nv)
  | _, .nan _ => (.nan false, nv)
  | .inf x, .inf y => if x = y then (.inf x, 0) else (.nan false, NV)
  | .inf x, _ => (.inf x, 0)
  | _, .inf y => (.inf y, 0)
  | .fin na ma ea, .fin nb mb eb => (addFin rm na ma ea nb mb eb, 0)

/-- The exact product, and NV. R238 names 0 × ∞ of an FMA; that of VMUL raises NV too (DEDUCED, assumption 92). -/
def mulExact (a b : Fp) : Fp × Nat :=
  let nv := if a.sig || b.sig then NV else 0
  match a, b with
  | .nan _, _ => (.nan false, nv)
  | _, .nan _ => (.nan false, nv)
  | .inf x, .inf y => (.inf (x != y), 0)
  | .inf x, .fin y m _ => if m = 0 then (.nan false, NV) else (.inf (x != y), 0)
  | .fin x m _, .inf y => if m = 0 then (.nan false, NV) else (.inf (x != y), 0)
  | .fin na ma ea, .fin nb mb eb => (.fin (na != nb) (ma * mb) (ea + eb), 0)

/-- Round an exact result and join its flags. -/
def finish (t rm : Nat) (sat : Bool) (r : Fp × Nat) : Nat × Nat :=
  let v := roundFp t rm sat r.1
  (v.1, Nat.lor v.2 r.2)

def Fp.neg : Fp → Fp
  | .nan s => .nan s
  | .inf n => .inf (!n)
  | .fin n m e => .fin (!n) m e

def fAdd (t rm : Nat) (sat : Bool) (a b : Nat) : Nat × Nat := finish t rm sat (addExact rm (fpOf t a) (fpOf t b))
def fSub (t rm : Nat) (sat : Bool) (a b : Nat) : Nat × Nat := finish t rm sat (addExact rm (fpOf t a) (fpOf t b).neg)
def fMul (t rm : Nat) (sat : Bool) (a b : Nat) : Nat × Nat := finish t rm sat (mulExact (fpOf t a) (fpOf t b))

/-- ±(a × b) ± c with one rounding. -/
def fFma (t rm : Nat) (sat np nc : Bool) (a b c : Nat) : Nat × Nat :=
  let p := mulExact (fpOf t a) (fpOf t b)
  let pv := if np then p.1.neg else p.1
  let cv := if nc then (fpOf t c).neg else fpOf t c
  let r := addExact rm pv cv
  let v := roundFp t rm sat r.1
  (v.1, Nat.lor v.2 (Nat.lor r.2 p.2))

/-- Quotient (R238: DZ for a finite nonzero number over zero). 0/0 and ∞/∞, for which R333 points to R238, raise NV (DEDUCED,
assumption 92). -/
def fDiv (t rm : Nat) (sat : Bool) (a b : Nat) : Nat × Nat :=
  let x := fpOf t a
  let y := fpOf t b
  match x, y with
  | .nan _, _ => nanOut t (x.sig || y.sig)
  | _, .nan _ => nanOut t (x.sig || y.sig)
  | .inf _, .inf _ => nanOut t true
  | .inf n, .fin o _ _ => roundInf t sat (n != o)
  | .fin n _ _, .inf o => roundFin t rm sat (n != o) 0 0 false
  | .fin n ma ea, .fin o mb eb =>
    if mb = 0 then
      (if ma = 0 then nanOut t true
       else let r := roundInf t sat (n != o); (r.1, Nat.lor DZ r.2))
    else
      let k := 80 + bitLen mb
      let q := ma * 2 ^ k / mb
      roundFin t rm sat (n != o) q (ea - eb - k) (ma * 2 ^ k % mb != 0)

/-- Integer square root, bit by bit from bit n down. -/
def isqrt (v : Nat) : Nat → Nat → Nat
  | 0, r => if (r + 1) * (r + 1) ≤ v then r + 1 else r
  | n + 1, r => isqrt v n (if (r + 2 ^ (n + 1)) * (r + 2 ^ (n + 1)) ≤ v then r + 2 ^ (n + 1) else r)

def fSqrt (t rm : Nat) (sat : Bool) (a : Nat) : Nat × Nat :=
  match fpOf t a with
  | .nan s => nanOut t s
  | .inf n => if n then nanOut t true else roundInf t sat false
  | .fin n m e =>
    if m = 0 then roundFin t rm sat n 0 0 false
    else if n then nanOut t true
    else
      let odd := (e % 2 != 0)
      let m2 := (if odd then 2 * m else m) * 2 ^ 160
      let e2 : Int := ((if odd then e - 1 else e) - 160) / 2
      let r := isqrt m2 (bitLen m2 / 2 + 1) 0
      roundFin t rm sat false r e2 (r * r != m2)

/-! ## Comparison (R240) -/

/-- Order of two numbers that are not NaN: less, equal, greater as -1, 0, 1; -0 equals +0. -/
def fOrder (a b : Fp) : Int :=
  match a, b with
  | .inf x, .inf y => if x = y then 0 else if x then -1 else 1
  | .inf x, _ => if x then -1 else 1
  | _, .inf y => if y then 1 else -1
  | .fin na ma ea, .fin nb mb eb =>
    let e := min ea eb
    let d := scaleTo na ma ea e - scaleTo nb mb eb e
    if d < 0 then -1 else if d = 0 then 0 else 1
  | _, _ => 0

/-- The comparisons EQ, NE, LT, LE, GT, GE, UO by number 0 to 6: truth and flags. -/
def fCompare (op t a b : Nat) : Bool × Nat :=
  let x := fpOf t a
  let y := fpOf t b
  let un := x.isNaN || y.isNaN
  let sg := if x.sig || y.sig then NV else 0
  let o := fOrder x y
  match op with
  | 0 => (!un && o == 0, sg)
  | 1 => (un || o != 0, sg)
  | 2 => (!un && o == -1, if un then NV else 0)
  | 3 => (!un && o != 1, if un then NV else 0)
  | 4 => (!un && o == 1, if un then NV else 0)
  | 5 => (!un && o != -1, if un then NV else 0)
  | _ => (un, sg)

/-- Sign bit of an element of a floating type. -/
def signBit (t v : Nat) : Bool := bit v ((fmtOf t).mant + (fmtOf t).expo)

/-- Minimum or maximum (R240): -0 orders below +0, one NaN gives way, two give the canonical NaN. -/
def fMinMax (wantMax : Bool) (t a b : Nat) : Nat × Nat :=
  let x := fpOf t a
  let y := fpOf t b
  let fl := if x.sig || y.sig then NV else 0
  if x.isNaN && y.isNaN then (canonNaN t, fl)
  else if x.isNaN then (b, fl)
  else if y.isNaN then (a, fl)
  else
    let o := fOrder x y
    let aLess := o == -1 || (o == 0 && signBit t a && !signBit t b)
    (if aLess != wantMax then a else b, fl)

/-! ## Conversion (R242) -/

def tyMax (t : Nat) : Int := if tySigned t then 2 ^ (tyWidth t - 1) - 1 else 2 ^ tyWidth t - 1
def tyMin (t : Nat) : Int := if tySigned t then -(2 ^ (tyWidth t - 1)) else 0

/-- The value of an integer element. -/
def intOf (t v : Nat) : Int := if tySigned t then toSigned (tyWidth t) v else ((v % 2 ^ tyWidth t : Nat) : Int)

/-- An exact integer brought to a type: wrapped, or clamped (R240). -/
def intTo (t : Nat) (sat : Bool) (v : Int) : Nat :=
  ofSigned (tyWidth t) (if sat then max (tyMin t) (min (tyMax t) v) else v)

/-- Floating to integer (R242). -/
def fToInt (src dst rm v : Nat) : Nat × Nat :=
  match fpOf src v with
  | .nan _ => (ofSigned (tyWidth dst) (tyMax dst), NV)
  | .inf n => (ofSigned (tyWidth dst) (if n then tyMin dst else tyMax dst), NV)
  | .fin n m e =>
    let r := roundAt rm n m e 0 false
    let x : Int := if n then -(r.1 : Int) else r.1
    if x > tyMax dst then (ofSigned (tyWidth dst) (tyMax dst), NV)
    else if x < tyMin dst then (ofSigned (tyWidth dst) (tyMin dst), NV)
    else (ofSigned (tyWidth dst) x, if r.2 then NX else 0)

/-- Integer to floating (R242). -/
def intToF (src dst rm : Nat) (sat : Bool) (v : Nat) : Nat × Nat :=
  let x := intOf src v
  roundFin dst rm sat (decide (x < 0)) x.natAbs 0 false

/-- Floating to floating. -/
def fToF (src dst rm : Nat) (sat : Bool) (v : Nat) : Nat × Nat := roundFp dst rm sat (fpOf src v)

/-! ## Scales (R234, R235) -/

/-- An E3M5 block scale as m × 2^e; none: the NaN scale. -/
def scaleOf (b : Nat) : Option (Nat × Int) :=
  if b = 0xFF then none
  else if bits b 7 5 = 0 then some (bits b 4 0, -7) else some (32 + bits b 4 0, (bits b 7 5 : Int) - 8)

end Sys2Proof.Machine
end

