-- ==== Sys2Proof/Machine/Operands.lean ====
section
/-!
DEFINITION. Operand forms: elements of vector registers, predicate bits, the mode of a convoy and its active
elements (12 R227, R228, R236; 09 R160-R162; 13 R252, R253), queue and length-queue registers (09 R167).
-/

namespace Sys2Proof.Machine

/-! ## Scalar immediates (15 R286) -/

/-- A 12-bit immediate, sign-extended. -/
def imm12 (imm : Nat) : Word := sext 12 imm
/-- A 13-bit branch offset, sign-extended. -/
def imm13 (off : Nat) : Word := sext 13 off
/-- A 21-bit jump offset, sign-extended. -/
def imm21 (off : Nat) : Word := sext 21 off
/-- The upper immediate. -/
def immU (imm : Nat) : Word := sext 32 (imm * 4096)

/-- The address of a load or store: x[rs1] + sext(imm) (15 R288). -/
def memAddr (s : State) (rs1 imm : Nat) : Nat := (s.rx rs1 + imm12 imm).toNat

/-! ## Vector registers -/

def Strand.slot (t : Strand) (n i : Nat) : Nat := (tget 0 t.v (n * 4096 + i)).toNat
def Strand.setSlot (t : Strand) (n i v : Nat) : Strand :=
  { t with v := tput 0 (n * 4096 + i) (BitVec.ofNat 32 v) t.v }

/-- The raw bits of element i: the low bits of its slot, or both slots of a pair, v2n lowest (R228). -/
def Strand.elem (t : Strand) (ty n i : Nat) : Nat :=
  if tyPair ty then t.slot n i + t.slot (n + 1) i * 2 ^ 32 else t.slot n i % 2 ^ tyWidth ty

/-- A narrow element in its slot: i8 and i16 sign-extended, every other zero-extended (R228). -/
def slotOfElem (ty v : Nat) : Nat :=
  if ty = 0 ∨ ty = 2 then (sext (tyWidth ty) v).toNat % 2 ^ 32 else v % 2 ^ tyWidth ty

def Strand.setVv (t : Strand) (i : Nat) (b : Bool) : Strand := { t with vv := tput false i b t.vv }

/-- Write element i; a written fp4 block becomes valid (R236). -/
def Strand.setElem (t : Strand) (ty n i v : Nat) : Strand :=
  if tyPair ty then
    let t := (t.setSlot n i (v % 2 ^ 32)).setSlot (n + 1) i (v / 2 ^ 32 % (if ty = 14 then 256 else 2 ^ 32))
    if ty = 14 then t.setVv i true else t
  else t.setSlot n i (slotOfElem ty v)

/-- A loaded block: its codes, its scale, and its validity (R236, 19 R368). -/
def Strand.setBlock (t : Strand) (n i codes scale : Nat) : Strand :=
  ((t.setSlot n i (codes % 2 ^ 32)).setSlot (n + 1) i (scale % 256)).setVv i (scale % 256 != 0xFF)

def Strand.pbit (t : Strand) (n i : Nat) : Bool := tget false t.p (n * 4096 + i)
def Strand.setP (t : Strand) (n i : Nat) (b : Bool) : Strand := { t with p := tput false (n * 4096 + i) b t.p }
def Strand.vvbit (t : Strand) (i : Nat) : Bool := tget false t.vv i

/-! ## The mode of a convoy (R161, R253) -/

structure Mode where
  guard : Nat
  gneg  : Bool
  etype : Nat
  rm    : Nat
  sat   : Bool
  tb    : Nat
  deriving DecidableEq, Repr

/-- The mode that a CVY word sets. -/
def modeOf (head : Nat) : Mode :=
  match decodeWord head with
  | .ok (.cvy _ guard gneg etype rm sat tb) =>
    { guard := guard, gneg := gneg == 1, etype := etype, rm := rm, sat := sat == 1, tb := tb }
  | _ => { guard := 31, gneg := false, etype := 5, rm := 0, sat := false, tb := 0 }

/-- The guard admits element i. -/
def Strand.admits (t : Strand) (m : Mode) (i : Nat) : Bool :=
  m.guard == 31 || (t.pbit m.guard i != m.gneg)

/-- Element i is active: below VL, admitted, and for fp4 a valid block (00 R9, 12 R236). -/
def Strand.active (t : Strand) (m : Mode) (vl i : Nat) : Bool :=
  decide (i < vl) && t.admits m i && (m.etype != 14 || t.vvbit i)

/-! ## Queue and length-queue registers (R167-R169) -/

def Strand.qget (t : Strand) (n : Nat) : List Word := tget [] t.q n
def Strand.qput (t : Strand) (n : Nat) (l : List Word) : Strand := { t with q := tput [] n l t.q }
def Strand.lqget (t : Strand) (n : Nat) : List Nat := tget [] t.lq n
def Strand.lqput (t : Strand) (n : Nat) (l : List Nat) : Strand := { t with lq := tput [] n l t.lq }

end Sys2Proof.Machine
end

