-- ==== Sys2Proof/Machine/Ports.lean ====
section
/-!
DEFINITION. Updates at the port that owns their location (10 R189, R190): atomics, store-conditionals, vector
atomics and barrier operations, each one read-modify-write; their results and the sundog table (11 R219-R221;
15 R292, R297; 19 R364; 21 R388-R390).
-/

namespace Sys2Proof.Machine

/-! ## New values -/

/-- The value that an AMO stores at its width in bytes (15 R292). -/
def amoNew (f5 width old b : Nat) : Nat :=
  let w := 8 * width
  let t := old % 2 ^ w
  let b := b % 2 ^ w
  let ti := toSigned w t
  let bi := toSigned w b
  match f5 with
  | 0x00 => (t + b) % 2 ^ w
  | 0x04 => Nat.xor t b
  | 0x0C => Nat.land t b
  | 0x08 => Nat.lor t b
  | 0x10 => if ti ≤ bi then t else b
  | 0x14 => if ti ≤ bi then b else t
  | 0x18 => if t ≤ b then t else b
  | 0x1C => if t ≤ b then b else t
  | _ => b

/-- The value that a VAMO or VAMOR element stores, by fn and type (19 R364). -/
def vamoNew (fn ty old b : Nat) : Nat :=
  let w := tyWidth ty
  let t := old % 2 ^ w
  let b := b % 2 ^ w
  match fn with
  | 0 => (t + b) % 2 ^ w
  | 1 => Nat.land t b
  | 2 => Nat.lor t b
  | 3 => Nat.xor t b
  | 4 => if intOf ty t ≤ intOf ty b then t else b
  | 5 => if intOf ty t ≤ intOf ty b then b else t
  | 6 => b
  | _ => (fAdd ty 0 false t b).1

/-! ## Barrier objects (21 R388-R390): words 0x00, 0x08 and 0x10 -/

/-- The first three words of a barrier object. -/
structure Barrier where
  w0 : Nat
  w1 : Nat
  w2 : Nat
  deriving DecidableEq, Repr

def Barrier.phase (b : Barrier) : Nat := bits b.w0 63 32
def Barrier.arrive (b : Barrier) : Nat := bits b.w0 31 0
def Barrier.scope (b : Barrier) : Nat := bits b.w1 34 32
def Barrier.narr (b : Barrier) : Nat := bits b.w1 31 0
/-- PEND, 29-bit two's complement. -/
def Barrier.pend (b : Barrier) : Int := toSigned 29 (bits b.w2 28 0)

def Barrier.setPend (b : Barrier) (v : Int) : Barrier := { b with w2 := setBits b.w2 28 0 (ofSigned 29 v) }

/-- The phase ends when both counts are 0 (R390). -/
def Barrier.settle (b : Barrier) : Barrier :=
  if b.arrive = 0 ∧ b.pend = 0 then { b with w0 := (b.phase + 1) % 2 ^ 32 * 2 ^ 32 + b.narr } else b

/-- The object after BINIT with parameter v. -/
def Barrier.init (v : Nat) : Barrier :=
  let sc := bits v 34 32
  { w0 := bits v 31 0, w1 := bits v 31 0 + (if sc = 0 ∨ sc = 6 ∨ sc = 7 then 4 else sc) * 2 ^ 32, w2 := 0 }

/-- An arrival. -/
def Barrier.arrival (b : Barrier) : Barrier :=
  (if b.arrive = 0 then { b with w2 := setBit b.w2 31 true } else { b with w0 := b.w0 - 1 }).settle

/-- BEXPECT of v bytes. -/
def Barrier.expect (b : Barrier) (v : Nat) : Barrier :=
  (if b.pend + v > 2 ^ 28 - 1 then { b.setPend (2 ^ 28 - 1) with w2 := setBit (b.setPend (2 ^ 28 - 1)).w2 30 true }
   else b.setPend (b.pend + v)).settle

/-- A charge of n delivered bytes. -/
def Barrier.charge (b : Barrier) (n : Nat) : Barrier :=
  (if b.pend - n < -(2 ^ 28) then { b.setPend (-(2 ^ 28)) with w2 := setBit (b.setPend (-(2 ^ 28))).w2 30 true }
   else b.setPend (b.pend - n)).settle

def readBarrier (s : State) (w pa : Nat) : Barrier :=
  let sl := keySlot s w
  { w0 := readNum s sl pa 8, w1 := readNum s sl (pa + 8) 8, w2 := readNum s sl (pa + 16) 8 }

/-- Contexts that wait in BWAIT test again. -/
def wakeBarriers (s : State) : State :=
  { s with work := s.work ++ s.ctxs.filterMap fun e =>
      match e.2.wait with
      | some wt => if wt.kind = 0x30 then some (event .waitSatisfied [e.1 / 16384, e.1 % 16384]) else none
      | none => none }

/-- A barrier object is rewritten; the end of a phase wakes its waiters (R392). -/
def writeBarrier (s : State) (w pa : Nat) (old new : Barrier) : State :=
  let s := performWrite s (keySlot s w) pa (bytesOf 8 new.w0 ++ bytesOf 8 new.w1 ++ bytesOf 8 new.w2)
  if old.phase = new.phase then s else wakeBarriers s

/-! ## The update of an operation -/

/-- SC's conditions (15 R297): the reservation stands, for the same address and width. -/
def scHolds (t : Strand) (o : Op) : Bool :=
  match t.resv with
  | some r => r.addr == o.addr && r.width == 2 ^ o.wlog && r.granule == o.pa / 64
  | none => false

/-- The bytes that a class T operation's location holds. -/
def Op.bytes (o : Op) : Nat := if o.kind ≥ 0x14 then 24 else 2 ^ o.wlog

/-- A class T operation applies at its port, once (R189): the state and the old value; TAGFAIL as 05 R455. -/
def applyUpdate (s : State) (w k : Nat) (o : Op) : Except Cause (State × Nat) :=
  let sl := keySlot s w
  let n := 2 ^ o.wlog
  if writeTagFails s sl o.pa o.bytes then .error .tagfail
  else match o.kind with
    | 0x10 =>
      let old := readNum s sl o.pa n
      .ok (writeNum s sl o.pa n (amoNew o.func n old o.opnd), old)
    | 0x11 =>
      let ok := scHolds (s.ctx w k).strand o
      let s := if ok then writeNum s sl o.pa n o.opnd else { s with work := s.work ++ (s.ctx w k).freed (ctxKey w k) }
      .ok (s.modStrand w k fun t => { t with resv := none }, if ok then 0 else 1)
    | 0x12 | 0x13 =>
      let old := readNum s sl o.pa n
      .ok (writeNum s sl o.pa n (vamoNew (o.func % 8) (o.func / 16) old o.opnd), old)
    | 0x15 =>
      let b := readBarrier s w o.pa
      .ok (writeBarrier s w o.pa b (b.expect o.opnd), 0)
    | _ =>
      let b := readBarrier s w o.pa
      .ok (writeBarrier s w o.pa b b.arrival, 0)

/-- The destination of a completed operation receives its value (11 R218): AMO and SC a register, VAMOR an element. -/
def deliver (t : Strand) (o : Op) (old : Nat) : Strand :=
  match o.kind with
  | 0x10 => t.wx o.reg (if o.wlog = 2 then sext 32 old else BitVec.ofNat 64 old)
  | 0x11 => t.wx o.reg (BitVec.ofNat 64 old)
  | 0x13 => t.setElem (o.func / 16) o.reg o.elem old
  | _ => t

/-- The response of an operation whose register has been pending. -/
def respond (t : Strand) (o : Op) (old : Nat) : Strand :=
  match o.kind with
  | 0x10 => t.settle o.reg (4 * o.id + 1) (if o.wlog = 2 then sext 32 old else BitVec.ofNat 64 old)
  | 0x11 => t.settle o.reg (4 * o.id + 1) (BitVec.ofNat 64 old)
  | _ => deliver t o old

/-- The port that owns a location: a memory link, or a vault port by global core. -/
def portOf (s : State) (pa : Nat) : Nat :=
  match place s pa with
  | .vault core _ => 24 + core
  | _ => linkOf s pa

def portFull (s : State) (port : Nat) : Bool :=
  decide (sundogLimit port ≤ (s.sundogs.filter fun d => d.port == port).length)

/-! ## Updates that are outstanding -/

/-- The operation's location meets bytes, by aligned doublewords (10 R192). -/
def Op.meets (o : Op) (pa n : Nat) : Bool :=
  decide (pa / 8 ≤ (o.pa + o.bytes - 1) / 8) && decide (o.pa / 8 ≤ (pa + n - 1) / 8)

/-- An update of the strand to one of these locations is outstanding at its port: a later access waits (10 R192, R193). -/
def Strand.updating (t : Strand) (pa n : Nat) : Bool :=
  t.ops.any fun o => o.cls == 1 && !o.done && o.host.isNone && o.meets pa n

/-- The operation came from a virga entry, whose physical address stands in `pc`: no instruction has such an address. -/
def Op.replayed (o : Op) : Bool := bits o.pc 63 48 == 8

/-- An outstanding AMO or SC with aq holds every later scalar access (10 R195); LEN holds aq + 2 rl. A replayed one, whose entry
has no place for aq, holds them too. -/
def Strand.acquiring (t : Strand) : Bool :=
  t.ops.any fun o => (o.kind == 0x10 || o.kind == 0x11) && (o.len % 2 == 1 || o.replayed) && !o.done && !o.queued

/-- An outstanding AMO or SC with rl holds every later access with aq: the pair keeps its order (10 R195). -/
def Strand.releasing (t : Strand) : Bool :=
  t.ops.any fun o => (o.kind == 0x10 || o.kind == 0x11) && decide (2 ≤ o.len) && !o.done && !o.queued

/-- An operation takes the next name and the next tag of its strand (11 R219). -/
def Strand.tagged (w k : Nat) (t : Strand) (o : Op) : Op := { o with id := t.opNext, cls := 1, tag := nextTag w k t }
def Strand.nextT (t : Strand) : Strand := { t with tcnt := (t.tcnt + 1) % 2 ^ 18, opNext := t.opNext + 1 }

/-! ## Spilling (11 R221) -/

/-- The place of the record's entry that has a tag: the address of its first doubleword. -/
def entryOfTag (s : State) (c : Ctx) (tag : Nat) : Option Nat :=
  (c.slices.flatMap fun t =>
    let base := c.saveFrame + t * 2 ^ 29
    (List.range (Nat.min (bits (vaultDword s base) 29 16) (virgaLimit c.elat))).map fun i => base + 0x6000 + 32 * i).find?
    fun a =>
      let d := vaultDword s a
      bits d 13 12 == 1 && !bit d 16 && vaultDword s (a + 24) == tag

/-- A port spills one pinned entry into the issuing context's virga entry, and frees it (11 R221). -/
def spill (s : State) (d : Sundog) : State :=
  let w := d.tag / 2 ^ 32
  let k := d.tag / 2 ^ 18 % 16384
  let s := match entryOfTag s (s.ctx w k) d.tag with
    | some a => writeNum (writeNum s 0 a 8 (setBit (vaultDword s a) 16 true)) 0 (a + 24) 8 d.old
    | none => s
  { s with sundogs := s.sundogs.filter fun x => x.tag != d.tag }

/-- The port of the host interface (04 R87): it keeps the old value of an AtomicOp whose response comes after the frame of its
strand was written, until the entry is replayed (DESIGN CHOICE, assumption 68: R220 names the tables of the links and the
vaults alone). -/
def hostPort : Nat := 1000

/-- The entry's context is not RUNNING, WAITING or RESUMING and has its frame, and the frame stands in a vault. -/
def spillable (s : State) (d : Sundog) : Bool :=
  let w := d.tag / 2 ^ 32
  let k := d.tag / 2 ^ 18 % 16384
  let st := (s.ctx w k).state
  !st.live && st != .stopping && onFabric s w && (s.gangOf w k).state != .rotated

/-- Entries of contexts that are stopped leave a table that is more than three quarters full (11 R221). -/
def spillFull (s : State) (port : Nat) : State :=
  if portCrowded s port then (s.sundogs.filter fun d => d.port == port && spillable s d).foldl spill s else s

/-- An operation cannot apply now: ports answer later, its own waits, or its sundog table is full (11 R220). -/
def portLater (s : State) (pa n : Nat) : Bool := s.deferPorts || writeWaits s pa n || portFull s (portOf s pa)

/-- A class T operation stands outstanding with its tag; the register of a scalar one is pending. -/
def leaveT (s : State) (w k : Nat) (o : Op) : State :=
  s.modStrand w k fun t =>
    let t := { t with ops := t.ops ++ [o] }
    if o.kind = 0x10 ∨ o.kind = 0x11 then t.addPend o.reg (4 * o.id + 1) else t

/-- A class T operation of strand (w, k) issues. Where its port takes it at once, it applies, its destination is written
and its acknowledgement frees the table entry in the same step; otherwise it stands outstanding with its tag. -/
def issueT (s : State) (w k : Nat) (o : Op) : Except Cause State :=
  let o := (s.ctx w k).strand.tagged w k o
  let s := s.modStrand w k Strand.nextT
  if portLater s o.pa o.bytes then .ok (leaveT s w k o)
  else match applyUpdate s w k o with
    | .error c => .error c
    | .ok (s, old) => .ok (s.modStrand w k fun t => deliver t o old)

end Sys2Proof.Machine
end

