-- ==== Sys2Proof/Machine/Copies.lean ====
section
/-!
DEFINITION. The copy engines at work: chunks and RROT transfers (21 R378-R383, 10 R187, R198), accepted copy and
decrypt commands (21 R384-R387, 05 R107), and the answers of the host to a chunk (04 R86).
-/

namespace Sys2Proof.Machine

/-! ## The bytes of a chunk -/

/-- The parts of a range that lie in one 4 KiB page each; addresses wrap modulo 2^64. -/
def pagePieces (va len : Nat) : List (Nat × Nat) :=
  (List.range ((va % 4096 + len + 4095) / 4096)).map fun i =>
    let lo := if i = 0 then va else (va / 4096 + i) * 4096
    let hi := Nat.min (va + len) ((va / 4096 + i + 1) * 4096)
    (lo % 2 ^ 64, hi - lo)

/-- One checked part of a chunk: where it goes and how many bytes it has. -/
structure Piece where
  x : Xlat
  n : Nat
  deriving DecidableEq, Repr

/-- The check of one part (R378): translation, its last byte, and readiness. -/
def checkPiece (s : State) (w k core : Nat) (a : Acc) (p : Nat × Nat) : Except Cause Piece :=
  match resolve s w k core p.1 a with
  | .error c => .error c
  | .ok x =>
    match resolve s w k core (p.1 + p.2 - 1) a with
    | .error c => .error c
    | .ok _ =>
      match x.target with
      | .page _ _ _ => .error .ctlvec
      | .host _ => if (s.world w).fnFrozen then .error .trans else .ok { x := x, n := p.2 }
      | .peer id _ => match route s id with | .ok _ => .ok { x := x, n := p.2 } | .error c => .error c
      | .mem pa =>
        if a.writes && tableRange s pa p.2 then .error .grant
        else if !memReady s pa then .error .memnr else .ok { x := x, n := p.2 }

/-- Every part of one side of a chunk, in order. -/
def checkSide (s : State) (w k core : Nat) (a : Acc) (va len : Nat) : Except Cause (List Piece) :=
  (pagePieces va len).foldl (fun r p =>
    match r with
    | .error c => .error c
    | .ok ps => match checkPiece s w k core a p with | .ok q => .ok (ps ++ [q]) | .error c => .error c) (.ok [])

/-- The walk of some part of a side waits at a port (01 R27). -/
def sideWalks (s : State) (w k : Nat) (a : Acc) (va len : Nat) : Bool :=
  (pagePieces va len).any fun p => xlatWaits s w k p.1 a

/-- A part that waits at its port: a link that retrains, an earlier write there, an uncopied page, an outstanding update of
the strand (10 R193, R198), another strand's LR (15 R299). -/
def Piece.waits (s : State) (w k : Nat) (p : Piece) (wr : Bool) : Bool :=
  match p.x.target with
  | .mem pa =>
    (if wr then writeWaits s pa p.n || granuleHeld s w k pa p.n else portBusy s pa p.n) ||
      (s.ctx w k).strand.updating pa p.n
  | _ => false

/-- Bytes of a part that come from the host or a peer. -/
def Piece.foreign (p : Piece) : Nat := match p.x.target with | .host _ | .peer _ _ => p.n | _ => 0

def Piece.toPeer (p : Piece) : Bool := match p.x.target with | .peer _ _ => true | _ => false

/-- Bytes of a source that come from elsewhere. -/
def foreignOf (ps : List Piece) : Nat := (ps.map Piece.foreign).foldl (· + ·) 0

/-- The source as bytes; the foreign bytes stand in a list of their own. TAGFAIL: a line failed. -/
def readPieces (s : State) (w : Nat) : List Piece → List Byte → Except Cause (List Byte)
  | [], _ => .ok []
  | p :: ps, f =>
    match p.x.target with
    | .mem pa =>
      if tagFails s (keySlot s w) pa p.n then .error .tagfail
      else match readPieces s w ps f with
        | .ok r => .ok (readBytes s (keySlot s w) pa p.n ++ r)
        | .error c => .error c
    | _ => match readPieces s w ps (f.drop p.n) with
      | .ok r => .ok (f.take p.n ++ r)
      | .error c => .error c

/-- A request of an operation to the host or to a peer has no answer yet. -/
def outstanding (s : State) (w k op : Nat) : Bool :=
  s.hreqs.any fun (e : Nat × HReq) => e.2.world == w && e.2.ctx == k && e.2.op == op && !e.2.dropped && !e.2.posted

/-- A message of an operation goes to a peer, and its answer is awaited. -/
def askPeer (s : State) (w k op n off len : Nat) (m : Nat → PeerMsg) : State :=
  let s1 := { s with
    hreqs := tset s.fresh { HReq.zero with world := w, ctx := k, op := op, addr := off, len := len, link := some n } s.hreqs
    fresh := s.fresh + 1 }
  sendPeer s1 n (m s.fresh)

/-- A foreign part of a source is asked for. -/
def askPiece (s : State) (w k op : Nat) (p : Piece) : State :=
  match p.x.target with
  | .host a =>
    if hostRoom s then
      hostRequest s { HReq.zero with world := w, ctx := k, op := op, addr := a, len := p.n, pasid := pasidOf s w k }
        fun h id => .hostRead h p.n id
    else s
  | .peer d o => match route s d with
    | .ok n => askPeer s w k op n o p.n fun id => .read id o p.n
    | .error _ => s
  | _ => s

/-- The first foreign part that lies past the bytes which have come. -/
def nextForeign : Nat → List Piece → Option Piece
  | _, [] => none
  | got, p :: ps => if p.foreign = 0 then nextForeign got ps else if got = 0 then some p else nextForeign (got - p.foreign) ps

/-- A and D bits of every part (03 R69). -/
def touchPieces (s : State) (w : Nat) (a : Acc) (ps : List Piece) : State := ps.foldl (fun s p => setAD s w p.x a) s

/-- A posted write of any length to the host goes out as writes of at most 512 bytes (04 R79). -/
def hostWrites (t : Tlp) (d : List Nat) : List Out :=
  (List.range ((d.length + 511) / 512)).map fun i =>
    .hostWrite { t with addr := t.addr + 512 * i } ((d.drop (512 * i)).take 512)

/-- The destination is written; each part of it at a peer is a request of its own. -/
def writePieces (s : State) (w k op : Nat) : List Piece → List Byte → State
  | [], _ => s
  | p :: ps, d =>
    let s := match p.x.target with
      | .mem pa => postWrite s w k pa (d.take p.n)
      | .host a => { s with out := s.out ++ hostWrites (tlp s w (pasidOf s w k) a) ((d.take p.n).map (·.toNat)) }
      | .peer id o => match route s id with
        | .ok n => askPeer s w k op n o p.n fun r => .write r o ((d.take p.n).map (·.toNat))
        | .error _ => s
      | .page _ _ _ => s
    writePieces s w k op ps (d.drop p.n)

/-- Every part that goes to the host may go now (04 R86). -/
def hostGates (s : State) (w k : Nat) : List Piece → Gate
  | [] => .go
  | p :: ps =>
    match p.x.target with
    | .host a => match hostGate s w k (pasidOf s w k) a with
      | .go => hostGates s w k ps
      | g => g
    | _ => hostGates s w k ps

/-- A partial write of the destination would meet a failing line of the writer's slot (05 R455). -/
def piecesTagFail (s : State) (w : Nat) (ps : List Piece) : Bool :=
  ps.any fun p => match p.x.target with | .mem pa => writeTagFails s (keySlot s w) pa p.n | _ => false

/-- The engine instance that a strand's copies go to (R381): that of its home core's cluster. -/
def engineOf (s : State) (w k : Nat) : Nat := clusterOf ((s.ctx w k).core 0)

/-- A tag failure freezes the world's instance of the engine (05 R108). -/
def freezeEngine (s : State) (w c : Nat) : State :=
  compromise (wakePage (s.modEngine w c fun e => { e with efrozen := true }) w 7 c 0) w

/-- What becomes of a transfer of bytes. -/
inductive Moved where
  /-- It waits; nothing has changed but requests that went out. -/
  | waits (s : State)
  /-- It has ended with a status. -/
  | ended (s : State) (status : Nat)

/-- The writes of an operation have gone out; the parts of it at a peer are still to be answered. -/
def sentOut (w k op : Nat) (s : State) : State := s.modStrand w k fun t => t.modOp op fun o => { o with applied := true }

/-- The destination's writes go out, once none of them has to wait. A tag failure of a partial line freezes the engine
(R455); a refused translation of the host is status 0x03 (04 R86). -/
def moveOut (s : State) (w k op : Nat) (dst : List Piece) (data : List Byte) : Moved :=
  if dst.any fun p => p.waits s w k true then .waits s
  else if piecesTagFail s w dst then .ended (freezeEngine s w (engineOf s w k)) 16
  else match hostGates s w k dst with
    | .waits s => .waits s
    | .refused s => .ended s 3
    | .go =>
      let s := writePieces (touchPieces s w .store dst) w k op dst data
      if dst.any Piece.toPeer then .waits (sentOut w k op s) else .ended s 0

/-- What the reading of a source comes to. -/
inductive Fetched where
  | data (s : State) (bs : List Byte)
  | waits (s : State)
  | ended (s : State) (status : Nat)

/-- A store or an update of the strand has still to perform: a copy reads its source after it (10 R198). -/
def storesAhead (s : State) (w k : Nat) : Bool :=
  storesHeld s w k || (s.ctx w k).strand.ops.any fun o =>
    decide (0x10 ≤ o.kind) && decide (o.kind ≤ 0x13) && !o.done && !o.queued

/-- The checked source of an operation is read, its foreign parts one after another into the engine's buffer. -/
def fetchIn (s : State) (w k : Nat) (o : Op) (src : List Piece) : Fetched :=
  if storesAhead s w k then .waits s
  else if o.buf.length < foreignOf src then
    (if outstanding s w k o.id then .waits s
     else match nextForeign o.buf.length src with
      | some p => .waits (askPiece s w k o.id p)
      | none => .waits s)
  else if src.any fun p => p.waits s w k false then .waits s
  else match readPieces s w src (o.buf.map (BitVec.ofNat 8)) with
    | .error _ => .ended (freezeEngine s w (engineOf s w k)) 16
    | .ok d => .data (touchPieces s w .load src) d

/-- A whole chunk (R378): check source and destination, read it all, write it all. What has been written at a peer ends
with what the peer answers. -/
def moveBytes (s : State) (w k core src dst len : Nat) (o : Op) : Moved :=
  if o.applied then (if outstanding s w k o.id then .waits s else .ended s o.part)
  else if (s.engine w (engineOf s w k)).efrozen then .ended s 16
  else if len = 0 ∨ len > 65536 then .ended s 1
  else if sideWalks s w k .load src len || sideWalks s w k .store dst len then .waits s
  else match checkSide s w k core .load src len with
    | .error c => .ended s c.code
    | .ok sp =>
      match checkSide s w k core .store dst len with
      | .error c => .ended s c.code
      | .ok dp =>
        if dp.any fun p => p.waits s w k true then .waits s
        else match fetchIn s w k o sp with
          | .waits s => .waits s
          | .ended s e => .ended s e
          | .data s d => moveOut s w k o.id dp d

/-! ## The end of a chunk -/

/-- The engine page counts a completion that wrote n bytes (R387). -/
def countDone (s : State) (w k n status : Nat) : State :=
  let c := engineOf s w k
  wakePage (s.modEngine w c fun e => { e with
    chunks := e.chunks + 1
    bytes := e.bytes + BitVec.ofNat 64 n
    failed := if status = 0 then e.failed else satInc 32 e.failed
    lastst := if status = 0 then e.lastst else status }) w 7 c 8

/-- The status of the lowest-index failing chunk (R380, R382). -/
def Copy.join (c : Copy) (idx status : Nat) : Copy :=
  if status ≠ 0 ∧ (c.status = 0 ∨ idx < c.sidx) then { c with status := status, sidx := idx } else c

/-- A copy whose chunks have all been issued and have all completed writes its token (R380). -/
def Strand.endCopy (t : Strand) (id : Nat) : Strand :=
  match t.copies.find? fun c => c.id == id with
  | none => t
  | some c =>
    if !c.issued || t.ops.any (fun o => (o.kind == 4 || o.kind == 5) && o.group == id) then t
    else
      let t := { t with copies := t.copies.filter fun c => c.id != id }
      if c.op5 = 0x0A then t else (t.settle c.reg id (BitVec.ofNat 64 c.status)).unhold

/-- A chunk leaves the strand's outstanding operations with a status; COPYC sets its bit (R380). -/
def Strand.endChunk (t : Strand) (o : Op) (status : Nat) : Strand :=
  let t := { t.dropOp o.id with copies := t.copies.map fun (c : Copy) => if c.id = o.group then c.join o.idx status else c }
  let t := if o.func = 0x0A ∧ status = 0 then t.setP o.reg o.idx true else t
  (t.endCopy o.group).unhold

def endChunk (s : State) (w k : Nat) (o : Op) (status : Nat) : State :=
  countDone (s.modStrand w k fun t => t.endChunk o status) w k (if status = 0 then o.len else 0) status

/-- One chunk of COPY, COPYC or COPYS is performed. -/
def runChunk (s : State) (w k : Nat) (o : Op) : State :=
  match moveBytes s w k ((s.ctx w k).core 0) o.addr o.opnd o.len o with
  | .waits s => s
  | .ended s e => endChunk s w k o e

/-! ## RROT (R383): one lockstep step -/

/-- What the check and the reading of a transfer give: its status, its checked destination and its data. -/
abbrev Transfer := Op × Nat × List Piece × List Byte

/-- Check and read every transfer. -/
def readTransfers (s : State) (w k core : Nat) : List Op → State × List Transfer
  | [] => (s, [])
  | o :: os =>
    let bad := fun s e => let r := readTransfers s w k core os; (r.1, (o, e, [], []) :: r.2)
    if (s.engine w (engineOf s w k)).efrozen then bad s 16
    else if o.len = 0 ∨ o.len > 65536 then bad s 1
    else match checkSide s w k core .load o.addr o.len, checkSide s w k core .store o.opnd o.len with
      | .error c, _ => bad s c.code
      | _, .error c => bad s c.code
      | .ok sp, .ok dp =>
        match readPieces s w sp [] with
        | .error _ => bad (freezeEngine s w (engineOf s w k)) 16
        | .ok d => let r := readTransfers s w k core os; (r.1, (o, 0, dp, d) :: r.2)

/-- A part of some transfer of one RROT waits. -/
def transferWaits (s : State) (w k core : Nat) (o : Op) : Bool :=
  match checkSide s w k core .load o.addr o.len, checkSide s w k core .store o.opnd o.len with
  | .ok sp, .ok dp => (sp.any fun p => p.waits s w k false) || dp.any fun p => p.waits s w k true
  | _, _ => false

/-- Every transfer of one RROT reads its source before any writes its destination. -/
def runTransfers (s : State) (w k group : Nat) : State :=
  let os := (s.ctx w k).strand.ops.filter fun o => o.kind == 5 && o.group == group
  if storesAhead s w k || os.any (transferWaits s w k ((s.ctx w k).core 0)) then s
  else
    let r := readTransfers s w k ((s.ctx w k).core 0) os
    r.2.foldl (fun s e =>
      if e.2.1 ≠ 0 then endChunk s w k e.1 e.2.1
      else match moveOut s w k e.1.id e.2.2.1 e.2.2.2 with
        | .ended s st => endChunk s w k e.1 st
        | .waits s => s) r.1

/-- CHUNK_COMPLETE w k id (R380): the chunk goes on as far as it can. -/
def chunkComplete (s : State) (w k id : Nat) : State :=
  match (s.ctx w k).strand.findOp id with
  | none => s
  | some o =>
    if o.kind = 5 then
      -- lockstep: the step waits until its last transfer has issued
      if (s.ctx w k).strand.copies.any fun c => c.id == o.group && !c.issued then s else runTransfers s w k o.group
    else if o.kind = 4 then runChunk s w k o else s

/-- CHUNK_COMPLETE. -/
def execChunkComplete (s : State) : Res := .next (chunkComplete s (s.arg 0) (s.arg 1) (s.arg 2))

/-! ## Engine commands -/

def Cmd.kind (c : Cmd) : Nat := bits c.w0 7 0
/-- The doubleword that holds CBITLO and CPRED. -/
def Cmd.low (c : Cmd) : Nat := if c.kind = 0x40 then c.w3 else c.w2
def Cmd.bitIndex (c : Cmd) : Nat := bits c.w0 31 27 * 2048 + bits c.low 58 48
def Cmd.pred (c : Cmd) : Nat := bits c.low 63 59
def Cmd.statusVa (c : Cmd) : Nat := 0xFFFFF00000000000 + 8 * bits c.w0 26 8
def sext48 (v : Nat) : Nat := (sext 48 v).toNat
def Cmd.src (c : Cmd) : Nat := sext48 (if c.kind = 0x40 then bits c.w2 47 0 else bits c.w1 47 0)
def Cmd.dst (c : Cmd) : Nat := sext48 (if c.kind = 0x40 then bits c.w3 47 0 else bits c.w2 47 0)
def Cmd.len (c : Cmd) : Nat := if c.kind = 0x40 then bits c.w2 63 48 + 1 else bits c.w0 63 32
def Cmd.bar (c : Cmd) : Nat := bits c.w3 47 0
def Cmd.stream (c : Cmd) : Nat := bits c.w0 63 32

/-- The status doubleword is written in the own vault, or waits for another strand's LR (15 R299); LASTST keeps a status that is not 0. -/
def putStatus (s : State) (w k : Nat) (c : Cmd) (status : Nat) : State :=
  let core := (s.ctx w k).core 0
  let s := if status = 0 then s
    else wakePage (s.modEngine w (engineOf s w k) fun e => { e with lastst := status }) w 7 (engineOf s w k) 0x28
  match resolve s w k core c.statusVa .store with
  | .ok { target := .mem pa, .. } =>
    if granuleHeld s w k pa 8 then
      { s with heldW := s.heldW ++
          [{ world := w, ctx := k, slot := keySlot s w, pa := pa, data := bytesOf 8 status, ack := none, strip := none }] }
    else postWrite s w k pa (bytesOf 8 status)
  | _ => s

/-- The target of a barrier operation of an engine (R389): the physical address, or a cause. -/
def barrierAt (s : State) (w k va : Nat) : Except Cause Nat :=
  match resolve s w k ((s.ctx w k).core 0) va .amo with
  | .error c => .error c
  | .ok x =>
    match x.target with
    | .page _ _ _ => .error .ctlvec
    | .host _ | .peer _ _ => .error .perm
    | .mem pa =>
      if tableRange s pa 24 then .error .grant else if !memReady s pa then .error .memnr else .ok pa

/-- The SOFF address and the chunk bit are good. -/
def Cmd.shapeOk (s : State) (w k : Nat) (c : Cmd) : Bool :=
  (match resolve s w k ((s.ctx w k).core 0) c.statusVa .store with | .ok _ => true | .error _ => false) &&
  !(decide (24 ≤ c.pred) && decide (c.pred ≤ 30)) &&
  (c.pred == 31 || decide (c.bitIndex < (s.ctx w k).mvl))

/-- What a virtual address names for a strand, whatever its leaf's rights. -/
def namedBy (s : State) (w k core va : Nat) : Option Target :=
  if canonical va && inWindows va then (window s w k core va).map .mem
  else if !canonical va then none
  else match walk s w va 4 0 (s.ctx w k).root with
    | .ok l => targetOf s w (l.pa va)
    | .error _ => none

/-- DST of a decrypt command lies in the world's ranges or vault allocation (05 R107). -/
def ownBytes (s : State) (w k va len : Nat) : Bool :=
  (pagePieces va len).all fun p =>
    match namedBy s w k ((s.ctx w k).core 0) p.1, namedBy s w k ((s.ctx w k).core 0) (p.1 + p.2 - 1) with
    | some (.mem pa), some (.mem _) => !isMem pa || inRanges (s.world w) pa
    | _, _ => false

/-- What the acceptance test says. -/
inductive Verdict where
  | accept
  | refuse
  | refuseWith (status : Nat)
  deriving DecidableEq, Repr

/-- The acceptance test (R385, R386, 05 R107). -/
def Cmd.test (s : State) (w k : Nat) (c : Cmd) : Verdict :=
  if (s.engine w (engineOf s w k)).efrozen then .refuse
  else if c.kind = 0x01 then
    if !c.shapeOk s w k then .refuse
    else if c.len = 0 ∨ c.len > 65536 ∨ bits c.w1 63 48 ≠ 0 ∨ bits c.w3 63 48 ≠ 0 ∨ c.bar % 64 ≠ 0 then .refuseWith 1
    else if c.bar = 0 then .accept
    else match resolve s w k ((s.ctx w k).core 0) c.bar .amo with
      | .error e => .refuseWith e.code
      | .ok _ => .accept
  else if c.kind = 0x40 then
    if !c.shapeOk s w k then .refuse
    else if c.stream > 255 ∨ !((s.world w).streams.any (fun (e : Nat × Nat × Nat) => e.1 == c.stream)) then
      .refuseWith 0x22
    else if c.w1 ≤ (tget (0, 0) (s.world w).streams c.stream).2 then .refuseWith 0x21
    else if !ownBytes s w k c.dst c.len then .refuseWith 4
    else .accept
  else .refuse

/-- The lowest free command slot of a strand. -/
def freeSlot (t : Strand) : Option Nat :=
  (List.range 256).find? fun i => !(t.cmds.any fun (e : Nat × Cmd) => e.1 == i)

/-- A command is offered at its issue by the word in a body slot: whether it was accepted (R384). The caller has found a free
command slot. -/
def offerCmd (s : State) (w k slot body pc elem : Nat) (c : Cmd) : State × Bool :=
  let e := engineOf s w k
  let refuse := fun s => wakePage (s.modEngine w e fun x => { x with refused := satInc 32 x.refused }) w 7 e 0x18
  match c.test s w k with
  | .refuse => (refuse s, false)
  | .refuseWith st => (putStatus (refuse s) w k c st, false)
  | .accept =>
    let s := if c.kind = 0x40 then
      s.modWorld w fun x => { x with streams := tset c.stream ((tget (0, 0) x.streams c.stream).1, c.w1) x.streams }
      else s
    let s := s.modStrand w k fun t =>
      { t.addOp { Op.zero with kind := 6, func := 0x0D, reg := slot, slot := body, tag := c.w0, addr := c.w1, opnd := c.w2, pc := pc, elem := elem }
        with cmds := tset slot c t.cmds }
    (s.push (if c.kind = 0x40 then .decryptCommand else .engineCopyCommand) [w, k, slot], true)

/-- A command that has written n bytes ends: its chunk bit, its status word, its slot (R384, R385). -/
def endCmd (s : State) (w k : Nat) (o : Op) (c : Cmd) (n status : Nat) : State :=
  let s := s.modStrand w k fun t =>
    let t := (t.dropOp o.id)
    let t := { t with cmds := terase o.reg 1 t.cmds }
    (if status = 0 ∧ c.pred ≠ 31 then t.setP c.pred c.bitIndex true else t).unhold
  putStatus (countDone s w k n status) w k c status

/-- The charge of a delivered command (R385, R389, R390). -/
def chargeBar (s : State) (w k : Nat) (c : Cmd) : State × Nat :=
  if c.bar = 0 then (s, 0)
  else match barrierAt s w k c.bar with
    | .error e => (s, e.code)
    | .ok pa =>
      if writeTagFails s (keySlot s w) pa 24 then (freezeEngine s w (engineOf s w k), 16)
      else
        let b := readBarrier s w pa
        (writeBarrier s w pa b (b.charge c.len), 0)

/-- The barrier's port cannot take the charge now. -/
def chargeWaits (s : State) (w k : Nat) (c : Cmd) : Bool :=
  c.bar != 0 && (xlatWaits s w k c.bar .amo || match barrierAt s w k c.bar with
    | .ok pa => writeWaits s pa 24 || granuleHeld s w k pa 24 || (s.ctx w k).strand.updating pa 24
    | .error _ => false)

def findCmd (s : State) (w k slot : Nat) : Option (Op × Cmd) :=
  let t := (s.ctx w k).strand
  match t.ops.find? fun o => o.kind == 6 && o.reg == slot with
  | some o => some (o, tget { w0 := 0, w1 := 0, w2 := 0, w3 := 0 } t.cmds slot)
  | none => none

/-- An accepted copy command is performed (R385): the data, then the charge, then the bit and the status. -/
def copyCmd (s : State) (w k : Nat) (o : Op) (c : Cmd) : State :=
  if chargeWaits s w k c then s
  else match moveBytes s w k ((s.ctx w k).core 0) c.src c.dst c.len o with
    | .waits s => s
    | .ended s e =>
      if e ≠ 0 then endCmd s w k o c 0 e
      else match chargeBar s w k c with
        | (s, r) => endCmd s w k o c c.len r

/-- ENGINE_COPY_COMMAND w k slot (R385). -/
def execEngineCopyCommand (s : State) : Res :=
  .next (match findCmd s (s.arg 0) (s.arg 1) (s.arg 2) with
    | some (o, c) => if c.kind = 0x40 then s else copyCmd s (s.arg 0) (s.arg 1) o c
    | none => s)

/-- The plaintext as bytes. -/
def plainBytes (n : Nat) (l : List Nat) : List Byte := (List.range n).map fun i => BitVec.ofNat 8 (nth 0 l i)

/-- Some part of the destination of a decrypt command waits; the plaintext is not made before none does. -/
def plainWaits (s : State) (w k core : Nat) (c : Cmd) : Bool :=
  sideWalks s w k .store c.dst c.len || match checkSide s w k core .store c.dst c.len with
    | .ok dp => dp.any fun p => p.waits s w k true
    | .error _ => false

/-- An accepted decrypt command is performed (05 R107): the ciphertext and its 16-byte tag are read into the engine
buffer, and the plaintext goes to DST when the tag verifies. The stream's key is the one that stands when the command performs
(DESIGN CHOICE, assumption 90: R107 names no moment). -/
def decryptCmd (s : State) (w k : Nat) (o : Op) (c : Cmd) : State :=
  let core := (s.ctx w k).core 0
  if o.applied then (if outstanding s w k o.id then s else endCmd s w k o c (if o.part = 0 then c.len else 0) o.part)
  else if (s.engine w (engineOf s w k)).efrozen then endCmd s w k o c 0 16
  else if sideWalks s w k .load c.src (c.len + 16) || plainWaits s w k core c then s
  else match checkSide s w k core .load c.src (c.len + 16) with
    | .error e => endCmd s w k o c 0 e.code
    | .ok sp =>
      match fetchIn s w k o sp with
      | .waits s => s
      | .ended s e => endCmd s w k o c 0 e
      | .data s data =>
        let d := data.map (·.toNat)
        match Config.gcmOpen (tget (0, 0) (s.world w).streams c.stream).1 c.stream c.w1 (d.take c.len) (d.drop c.len) with
        | none => endCmd s w k o c 0 0x20
        | some pt =>
          match checkSide s w k core .store c.dst c.len with
          | .error e => endCmd s w k o c 0 e.code
          | .ok dp =>
            match moveOut s w k o.id dp (plainBytes c.len pt) with
            | .waits s => s
            | .ended s e => endCmd s w k o c (if e = 0 then c.len else 0) e

/-- DECRYPT_COMMAND w k slot (05 R107). -/
def execDecryptCommand (s : State) : Res :=
  .next (match findCmd s (s.arg 0) (s.arg 1) (s.arg 2) with
    | some (o, c) => if c.kind ≠ 0x40 then s else decryptCmd s (s.arg 0) (s.arg 1) o c
    | none => s)

/-- The answer to a request of a chunk or a command (04 R86, 21 R378): source bytes join the engine's buffer, and a failed
read ends the operation; a part written at a peer that was refused or lost gives status 0x0F once all are answered. -/
def engineAnswer (s : State) (w k : Nat) (o : Op) (r : HReq) (ok : Bool) (data : List Nat) : State :=
  let put := fun (f : Op → Op) (s : State) => s.modStrand w k fun t => t.modOp o.id f
  let c := tget { w0 := 0, w1 := 0, w2 := 0, w3 := 0 } (s.ctx w k).strand.cmds o.reg
  if o.applied ∨ ok then
    let o' := if o.applied then (if ok then o else { o with part := 15 })
      else { o with buf := o.buf ++ (List.range r.len).map fun i => nth 0 data i % 256 }
    let s := put (fun _ => o') s
    if o.kind = 4 then runChunk s w k o'
    else if c.kind = 0x40 then decryptCmd s w k o' c else copyCmd s w k o' c
  else
    let st := if r.link.isSome then 15 else 3
    if o.kind = 4 then endChunk s w k o st else endCmd s w k o c 0 st

end Sys2Proof.Machine
end

