-- ==== Sys2Proof/Machine/PageRead.lean ====
section
/-!
DEFINITION. The fields of the control pages as a load reads them (01 R23, 02 R32, R41, 03 R54, R60, 05 R96, R109,
06 R111, 07 R136, 21 R387). A reserved or write-only field reads as zero (00 R6, R7). Reads change nothing.
-/

namespace Sys2Proof.Machine

/-- Readiness page. -/
def readReady (r : Ready) (off : Nat) : Nat :=
  match off with
  | 0x00 => r.gen.toNat
  | 0x08 => r.iod % 4 * 2 ^ 8 + r.cdie % 256
  | 0x10 => r.clu % 2 ^ 64
  | 0x18 => r.clu / 2 ^ 64 % 2 ^ 16
  | 0x20 => r.anvil % 2 ^ 64
  | 0x28 => r.anvil / 2 ^ 64 % 2 ^ 16
  | 0x30 => r.mlinkX4 % 2 ^ 24 * 2 ^ 32 + r.mgrp % 64 * 2 ^ 24 + r.mlink % 2 ^ 24
  | 0x38 => r.mlinkFail % 2 ^ 24
  | 0x40 => r.plinkX4 % 2 ^ 16 * 2 ^ 16 + r.plink % 2 ^ 16
  | 0x48 => r.plinkFail % 2 ^ 16
  | 0x50 => r.fn % 2 ^ 64
  | 0x58 => r.fn / 2 ^ 64 % 2 ^ 64
  | 0x60 => r.fn / 2 ^ 128 % 2
  | 0x68 => r.grpBytes % 2 ^ 48
  | 0x70 => r.lostw % 2 ^ 32
  | _ => 0

/-- World page. -/
def readWorld (x : World) (off : Nat) : Nat :=
  match off with
  | 0x00 => x.word0
  | 0x10 => x.wcmdStat % 8 + x.wcmdCnt.toNat * 2 ^ 32
  | 0x18 => x.word18
  | 0x20 => x.tregion * 2 ^ 21 % 2 ^ 52
  | 0x30 => bits x.pwrgnt 63 0
  | 0x38 => bits x.pwrgnt 79 64
  | 0x40 => bits x.mongnt 63 0
  | 0x48 => bits x.mongnt 127 64
  | 0x50 => bits x.mongnt 167 128
  | 0x58 => x.word58
  | _ => if 0x80 ≤ off ∧ off < 0xC0 then rangeWord (nth (0, 0) x.ranges ((off - 0x80) / 8)) else 0

/-- A world as its page shows it while the policy core restarts (06 R125): a transaction in progress does not show, so that
a world BUILDING reads as it was, FREE, and one DESTROYING as ACTIVE. -/
def World.atRestart (x : World) : World :=
  if x.wstate = 1 then { x with wstate := 0, conf := false } else if x.wstate = 3 then { x with wstate := 2 } else x

/-- Queue page. -/
def readQueue (pcgen : BitVec 16) (x : Queue) (off : Nat) : Nat :=
  match off with
  | 0x00 => x.owner % 256 * 2 ^ 8 + x.istate % 4
  | 0x10 => x.qcmdCnt.toNat * 2 ^ 32 + x.qcmdStat % 4
  | 0x18 => x.root % 2 ^ 64
  | 0x20 => x.pasidv.toNat * 2 ^ 20 + x.pasid % 2 ^ 20
  | 0x28 => x.vector % 2 ^ 11 * 2 ^ 16 + x.preempt.toNat * 2 ^ 11 + x.priocap % 8 * 2 ^ 8
  | 0x30 => x.rbase % 2 ^ 36 * 2 ^ 12 + x.rlog2 % 16
  | 0x38 => x.head.toNat * 2 ^ 32 + x.tail.toNat
  | 0x40 => x.childv.toNat * 2 ^ 15 + x.childq % 2 ^ 15
  | 0x48 => x.malformed % 2 ^ 32 * 2 ^ 32 + x.refused % 2 ^ 32
  | 0x50 => x.badpkt % 2 ^ 32 * 2 ^ 32 + x.compfail % 2 ^ 32
  | 0x58 => x.accepted.toNat * 2 ^ 32 + x.inlines % 16 * 2 ^ 4 + x.waiting.toNat * 2 ^ 3
  | 0x60 => x.overflow % 2 ^ 32 * 2 ^ 32 + pcgen.toNat
  | 0x68 => x.ringerr.toNat
  | _ => 0

def LState.code : LState → Nat
  | .never => 0 | .pending => 1 | .active => 2 | .ackwait => 3 | .done => 4

/-- Launch policy page; a number never bound reads zero. -/
def readLaunch (x : Launch) (off : Nat) : Nat :=
  if x.lstate = .never then 0
  else match off with
  | 0x00 => x.lstatus % 256 * 2 ^ 8 + x.lstate.code
  | 0x10 => x.total % 2 ^ 64
  | 0x18 => x.dispatched % 2 ^ 64
  | 0x20 => x.doneg % 2 ^ 64
  | 0x28 => x.residentg % 2 ^ 32
  | 0x30 => x.elat % 4 * 2 ^ 8 + x.rlat % 4
  | 0x38 => x.features % 32
  | 0x40 => x.root % 2 ^ 64
  | 0x48 => x.queue % 2 ^ 15
  | 0x50 => x.peerpend % 2 ^ 32
  | 0x58 => x.fvalid.toNat * 2 ^ 14 + x.firstFault % 2 ^ 14
  | 0x60 => x.held.toNat
  | _ => 0

/-- The STATE that the page shows (R57): a world switch does not change it. -/
def Ctx.shown (c : Ctx) : Nat := if c.heldState ≠ 0 then c.heldState else c.state.code

/-- Context page. -/
def readCtx (c : Ctx) (off : Nat) : Nat :=
  match off with
  | 0x00 => c.shown % 16
  | 0x10 => c.cmdCnt.toNat * 2 ^ 32 + c.cmdStat % 4
  | 0x18 => c.fseq.toNat * 2 ^ 32 + c.fslot % 256 * 2 ^ 8 + c.cause % 256
  | 0x20 => c.fpc % 2 ^ 64
  | 0x28 => c.progress % 2 ^ 32 * 2 ^ 32 + c.felem % 2 ^ 32
  | 0x30 => c.faddr % 2 ^ 64
  | 0x38 => c.hvalid.toNat * 2 ^ 14 + c.handler % 2 ^ 14
  | 0x40 => c.notify.toNat
  | 0x48 => c.lastFault % 2 ^ 14
  | 0x50 => c.root % 2 ^ 64
  | 0x58 => c.launch % 2 ^ 10
  | 0x60 => c.widv.toNat
  | 0x68 => c.resident.toNat * 2 ^ 12 + c.slotNum % 2 ^ 12
  | 0x70 => c.saveFrame % 2 ^ 64
  | 0x78 => c.resync.toNat * 2 ^ 32 + c.virga % 2 ^ 16
  | 0x80 => c.pcS.toNat
  | 0x88 => c.vlS % 2 ^ 16 * 2 ^ 32 + c.fflagsS % 32
  | 0x90 => c.elat % 4
  | _ => if 0x108 ≤ off ∧ off < 0x200 then (tget 0 c.xS ((off - 0x100) / 8)).toNat else 0

/-- Power page. -/
def readPower (p : Power) (off : Nat) : Nat :=
  match off with
  | 0x00 => p.reqMv % 1024
  | 0x08 => p.reqCnt.toNat * 2 ^ 16 + p.result % 16 * 2 ^ 8 + p.changing.toNat * 2 ^ 7 + p.target % 8 * 2 ^ 4 + p.cur % 8
  | 0x10 => p.cap % 8
  | 0x18 => p.limit % 8
  | 0x20 => p.stall.toNat
  | 0x28 => p.icount.toNat
  | 0x30 => p.voltAt p.icount % 1024 * 2 ^ 16 + p.tempC % 256
  | 0x38 => p.hot.toNat * 2 + p.pwrlim.toNat
  | _ => 0

/-- Monitor page. -/
def readMonit (m : Monit) (off : Nat) : Nat :=
  if off = 0 then m.freeze.toNat * 4 + m.en.toNat
  else if off = 8 then m.src % 256
  else if 0x10 ≤ off ∧ off < 0x50 then
    let i := (off - 0x10) / 4
    tget 0 m.edges i % 2 ^ 32 + (if i + 1 < 15 then tget 0 m.edges (i + 1) % 2 ^ 32 * 2 ^ 32 else 0)
  else if off = 0x50 then m.min % 2 ^ 32
  else if off = 0x58 then m.max % 2 ^ 32
  else if off = 0x60 then m.count % 2 ^ 64
  else if off = 0x68 then m.sum % 2 ^ 64
  else if 0x70 ≤ off ∧ off < 0xF0 then tget 0 m.bins ((off - 0x70) / 8) % 2 ^ 32
  else 0

/-- Chunks and commands outstanding at a world's instance of an engine. -/
def engineOut (s : State) (w c : Nat) : Nat :=
  ((s.bound w).map fun k =>
    if engineOf s w k = c then
      ((s.ctx w k).strand.ops.filter fun o => o.kind == 4 || o.kind == 5 || o.kind == 6).length else 0).foldl (· + ·) 0

/-- Engine page. -/
def readEngine (e : Engine) (outst off : Nat) : Nat :=
  match off with
  | 0x00 => e.efrozen.toNat
  | 0x08 => e.chunks.toNat
  | 0x10 => e.bytes.toNat
  | 0x18 => e.refused % 2 ^ 32 * 2 ^ 32 + e.failed % 2 ^ 32
  | 0x20 => outst % 2 ^ 16
  | 0x28 => e.lastst % 256
  | _ => 0

/-- Peer-link page. -/
def readPeer (p : Peer) (off : Nat) : Nat :=
  match off with
  | 0x00 => p.pfrozen.toNat * 2 ^ 8 + p.faridv.toNat * 2 ^ 6 + p.farid % 64
  | 0x10 => p.inen.toNat * 2 ^ 8 + p.inworld % 256
  | 0x18 => p.inbase % 2 ^ 40 * 2 ^ 12
  | 0x20 => p.insize % 2 ^ 36 * 2 ^ 12
  | 0x28 => p.violcnt % 2 ^ 64
  | 0x30 => p.tbldrop % 2 ^ 64
  | 0x38 => p.violoff % 2 ^ 64
  | 0x40 => p.indrop % 2 ^ 64
  | _ => 0

/-- Byte k of a digest stands at offset k; the digest's number has byte 0 lowest. -/
def digestWord (d i : Nat) : Nat := bits d (64 * i + 63) (64 * i)

/-- Checkpoint engine page. -/
def readCkpt (c : Ckpt) (off : Nat) : Nat :=
  match off with
  | 0x00 => c.world % 256 * 2 ^ 8 + c.estate % 8
  | 0x10 => c.ecmdCnt.toNat * 2 ^ 32 + c.lasterr % 256
  | 0x18 => c.rworld % 256
  | 0x20 => c.rmanpa % 2 ^ 52
  | 0x28 => c.pause % 2 ^ 64
  | 0x30 => c.donen % 2 ^ 32 * 2 ^ 32 + c.totaln % 2 ^ 32
  | 0x38 => c.lastman % 2 ^ 64
  | 0x40 => c.lastseq % 2 ^ 64
  | _ =>
    if 0x48 ≤ off ∧ off < 0x68 then digestWord c.rdig ((off - 0x48) / 8)
    else if 0x68 ≤ off ∧ off < 0x88 then digestWord c.lastdig ((off - 0x68) / 8)
    else 0

/-- The control word at an aligned offset of a page, as a party of world w reads it (03 R47, R49). -/
def readWord (s : State) (w kind idx off : Nat) : Nat :=
  match kind with
  | 0 => readReady s.ready off
  | 1 => readWorld (if s.core.up then s.world idx else (s.world idx).atRestart) off
  | 2 => readQueue s.pcgen (s.queue idx) off
  | 3 => readLaunch (s.launch w idx) off
  | 4 => readCtx (s.ctx w idx) off
  | 5 => readPower (s.pow idx) off
  | 6 => readMonit (s.monit idx) off
  | 7 => readEngine (s.engine w idx) (engineOut s w idx) off
  | 8 => readPeer (s.peer idx) off
  | _ => readCkpt s.ckpt off

/-- A load of 4 or 8 bytes (R48). -/
def readPage (s : State) (w kind idx off n : Nat) : Nat :=
  let v := readWord s w kind idx (off / 8 * 8)
  if n = 8 then v else bits v (8 * (off % 8) + 31) (8 * (off % 8))

end Sys2Proof.Machine
end

