-- ==== Sys2Proof/Machine/Policy.lean ====
section
/-!
DEFINITION. The policy core's watchdog and its recovery from the log (06 R123-R125).
-/

namespace Sys2Proof.Machine

/-- The policy core's registers as a reset leaves them; its memory stays. -/
def Core.restarted (c : Core) : Core := { c with up := false, recovering := false, verified := false, regs := [], pc := 0 }

/-- WATCHDOG_EXPIRY (R124): 1 ms of I/O die 0's counter without a write resets the policy core and nothing else. -/
def execWatchdogExpiry (s : State) : Res := .next { s with core := s.core.restarted }

/-- WRITEs of a transaction, in log order: address, old and new value. -/
def writesOf (s : State) (id : Nat) : List (Nat × Nat × Nat) :=
  s.wal.filterMap fun r => match r with
    | .write i pa old new => if i = id then some (pa, old, new) else none
    | _ => none

/-- A transaction without COMMIT is undone (R124): its WRITEs give back their old values, in reverse order, and the fresh
keys of a creation are zeroised. -/
def undoTxn (s : State) (id kind arg : Nat) : State :=
  let s := (writesOf s id).reverse.foldl (fun s x => writeStateWord s x.1 x.2.1) s
  let s := if kind = txCreate then s.modWorld arg fun x => { x with scrambler := 0, streams := [] } else s
  s.log (.fin id)

/-- The step at which a checkpoint or restore stands goes on (R125, R130). -/
def resumeCkpt (s : State) : State :=
  match s.ckpt.estate with
  | 1 => s.push .ckptStopped []
  | 2 => s.push .ckptDieshardsDone []
  | 3 =>
    { s with work := s.work ++ (match s.ckpt.op with
        | some o => o.left.map fun p => event .ckptPageCopied [p]
        | none => []) ++ [event .ckptMemshardsDone []] }
  | 4 => s.push .ckptManifestDone []
  | 5 => s.push .restoreDone []
  | _ => s

/-- A world switch in progress goes on from its last STEP (R125, 08 R143). -/
def resumeSwitch (s : State) : State :=
  match s.quantum.switch with
  | some (_, 1) => s.push .switchStopsDone []
  | some (_, 2) => s.push .switchSaveDone []
  | some (_, _) => s.push .switchRestoreDone []
  | none => s

/-- A committed transaction is redone (R124): its WRITEs in order, then the steps after its last STEP. Those that commit
before their last step are the destructions and the world switch (R123). -/
def redoTxn (s : State) (id kind arg : Nat) : State :=
  let s := (writesOf s id).foldl (fun s x => writeStateWord s x.1 x.2.2) s
  if kind = txDestroy ∨ kind = txReset then s.push .destroyComplete [arg]
  else if kind = txSwitch then resumeSwitch s
  else s.log (.fin id)

/-- A checkpoint is paused, and goes on from its last STEP once service resumes (R125); so does a restore, of which R125 says
nothing (DESIGN CHOICE, assumption 67). -/
def pausedTxn (kind : Nat) : Bool := kind == txCkpt || kind == txRestore

/-- Recovery of one transaction of the log that is not at its END. -/
def recoverTxn (s : State) (t : Nat × Nat × Nat) : State :=
  if pausedTxn t.2.1 then s
  else if s.wal.contains (.commit t.1) then redoTxn s t.1 t.2.1 t.2.2 else undoTxn s t.1 t.2.1 t.2.2

/-- Every transaction that recovery has to finish is at its END. -/
def recovered (s : State) : Bool := s.openTxns.all fun t => pausedTxn t.2.1

/-- Service resumes (R124, R125): PCGEN + 1 on every queue page; world 0 is made again where the restart met it FREE; the
checkpoint and the end of the quantum that waited go on; then the stores that waited, in arrival order. -/
def resumeService (s : State) : State :=
  let s := bootWorld0 { s with core := { s.core with up := true, recovering := false }, pcgen := s.pcgen + 1 }
  let s := resumeCkpt s
  let s := if s.quantum.deferred then
    { s with quantum := { s.quantum with deferred := false } }.push .quantumEnd [] else s
  (touchLines s (pagePA 2 0 0 / 64) (pagePA 2 32767 0xFFF / 64) 0).drain

/-- POLICY_CORE_RECOVERY failed (R124, R125): the core reboots, verifies its firmware and recovers from its log; a switch or
transaction in progress is finished or undone before service resumes. -/
def recover (s : State) (failed : Nat) : State :=
  if s.core.up ∨ !bit s.ready.iod 0 then s
  else if s.core.recovering then (if recovered s then resumeService s else s)
  else if failed ≠ 0 then { s with core := { s.core with verified := false } }
  else
    let s := s.openTxns.foldl recoverTxn { s with core := { s.core with recovering := true, verified := true } }
    if recovered s then resumeService s else s

/-- POLICY_CORE_RECOVERY. -/
def execPolicyCoreRecovery (s : State) : Res := .next (recover s (s.arg 0))

/-- The policy core works: it serves, or it finishes what a restart interrupted. -/
def Core.works (c : Core) : Bool := c.up || c.recovering

end Sys2Proof.Machine
end

