-- ==== Sys2Proof/Machine/Image.lean ====
section
/-!
DEFINITION. The images of a world's fabric state in its switch area: what a world switch and a rotation write there and read
back (08 R143, R144, R151; 05 R105; 07 R128). The manual lays the images out nowhere (DESIGN CHOICE, assumption 61).
-/

namespace Sys2Proof.Machine

/-! ## An Anvil's contents -/

/-- Bytes of a strand's image of its Anvil: the accumulators, and the resident B. -/
def anvilBytes : Nat := 2 ^ 20

/-- Accumulator elements of 4 bytes each, and from 512 KiB on the weights, each with its block scale. -/
def Anvil.cells (a : Anvil) : Tbl Byte :=
  (a.acc.flatMap fun e => numCells (4 * e.1) 4 e.2.toNat) ++ a.b.flatMap fun e => numCells (2 ^ 19 + 4 * e.1) 4 e.2

/-- Words of 4 bytes of a part of the cells, by index. -/
def wordsOf (cells : Tbl Byte) (lo n : Nat) : List (Nat × Nat) :=
  (dropRepeats ((tslice lo n cells).map fun e => (e.1 - lo) / 4)).map fun i =>
    (i, natOf ((List.range 4).map fun j => tget 0 cells (lo + 4 * i + j)))

/-- The accumulators and the resident B as an image holds them. -/
def Anvil.ofCells (a : Anvil) (cells : Tbl Byte) : Anvil :=
  { a with
    acc := (wordsOf cells 0 (2 ^ 19)).map fun e => (e.1, BitVec.ofNat 32 e.2)
    b := wordsOf cells (2 ^ 19) (2 ^ 19) }

/-! ## Parts of an image -/

/-- What a part of an image holds: a vault allocation, or the Anvil state of a context. -/
inductive Holds where
  | vault (pa : Nat)
  | anvil (k : Nat)
  deriving DecidableEq, Repr

/-- A part: where it stands in memory, its bytes, and what it holds. -/
structure Part where
  pa   : Nat
  n    : Nat
  what : Holds
  deriving DecidableEq, Repr

/-- The part waits at its port to be read (01 R27), or to be written (07 R131). -/
def Part.waits (s : State) (p : Part) : Bool := portBusy s p.pa p.n
def Part.writeWaits (s : State) (p : Part) : Bool := Machine.writeWaits s p.pa p.n

def Part.ready (s : State) (p : Part) : Bool := memReady s p.pa && memReady s (p.pa + p.n - 1)

/-- A line of the world's own slot fails (05 R105). -/
def Part.fails (s : State) (w : Nat) (p : Part) : Bool := tagFails s (keySlot s w) p.pa p.n

/-- The part's contents leave the fabric for memory, under the world's key slot. -/
def Part.save (w : Nat) (s : State) (p : Part) : State :=
  let cells := match p.what with
    | .vault pa => readCells s 0 pa p.n
    | .anvil k => match (s.ctx w k).strand.anvil with | some a => a.cells | none => []
  let s := if p.ready s then performCells s (keySlot s w) p.pa p.n cells else s
  match p.what with
  | .vault pa => { s with mem := terase pa p.n s.mem }
  | .anvil k => s.modStrand w k fun t => { t with anvil := t.anvil.map fun a => { a with acc := [], b := [] } }

/-- The part's contents return to the fabric. -/
def Part.load (w : Nat) (s : State) (p : Part) : State :=
  let cells := readCells s (keySlot s w) p.pa p.n
  match p.what with
  | .vault pa => { s with mem := putCells pa p.n cells s.mem }
  | .anvil k => s.modStrand w k fun t => { t with anvil := t.anvil.map fun a => a.ofCells cells }

/-! ## The image of a world switch (R143) -/

/-- The contexts of a world whose Anvil state stands on the fabric, in rising order. -/
def anvilsOn (s : State) (w : Nat) : List Nat := (s.bound w).filter (holdsAnvil s w)

/-- Records of Anvil state, 1 MiB each from `base` on, one for each context listed; one that has gone keeps its place. -/
def anvilParts (s : State) (w base : Nat) (dir ks : List Nat) : List Part :=
  (ks.filter fun k => dir.contains k && attached s w k).map fun k =>
    { pa := base + posIn dir k * anvilBytes, n := anvilBytes, what := .anvil k }

/-- Where the Anvil records of a fabric image begin: behind the vaults of all the cores. -/
def anvilArea (s : State) (w : Nat) : Nat := switchArea s w + 640 * 0x300000

/-- The parts of a gang's state: its vault allocations in their places, and its Anvils'. -/
def switchParts (s : State) (w : Nat) (dir : List Nat) (g : Gang) : List Part :=
  (g.allocs.map fun a => { pa := imagePA s w a.1 a.2, n := g.size, what := .vault (vaultPA a.1 a.2) }) ++
  anvilParts s w (anvilArea s w) dir g.ctxs

/-- Launches of a world with the parts of their gangs on the fabric; `dir` lists the contexts with Anvil state. -/
def launchImages (s : State) (w : Nat) (dir : List Nat) : List (Nat × List Part) :=
  (tslice (w * 1024) 1024 s.launches).map fun e => (e.1 - w * 1024, e.2.gangs.flatMap fun g => switchParts s w dir g.2)

/-- The image is to be written, or read, and a part of it waits at its port. -/
def saveWaits (s : State) (w : Nat) : Bool := (launchImages s w (anvilsOn s w)).any fun e => e.2.any (Part.writeWaits s)
def imageReadWaits (s : State) (w : Nat) : Bool := (launchImages s w (s.world w).anvils).any fun e => e.2.any (Part.waits s)

/-- Pages that the save of a world writes. -/
def savedPages (s : State) (w : Nat) : List Nat :=
  (launchImages s w (anvilsOn s w)).flatMap fun e => e.2.flatMap fun p => (pagesOf p.pa p.n).map (· / 4096)

/-- Every allocation that a world's gangs hold: core, offset, size. -/
def worldAllocs (s : State) (w : Nat) : List (Nat × Nat × Nat) :=
  (tslice (w * 1024) 1024 s.launches).flatMap fun e => e.2.gangs.flatMap fun g =>
    g.2.allocs.map fun a => (a.1, a.2, g.2.size)

/-- Granules of an allocation. -/
def granulesOf (a : Nat × Nat × Nat) : List Nat :=
  (List.range ((a.2.2 + 65535) / 65536)).map fun i => a.1 * 64 + a.2.1 / 65536 + i

/-- Step 3 of R143: sundog entries are spilled, and the fabric state goes to the switch area; the vaults' dirty bits go with
it (07 R128). -/
def saveWorld (s : State) (w : Nat) : State :=
  let s := (s.sundogs.filter fun d => d.tag / 2 ^ 32 == w).foldl spill s
  let gs := ((worldAllocs s w).flatMap granulesOf)
  let kept := gs.filter fun g => tget false s.dirtyV g
  let dir := anvilsOn s w
  let s := ((launchImages s w dir).flatMap (·.2)).foldl (Part.save w) s
  ({ s with dirtyV := gs.foldl (fun t g => terase g 1 t) s.dirtyV } : State).modWorld w fun x => { x with imageV := kept, anvils := dir }

/-- A launch whose saved state cannot be read: its contexts are killed and it completes WORLDLOST (R144). -/
def loseLaunch (s : State) (w l : Nat) : State :=
  killAll (s.modLaunch w l fun x => { x with worldLost := true }) w l true

/-- Saved state is read: all of its parts, or the launch is lost, and a tag failure sets COMPROMISED (R144). -/
def loadParts (w : Nat) (s : State) (ps : List Part) : State × Bool :=
  if ps.any fun p => p.fails s w then (compromise s w, false)
  else if ps.any fun p => !p.ready s then (s, false)
  else (ps.foldl (Part.load w) s, true)

/-- Step 5 of R143: the incoming world's state returns to the locations that it held. -/
def restoreWorld (s : State) (w : Nat) : State :=
  let ims := launchImages s w (s.world w).anvils
  let s := { s with dirtyV := setAll (s.world w).imageV s.dirtyV }.modWorld w fun x => { x with imageV := [], anvils := [] }
  ims.foldl (fun s e =>
    match loadParts w s e.2 with
    | (s, true) => s
    | (s, false) => loseLaunch s w e.1) s

/-! ## The image of a rotated gang (R151), in the last GiB of the switch area -/

/-- Allocations of a gang of a launch, and the bytes that its image gives to each. -/
def Launch.coreCount (x : Launch) (g : Gang) : Nat := if x.span = 0 then Nat.min 8 g.ctxs.length else 2 ^ x.span
def Gang.stride (g : Gang) : Nat := (g.size + 65535) / 65536 * 65536

/-- Bytes of the image of a gang whose `anvils` are set. -/
def rotSize (x : Launch) (g : Gang) : Nat := x.coreCount g * g.stride + g.anvils.length * anvilBytes

/-- Images that stand in that GiB: first byte and end. -/
def rotated (s : State) (w : Nat) : List (Nat × Nat) :=
  (tslice (w * 1024) 1024 s.launches).flatMap fun e => e.2.gangs.filterMap fun (g : Nat × Gang) =>
    if g.2.state = .rotated ∨ g.2.state = .rotating then some (g.2.image, g.2.image + rotSize e.2 g.2) else none

/-- The lowest place for an image of n bytes. -/
def rotPlace (s : State) (w n : Nat) : Option Nat :=
  let rs := rotated s w
  ((0 :: rs.map (·.2)).filter fun a => decide (a + n ≤ 2 ^ 30) &&
    rs.all fun r => decide (a + n ≤ r.1) || decide (r.2 ≤ a)).foldl
      (fun b a => match b with | some c => some (Nat.min a c) | none => some a) none

/-- Parts of the image of a gang whose allocations stand, or will stand, at given places. -/
def rotParts (s : State) (w : Nat) (g : Gang) (al : List (Nat × Nat)) : List Part :=
  let base := switchArea s w + 3 * 2 ^ 30 + g.image
  ((List.range al.length).map fun i =>
    let a := nth (0, 0) al i
    { pa := base + i * g.stride, n := g.size, what := .vault (vaultPA a.1 a.2) }) ++
  anvilParts s w (base + al.length * g.stride) g.anvils g.ctxs

end Sys2Proof.Machine
end

