-- ==== Sys2Proof/Machine/Sched.lean ====
section
/-!
DEFINITION. The quantum table, the world switch, and the dispatcher: placement, reservation, pre-emption, rotation
(08 R141-R152, 03 R53, R54; 09 R158-R160; 10 R181; 11 R221).
-/

namespace Sys2Proof.Machine

/-! ## The quantum table (R142) -/

/-- The entry is not skipped. -/
def entryRuns (s : State) (e : Nat × Nat) : Bool :=
  (s.world e.1).wstate == 2 && (e.1 == s.quantum.world || decide (4 ≤ (topRange (s.world e.1)).2))

/-- The first entry that is not skipped, from index i on, wrapping; with its index. -/
def nextEntry (s : State) (table : List (Nat × Nat)) (i : Nat) : Option (Nat × Nat × Nat) :=
  ((List.range table.length).map fun j => (i + j) % table.length).findSome? fun j =>
    let e := nth (0, 0) table j
    if entryRuns s e then some (j, e.1, e.2) else none

/-- The outgoing world's contexts stop (R143 step 1); those that ran will resume at its next quantum, and their pages show the
state that they had, also that of one which still replays since the last switch (03 R57). -/
def stopWorld (s : State) (w : Nat) : State :=
  (s.bound w).foldl (fun s k =>
    if (s.ctx w k).state.live ∧ !(s.ctx w k).due then
      let h := if (s.ctx w k).heldState ≠ 0 then (s.ctx w k).heldState else (s.ctx w k).state.code
      (stopCtx (s.modCtx w k fun c => { c with ranAtSwitch := true }) w k).modCtx w k fun c => { c with heldState := h }
    else s) s

/-- A switch to a world begins: its transaction commits with its first WRITE, of the world in its quantum; the table's index follows
(06 R123). -/
def beginSwitch (s : State) (w len idx : Nat) : State :=
  let old := s.quantum.world
  let s := (s.beginTxn txSwitch w).logOpen txSwitch w fun id => .write id (corePA s 0) old w
  let s := (s.logOpen txSwitch w .commit).logOpen txSwitch w fun id => .write id (corePA s 1) s.quantum.idx idx
  let s := s.logStep txSwitch w 1
  let s := { s with quantum := { s.quantum with switch := some (w, 1), len := len, idx := idx } }
  (stopWorld s old).push .switchStopsDone []

/-- The next quantum is the same world's: only the table's index changes (06 R123). -/
def staysOn (s : State) (len idx : Nat) : State :=
  let s := if s.quantum.idx = idx then s else s.logOnce txTable 0 [(corePA s 1, s.quantum.idx, idx)]
  { s with quantum := { s.quantum with len := len, idx := idx } }

/-- The end of a quantum (R142): the next entry is resolved. -/
def endQuantum (s : State) : State :=
  let q := s.quantum
  let table := q.next.getD q.table
  let i := if q.next.isSome then 0 else q.idx
  let s := { s with quantum := { q with table := table, next := none, deferred := false } }
  match nextEntry s table i with
  | some (j, w, len) =>
    let idx := (j + 1) % table.length
    if w = q.world then staysOn s (q.len + len) idx else beginSwitch s w len idx
  | none => if q.world = 0 then staysOn s 10000 i else beginSwitch s 0 10000 i

/-- A phase of the checkpoint of the world in its quantum is under way (07 R126). -/
def phaseUnderWay (s : State) : Bool :=
  decide (1 ≤ s.ckpt.estate) && decide (s.ckpt.estate ≤ 4) && s.ckpt.world == s.quantum.world

/-- QUANTUM_END (R142): it waits for the policy core (06 R125), and for a checkpoint phase under way (07 R126). -/
def quantumEnd (s : State) : State :=
  if s.quantum.switch.isSome then s
  else if !s.core.up ∨ phaseUnderWay s then { s with quantum := { s.quantum with deferred := true } }
  else endQuantum s

/-- QUANTUM_END. -/
def execQuantumEnd (s : State) : Res := .next (quantumEnd s)


/-- Launches of a world that are PENDING or ACTIVE, not HELD, with gangs still to place (R146). -/
def Launch.inSet (x : Launch) : Bool := x.bound && !x.held && x.toPlace

/-- Launch numbers of a world's dispatch set. -/
def dispatchSet (s : State) (w : Nat) : List Nat :=
  (tslice (w * 1024) 1024 s.launches).filterMap fun e => if e.2.inSet then some (e.1 - w * 1024) else none

/-- The world has no packet in its queues, no launch in its dispatch set and no bound context (R142). -/
def worldIdle (s : State) (w : Nat) : Bool :=
  (s.queues.all fun (e : Nat × Queue) => e.2.owner != w || (e.2.order.isEmpty && e.2.cur.isNone)) &&
    (dispatchSet s w).isEmpty && (s.bound w).isEmpty

/-- QUANTUM_IDLE_END (R142). -/
def execQuantumIdleEnd (s : State) : Res :=
  .next (if !(s.world s.quantum.world).conf && worldIdle s s.quantum.world then quantumEnd s else s)

/-! ## The world switch (R143, R144) -/

/-- SUNDOG_SPILL tag (R221): of a context that is not RUNNING, WAITING or RESUMING, whose frame is in its vault. What waited for
a full table goes on. -/
def execSundogSpill (s : State) : Res :=
  .next (match s.sundogs.find? fun d => d.tag == s.arg 0 with
    | some d => if spillable s d then wakeAll (spill s d) else s
    | none => s)

/-- SWITCH_STOPS_DONE (R143 steps 2 and 3): every context of the outgoing world has left STOPPING. Function resets that waited
for the saves follow them (04 R95). -/
def execSwitchStopsDone (s : State) : Res :=
  .next (match s.quantum.switch with
    | some (w, 1) =>
      let o := s.quantum.world
      if !s.core.works ∨ (s.bound o).any (fun k => (s.ctx o k).busy) then s
      else if s.flights.any (fun x => x.1 == o) then
        park { s with work := s.work ++ flightEvents s fun a _ => a == o } s.ev
      else if saveWaits s o then
        park { s with work := ((savedPages s o).filter fun p => uncopied s (p * 4096)).map (fun p => event .ckptPageCopied [p]) ++ s.work }
          s.ev
      else
        let s := (saveWorld (s.logStep txSwitch w 2) o).logStep txSwitch w 3
        let fs := s.quantum.flrs
        let s := { s with quantum := { s.quantum with switch := some (w, 2), flrs := [] } }
        (fs.foldl flr s).push .switchSaveDone []
    | _ => s)

/-- SWITCH_SAVE_DONE (R143 steps 4 and 5): the scrambler key changes and the incoming state is read. -/
def execSwitchSaveDone (s : State) : Res :=
  .next (match s.quantum.switch with
    | some (w, 2) =>
      if !s.core.works then s
      else if imageReadWaits s w then park s s.ev
      else
        let s := (s.modWorld w fun x => { x with scrambler := Config.scramblerKey s.fresh }).logStep txSwitch w 4
        let s := { s with fresh := s.fresh + 1, quantum := { s.quantum with world := w, switch := some (w, 3) } }
        ((restoreWorld s w).logStep txSwitch w 5).push .switchRestoreDone []
    | _ => s)

/-- Contexts that ran when they were stopped, of a world or of a gang, run again; and those that RUN has reached since. -/
def resumeThese (s : State) (w : Nat) (ks : List Nat) : State :=
  ks.foldl (fun s k =>
    let c := s.ctx w k
    if !c.resident then s
    else if c.due then loadCtx s w k
    else if c.ranAtSwitch ∧ c.state = .saved then runCtx s w k
    else s) s

/-- Steps that waited for the world to hold the fabric: rotations, CHECKPOINT packets. -/
def wokenBy (s : State) (w : Nat) : List Event :=
  ((tslice (w * 1024) 1024 s.launches).flatMap fun e => e.2.gangs.filterMap fun (g : Nat × Gang) =>
    if g.2.state = .rotating then some (event .rotationSaveDone [w, e.1 - w * 1024 + 1024 * g.1]) else none) ++
  s.queues.filterMap fun (e : Nat × Queue) =>
    match e.2.cur with
    | some p => if p.kind = 4 ∧ !p.armed ∧ e.2.owner = w then some (event .checkpoint [e.1]) else none
    | none => none

/-- SWITCH_RESTORE_DONE (R143 steps 6 and 7): contexts resume and dispatch begins; a gang whose rotation the switch interrupted
stays stopped for it (R151). A world that has been destroyed meanwhile keeps no quantum (04 R95). -/
def execSwitchRestoreDone (s : State) : Res :=
  .next (match s.quantum.switch with
    | some (w, 3) =>
      if !s.core.works then s
      else
        let s := { s with quantum := { s.quantum with switch := none } }
        let ks := (s.bound w).filter fun k => (s.gangOf w k).state != .rotating
        let s := (resumeThese (s.logStep txSwitch w 6) w ks).push .dispatchDecision []
        let s := (s.logStep txSwitch w 7).endTxn txSwitch w
        let s := { s with work := s.work ++ wokenBy s w }
        let s := if s.core.recovering then s.push .policyCoreRecovery [] else s
        let s := if (s.world w).wstate ≠ 2 then s.push .quantumEnd [] else s
        if s.ckpt.world = w then resumeCkpt s else s
    | _ => s)

/-! ## Resources of the fabric (R147) -/

/-- Where a gang could stand. -/
structure Spot where
  cluster : Nat
  /-- Cores that receive an allocation; the core of each strand. -/
  cores   : List Nat
  homes   : List Nat
  deriving DecidableEq, Repr

/-- Number of strands of a gang of a launch (09 R159). -/
def Launch.strands (x : Launch) : Nat := extents x.widths x.count 0 x.glvl

/-- The places that R147 tries, in its order. -/
def spotsOf (s : State) (x : Launch) : List Spot :=
  let n := x.strands
  if x.span = 0 then
    ((List.range 80).filter (bit s.ready.clu)).map fun cl =>
      { cluster := cl, cores := (coresOf cl).take n, homes := (List.range n).map fun j => nth 0 (coresOf cl) (j % 8) }
  else
    (List.range 80).flatMap fun k =>
      ((List.range (8 / 2 ^ x.span)).map (· * 2 ^ x.span)).filterMap fun d0 =>
        let dies := (List.range (2 ^ x.span)).map (d0 + ·)
        if dies.all fun d => bit s.ready.cdie d && bit s.ready.clu (d * 10 + k / 8) then
          some { cluster := d0 * 10 + k / 8, cores := dies.map fun d => d * 80 + k,
                 homes := List.replicate n (d0 * 80 + k) }
        else none

/-- Strand slots of the fabric in use by a world. -/
def usedSlots (s : State) (w : Nat) : List Nat :=
  (s.bound w).filterMap fun k => if (s.ctx w k).resident then some (s.ctx w k).slotNum else none

/-- Slots that pre-emption has freed, or frees, for another gang (R149). -/
def claimedSlots (s : State) (w l g : Nat) : List Nat :=
  (s.world w).claims.filterMap fun c => if c.1 = l ∧ c.2.1 = g then none else some c.2.2

/-- Strand slots that a gang cannot have. -/
def takenSlots (s : State) (w l g : Nat) : List Nat := usedSlots s w ++ claimedSlots s w l g

/-- Free slots of a core. -/
def freeSlots (used : List Nat) (core : Nat) : List Nat :=
  ((List.range 4).map fun i => core * 4 + i).filter fun x => !(used.contains x)

/-- A slot for each strand of a list of cores, the lowest first; none: some core has too few. -/
def takeSlots : List Nat → List Nat → Option (List Nat)
  | _, [] => some []
  | used, c :: cs =>
    match freeSlots used c with
    | [] => none
    | x :: _ => (takeSlots (x :: used) cs).map fun r => x :: r

/-- Granules of a core's vault in use by a world. -/
def usedGranules (s : State) (w core : Nat) : List Nat :=
  ((worldAllocs s w).filter fun a => a.1 == core).flatMap fun a => (granulesOf a).map fun g => g - core * 64

/-- The lowest 64 KiB boundary where a size fits in a core's vault (10 R181). -/
def vaultFit (s : State) (w core size : Nat) : Option Nat :=
  let used := usedGranules s w core
  let n := (size + 65535) / 65536
  ((List.range 48).find? fun g =>
    decide (g + n ≤ 48) && (List.range n).all fun i => !(used.contains (g + i))).map (· * 65536)

/-- The lowest 64 KiB boundary where a size fits in the vaults of several cores at one offset (11 R212). -/
def vaultFitAll (s : State) (w size : Nat) (cores : List Nat) : Option Nat :=
  let used := cores.flatMap (usedGranules s w)
  let n := (size + 65535) / 65536
  ((List.range 48).find? fun g =>
    decide (g + n ≤ 48) && (List.range n).all fun i => !(used.contains (g + i))).map (· * 65536)

/-- Every allocation of a spot, or none: those of a span gang begin at one offset, since the frames of a strand's slices do
(11 R212). -/
def vaultFits (s : State) (w size span : Nat) (cores : List Nat) : Option (List (Nat × Nat)) :=
  if span = 0 then
    cores.foldr (fun c r => match vaultFit s w c size, r with
      | some o, some l => some ((c, o) :: l)
      | _, _ => none) (some [])
  else (vaultFitAll s w size cores).map fun o => cores.map fun c => (c, o)

/-- Bands granted on a cluster's Anvil. -/
def usedBands (s : State) (w cluster : Nat) : Nat :=
  ((tslice (w * 1024) 1024 s.launches).flatMap fun e => e.2.gangs.filterMap fun (g : Nat × Gang) =>
    if g.2.cluster = cluster then some g.2.bands else none).foldl (· + ·) 0

/-- Bands that a gang of a launch receives. -/
def Launch.bandsOf (x : Launch) : Nat := Nat.min x.bands (bandClamp x.elat)

def bandsFit (s : State) (w : Nat) (x : Launch) (cluster : Nat) : Bool :=
  x.bandsOf == 0 || (bit s.ready.anvil cluster && decide (x.bandsOf + usedBands s w cluster ≤ 16))

/-- Free context numbers of a world, the lowest first. -/
def freeNumbers (s : State) (w n : Nat) : List Nat :=
  ((List.range 16384).filter fun k => (s.ctx w k).state == .empty).take n

/-- Cores that a world's reservation keeps: (launch, gang, cluster or home core, span). -/
def reservedCores : Nat × Nat × Nat × Nat → List Nat
  | (_, _, x, span) => if span = 0 then coresOf x else (List.range (2 ^ span)).map fun t => x + 80 * t

/-- The spot is kept for another gang (R148). -/
def spotReserved (s : State) (w l g : Nat) (sp : Spot) : Bool :=
  match (s.world w).reserve with
  | some r => !(r.1 == l && r.2.1 == g) && sp.cores.any fun c => (reservedCores r).contains c
  | none => false

/-- Everything but strand slots is there. -/
def spotOk (s : State) (w l g : Nat) (x : Launch) (sp : Spot) : Bool :=
  !spotReserved s w l g sp && (vaultFits s w (allocSize x.vkib x.strands x.span x.elat) x.span sp.cores).isSome &&
    bandsFit s w x sp.cluster

/-! ## Placing a gang -/

/-- What a candidate is (R146). -/
inductive Cand where
  | stopped (g : Nat)
  | fresh
  | rotated (g : Nat)
  deriving DecidableEq, Repr

/-- The first gang of a launch to place: pre-empted ones in stop order, undispatched ones, rotated ones in stop order. -/
def Launch.first (x : Launch) : Option Cand :=
  let oldest := fun (st : GangState) =>
    (x.gangs.filter fun (e : Nat × Gang) => e.2.state == st).foldl (fun (b : Option (Nat × Nat)) (e : Nat × Gang) =>
      match b with
      | some p => if e.2.stopOrder < p.2 then some (e.1, e.2.stopOrder) else b
      | none => some (e.1, e.2.stopOrder)) none
  match oldest .preempted with
  | some p => some (.stopped p.1)
  | none =>
    if !x.allPlaced then some .fresh
    else match oldest .rotated with
      | some p => some (.rotated p.1)
      | none => none

/-- Frame address of a strand whose allocation begins at an offset (11 R212). -/
def frameAt (x : Launch) (core off j : Nat) : Nat :=
  let n := x.strands
  let p := perCore n x.span
  let a := allocSize x.vkib n x.span x.elat
  vaultPA core (off + a - p * sliceSize x.vkib - (position j x.span + 1) * frameSize x.elat)

/-- The work identifier of strand j of gang g (09 R158, R159). -/
def Launch.wid (x : Launch) (g j : Nat) : Nat :=
  j + g * 2 ^ ((List.range x.glvl).map fun i => nth 0 x.widths i).foldl (· + ·) 0

/-- A context at binding (03 R54). -/
def bindCtx (x : Launch) (l g j core off slot : Nat) : Ctx :=
  { Ctx.zero with
    state := .running, root := x.root, launch := l, widv := BitVec.ofNat 64 (x.wid g j), resident := true,
    slotNum := slot, saveFrame := frameAt x core off j, pcS := BitVec.ofNat 64 x.entry, elat := x.elat,
    xS := tput 0 10 (BitVec.ofNat 64 x.arg) [], gang := g, index := j, span := x.span
    strand := { Strand.zero with pc := BitVec.ofNat 64 x.entry, x := tput 0 10 (BitVec.ofNat 64 x.arg) [] } }

/-- Offset of the allocation on a core. -/
def offOn (al : List (Nat × Nat)) (core : Nat) : Nat := ((al.find? fun a => a.1 == core).map (·.2)).getD 0

/-- A gang stands on the fabric: it enters the visit set, the launch is ACTIVE, a reservation of it ends. -/
def landed (s : State) (w l g : Nat) : State :=
  let s := s.modLaunch w l fun x => { x with
    lstate := .active, residentg := x.residentg + 1
    visited := if x.visited.contains g then x.visited else x.visited ++ [g] }
  let s := s.modWorld w fun x => { x with
    claims := x.claims.filter fun c => !(c.1 == l && c.2.1 == g)
    reserve := match x.reserve with
      | some r => if r.1 = l ∧ r.2.1 = g then none else some r
      | none => none }
  wakePage s w 3 l 0

/-- An undispatched gang is placed: its vault ranges read zero (10 R181), and contexts are bound (R147, 03 R53). -/
def placeFresh (s : State) (w l : Nat) (sp : Spot) (al : List (Nat × Nat)) (slots : List Nat) : State :=
  let x := s.launch w l
  let g := x.nextGang
  let n := x.strands
  let ks := freeNumbers s w n
  let s := al.foldl (fun s a => freshAlloc s (allocSize x.vkib n x.span x.elat) a) s
  let s := (List.range n).foldl (fun s j =>
    let k := nth 0 ks j
    let core := nth 0 sp.homes j
    wakePage (s.putCtx w k (bindCtx x l g j core (offOn al core) (nth 0 slots j))) w 4 k 0) s
  let s := s.modLaunch w l fun x => { x with
    nextGang := x.nextGang + 1, dispatched := x.dispatched + 1, fails := 0
    gangs := tset g { Gang.zero with
      state := .resident, ctxs := ks, allocs := al, size := allocSize x.vkib n x.span x.elat, cluster := sp.cluster
      span := x.span, bands := x.bandsOf, order := (s.world w).orderNext } x.gangs }
  landed (s.modWorld w fun x => { x with orderNext := x.orderNext + 1 }) w l g

/-- A rotated gang is placed again, its vault contents with their dirty bits, its Anvil state and its context numbers with it
(R151, 10 R181, 07 R128). If its image cannot be read its launch is lost (R144). -/
def placeRotated (s : State) (w l g : Nat) (sp : Spot) (al : List (Nat × Nat)) (slots : List Nat) : State :=
  let x := s.launch w l
  let gg := tget Gang.zero x.gangs g
  match loadParts w s (rotParts s w gg al) with
  | (s, false) => loseLaunch s w l
  | (s, true) =>
    let s := { s with dirtyV := setAll (gg.dirtyG.map fun (d : Nat × Nat) =>
      let a := nth (0, 0) al d.1
      a.1 * 64 + a.2 / 65536 + d.2) s.dirtyV }
    let ks := gg.ctxs.filter fun k => (s.ctx w k).state != .dead
    let s := (List.range gg.ctxs.length).foldl (fun s j =>
      let k := nth 0 gg.ctxs j
      let core := nth 0 sp.homes j
      if (s.ctx w k).state = .dead then s
      else s.modCtx w k fun c => { c with
        resident := true, slotNum := nth 0 slots (posIn ks k), saveFrame := frameAt x core (offOn al core) j }) s
    let s := s.modLaunch w l fun x => { x with
      gangs := tset g { gg with
        state := .resident, allocs := al, cluster := sp.cluster, bands := x.bandsOf, image := 0, dirtyG := [], anvils := [], fails := 0
        order := (s.world w).orderNext } x.gangs }
    resumeThese (landed (s.modWorld w fun x => { x with orderNext := x.orderNext + 1 }) w l g) w gg.ctxs

/-- Contexts of a gang that need a slot. -/
def living (s : State) (w : Nat) (gg : Gang) : List Nat := gg.ctxs.filter fun k => (s.ctx w k).state != .dead

/-- A pre-empted gang takes slots on the cores that it had (R149). Its dispatch is still its first one, where "latest dispatch"
and "dispatched earliest" (R149, R151) are asked of it (DESIGN CHOICE, assumption 89). -/
def placeStopped (s : State) (w l g : Nat) (slots : List Nat) : State :=
  let gg := tget Gang.zero (s.launch w l).gangs g
  let ks := living s w gg
  let s := (List.range ks.length).foldl (fun s j =>
    s.modCtx w (nth 0 ks j) fun c => { c with resident := true, slotNum := nth 0 slots j }) s
  let s := s.modLaunch w l fun x => { x with
    gangs := tset g { gg with state := .resident, fails := 0 } x.gangs }
  resumeThese (landed s w l g) w gg.ctxs

/-- The number of a candidate's gang. -/
def Cand.gang (x : Launch) : Cand → Nat
  | .stopped g => g
  | .fresh => x.nextGang
  | .rotated g => g

/-- place(G) of R147: none where it fails. -/
def tryPlace (s : State) (w l : Nat) (c : Cand) : Option State :=
  let x := s.launch w l
  match c with
  | .stopped g =>
    let gg := tget Gang.zero x.gangs g
    let homes := (living s w gg).map fun k => (s.ctx w k).core 0
    if gg.ctxs.any (fun k => (s.ctx w k).state == .stopping) ∨ spotReserved s w l g { cluster := gg.cluster, cores := homes, homes := homes } then
      none
    else (takeSlots (takenSlots s w l g) homes).map (placeStopped s w l g)
  | _ =>
    let g := c.gang x
    if c = .fresh ∧ (freeNumbers s w x.strands).length < x.strands then none
    else (spotsOf s x).findSome? fun sp =>
      let homes := match c with
        | .rotated g =>
          let gg := tget Gang.zero x.gangs g
          (List.range gg.ctxs.length).filterMap fun j =>
            if (s.ctx w (nth 0 gg.ctxs j)).state = .dead then none else some (nth 0 sp.homes j)
        | _ => sp.homes
      if !spotOk s w l g x sp then none
      else match takeSlots (takenSlots s w l g) homes,
          vaultFits s w (allocSize x.vkib x.strands x.span x.elat) x.span sp.cores with
        | some slots, some al =>
          some (match c with
            | .rotated g => placeRotated s w l g sp al slots
            | _ => placeFresh s w l sp al slots)
        | _, _ => none

/-! ## Pre-emption (R149) -/

/-- Gangs of a world that could be stopped for a launch, in the order in which they are chosen: lowest priority, then
latest dispatch. -/
def victimsFor (s : State) (w : Nat) (x : Launch) : List (Nat × Nat) :=
  let all := (tslice (w * 1024) 1024 s.launches).flatMap fun e => e.2.gangs.filterMap fun (g : Nat × Gang) =>
    if g.2.state = .resident ∧ e.2.prio < x.prio ∧ e.2.elat ≤ x.rlat ∧
        g.2.ctxs.all (fun k => (s.ctx w k).state.live) then
      some (e.1 - w * 1024, g.1, e.2.prio, g.2.order) else none
  (List.range 8).flatMap fun p =>
    let here := all.filter fun v => v.2.2.1 == p
    (here.foldr (fun v r => (r.filter fun u => v.2.2.2 < u.2.2.2) ++ [v] ++ r.filter fun u => !(v.2.2.2 < u.2.2.2)) []).map
      fun v => (v.1, v.2.1)

/-- Slots that a gang's contexts hold. -/
def slotsOf (s : State) (w : Nat) (v : Nat × Nat) : List Nat :=
  (tget Gang.zero (s.launch w v.1).gangs v.2).ctxs.filterMap fun k =>
    if (s.ctx w k).resident then some (s.ctx w k).slotNum else none

/-- The first victims whose slots suffice at a spot, and the slots that the gang then takes. -/
def enough (s : State) (w : Nat) (homes : List Nat) : List Nat → List (Nat × Nat) → List (Nat × Nat) →
    Option (List (Nat × Nat) × List Nat)
  | used, got, vs =>
    match vs with
    | [] => none
    | v :: r =>
      let used := used.filter fun x => !((slotsOf s w v).contains x)
      match takeSlots used homes with
      | some slots => some (got ++ [v], slots)
      | none => enough s w homes used (got ++ [v]) r

/-- A victim stops and gives up its slots; it keeps its vault allocation and its bands. -/
def preemptGang (s : State) (w : Nat) (v : Nat × Nat) : State :=
  let gg := tget Gang.zero (s.launch w v.1).gangs v.2
  let s := s.modLaunch w v.1 fun x => { x with residentg := x.residentg - 1, gangs := tset v.2 { gg with
    state := .preempted, stopOrder := (s.world w).orderNext } x.gangs }
  let s := s.modWorld w fun x => { x with orderNext := x.orderNext + 1 }
  gg.ctxs.foldl (fun s k => stopCtx (s.modCtx w k fun c => { c with ranAtSwitch := true }) w k) s

/-- Some pre-empted gang has not given up its slots yet. -/
def preempting (s : State) (w : Nat) : Bool :=
  (s.bound w).any fun k => (s.gangOf w k).state == .preempted && (s.ctx w k).resident

/-- A gang of a pre-empting launch that fails for slots alone stops victims at the first spot where that suffices, and takes
the slots that become free there (R149). -/
def tryPreempt (s : State) (w l : Nat) (c : Cand) : State :=
  let x := s.launch w l
  let g := c.gang x
  if !x.preempt ∨ preempting s w ∨ (c = .fresh ∧ (freeNumbers s w x.strands).length < x.strands) then s
  else
    let used := takenSlots s w l g
    let spots : List Spot := match c with
      | .stopped g =>
        let gg := tget Gang.zero x.gangs g
        let homes := (living s w gg).map fun k => (s.ctx w k).core 0
        let sp : Spot := { cluster := gg.cluster, cores := homes, homes := homes }
        if spotReserved s w l g sp then [] else [sp]
      | _ => (spotsOf s x).filter (spotOk s w l g x)
    match spots.findSome? fun sp =>
        enough s w sp.homes used [] ((victimsFor s w x).filter fun v =>
          (slotsOf s w v).any fun y => sp.homes.contains (y / 4)) with
    | some (vs, slots) =>
      (vs.foldl (fun s v => preemptGang s w v) s).modWorld w fun y => { y with
        claims := (y.claims.filter fun c => !(c.1 == l && c.2.1 == g)) ++ slots.map fun z => (l, g, z) }
    | none => s

/-! ## Failure counts and reservations (R146, R148) -/

/-- The candidate's failure count after one more failure. -/
def countFail (s : State) (w l : Nat) (c : Cand) : State × Nat :=
  match c with
  | .fresh => (s.modLaunch w l fun x => { x with fails := x.fails + 1 }, (s.launch w l).fails + 1)
  | .stopped g | .rotated g =>
    let gg := tget Gang.zero (s.launch w l).gangs g
    (s.modLaunch w l fun x => { x with gangs := tset g { gg with fails := gg.fails + 1 } x.gangs }, gg.fails + 1)

/-- The resource with the most free strand slots; ties to the most free vault (clusters), then to the first. Of a core index on
a die group the slots of the home die's core count, which are those that the gang takes (DESIGN CHOICE, assumption 88). -/
def bestSpot (s : State) (w : Nat) (x : Launch) : Option Spot :=
  let used := usedSlots s w
  let score := fun (sp : Spot) =>
    if x.span = 0 then
      let cs := coresOf sp.cluster
      ((cs.map fun c => (freeSlots used c).length).foldl (· + ·) 0) * 1000 +
        (cs.map fun c => 48 - (usedGranules s w c).length).foldl (· + ·) 0
    else (freeSlots used (sp.homes.headD 0)).length
  (spotsOf s x).foldl (fun b sp => match b with
    | some y => if score y < score sp then some sp else b
    | none => some sp) none

def tryReserve (s : State) (w l : Nat) (c : Cand) (fails : Nat) : State :=
  let x := s.launch w l
  if fails < 64 ∨ (s.world w).reserve.isSome then s
  else match bestSpot s w x with
    | some sp => s.modWorld w fun y => { y with
        reserve := some (l, c.gang x, if x.span = 0 then sp.cluster else sp.homes.headD 0, x.span) }
    | none => s

/-! ## One decision (R146) -/

/-- Queues with a launch of priority p in the set, ascending from after the queue last served at p. -/
def queuesAt (s : State) (w p : Nat) (set : List Nat) : List Nat :=
  let qs := ((set.filter fun l => (s.launch w l).prio == p).map fun l => (s.launch w l).queue).eraseDups
  let up := fun (l : List Nat) => l.foldr (fun v r => (r.filter (· < v)) ++ [v] ++ r.filter fun u => !(u < v)) []
  match ((s.world w).served.find? fun (e : Nat × Nat) => e.1 == p) with
  | some e => up (qs.filter (e.2 < ·)) ++ up (qs.filter fun q => !(e.2 < q))
  | none => up qs

/-- The candidates in order: priority, queue, launch. -/
def candidates (s : State) (w : Nat) : List (Nat × Nat × Nat) :=
  let set := dispatchSet s w
  ((List.range 8).reverse).flatMap fun p =>
    (queuesAt s w p set).filterMap fun q =>
      (set.filter fun l => (s.launch w l).prio == p && (s.launch w l).queue == q).foldl
        (fun (b : Option (Nat × Nat × Nat)) l => match b with
          | some c => if (s.launch w l).order < (s.launch w c.2.2).order then some (p, q, l) else b
          | none => some (p, q, l)) none

/-- Candidates are tried in turn until one is placed; whether one was. -/
def decide1 (w : Nat) : List (Nat × Nat × Nat) → State → State × Bool
  | [], s => (s, false)
  | (p, q, l) :: r, s =>
    match (s.launch w l).first with
    | none => decide1 w r s
    | some c =>
      match tryPlace s w l c with
      | some s => (s.modWorld w fun x => { x with served := tset p q x.served }, true)
      | none =>
        let f := countFail s w l c
        let s := tryReserve f.1 w l c f.2
        decide1 w r (tryPreempt s w l c)

/-! ## Rotation (R151, R152) -/

/-- The wait is launch-scope (R151); a BWAIT is judged by its barrier's scope. -/
def launchScope (s : State) (w k : Nat) : Bool :=
  let c := s.ctx w k
  match c.wait with
  | none => false
  | some wt =>
    if wt.kind = 0x31 ∨ wt.kind = 0x32 then true
    else if wt.kind = 0x30 then
      match resolve s w k (c.core 0) (wt.operand / 2 * 2) .load with
      | .ok { target := .mem pa, .. } => decide ((if c.span = 0 then 2 else 3) < (readBarrier s w pa).scope)
      | _ => false
    else false

/-- Bound contexts of a launch's resident gangs. -/
def residents (s : State) (w l : Nat) : List Nat :=
  (s.launch w l).gangs.flatMap fun (g : Nat × Gang) => if g.2.state = .resident then g.2.ctxs else []

/-- The launch is blocked (R151); the decision just made placed none of its gangs. -/
def blocked (s : State) (w l : Nat) : Bool :=
  let x := s.launch w l
  x.inSet && (x.gangs.any fun (g : Nat × Gang) => g.2.state == .resident) &&
    (residents s w l).all fun k => match (s.ctx w k).state with
      | .dead | .saved | .faulted => true
      | .waiting => launchScope s w k
      | _ => false

/-- The resident gang of a launch that was dispatched earliest. -/
def earliest (x : Launch) : Option (Nat × Gang) :=
  (x.gangs.filter fun (g : Nat × Gang) => g.2.state == .resident).foldl (fun (b : Option (Nat × Gang)) (g : Nat × Gang) =>
    match b with
    | some y => if g.2.order < y.2.order then some g else b
    | none => some g) none

/-- A blocked launch is rotated, or completes STALLED (R152). -/
def rotate (s : State) (w l : Nat) : State :=
  let x := s.launch w l
  let stall := killAll (s.modLaunch w l fun x => { x with stalled := true }) w l false
  if decide (x.total ≤ x.visited.length) then stall
  else match earliest x with
    | none => stall
    | some (g, gg) =>
      let gg := { gg with anvils := gg.ctxs.filter (attached s w) }
      match rotPlace s w (rotSize x gg) with
      | none => stall
      | some at_ =>
        let s := s.modLaunch w l fun x => { x with gangs := tset g { gg with
          state := .rotating, stopOrder := (s.world w).orderNext, image := at_ } x.gangs }
        let s := s.modWorld w fun x => { x with orderNext := x.orderNext + 1 }
        let s := gg.ctxs.foldl (fun s k =>
          if (s.ctx w k).state.live then stopCtx (s.modCtx w k fun c => { c with ranAtSwitch := true }) w k else s) s
        s.push .rotationSaveDone [w, l + 1024 * g]

/-- The image of a rotated gang waits at a port. -/
def rotationWaits (s : State) (w : Nat) : Bool :=
  (tslice (w * 1024) 1024 s.launches).any fun e => e.2.gangs.any fun (g : Nat × Gang) =>
    g.2.state == .rotated && (rotParts s w g.2 ((List.range (e.2.coreCount g.2)).map fun _ => (0, 0))).any (Part.waits s)

/-- The checkpoint engine keeps a world stopped: phases 1 and 2 (07 R130). Nothing of it is dispatched meanwhile (DEDUCED,
assumption 70). -/
def ckptStops (s : State) (w : Nat) : Bool := s.ckpt.world == w && (s.ckpt.estate == 1 || s.ckpt.estate == 2)

/-- One decision of the dispatcher for the world in its quantum: at most one gang is placed; where none is, blocked
launches are rotated. -/
def dispatch (s : State) : State :=
  let w := s.quantum.world
  if s.quantum.switch.isSome ∨ (s.world w).wstate ≠ 2 ∨ ckptStops s w then s
  else if rotationWaits s w then park s (event .dispatchDecision [])
  else
    let s := s.modWorld w fun x => { x with
      claims := x.claims.filter fun c => (s.launch w c.1).inSet
      reserve := match x.reserve with
        | some r => if (s.launch w r.1).inSet then some r else none
        | none => none }
    match decide1 w (candidates s w) s with
    | (s, true) => if (dispatchSet s w).isEmpty then s else s.push .dispatchDecision []
    | (s, false) => ((dispatchSet s w).filter (blocked s w)).foldl (fun s l => rotate s w l) s

/-- DISPATCH_DECISION (R146). -/
def execDispatchDecision (s : State) : Res := .next (dispatch s)

/-- ROTATION_SAVE_DONE w g (R151), with g = launch + 1024 × gang: once every context of the gang has left STOPPING, its sundog
entries are spilled (11 R221), the image is written with the dirty bits of its granules, and the slots, the vault and the
bands are freed. A world that is being switched waits for its next quantum. -/
def rotationSaved (s : State) (w l g : Nat) : State :=
  let gg := tget Gang.zero (s.launch w l).gangs g
  if gg.state ≠ .rotating ∨ s.quantum.world ≠ w ∨ s.quantum.switch.isSome ∨ gg.ctxs.any (fun k => (s.ctx w k).busy) then s
  else if s.flights.any (fun x => x.1 == w && gg.ctxs.contains x.2.1) then
    park { s with work := s.work ++ flightEvents s fun a k => a == w && gg.ctxs.contains k } (event .rotationSaveDone [w, l + 1024 * g])
  else if (rotParts s w gg gg.allocs).any (Part.writeWaits s) then park s (event .rotationSaveDone [w, l + 1024 * g])
  else
    let s := (s.sundogs.filter fun d => d.tag / 2 ^ 32 == w && gg.ctxs.contains (d.tag / 2 ^ 18 % 16384)).foldl spill s
    let dirty := (List.range gg.allocs.length).flatMap fun i =>
      let a := nth (0, 0) gg.allocs i
      ((List.range ((gg.size + 65535) / 65536)).filter fun j => tget false s.dirtyV (a.1 * 64 + a.2 / 65536 + j)).map fun j => (i, j)
    let s := (rotParts s w gg gg.allocs).foldl (Part.save w) s
    let s := gg.allocs.foldl (fun s a => scrubAlloc s w a.1 a.2 gg.size) s
    let s := gg.ctxs.foldl (fun s k => s.modCtx w k fun c => { c with resident := false }) s
    let s := s.modLaunch w l fun x => { x with
      residentg := x.residentg - 1
      gangs := tset g { gg with state := .rotated, allocs := [], bands := 0, dirtyG := dirty } x.gangs }
    (wakePage s w 3 l 0).push .dispatchDecision []

/-- ROTATION_SAVE_DONE. -/
def execRotationSaveDone (s : State) : Res :=
  .next (rotationSaved s (s.arg 0) (s.arg 1 % 1024) (s.arg 1 / 1024))

end Sys2Proof.Machine
end

