-- ==== Sys2Proof/Machine/Shard.lean ====
section
/-!
DEFINITION. What a checkpoint's die shards hold and how a restore reads it back (07 R128, R133, R134, R139). The manual lays
out the granules of a die shard and names what follows them; the layout of that, and the records that the device keeps
beside its pages, are this model's own (DESIGN CHOICE, assumption 71).
-/

namespace Sys2Proof.Machine

/-! ## Records as doublewords: fields of any length, each behind its length -/

/-- Fields behind their number, each behind its length. -/
def pack (fs : List (List Nat)) : List Nat := fs.length :: fs.flatMap fun f => f.length :: f

def unpackN : Nat → List Nat → List (List Nat)
  | 0, _ => []
  | _, [] => []
  | n + 1, k :: r => r.take k :: unpackN n (r.drop k)

def unpack : List Nat → List (List Nat)
  | [] => []
  | n :: r => unpackN n r

/-- Field i of a record. -/
def fld (fs : List (List Nat)) (i : Nat) : List Nat := nth [] fs i

def chunks (m : Nat) (l : List Nat) : List (List Nat) := (List.range (l.length / m)).map fun i => (l.drop (m * i)).take m

def flatPairs (l : List (Nat × Nat)) : List Nat := l.flatMap fun p => [p.1, p.2]
def unflatPairs (l : List Nat) : List (Nat × Nat) := (chunks 2 l).map fun c => (nth 0 c 0, nth 0 c 1)
def flatSoft (l : List (Nat × Nat × Nat × Nat)) : List Nat := l.flatMap fun p => [p.1, p.2.1, p.2.2.1, p.2.2.2]
def unflatSoft (l : List Nat) : List (Nat × Nat × Nat × Nat) :=
  (chunks 4 l).map fun c => (nth 0 c 0, nth 0 c 1, nth 0 c 2, nth 0 c 3)

/-- A truth value of a doubleword. -/
def flag (l : List Nat) (i : Nat) : Bool := nth 0 l i != 0

def Batch.enc (b : Batch) : List Nat := pack [[b.id, b.closed.toNat, b.complete.toNat, b.words], b.accs, flatPairs b.locks, flatSoft b.soft]
def Batch.dec (l : List Nat) : Batch :=
  let f := unpack l
  let h := fld f 0
  { id := nth 0 h 0, closed := flag h 1, complete := flag h 2, words := nth 0 h 3, accs := fld f 1, locks := unflatPairs (fld f 2), soft := unflatSoft (fld f 3) }

def MatOp.enc (o : MatOp) : List Nat :=
  pack [[o.op, o.place, o.kind, o.func, o.xa, o.xp, o.done, o.index, o.batch, o.bands, o.loaded.toNat, o.rinv.toNat,
    o.pc, o.slot],
    o.rows, o.words, flatPairs o.b]
def MatOp.dec (l : List Nat) : MatOp :=
  let f := unpack l
  let h := fld f 0
  let g := nth 0 h
  { op := g 0, place := g 1, kind := g 2, func := g 3, xa := g 4, xp := g 5, done := g 6, index := g 7, batch := g 8
    bands := g 9, loaded := flag h 10, rinv := flag h 11, pc := g 12, slot := g 13, rows := fld f 1, words := fld f 2, b := unflatPairs (fld f 3)
    live := false }

/-- What a strand's attachment holds beside B and the accumulators. -/
def Anvil.enc (a : Anvil) : List Nat :=
  pack [[a.grant, a.nc, a.astat], a.fmt.toList, a.opn.enc, pack (a.done.map Batch.enc), pack (a.held.map MatOp.enc)]
def Anvil.dec (l : List Nat) : Anvil :=
  let f := unpack l
  let h := fld f 0
  { grant := nth 0 h 0, nc := nth 0 h 1, astat := nth 0 h 2, fmt := (fld f 1).head?, b := [], acc := []
    opn := Batch.dec (fld f 2), done := (unpack (fld f 3)).map Batch.dec, held := (unpack (fld f 4)).map MatOp.dec }

def Kept.enc (k : Kept) : List Nat := pack [[k.seq, k.strip], flatPairs k.locks, k.busy, flatPairs k.sent, flatSoft k.soft]
/-- A convoy that stands for what the device keeps of a saved one: the frame holds the rest. -/
def Kept.dec (l : List Nat) : QEntry :=
  let f := unpack l
  .convoy { seq := nth 0 (fld f 0) 0, addr := 0, head := 0, words := [], vl := .fixed 0, caps := [], resk := 0, rese := 0,
            prog := 0, drop := false, locks := unflatPairs (fld f 1), busy := fld f 2, sent := unflatPairs (fld f 3)
            strip := nth 0 (fld f 0) 1, soft := unflatSoft (fld f 4) }

/-- What the device keeps of a stopped strand beside its page and its frames. -/
def Strand.enc (t : Strand) : List Nat :=
  pack [[t.seq, t.tcnt, t.opNext, t.bno, t.strip], t.vlMark.toList,
    t.marks.flatMap fun m => [m.id, m.word, m.val.isSome.toNat, m.val.getD 0, m.vaPast.toNat, m.vmPast.toNat],
    t.pend.flatMap fun p => [p.reg, p.tok],
    t.kids.flatMap fun c => [c.q, c.count, c.done.isSome.toNat, c.done.getD 0],
    pack ((keptOf t.va).map Kept.enc), pack ((keptOf t.vm).map Kept.enc),
    match t.anvil with | some a => a.enc | none => [], t.unread.flatMap fun p => [p.1, p.2.toNat],
    pack (t.copies.map (·.places))]
def Strand.dec (l : List Nat) : Strand :=
  let f := unpack l
  let h := fld f 0
  { Strand.zero with
    seq := nth 0 h 0, tcnt := nth 0 h 1, opNext := nth 0 h 2, bno := nth 0 h 3, strip := nth 0 h 4, vlMark := (fld f 1).head?
    marks := (chunks 6 (fld f 2)).map fun c =>
      { id := nth 0 c 0, word := nth 0 c 1, val := if flag c 2 then some (nth 0 c 3) else none, vaPast := flag c 4, vmPast := flag c 5 }
    pend := (chunks 2 (fld f 3)).map fun c => { reg := nth 0 c 0, tok := nth 0 c 1 }
    kids := (chunks 4 (fld f 4)).map fun c =>
      { q := nth 0 c 0, count := nth 0 c 1, done := if flag c 2 then some (nth 0 c 3) else none }
    va := (unpack (fld f 5)).map Kept.dec, vm := (unpack (fld f 6)).map Kept.dec
    anvil := if (fld f 7).isEmpty then none else some (Anvil.dec (fld f 7))
    unread := (chunks 2 (fld f 8)).map fun c => (nth 0 c 0, flag c 1)
    copies := (unpack (fld f 9)).map fun ps => { id := 0, op5 := 0, reg := 0, status := 0, sidx := 0, issued := false, places := ps } }

/-- What the device keeps of a context beside its page. -/
def Ctx.enc (k : Nat) (c : Ctx) : List Nat :=
  pack [[k, c.gang, c.index, c.span, c.ranAtSwitch.toNat, c.deadFaulted.toNat], c.strand.enc]

/-- The state that a code of a page names. -/
def stateOf : Nat → CtxState
  | 1 => .running | 2 => .waiting | 3 => .stopping | 4 => .saved | 5 => .faulted | 6 => .frozen | 7 => .dead | 8 => .resuming
  | _ => .empty

/-- A context from its page and its record: its number and what it was. -/
def Ctx.dec (rd : Nat → Nat) (l : List Nat) : Nat × Ctx :=
  let f := unpack l
  let h := fld f 0
  (nth 0 h 0,
   { state := stateOf (bits (rd 0) 3 0), cmdCnt := BitVec.ofNat 32 (bits (rd 0x10) 63 32), cmdStat := bits (rd 0x10) 1 0
     fseq := BitVec.ofNat 32 (bits (rd 0x18) 63 32), fslot := bits (rd 0x18) 15 8, cause := bits (rd 0x18) 7 0
     fpc := rd 0x20, progress := bits (rd 0x28) 63 32, felem := bits (rd 0x28) 31 0, faddr := rd 0x30
     hvalid := bit (rd 0x38) 14, handler := bits (rd 0x38) 13 0, notify := BitVec.ofNat 32 (rd 0x40), lastFault := bits (rd 0x48) 13 0
     root := rd 0x50, launch := bits (rd 0x58) 9 0, widv := BitVec.ofNat 64 (rd 0x60), resident := bit (rd 0x68) 12
     slotNum := bits (rd 0x68) 11 0, saveFrame := rd 0x70, resync := BitVec.ofNat 32 (bits (rd 0x78) 63 32)
     virga := bits (rd 0x78) 15 0, pcS := BitVec.ofNat 64 (rd 0x80), vlS := bits (rd 0x88) 47 32, fflagsS := bits (rd 0x88) 4 0
     elat := bits (rd 0x90) 1 0
     xS := (rangeFrom 1 32).foldl (fun t i => tput 0 i (BitVec.ofNat 64 (rd (0x100 + 8 * i))) t) []
     gang := nth 0 h 1, index := nth 0 h 2, span := nth 0 h 3, fault := none, wait := none, ranAtSwitch := flag h 4, due := false
     heldState := 0, deadFaulted := flag h 5, strand := Strand.dec (fld f 1) })

def GangState.code : GangState → Nat
  | .ended => 0 | .resident => 1 | .preempted => 2 | .rotating => 3 | .rotated => 4
def gangStateOf : Nat → GangState
  | 1 => .resident | 2 => .preempted | 3 => .rotating | 4 => .rotated | _ => .ended

def Gang.enc (g : Nat) (x : Gang) : List Nat :=
  pack [[g, x.state.code, x.size, x.cluster, x.span, x.bands, x.fails, x.order, x.stopOrder, x.image], x.ctxs, flatPairs x.allocs,
    flatPairs x.dirtyG, x.anvils]
def Gang.dec (l : List Nat) : Nat × Gang :=
  let f := unpack l
  let h := fld f 0
  (nth 0 h 0,
   { state := gangStateOf (nth 0 h 1), size := nth 0 h 2, cluster := nth 0 h 3, span := nth 0 h 4, bands := nth 0 h 5
     fails := nth 0 h 6, order := nth 0 h 7, stopOrder := nth 0 h 8, image := nth 0 h 9, ctxs := fld f 1
     allocs := unflatPairs (fld f 2), dirtyG := unflatPairs (fld f 3), anvils := fld f 4 })

/-- What the dispatcher keeps of a launch beside its page and its range of undispatched gangs. -/
def Launch.enc (l : Nat) (x : Launch) : List Nat :=
  pack [[l, x.prio, x.preempt.toNat, x.glvl, x.count, x.span, x.vkib, x.bands, x.entry, x.arg, x.caddr, x.cval, x.intr.toNat,
      x.order, x.discarded.toNat, x.fails, x.worldLost.toNat, x.stalled.toNat, x.killed.toNat, x.faultEnd.toNat, x.lost,
      x.free.toNat],
    x.faultRec, x.widths, x.visited, x.spawn.toList, pack (x.gangs.map fun e => e.2.enc e.1)]

def lstateOf : Nat → LState
  | 1 => .pending | 2 => .active | 3 => .ackwait | 4 => .done | _ => .never

/-- A launch from its page, the range of its undispatched gangs, and its record. No remote store of it is outstanding in a
world that is restored (DESIGN CHOICE, assumption 71). -/
def Launch.dec (rd : Nat → Nat) (l : List Nat) : Nat × Launch :=
  let f := unpack l
  let h := fld f 0
  let g := nth 0 h
  (g 0,
   { lstatus := bits (rd 0) 15 8, lstate := lstateOf (bits (rd 0) 2 0), total := rd 0x10, dispatched := rd 0x18, doneg := rd 0x20
     residentg := bits (rd 0x28) 31 0, elat := bits (rd 0x30) 9 8, rlat := bits (rd 0x30) 1 0, features := bits (rd 0x38) 4 0
     root := rd 0x40, queue := bits (rd 0x48) 14 0, peerpend := 0, fvalid := bit (rd 0x58) 14, firstFault := bits (rd 0x58) 13 0
     faultRec := fld f 1, held := bit (rd 0x60) 0, prio := g 1, preempt := flag h 2, glvl := g 3, widths := fld f 2, count := g 4
     span := g 5, vkib := g 6, bands := g 7, entry := g 8, arg := g 9, caddr := g 10, cval := g 11, intr := flag h 12
     order := g 13, nextGang := rd 4096, discarded := flag h 14, fails := g 15
     gangs := (unpack (fld f 5)).map Gang.dec, visited := fld f 3, worldLost := flag h 16, stalled := flag h 17
     killed := flag h 18, faultEnd := flag h 19, lost := g 20, spawn := (fld f 4).head?, free := flag h 21 })

/-! ## What belongs to a world (R128, R129) -/

/-- Length rounded up to whole 4 KiB pages. -/
def pageUp (n : Nat) : Nat := (n + 4095) / 4096 * 4096

/-- A page of memory belongs to a world for a checkpoint: world 0's ranges leave out those of other worlds. -/
def pageOf (s : State) (w page : Nat) : Bool :=
  inRanges (s.world w) (page * 4096) &&
    (w != 0 || !(s.worlds.any fun (e : Nat × World) => e.1 != 0 && e.2.wstate != 0 && inRanges e.2 (page * 4096)))

/-- The dirty pages of a world, without those of the image area. -/
def dirtyPages (s : State) (w area asize : Nat) : List Nat :=
  s.dirty.filterMap fun (e : Nat × Bool) =>
    if e.2 && pageOf s w e.1 && !(decide (area ≤ e.1 * 4096) && decide (e.1 * 4096 < area + asize)) then some e.1 else none

/-- The dirty granules of a world's allocations. -/
def dirtyGranules (s : State) (w : Nat) : List Nat :=
  ((worldAllocs s w).flatMap granulesOf).filter fun g => tget false s.dirtyV g

/-- Dies and clusters that hold state of a world (R133). -/
def diesOf (s : State) (w : Nat) : List Nat :=
  let cores := ((worldAllocs s w).map (·.1)) ++ (s.bound w).map fun k => (s.ctx w k).core 0
  (List.range 8).filter fun d => cores.any fun c => c / 80 == d
def clustersOf (s : State) (w : Nat) : List Nat :=
  let cores := ((worldAllocs s w).map (·.1)) ++ (s.bound w).map fun k => (s.ctx w k).core 0
  (List.range 80).filter fun cl => cores.any fun c => clusterOf c == cl

/-- A mask of the listed bits. -/
def maskOf (l : List Nat) : Nat := l.foldl (fun m i => setBit m i true) 0

/-! ## A die shard (R134) -/

/-- Doubleword n: the granule bits of core n of the die. -/
def granuleWords (grans : List Nat) (die : Nat) : List Nat :=
  (List.range 80).map fun n =>
    maskOf ((grans.filter fun g => g / 64 == die * 80 + n).map fun g => g % 64)

/-- Granules of a die in ascending order of core and granule. -/
def dieGranules (grans : List Nat) (die : Nat) : List Nat :=
  (List.range 80).flatMap fun n => (List.range 48).filterMap fun i =>
    let g := (die * 80 + n) * 64 + i
    if grans.contains g then some g else none

/-- Contexts of a world whose SLOTNUM lies on a die. -/
def dieCtxs (s : State) (w die : Nat) : List Nat := (s.bound w).filter fun k => (s.ctx w k).core 0 / 80 == die

/-- Launches of a world that have been bound. -/
def worldLaunches (s : State) (w : Nat) : List Nat :=
  (tslice (w * 1024) 1024 s.launches).filterMap fun e => if e.2.lstate = .never then none else some (e.1 - w * 1024)

/-- A 4 KiB page of control words. -/
def pageCells (read : Nat → Nat) : Tbl Byte := dwordCells 0 ((List.range 512).map fun i => read (8 * i))

def shiftCells (by_ : Nat) (t : Tbl Byte) : Tbl Byte := t.map fun (e : Nat × Byte) => (e.1 + by_, e.2)

/-- Parts laid end to end: their cells and their whole length. -/
def layOut : List (Nat × Tbl Byte) → Nat × Tbl Byte
  | [] => (0, [])
  | (n, t) :: r => let x := layOut r; (n + x.1, t ++ shiftCells n x.2)

/-- A launch's page and its range of undispatched gangs. -/
def launchPart (x : Launch) : Nat × Tbl Byte :=
  (4112, pageCells (readLaunch x) ++ dwordCells 4096 [x.nextGang, x.total])

/-- HEAD, TAIL and the waiting inline packets of a queue: the packet in hand, where it is one, first. -/
def queuePart (x : Queue) : Nat × Tbl Byte :=
  let inl := (match x.cur with | some p => if p.inl then p.dws else [] | none => []) ++
    x.order.flatMap fun o => match o with | .inl ds _ _ => ds | .ring => []
  (8 + 8 * inl.length, dwordCells 0 ((x.head.toNat + x.tail.toNat * 2 ^ 32) :: inl.map (·.toNat)))

/-- Queue interfaces of a world, as far as they have been used. -/
def worldQueues (s : State) (w : Nat) : List Queue :=
  s.queues.filterMap fun (e : Nat × Queue) => if e.2.owner = w then some e.2 else none

/-- What stands last in a die shard: the device's records, and how many doublewords they are. -/
def shardTail (s : State) (w die : Nat) (first : Bool) : List Nat :=
  let recs := pack [
    pack ((dieCtxs s w die).map fun k => (s.ctx w k).enc k),
    if first then pack ((worldLaunches s w).map fun l => (s.launch w l).enc l) else []]
  recs ++ [recs.length]

/-- A die shard: its length and its bytes. -/
def dieShard (s : State) (w : Nat) (grans : List Nat) (die : Nat) (first : Bool) : Nat × Tbl Byte :=
  let ks := dieCtxs s w die
  let tail := shardTail s w die first
  layOut ([(640, dwordCells 0 (granuleWords grans die))] ++
    ((dieGranules grans die).map fun g => (65536, readCells s 0 (vaultPA (g / 64) (g % 64 * 65536)) 65536)) ++
    (ks.filterMap fun k => (s.ctx w k).strand.anvil.map fun a => (anvilBytes, a.cells)) ++
    (ks.map fun k => (4096, pageCells (readCtx (s.ctx w k)))) ++
    (if first then (worldLaunches s w).map (fun l => launchPart (s.launch w l)) ++ (worldQueues s w).map queuePart else []) ++
    [(8 * tail.length, dwordCells 0 tail)])

/-! ## Reading one back (R139) -/

/-- The device's records at the end of a die shard. -/
def tailOf (s : State) (slot pa len : Nat) : List (List Nat) :=
  let n := Nat.min (readNum s slot (pa + len - 8) 8) (len / 8 - 1)
  unpack ((List.range n).map fun i => readNum s slot (pa + len - 8 - 8 * n + 8 * i) 8)

/-- Contexts of a die shard with their Anvil state. -/
def shardCtxs (s : State) (slot pa len grans : Nat) : List (Nat × Ctx) :=
  let recs := unpack (fld (tailOf s slot pa len) 0)
  let base := pa + 640 + 65536 * grans
  let raw := recs.map fun r => (Ctx.dec (fun _ => 0) r).2.strand.anvil.isSome
  let att := fun i => ((raw.take i).filter id).length
  (List.range recs.length).map fun i =>
    let page := base + anvilBytes * att recs.length + 4096 * i
    let e := Ctx.dec (fun o => readNum s slot (page + o) 8) (nth [] recs i)
    let filled := e.2.strand.anvil.map fun a => a.ofCells (readCells s slot (base + anvilBytes * att i) anvilBytes)
    (e.1, { e.2 with strand := { e.2.strand with anvil := filled } })

/-- Launches of the die shard that holds them. -/
def shardLaunches (s : State) (slot pa len grans : Nat) : List (Nat × Launch) :=
  let t := tailOf s slot pa len
  let ctxs := unpack (fld t 0)
  let recs := unpack (fld t 1)
  let att := (ctxs.filter fun r => (Ctx.dec (fun _ => 0) r).2.strand.anvil.isSome).length
  let base := pa + 640 + 65536 * grans + anvilBytes * att + 4096 * ctxs.length
  (List.range recs.length).map fun i => Launch.dec (fun o => readNum s slot (base + 4112 * i + o) 8) (nth [] recs i)

end Sys2Proof.Machine
end

