-- ==== Sys2Proof/Machine/Ckpt.lean ====
section
/-!
DEFINITION. The checkpoint engine: a checkpoint's phases, its image, and restore (07 R126-R139).
-/

namespace Sys2Proof.Machine

/-! ## Ending an operation -/

/-- A page has been copied: the writes that it held perform (R131). -/
def releasePage (s : State) (page : Nat) : State :=
  match s.ckpt.op with
  | none => s
  | some o => unholdAll { s with ckpt := { s.ckpt with op := some { o with left := o.left.filter (· != page) } } }

/-- RUN_ALL on the launches that phase 1 stopped. -/
def resumeLaunches (s : State) (w : Nat) (ls : List Nat) : State :=
  (ls.foldl (fun s l => runAll s w l) s).push .dispatchDecision []

/-- Only the world in its quantum is checkpointed, and only while the policy core serves (R126, 06 R125). -/
def ckptMoves (s : State) : Bool := s.core.up && s.quantum.world == s.ckpt.world && s.quantum.switch.isNone

/-- A phase has ended: a quantum that waited for it ends (R126). -/
def phaseEnds (s : State) : State := if s.quantum.deferred ∧ s.core.up then endQuantum s else s

/-- A phase has ended, and the next follows (R126): a quantum that has ended meanwhile gives way first, and the checkpoint goes on
in the world's next one. -/
def phaseBreak (s : State) (next : Instr) (k : State → State) : State :=
  if s.quantum.deferred ∧ s.core.up then
    let s := endQuantum s
    if s.quantum.switch.isNone then s.push next [] else s
  else k s

/-- Phase n of a checkpoint is logged, once (06 R123). -/
def logPhase (s : State) (w n : Nat) : State :=
  if (s.openTxn txCkpt w).any fun id => s.wal.contains (.step id n) then s else s.logStep txCkpt w n

/-- Captured granule bits are set again: at the vaults, or, while another world holds the fabric, with the world's own. -/
def dirtyAgain (s : State) (w : Nat) (grans : List Nat) : State :=
  if onFabric s w then { s with dirtyV := setAll grans s.dirtyV }
  else s.modWorld w fun x => { x with imageV := x.imageV ++ grans.filter fun g => !(x.imageV.contains g) }

/-- The engine's operation is over; packets that waited for the engine are tried again. -/
def idleCkpt (s : State) (err : Nat) : State :=
  kickCkpt (wakePage { s with ckpt := { s.ckpt with estate := 0, lasterr := err, op := none } } 0 9 0 0)

/-- The CHECKPOINT packet that started the operation ends with a status. -/
def endCkptPacket (s : State) (q status : Nat) : State :=
  match (s.queue q).cur with
  | some p => if p.kind = 4 ∧ p.armed then endPacket s q p status 0 else s
  | none => s

/-- An ended checkpoint (R132): dirty bits set again, in phase 4 and later those of the pages not yet copied; RUN_ALL where
phase 3 has not come; STATUS FAULTED with PERR 0; a quantum end that the phase held back follows. The bits of captured
granules are set again in every phase (DEDUCED, assumption 72). -/
def failCkpt (s : State) (err : Nat) : State :=
  match s.ckpt.op with
  | none => s
  | some o =>
    let w := s.ckpt.world
    let early := s.ckpt.estate < 3
    let s := dirtyAgain { s with dirty := setAll (if early then o.pages else o.left) s.dirty } w o.grans
    let s := unholdAll (idleCkpt (s.endTxn txCkpt w) err)
    let s := if early then resumeLaunches s w o.stopped else s
    phaseEnds (endCkptPacket s o.q 1)

/-- A read of the engine met a line that fails (R132, 05 R108). -/
def tagCkpt (s : State) : State := failCkpt (compromise s s.ckpt.world) 10

/-! ## Phases (R130) -/

/-- A context of a launch runs. -/
def runsAny (s : State) (w l : Nat) : Bool := (s.ctxsOf w l).any fun k => (s.ctx w k).state.live

/-- Phase 1: STOP_ALL on every launch of the world. The launches that it stops are those that were not HELD, or had a context
that ran. -/
def beginCkpt (s : State) (q : Nat) (p : Packet) : State :=
  let w := (s.queue q).owner
  let ls := (tslice (w * 1024) 1024 s.launches).filterMap fun e => if e.2.open then some (e.1 - w * 1024) else none
  let op : CkOp := { q := q, area := p.dw 1, asize := p.dw 2, base := p.dw 3, ckid := p.dw 4, full := p.dw 3 == 0,
                     start := s.iod0, stopped := ls.filter fun l => !(s.launch w l).held || runsAny s w l, pages := [], left := []
                     grans := [], dies := [], clus := [], image := [], shards := [], newest := 0, seq := 0 }
  let s := s.beginTxn txCkpt w
  let s := { s with ckpt := { s.ckpt with estate := 1, world := w, donen := 0, totaln := 0, op := some op } }
  let s := ls.foldl (fun s l => stopAll s w l) s
  (wakePage (s.modQueue q fun x => { x with waiting := false, cur := some { p with armed := true } }) 0 9 0 0).push
    .ckptStopped []

/-- CHECKPOINT q (R126): while the engine is busy, or the world does not hold its quantum, the packet waits. The policy core
directs the engine, so that the packet waits for it too (DEDUCED, assumption 73). -/
def execCheckpoint (s : State) : Res :=
  let q := s.arg 0
  .next (match takePacket s q with
    | .none => s
    | .gone s => s
    | .holds s => s
    | .go p =>
      if p.kind ≠ 4 ∨ p.armed then s
      else if s.ckpt.estate ≠ 0 ∨ s.quantum.world ≠ (s.queue q).owner ∨ s.quantum.switch.isSome then
        s.modQueue q fun x => { x with waiting := true }
      else s.serve fun s => beginCkpt s q p)

/-- What a translation of the engine in the queue's context gives: a physical address in the world's ranges, none, or a line
that failed (R127, R132). -/
inductive Spotted where
  | pa (a : Nat)
  | bad
  | tag
  deriving DecidableEq, Repr

def spotVA (s : State) (o : CkOp) (w va : Nat) (a : Acc) : Spotted :=
  match checkIn s w (s.queue o.q).root (va % 2 ^ 64) a with
  | .ok { target := .mem pa, .. } => if isMem pa && inRanges (s.world w) pa then .pa pa else .bad
  | .error .tagfail => .tag
  | _ => .bad

/-- Virtual addresses of the area's pages. -/
def areaPages (o : CkOp) : List Nat := (List.range (o.asize / 4096)).map fun i => (o.area + 4096 * i) % 2 ^ 64

/-- The physical address of the image area (R127): page by page one contiguous range. -/
def areaPA (s : State) (o : CkOp) (w : Nat) : Spotted :=
  if o.area % 4096 ≠ 0 ∨ o.asize % 4096 ≠ 0 ∨ o.asize = 0 then .bad
  else
    let first := spotVA s o w o.area .store
    (List.range (o.asize / 4096)).foldl (fun r i =>
      match r, spotVA s o w (o.area + 4096 * i) .store with
      | .pa a, .pa b => if b = a + 4096 * i then .pa a else .bad
      | .pa _, x => x
      | x, _ => x) first

/-- BASE names the world's latest manifest. -/
def baseOk (s : State) (o : CkOp) (w : Nat) : Spotted :=
  if o.full then .pa 0
  else match spotVA s o w o.base .load, (s.world w).manifest with
    | .pa a, some m => if a = m.1 then .pa a else .bad
    | .pa _, none => .bad
    | x, _ => x

/-- The walks of the area's pages and of BASE wait at a port (01 R27). -/
def areaWaits (s : State) (o : CkOp) (w : Nat) : Bool :=
  let root := (s.queue o.q).root
  ((areaPages o).any fun va => walkWaits s w root va .store) || (!o.full && walkWaits s w root o.base .load)

/-- GiB that hold a page of a set. -/
def gibsOf (pages : List Nat) : List Nat := (pages.map (· / 2 ^ 18)).eraseDups

/-- The manifest is signed (R135). -/
def signs (x : World) : Bool := x.conf && !x.compromised

/-- Length of the manifest with n shards. -/
def manifestLen (n : Nat) (signed : Bool) : Nat := 0x100 + 64 * n + if signed then 384 else 0

/-- Shards in the order of the manifest: kind, index, address, length, count. -/
def planShards (s : State) (w pa : Nat) (dies : List Nat) (image : List (Nat × Tbl Byte)) (pages grans : List Nat) :
    List (Nat × Nat × Nat × Nat × Nat) × Nat :=
  let gibs := gibsOf pages
  let die := (List.range dies.length).map fun i =>
    let d := nth 0 dies i
    (1, d, (nth (0, []) image i).1, (dieGranules grans d).length)
  let mem := gibs.map fun g =>
    let n := (pages.filter fun p => p / 2 ^ 18 == g).length
    (2, g, 32768 + 4096 * n, n)
  (die ++ mem).foldl (fun a x => (a.1 ++ [(x.1, x.2.1, pa + a.2, x.2.2.1, x.2.2.2)], a.2 + pageUp x.2.2.1))
    ([], pageUp (manifestLen (dies.length + gibs.length) (signs (s.world w))))

/-- The engine writes the area under the world's key slot, and sets no dirty bit (R127, R134). A write to memory that is not
ready is lost (01 R28). -/
def writeArea (s : State) (w pa n : Nat) (cells : Tbl Byte) : State :=
  if memReady s pa then { performCells s (keySlot s w) pa n cells with dirty := s.dirty } else s

/-- Launches of the world that a packet has bound since phase 1 began, and that could be dispatched. -/
def unstopped (s : State) (w : Nat) : List Nat :=
  (tslice (w * 1024) 1024 s.launches).filterMap fun e => if e.2.open ∧ !e.2.held then some (e.1 - w * 1024) else none

/-- The start of phase 2 (R130): the page set and the die shards are captured, the image is measured, and ESTATE reads
DIESHARDS. -/
def captureWorld (s : State) (o : CkOp) (w pa : Nat) : State :=
  let s := (s.sundogs.filter fun d => d.tag / 2 ^ 32 == w).foldl spill s
  let pages := dirtyPages s w pa o.asize
  let grans := dirtyGranules s w
  let dies := diesOf s w
  let image := dies.map fun d => dieShard s w grans d (some d == dies.head?)
  let plan := planShards s w pa dies image pages grans
  if plan.2 > o.asize then failCkpt s 1
  else
    let s := { s with
      dirty := pages.foldl (fun t p => tput false p false t) s.dirty
      ckpt := { s.ckpt with
        estate := 2, totaln := plan.1.length
        op := some { o with
          area := pa, pages := pages, left := pages, grans := grans, dies := dies, clus := clustersOf s w
          image := image.map fun (x : Nat × Tbl Byte) => x.2, shards := plan.1 } } }
    (wakePage s 0 9 0 0).push .ckptDieshardsDone []

/-- CKPT_STOPPED (R130 phases 1 and 2): every bound context has stopped. Their sundog entries are spilled (11 R221), the page
set and the die shards are captured, the image is measured, and ESTATE reads DIESHARDS. A launch that was bound, or a context
that was run, while phase 1 went on is stopped too (DEDUCED, assumption 70). -/
def execCkptStopped (s : State) : Res :=
  let w := s.ckpt.world
  .next (match s.ckpt.op with
    | none => s
    | some o =>
      let more := ((unstopped s w) ++ (worldLaunches s w).filter (runsAny s w)).eraseDups
      if s.ckpt.estate ≠ 1 ∨ !ckptMoves s then s
      else if !more.isEmpty then
        let s := { s with ckpt := { s.ckpt with op := some { o with
          stopped := o.stopped ++ more.filter fun l => !(o.stopped.contains l) } } }
        (more.foldl (fun s l => stopAll s w l) s).push .ckptStopped []
      else if (s.bound w).any fun k => (s.ctx w k).state == .stopping then s
      else if s.flights.any (fun x => x.1 == w) then
        park { s with work := s.work ++ flightEvents s fun a _ => a == w } s.ev
      else phaseBreak (logPhase s w 1) .ckptStopped fun s =>
        if areaWaits s o w then park s s.ev
        else match areaPA s o w with
          | .bad => failCkpt s 2
          | .tag => tagCkpt s
          | .pa pa => match baseOk s o w with
            | .bad => failCkpt s 3
            | .tag => tagCkpt s
            | .pa _ => captureWorld s o w pa)

/-- Pages of the set in a GiB, by their place in it. -/
def pagesIn (o : CkOp) (gib : Nat) : List Nat := (o.pages.filter fun p => p / 2 ^ 18 == gib).map (· % 2 ^ 18)

/-- The bitmap of a memory shard. -/
def bitmapCells (js : List Nat) : Tbl Byte :=
  ((js.map (· / 64)).eraseDups).flatMap fun d =>
    numCells (8 * d) 8 (maskOf ((js.filter fun j => j / 64 == d).map (· % 64)))

/-- The end of phase 2 (R130): the die shards are written, and the captured granule bits are cleared. The bitmap of each memory
shard is written now. -/
def writeShards (s : State) (o : CkOp) (w : Nat) : State :=
  let s := (List.range o.dies.length).foldl (fun s i =>
    let x := nth (0, 0, 0, 0, 0) o.shards i
    writeArea s w x.2.2.1 (pageUp x.2.2.2.1) (nth [] o.image i)) s
  let s := (o.shards.filter fun x => x.1 == 2).foldl (fun s x =>
    writeArea s w x.2.2.1 32768 (bitmapCells (pagesIn o x.2.1))) s
  logPhase { s with
    dirtyV := o.grans.foldl (fun t g => tput false g false t) s.dirtyV
    ckpt := { s.ckpt with donen := o.dies.length, op := some { o with image := [] } } } w 2

/-- Phase 3 (R130): the stopped launches run, PAUSE is recorded, and ESTATE reads MEMSHARDS. -/
def resumePhase (s : State) (o : CkOp) (w : Nat) : State :=
  let s := { s with ckpt := { s.ckpt with estate := 3, pause := s.iod0 - o.start } }
  let s := (resumeLaunches s w o.stopped).logStep txCkpt w 3
  let s := { s with work := s.work ++ o.left.map (fun p => event .ckptPageCopied [p]) ++ [event .ckptMemshardsDone []] }
  phaseEnds (wakePage s 0 9 0 0)

/-- CKPT_DIESHARDS_DONE (R130 phases 2 and 3). -/
def execCkptDieshardsDone (s : State) : Res :=
  let w := s.ckpt.world
  .next (match s.ckpt.op with
    | none => s
    | some o =>
      if s.ckpt.estate ≠ 2 ∨ !ckptMoves s then s
      else if s.ckpt.donen = 0 ∧ o.shards.any fun x => portBusy s x.2.2.1 (if x.1 = 1 then x.2.2.2.1 else 32768) then park s s.ev
      else phaseBreak (if s.ckpt.donen = 0 then writeShards s o w else s) .ckptDieshardsDone fun s => resumePhase s o w)

/-- Where the copy of a page stands in its shard. -/
def pageSpot (o : CkOp) (page : Nat) : Nat :=
  match o.shards.find? fun x => x.1 == 2 && x.2.1 == page / 2 ^ 18 with
  | some x => x.2.2.1 + 32768 + 4096 * (o.pages.filter fun p => decide (p / 2 ^ 18 = x.2.1) && decide (p < page)).length
  | none => 0

/-- A page is copied in phase 4; one that a write waits for, or that a switch is to write while it saves the world, is copied next,
whatever holds the phase back (R131). -/
def copiesPage (s : State) (page : Nat) : Bool :=
  ckptMoves s || s.core.up && (s.heldW.any (fun h => (pagesOf h.pa h.data.length).contains (page * 4096)) ||
    (match s.quantum.switch with
      | some (_, 1) => (savedPages s s.quantum.world).contains page
      | _ => false))

/-- CKPT_PAGE_COPIED page (R131): the page is copied as it stands, and a write that was held then performs. A memory shard
whose pages are all copied is complete (R136 DONEN). -/
def execCkptPageCopied (s : State) : Res :=
  let w := s.ckpt.world
  let page := s.arg 0
  .next (match s.ckpt.op with
    | none => s
    | some o =>
      let gib := page / 2 ^ 18
      if s.ckpt.estate ≠ 3 ∨ !copiesPage s page ∨ !(o.left.contains page) then s
      else if retrains s (page * 4096) ∨ portBusy s (pageSpot o page) 4096 then park s s.ev
      else if tagFails s (keySlot s w) (page * 4096) 4096 then tagCkpt s
      else
        let s := writeArea s w (pageSpot o page) 4096 (readCells s (keySlot s w) (page * 4096) 4096)
        let last := o.left.all fun p => p == page || p / 2 ^ 18 != gib
        let s := if last then wakePage { s with ckpt := { s.ckpt with donen := s.ckpt.donen + 1 } } 0 9 0 0x30 else s
        let s := releasePage s page
        if o.left.all (· == page) then s.push .ckptMemshardsDone [] else s)

/-- CKPT_MEMSHARDS_DONE (R130): every page of the set has been copied; ESTATE reads MANIFEST. -/
def execCkptMemshardsDone (s : State) : Res :=
  .next (match s.ckpt.op with
    | none => s
    | some o =>
      if s.ckpt.estate ≠ 3 ∨ !ckptMoves s ∨ !o.left.isEmpty then s
      else
        let s := { s with ckpt := { s.ckpt with estate := 4 } }
        phaseEnds ((wakePage (s.logStep txCkpt s.ckpt.world 4) 0 9 0 0).push .ckptManifestDone []))

/-! ## The manifest (R133, R135) -/

def natBytes (l : List Byte) : List Nat := l.map (·.toNat)

/-- The plain bytes of a range, as a digest takes them. -/
def plainRange (s : State) (w pa n : Nat) : List Nat := natBytes (readBytes s (keySlot s w) pa n)

/-- Length of a manifest up to its last shard entry, as it stands in memory. -/
def manifestBody (s : State) (w pa : Nat) : Nat := 0x100 + 64 * readNum s (keySlot s w) (pa + 0xA0) 8

/-- Digest of the manifest at an address. -/
def manifestDigest (s : State) (w pa : Nat) : Nat := Config.sha256 (plainRange s w pa (manifestBody s w pa))

/-- The cells of a manifest without its signature. -/
def manifestCells (s : State) (w : Nat) (o : CkOp) : Tbl Byte :=
  let x := s.world w
  let seq := match x.manifest with | some m => m.2 + 1 | none => 1
  let based := if o.full then (0, 0) else match x.manifest with
    | some m => (m.1, manifestDigest s w m.1)
    | none => (0, 0)
  dwordCells 0 [0x00014B435853, o.ckid,
      w + x.conf.toNat * 2 ^ 8 + o.full.toNat * 2 ^ 9 + (signs x).toNat * 2 ^ 10 + x.compromised.toNat * 2 ^ 11, seq] ++
    numCells 0x20 32 based.2 ++ dwordCells 0x40 [based.1, maskOf o.dies] ++
    numCells 0x50 16 (maskOf o.clus) ++ dwordCells 0x60 (x.ranges.map rangeWord) ++
    dwordCells 0xA0 [o.shards.length] ++
    (List.range o.shards.length).flatMap fun i =>
      let e := nth (0, 0, 0, 0, 0) o.shards i
      dwordCells (0x100 + 64 * i) [e.1 + e.2.1 * 2 ^ 8, e.2.2.1, e.2.2.2.1, e.2.2.2.2] ++
        numCells (0x120 + 64 * i) 32 (Config.sha256 (plainRange s w e.2.2.1 e.2.2.2.1))

/-- Ranges that the engine reads for the manifest: the shards, and the manifest that it is based on. -/
def manifestReads (s : State) (w : Nat) (o : CkOp) : List (Nat × Nat) :=
  (o.shards.map fun x => (x.2.2.1, x.2.2.2.1)) ++
    match o.full, (s.world w).manifest with
    | false, some m => [(m.1, manifestBody s w m.1)]
    | _, _ => []

/-- The WRITEs of a world's latest manifest, its PA and its SEQ (06 R123). -/
def logManifest (s : State) (kind w pa seq : Nat) : State :=
  let old := (s.world w).manifest.getD (0, 0)
  (s.logOpen kind w fun id => .write id (corePA s (manifestAt w 0)) old.1 pa).logOpen kind w fun id =>
    .write id (corePA s (manifestAt w 1)) old.2 seq

/-- CKPT_MANIFEST_DONE (R130 phase 5): the manifest and its signature are written, then the completion word. -/
def execCkptManifestDone (s : State) : Res :=
  let w := s.ckpt.world
  .next (match s.ckpt.op with
    | none => s
    | some o =>
      let x := s.world w
      let n := o.shards.length
      let len := pageUp (manifestLen n (signs x))
      let reads := manifestReads s w o
      if s.ckpt.estate ≠ 4 ∨ !ckptMoves s then s
      else if portBusy s o.area len ∨ reads.any fun r => portBusy s r.1 r.2 then park s s.ev
      else if reads.any fun r => tagFails s (keySlot s w) r.1 r.2 then tagCkpt s
      else
        let seq := match x.manifest with | some m => m.2 + 1 | none => 1
        let s := writeArea s w o.area len (manifestCells s w o)
        let s := if signs x then
          writeArea s w (o.area + 0x100 + 64 * n) 384
            (trun 0 0 ((List.range 384).map fun i =>
              BitVec.ofNat 8 (nth 0 (Config.signature (plainRange s w o.area (0x100 + 64 * n))) i)))
          else s
        let s := { s with ckpt := { s.ckpt with
          lastman := o.area, lastseq := seq, lastdig := manifestDigest s w o.area } }
        let s := ((logManifest s txCkpt w o.area seq).logStep txCkpt w 5).closeTxn txCkpt w
        let s := idleCkpt (s.modWorld w fun x => { x with manifest := some (o.area, seq) }) 0
        phaseEnds (endCkptPacket s o.q 0))

/-! ## ECMD (R136, R137) -/

/-- A write of ECMD is counted; through a mapping that is not world 0's it is ignored. -/
def ecmdResult (s : State) (err : Nat) : State :=
  wakePage { s with ckpt := { s.ckpt with lasterr := err } } 0 9 0 0

def countEcmd (s : State) : State := { s with ckpt := { s.ckpt with ecmdCnt := s.ckpt.ecmdCnt + 1 } }

/-- ABORT (R137): in phases 1 to 4. -/
def abort (s : State) : State :=
  let s := countEcmd s
  if 1 ≤ s.ckpt.estate ∧ s.ckpt.estate ≤ 3 then failCkpt s 8 else ecmdResult s 11

/-- ABORT who. Like CHECKPOINT it waits for the policy core, and so do the other ECMD writes (DEDUCED, assumption 73). -/
def execAbort (s : State) : Res := .next (s.serve fun s => if s.arg 0 = 0 then abort s else s)

/-- ECMD_IGNORED v who: ECMD 0 or 3. -/
def execEcmdIgnored (s : State) : Res :=
  .next (s.serve fun s => if s.arg 1 = 0 then ecmdResult (countEcmd s) 11 else s)

/-! ## Restore (R138, R139) -/

/-- The fields of a manifest that the checks read. -/
structure Manifest where
  pa      : Nat
  world   : Nat
  conf    : Bool
  full    : Bool
  signed  : Bool
  seq     : Nat
  baseDig : Nat
  basePA  : Nat
  dies    : Nat
  clus    : Nat
  ranges  : List Nat
  shards  : List (Nat × Nat × Nat × Nat × Nat × Nat)
  deriving DecidableEq, Repr

/-- The manifest at an address, read through a world's key slot. -/
def readManifest (s : State) (w pa : Nat) : Manifest :=
  let rd := fun o n => readNum s (keySlot s w) (pa + o) n
  { pa := pa, world := bits (rd 0x10 8) 7 0, conf := bit (rd 0x10 8) 8, full := bit (rd 0x10 8) 9,
    signed := bit (rd 0x10 8) 10, seq := rd 0x18 8, baseDig := rd 0x20 32, basePA := rd 0x40 8, dies := rd 0x48 8,
    clus := rd 0x50 16, ranges := (List.range 8).map fun i => rd (0x60 + 8 * i) 8,
    shards := (List.range (rd 0xA0 8)).map fun k =>
      let o := 0x100 + 64 * k
      (bits (rd o 8) 7 0, bits (rd o 8) 31 8, rd (o + 8) 8, rd (o + 16) 8, rd (o + 24) 8, rd (o + 32) 32) }

/-- The chain from the newest manifest back to one with FULL set, through at most the given number. -/
def chain (s : State) (w : Nat) : Nat → Nat → Option (List Manifest)
  | 0, _ => none
  | n + 1, pa =>
    let m := readManifest s w pa
    if m.full then some [m] else (chain s w n m.basePA).map fun r => m :: r

/-- Each older manifest has the digest that the one after it holds, and SEQ rises by one. -/
def chainOk (s : State) (w : Nat) : List Manifest → Bool
  | m :: o :: r => manifestDigest s w o.pa == m.baseDig && m.seq == o.seq + 1 && chainOk s w (o :: r)
  | _ => true

def signatureOk (s : State) (w : Nat) (m : Manifest) : Bool :=
  !m.signed || Config.verifies (plainRange s w m.pa (manifestBody s w m.pa))
    (plainRange s w (m.pa + manifestBody s w m.pa) 384)

/-- Ranges of a chain that a restore reads: manifests with their signatures, and shards. -/
def chainReads (s : State) (w : Nat) (ms : List Manifest) : List (Nat × Nat) :=
  ms.flatMap fun m => (m.pa, manifestBody s w m.pa + if m.signed then 384 else 0) ::
    m.shards.map fun h => (h.2.2.1, h.2.2.2.1)

/-- A read meets a line that fails. -/
def readsFail (s : State) (w : Nat) (rs : List (Nat × Nat)) : Bool := rs.any fun r => tagFails s (keySlot s w) r.1 r.2

/-- The first check of R138 that fails, or 0. A line that fails its code ends the restore with TAG where the first check that
reads it stands; R132 gives that error for a checkpoint's reads (DEDUCED, assumption 72). -/
def restoreCheck (s : State) : Nat :=
  let w := s.ckpt.rworld
  let x := s.world w
  let busy := (worldLaunches s w).any fun l => !(s.launch w l).free
  if x.wstate ≠ 2 ∨ !(s.bound w).isEmpty ∨ busy then 7
  else if readsFail s w [(s.ckpt.rmanpa, manifestBody s w s.ckpt.rmanpa)] then 10
  else if manifestDigest s w s.ckpt.rmanpa ≠ s.ckpt.rdig then 5
  else match chain s w 64 s.ckpt.rmanpa with
    | none => 3
    | some ms =>
      if readsFail s w (ms.map fun m => (m.pa, manifestBody s w m.pa + if m.signed then 384 else 0)) then 10
      else if !(ms.all (signatureOk s w)) then 6
      else if !(chainOk s w ms) then 3
      else if ms.any (fun m => Nat.land m.dies s.ready.cdie != m.dies || Nat.land m.clus s.ready.clu != m.clus ||
          m.ranges != x.ranges.map rangeWord) then 4
      else if ms.any (fun m => m.conf && (m.world != w || !x.conf)) then 9
      else if readsFail s w (chainReads s w ms) then 10
      else if ms.any (fun m => m.shards.any fun h =>
          Config.sha256 (plainRange s w h.2.2.1 h.2.2.2.1) != h.2.2.2.2.2) then 5
      else 0

/-- What a restore reads waits at a port (01 R27). -/
def restoreWaits (s : State) (w pa : Nat) : Bool :=
  portBusy s pa 0x100 || (match chain s w 64 pa with
    | some ms => (chainReads s w ms).any fun r => portBusy s r.1 r.2
    | none => false)

/-- RESTORE (R137, R138). Once the checks pass, the chain stands: a later write of RMANPA changes nothing. -/
def restore (s : State) : State :=
  let s := countEcmd s
  if s.ckpt.estate ≠ 0 then ecmdResult s 11
  else
    let w := s.ckpt.rworld
    let e := restoreCheck s
    if e ≠ 0 then ecmdResult (if e = 10 then compromise s w else s) e
    else match chain s w 64 s.ckpt.rmanpa with
      | none => ecmdResult s 3
      | some ms =>
        let old := ms.reverse.flatMap fun m => m.shards.map fun h => (h.1, h.2.1, h.2.2.1, h.2.2.2.1, h.2.2.2.2.1)
        let op : CkOp := { q := 0, area := s.ckpt.rmanpa, asize := 0, base := 0, ckid := 0, full := false, start := s.iod0
                           stopped := [], pages := [], left := [], grans := [], dies := [], clus := [], image := [], shards := old
                           newest := (match ms with | m :: _ => m.shards.length | [] => 0)
                           seq := (match ms with | m :: _ => m.seq | [] => 0) }
        let s := s.beginTxn txRestore w
        (ecmdResult { s with ckpt := { s.ckpt with
          estate := 5, world := w, donen := 0, totaln := old.length, op := some op } } 0).push .restoreDone []

/-- RESTORE who (R138). -/
def execRestore (s : State) : Res :=
  .next (if s.ckpt.estate = 0 ∧ s.arg 0 = 0 ∧ s.core.up ∧ restoreWaits s s.ckpt.rworld s.ckpt.rmanpa then park s s.ev
    else s.serve fun s => if s.arg 0 = 0 then restore s else s)

/-- Numbers j below n whose bit stands in a bitmap at an address. -/
def bitmapAt (s : State) (slot pa n : Nat) : List Nat :=
  (List.range n).filter fun j => bit (readByte s slot (pa + j / 8)).toNat (j % 8)

/-- A memory shard's pages go back to their places. -/
def applyMemShard (s : State) (w gib pa : Nat) : State :=
  let js := bitmapAt s (keySlot s w) pa (2 ^ 18)
  (List.range js.length).foldl (fun s i =>
    performCells s (keySlot s w) (gib * 2 ^ 30 + nth 0 js i * 4096) 4096
      (readCells s (keySlot s w) (pa + 32768 + 4096 * i) 4096)) s

/-- A die shard's granules go back to the vaults, or, while another world holds the fabric, to the world's image. -/
def applyDieShard (s : State) (w die pa : Nat) : State :=
  let gs := (List.range 80).flatMap fun n =>
    (bitmapAt s (keySlot s w) (pa + 8 * n) 48).map fun g => (die * 80 + n, g * 65536)
  (List.range gs.length).foldl (fun s i =>
    let cells := readCells s (keySlot s w) (pa + 640 + 65536 * i) 65536
    let g := nth (0, 0) gs i
    if onFabric s w then { s with mem := putCells (vaultPA g.1 g.2) 65536 cells s.mem }
    else performCells s (keySlot s w) (imagePA s w g.1 g.2) 65536 cells) s

/-- Contexts and launches return (R139): contexts with their numbers, SLOTNUMs and states, launches ACTIVE and HELD. Off the
fabric the Anvil state goes to the world's image. -/
def applyRecords (s : State) (w : Nat) (cs : List (Nat × Ctx)) (ls : List (Nat × Launch)) : State :=
  let s := { s with
    ctxs := merge s.ctxs (cs.map fun e => (w * 16384 + e.1 % 16384, e.2))
    launches := merge s.launches (ls.map fun e =>
      (w * 1024 + e.1 % 1024, if e.2.bound then { e.2 with lstate := .active, held := true } else e.2)) }
  let s := if onFabric s w then s
    else
      let dir := anvilsOn s w
      ((anvilParts s w (anvilArea s w) dir dir).foldl (Part.save w) s).modWorld w fun x => { x with anvils := dir }
  let s := touchLines (touchLines s (pagePA 4 0 0 / 64) (pagePA 4 16383 0xFFF / 64) w) (pagePA 3 0 0 / 64) (pagePA 3 1023 0xFFF / 64) w
  { s with work := s.work ++ wokenBy s w ++ ls.filterMap fun e =>
      if e.2.lstate = .ackwait ∨ (e.2.lstate = .done ∧ !e.2.free) then some (event .launchDone [w, e.1]) else none }

/-- No dirty bit of the world stands: its pages', and its granules' (R139). -/
def cleanWorld (s : State) (w : Nat) : State :=
  let gs := (worldAllocs s w).flatMap granulesOf
  ({ s with
    dirty := s.dirty.filter fun (e : Nat × Bool) => !pageOf s w e.1
    dirtyV := if onFabric s w then gs.foldl (fun t g => terase g 1 t) s.dirtyV else s.dirtyV
  } : State).modWorld w fun x => { x with imageV := [] }

/-- RESTORE_DONE (R139): memory shards from oldest to newest, then granules; Anvil state, contexts and launches of the
newest manifest. R139 names no queue state among what is applied, and none is (DEDUCED, assumption 72). -/
def execRestoreDone (s : State) : Res :=
  let w := s.ckpt.world
  .next (match s.ckpt.op with
    | none => s
    | some o =>
      if s.ckpt.estate ≠ 5 ∨ !s.core.up then s
      else if o.shards.any fun h => portBusy s h.2.2.1 h.2.2.2.1 then park s s.ev
      else
        let slot := keySlot s w
        let newest := (o.shards.drop (o.shards.length - o.newest)).filter fun h => h.1 == 1
        let cs := newest.flatMap fun h => shardCtxs s slot h.2.2.1 h.2.2.2.1 h.2.2.2.2
        let ls := newest.flatMap fun h => shardLaunches s slot h.2.2.1 h.2.2.2.1 h.2.2.2.2
        let dies := o.shards.filter fun h => h.1 == 1
        let granules := dies.map fun h => (h.2.1, h.2.2.1)
        let s := (o.shards.filter fun h => h.1 == 2).foldl (fun s h => applyMemShard s w h.2.1 h.2.2.1) (s.logStep txRestore w 1)
        let s := granules.foldl (fun s h => applyDieShard s w h.1 h.2) s
        let s := cleanWorld (applyRecords s w cs ls) w
        let s := (logManifest s txRestore w o.area o.seq).modWorld w fun x => { x with manifest := some (o.area, o.seq) }
        let s := (s.logStep txRestore w 2).closeTxn txRestore w
        idleCkpt { s with ckpt := { s.ckpt with donen := s.ckpt.totaln } } 0)

end Sys2Proof.Machine
end

