-- ==== Sys2Proof/Machine/Words.lean ====
section
/-!
DEFINITION. Body words as their convoy sees them: which element types they accept, which x registers they capture and
write, which vector registers, predicates and vv bits they read and write, and which of them are cross-element words
(12 R228, 13 R252-R263, 09 R163, R175, 11 R213, 18, 19 R357, 21 R376, 22 R395, 24 R420).
-/

namespace Sys2Proof.Machine

/-! ## Classes of types (18 R327) -/

def tI (t : Nat) : Bool := decide (t < 8)
def tF (t : Nat) : Bool := decide (8 ≤ t) && decide (t < 12)
def tIF (t : Nat) : Bool := decide (t < 12)
def tM (t : Nat) : Bool := decide (t < 14)
def tAll (t : Nat) : Bool := decide (t < 15)

/-- Types of a vector atomic by its fn (19 R364). -/
def tAmo (fn t : Nat) : Bool :=
  if fn < 6 then decide (4 ≤ t) && decide (t < 8)
  else if fn = 6 then (decide (4 ≤ t) && decide (t < 8)) || t == 10 || t == 11
  else t == 10 || t == 11

/-- Types of a matrix operand (22 R395). -/
def tMat (t : Nat) : Bool := t == 0 || t == 8 || t == 9 || t == 12 || t == 13 || t == 14

/-- Coordinates of a geometric word (24 R419). -/
def geoCoords : Instr → Nat
  | .gor2 .. => 6 | .gor3 .. => 12 | .ginc .. => 8 | .gins .. => 15 | .gsegx .. => 8 | _ => 0

/-- The last register of a geometric group, and the limits of R420. -/
def geoOk (n t vd vs : Nat) : Bool :=
  let len := if t = 11 then 2 * n else n
  (t == 10 || (t == 11 && vs % 2 == 0)) && decide (vs + len ≤ 64) && !(decide (vs ≤ vd) && decide (vd < vs + len))

/-- A register operand of a type: even for the pair types (12 R228). -/
def even (t n : Nat) : Bool := !tyPair t || n % 2 == 0

/-- Operands vd, va and vb of a two-operand word. -/
def even3 (t vd va vb sx : Nat) : Bool := even t vd && even t va && (sx == 1 || even t vb)

/-- The convoy's type and its own operands make a body word legal (R256). -/
def bodyOk (t : Nat) (i : Instr) : Bool :=
  match i with
  | .vadd vd va vb sx | .vsub vd va vb sx | .vrsub vd va vb sx | .vmul vd va vb sx | .vdiv vd va vb sx
  | .vmin vd va vb sx | .vmax vd va vb sx | .vredsum vd va vb sx | .vredmax vd va vb sx | .vredmin vd va vb sx =>
    tIF t && even3 t vd va vb sx
  | .vmulh vd va vb sx | .vrem vd va vb sx | .vand vd va vb sx | .vor vd va vb sx | .vxor vd va vb sx
  | .vsll vd va vb sx | .vsrl vd va vb sx | .vsra vd va vb sx | .vredand vd va vb sx | .vredor vd va vb sx
  | .vredxor vd va vb sx => tI t && even3 t vd va vb sx
  | .vsgnj vd va vb sx | .vscale vd va vb sx | .vfma vd va vb sx | .vfms vd va vb sx | .vfnma vd va vb sx
  | .vfnms vd va vb sx | .vfredosum vd va vb sx => tF t && even3 t vd va vb sx
  | .vabs vd va | .vneg vd va => tIF t && even t vd && even t va
  | .vsqrt vd va | .vclass vd va => tF t && even t vd && even t va
  | .vclz vd va | .vpopcnt vd va => tI t && even t vd && even t va
  | .vcmpeq _ va vb sx | .vcmpne _ va vb sx | .vcmplt _ va vb sx | .vcmple _ va vb sx | .vcmpgt _ va vb sx
  | .vcmpge _ va vb sx => tIF t && even3 t 0 va vb sx
  | .vcmpuo _ va vb sx => tF t && even3 t 0 va vb sx
  | .vcvt vd va ty => tM t && decide (ty < 14) && even t vd && even ty va
  | .vmvV vd va => tAll t && even t vd && even t va
  | .vmvX vd _ => tM t && even t vd
  | .vmerge vd va vb sx => tM t && even3 t vd va vb sx
  | .vid vd | .viota vd _ | .pmovv vd _ => tI t && even t vd
  | .vmovp _ va => tI t && even t va
  | .vcompress vd va | .vslideup vd va _ | .vslidedn vd va _ | .vperm vd va _ | .vxchg vd va _ =>
    tM t && even t vd && even t va
  | .vext _ va _ | .vqsend _ va => tM t && even t va
  | .vins vd _ _ | .vqrecv vd _ => tM t && even t vd
  | .pand .. | .por .. | .pxor .. | .pandn .. | .pnot .. | .pset .. | .pclr .. | .pfirst .. | .vpopcX .. | .vpopcLq ..
  | .mstepr .. | .mcommit .. | .copy .. | .copyc .. | .copys .. | .rrot .. => tAll t
  | .vqnt4 vd vs => t == 14 && vd % 2 == 0 && vs % 8 == 0
  | .vdq4 vd vs => t == 14 && vs % 2 == 0 && vd % 8 == 0
  | .mldb .. | .mstep .. => tMat t
  | .mzero .. | .mrd .. | .mwr .. => t == 10
  | .gor2 vd vs => geoOk 6 t vd vs
  | .gor3 vd vs => geoOk 12 t vd vs
  | .ginc vd vs => geoOk 8 t vd vs
  | .gins vd vs => geoOk 15 t vd vs
  | .gsegx vd vs => geoOk 8 t vd vs
  | .vld v _ | .vst v _ | .vlds v _ _ | .vsts v _ _ | .vldx v _ _ | .vstx v _ _ => tM t && even t v
  | .vamo v _ _ fn | .vamor v _ _ fn => tAmo fn t && even t v
  | .vldb4 v _ _ | .vstb4 v _ _ => t == 14 && v % 2 == 0
  | .cmdb .. => t == 4 || t == 5
  | _ => false

/-- Queue registers that a convoy of a kind may use (R167, R255). -/
def queueOk (vm : Bool) : Instr → Bool
  | .vqrecv _ n => decide (n < 4) || n == (if vm then 7 else 6)
  | .vqsend n _ => n == 4 || n == 5 || n == (if vm then 6 else 7)
  | _ => true

/-- The profile bit of a word or SC instruction (03 R62); none: never masked. -/
def profileOf : Instr → Option Nat
  | .cvy .. | .setvl .. | .setvli .. | .setvlq .. | .fsv .. | .fvs .. | .fvv .. | .qsend .. | .qrecv .. | .vsync => some 0
  | .mldb .. | .mstep .. | .mstepr .. | .mzero .. | .mrd .. | .mwr .. | .mcommit .. | .matt .. | .mdet | .mwait .. => some 1
  | .gor2 .. | .gor3 .. | .ginc .. | .gins .. | .gsegx .. => some 2
  | .vqnt4 .. | .vdq4 .. | .vldb4 .. | .vstb4 .. => some 3
  | .vxchg .. => some 4
  | .wid .. | .tsync | .binit .. | .barrive .. | .bexpect .. | .bwait .. | .phend .. | .monarm .. | .monwait | .spawn ..
  | .join .. | .xltrap .. | .remst .. | .fflags .. => none
  | i => if (bits (encodeWord i) 6 0 == 0x0B || bits (encodeWord i) 6 0 == 0x2B || bits (encodeWord i) 6 0 == 0x5B) then
      some 0 else none

/-- The launch's FEATURES admit an instruction (R64). -/
def admitted (features : Nat) (i : Instr) : Bool :=
  match profileOf i with
  | some p => bit features p
  | none => true

/-! ## Legality (R254-R256, R208) -/

def bodyMajor (w : Nat) : Bool := bits w 6 0 == 0x0B || bits w 6 0 == 0x2B || bits w 6 0 == 0x5B

/-- A convoy with a VM word is a VM convoy (R255). -/
def isVmBody (ws : List Nat) : Bool := ws.any fun w => bits w 6 0 == 0x2B

/-- VQRECV and VQSEND by their opcode. -/
def queueWord (w : Nat) : Bool := bits w 6 0 == 0x0B && (bits w 31 26 == 0x35 || bits w 31 26 == 0x36)

/-- The framing of R254 and R255. -/
def framed (ws : List Nat) : Bool :=
  ws.all bodyMajor && (!isVmBody ws || ws.all fun w => bits w 6 0 == 0x2B || queueWord w)

/-- One body word is legal in its convoy. -/
def wordLegal (features etype : Nat) (vm : Bool) (w : Nat) : Bool :=
  match wordOf w with
  | some i => i.inRange && bodyOk etype i && queueOk vm i && admitted features i
  | none => false

/-- The slot of an ILLEGAL fault: 0 for the CVY and the framing, else the first illegal word; none: legal. -/
def illegalSlot (features etype : Nat) (ws : List Nat) : Option Nat :=
  if 12 ≤ etype ∧ !bit features 3 then some 0
  else if !framed ws then some 0
  else ((List.range ws.length).find? fun j => !wordLegal features etype (isVmBody ws) (nth 0 ws j)).map (· + 1)

/-- The slot of an ILLEGAL fault that the words fetched so far show, where the fetch of a later word faults: the lowest slot is
recorded (R256). Queue words alone do not tell the kind of the convoy yet. -/
def prefixIllegal (features etype : Nat) (ws : List Nat) : Option Nat :=
  let kinds := if isVmBody ws then [true] else if ws.all queueWord then [false, true] else [false]
  if 12 ≤ etype ∧ !bit features 3 then some 0
  else if !framed ws then some 0
  else ((List.range ws.length).find? fun j => kinds.all fun vm => !wordLegal features etype vm (nth 0 ws j)).map (· + 1)

/-! ## x registers -/

/-- The x registers that a word captures, in assembly order (R163, 11 R213). -/
def captures : Instr → List Nat
  | .vadd _ _ b sx | .vsub _ _ b sx | .vrsub _ _ b sx | .vmul _ _ b sx | .vmulh _ _ b sx | .vdiv _ _ b sx
  | .vrem _ _ b sx | .vmin _ _ b sx | .vmax _ _ b sx | .vand _ _ b sx | .vor _ _ b sx | .vxor _ _ b sx
  | .vsll _ _ b sx | .vsrl _ _ b sx | .vsra _ _ b sx | .vsgnj _ _ b sx | .vscale _ _ b sx | .vfma _ _ b sx
  | .vfms _ _ b sx | .vfnma _ _ b sx | .vfnms _ _ b sx | .vcmpeq _ _ b sx | .vcmpne _ _ b sx | .vcmplt _ _ b sx
  | .vcmple _ _ b sx | .vcmpgt _ _ b sx | .vcmpge _ _ b sx | .vcmpuo _ _ b sx | .vmerge _ _ b sx | .vredsum _ _ b sx
  | .vredmax _ _ b sx | .vredmin _ _ b sx | .vredand _ _ b sx | .vredor _ _ b sx | .vredxor _ _ b sx
  | .vfredosum _ _ b sx => if sx = 1 then [b] else []
  | .vmvX _ xs | .vslideup _ _ xs | .vslidedn _ _ xs | .vxchg _ _ xs | .vext _ _ xs => [xs]
  | .vins _ xi xs => [xi, xs]
  | .mldb xa xp | .mstep _ xa xp | .mstepr _ xa xp | .mrd _ xa xp | .mwr _ xa xp => [xa, xp]
  | .vld _ xb | .vst _ xb | .vldx _ xb _ | .vstx _ xb _ | .vamo _ xb _ _ | .vamor _ xb _ _ => [xb]
  | .vlds _ xb xs | .vsts _ xb xs | .vldb4 _ xb xs | .vstb4 _ xb xs => [xb, xs]
  | .copy _ xd xs xn | .copyc _ xd xs xn | .rrot _ xd xs xn => [xd, xs, xn]
  | .copys _ xd xs xq => [xd, xs, xq]
  | _ => []

/-- The x register that a word writes, pending from its commit (09 R166). -/
def xDest : Instr → Option Nat
  | .vext xd _ _ | .vpopcX xd _ | .mcommit xd => some xd
  | .copy xt _ _ _ | .copys xt _ _ _ | .rrot xt _ _ _ => some xt
  | _ => none

/-! ## Vector registers, predicates and vv: v n is n, p n is 64 + n, vv is 88 -/

def vregs (t n : Nat) : List Nat := if tyPair t then [n, n + 1] else [n]
def second (t b sx : Nat) : List Nat := if sx = 1 then [] else vregs t b
def vvId : Nat := 88

/-- What a word reads and writes beside its guard. -/
def wordUses (t : Nat) (i : Instr) : List Nat × List Nat :=
  match i with
  | .vadd vd va vb sx | .vsub vd va vb sx | .vrsub vd va vb sx | .vmul vd va vb sx | .vmulh vd va vb sx
  | .vdiv vd va vb sx | .vrem vd va vb sx | .vmin vd va vb sx | .vmax vd va vb sx | .vand vd va vb sx
  | .vor vd va vb sx | .vxor vd va vb sx | .vsll vd va vb sx | .vsrl vd va vb sx | .vsra vd va vb sx
  | .vsgnj vd va vb sx | .vscale vd va vb sx | .vmerge vd va vb sx | .vredsum vd va vb sx | .vredmax vd va vb sx
  | .vredmin vd va vb sx | .vredand vd va vb sx | .vredor vd va vb sx | .vredxor vd va vb sx
  | .vfredosum vd va vb sx => (vregs t va ++ second t vb sx, vregs t vd)
  | .vfma vd va vb sx | .vfms vd va vb sx | .vfnma vd va vb sx | .vfnms vd va vb sx =>
    (vregs t vd ++ vregs t va ++ second t vb sx, vregs t vd)
  | .vabs vd va | .vneg vd va | .vsqrt vd va | .vclass vd va | .vclz vd va | .vpopcnt vd va | .vmvV vd va
  | .vcompress vd va | .vslideup vd va _ | .vslidedn vd va _ | .vxchg vd va _ => (vregs t va, vregs t vd)
  | .vcmpeq pd va vb sx | .vcmpne pd va vb sx | .vcmplt pd va vb sx | .vcmple pd va vb sx | .vcmpgt pd va vb sx
  | .vcmpge pd va vb sx | .vcmpuo pd va vb sx => (vregs t va ++ second t vb sx, [64 + pd])
  | .vcvt vd va ty => (vregs ty va, vregs t vd)
  | .vmvX vd _ | .vid vd | .vins vd _ _ | .vqrecv vd _ => ([], vregs t vd)
  | .viota vd pa | .pmovv vd pa => ([64 + pa], vregs t vd)
  | .vperm vd va vb => (vregs t va ++ [vb], vregs t vd)
  | .vext _ va _ | .vqsend _ va => (vregs t va, [])
  | .pand pd pa pb | .por pd pa pb | .pxor pd pa pb | .pandn pd pa pb => ([64 + pa, 64 + pb], [64 + pd])
  | .pnot pd pa | .pfirst pd pa => ([64 + pa], [64 + pd])
  | .pset pd | .pclr pd => ([], [64 + pd])
  | .vpopcX _ pa | .vpopcLq _ pa => ([64 + pa], [])
  | .vmovp pd va => (vregs t va, [64 + pd])
  | .vqnt4 vd vs => ((List.range 8).map (vs + ·), [vd, vd + 1, vvId])
  | .vdq4 vd vs => ([vs, vs + 1, vvId], (List.range 8).map (vd + ·))
  | .gor2 vd vs | .gor3 vd vs | .ginc vd vs | .gins vd vs | .gsegx vd vs =>
    ((List.range (geoCoords i * (if t = 11 then 2 else 1))).map (vs + ·), [vd])
  | .vld v _ | .vlds v _ _ => ([], vregs t v)
  | .vldx v _ vi => ([vi], vregs t v)
  | .vst v _ | .vsts v _ _ => (vregs t v, [])
  | .vstx v _ vi | .vamo v _ vi _ => (vregs t v ++ [vi], [])
  | .vamor v _ vi _ => (vregs t v ++ [vi], vregs t v)
  | .vldb4 v _ _ => ([], [v, v + 1, vvId])
  | .vstb4 v _ _ => ([v, v + 1, vvId], [])
  | .copyc pk _ _ _ => ([], [64 + pk])
  | .cmdb pd vs => ([vs], [64 + pd])
  | _ => ([], [])

/-- Everything that a word reads and writes under a mode: the guard, and for fp4 the vv bits (12 R236). -/
def uses (m : Mode) (i : Instr) : List Nat × List Nat :=
  let u := wordUses m.etype i
  let g := if m.guard = 31 then [] else [64 + m.guard]
  let v := if m.etype = 14 then [vvId] else []
  (u.1 ++ g ++ v, if m.etype = 14 ∧ u.2.any (· < 64) then u.2 ++ [vvId] else u.2)

/-! ## The words of a convoy -/

def Convoy.mode (c : Convoy) : Mode := modeOf c.head
/-- First element that a slot has still to perform, from the resume point on (09 R176). -/
def Convoy.start (c : Convoy) (slot : Nat) : Nat :=
  Nat.max (nth 0 c.ahead (slot - 1)) (if slot < c.resk then c.rese + 1 else c.rese)

/-- The word in a slot is complete at the resume point: it stands in an earlier segment, or all its elements lie before. -/
def Convoy.past (c : Convoy) (slot : Nat) : Bool :=
  (decide (slot < c.resk) && !c.sameSegment slot c.resk) ||
    (c.sameSegment slot c.resk && decide (0 < c.start slot) && match c.vl with
      | .fixed n => decide (n ≤ c.start slot)
      | .mark _ => false)

/-- Words of a convoy with their slots. -/
def Convoy.slots (c : Convoy) : List (Nat × Instr) :=
  (List.range c.words.length).filterMap fun j => (wordOf (nth 0 c.words j)).map fun i => (j + 1, i)

/-- The words that have still something to perform. -/
def Convoy.todo (c : Convoy) : List (Nat × Instr) := c.slots.filter fun x => !c.past x.1

/-- The first slot of the segment in which the convoy resumes. -/
def Convoy.resumeSlot (c : Convoy) : Nat :=
  let k := Nat.max 1 c.resk
  ((rangeFrom 1 (k + 1)).find? fun j => c.sameSegment j k).getD k

/-- The words of the segment that issues next. -/
def Convoy.issuing (c : Convoy) : List (Nat × Instr) := c.slots.filter fun x => c.sameSegment x.1 c.resumeSlot

/-- What words of a convoy read and write. -/
def Convoy.usesOf (c : Convoy) (ws : List (Nat × Instr)) : List Nat × List Nat :=
  let us := ws.map fun x => Machine.uses c.mode x.2
  (us.flatMap (·.1), us.flatMap (·.2))

/-- The segment of a convoy that would issue keeps the commit order behind an older convoy (25 R428): what is left of the older one
writes what the segment reads or writes, or reads what it writes. -/
def Convoy.conflicts (older c : Convoy) : Bool :=
  let a := older.usesOf older.todo
  let b := c.usesOf c.issuing
  (a.2.any fun r => b.1.contains r || b.2.contains r) || (a.1.any fun r => b.2.contains r)

/-- Vector writes (10 R196, 22 R411). -/
def vectorWrite : Instr → Bool
  | .vst .. | .vsts .. | .vstx .. | .vamo .. | .vamor .. | .vstb4 .. | .mrd .. => true
  | _ => false

/-- A copy word, whose chunks read their source only after the stores before it (10 R198). -/
def copyWordOf : Instr → Bool
  | .copy .. | .copyc .. | .copys .. | .rrot .. | .cmdb .. => true
  | _ => false

/-- The segment of a convoy that would issue has vector writes of a later strip than those an older convoy has left (10 R196), or
copies, which follow an older convoy's writes (R198). -/
def Convoy.strips (older c : Convoy) : Bool :=
  older.todo.any (fun x => vectorWrite x.2) &&
    c.issuing.any fun x => (vectorWrite x.2 && decide (older.strip < c.strip)) || copyWordOf x.2

end Sys2Proof.Machine
end

