-- ==== Sys2Proof/Machine/Hazards.lean ====
section
/-!
DEFINITION. Which bytes the waiting convoys of a strand name: operand rows of the matrix words (22 R400, R411), element
addresses of the vector memory words (19 R358, R367), and the location order between the streams (10 R193).
-/

namespace Sys2Proof.Machine

/-! ## Operand rows (22 R400) -/

/-- Bytes of an operand element; fp4 has none. -/
def opWidth (t : Nat) : Nat := if t = 8 ∨ t = 9 then 2 else 1

/-- Row stride in elements as the format takes it. -/
def rowStride (t st : Nat) : Nat := if t = 14 then st / 8 * 8 else st
def rowPitch (t st : Nat) : Nat := if t = 14 then rowStride t st * 5 / 8 else opWidth t * st
def rowAlign (t : Nat) : Nat := if t = 14 then 4 else opWidth t

/-- First byte to last of n elements of a row. -/
def rowSpan (t st n : Nat) : Nat :=
  if t = 14 then Nat.max ((n + 1) / 2) (rowStride t st / 2 + (n + 7) / 8) else opWidth t * n

/-- The runs of bytes that n elements of a row take: addresses and lengths. -/
def rowRuns (t st base n : Nat) : List (Nat × Nat) :=
  if t = 14 then [(base, (n + 1) / 2), (base + rowStride t st / 2, (n + 7) / 8)] else [(base, opWidth t * n)]

def rowBase (t st base r : Nat) : Nat := (base + r * rowPitch t st) % 2 ^ 64

/-- Packed parameters (R402, R404, R411). -/
def par0 (p : Word) : Nat := bits p.toNat 15 0
def par1 (p : Word) : Nat := bits p.toNat 31 16
def par2 (p : Word) : Nat := bits p.toNat 47 32
def par3 (p : Word) : Nat := bits p.toNat 63 48

/-- Rows and columns of an MRD or MWR after clipping (R411). -/
def clipRows (p : Word) : Nat := if 64 ≤ par1 p then 0 else Nat.min (par0 p) (64 - par1 p)
def clipCols (p : Word) : Nat := Nat.min (par3 p) 512

/-- Address of element (j, c) of an MRD or MWR. -/
def accAddr (base p : Word) (j c : Nat) : Nat := (base.toNat + 4 * (j * par2 p + c)) % 2 ^ 64

/-! ## Element addresses -/

/-- Width in bytes of an element in memory (R358). -/
def elemBytes (t : Nat) : Nat := if t = 14 then 4 else tyWidth t / 8

/-- Address of element i of a memory word (R358, R367), from the registers as they stand. -/
def elemAddr (t : Strand) (c : Convoy) (slot ty i : Nat) (w : Instr) : Nat :=
  let b := (c.cap slot 0).toNat
  match w with
  | .vlds .. | .vsts .. => ((c.cap slot 0) + BitVec.ofNat 64 i * (c.cap slot 1)).toNat
  | .vldx _ _ vi | .vstx _ _ vi | .vamo _ _ vi _ | .vamor _ _ vi _ => (BitVec.ofNat 64 b + sext 32 (t.slot vi i)).toNat
  | _ => (b + i * elemBytes ty) % 2 ^ 64

/-- The index register of a word. -/
def indexReg : Instr → Option Nat
  | .vldx _ _ vi | .vstx _ _ vi | .vamo _ _ vi _ | .vamor _ _ vi _ => some vi
  | _ => none

/-- A vector memory word: VM op5 0x00 to 0x08 and 0x0E. -/
def memoryWord : Instr → Bool
  | .vld .. | .vlds .. | .vldx .. | .vst .. | .vsts .. | .vstx .. | .vamo .. | .vamor .. | .vldb4 .. | .vstb4 .. => true
  | _ => false

/-- The largest VL that a convoy can have. -/
def Convoy.vlMax (c : Convoy) (mvl : Nat) : Nat := match c.vl with | .fixed n => n | .mark _ => mvl

/-- Accesses (element, address, bytes) that a memory word has still to make. -/
def wordAccesses (t : Strand) (mvl : Nat) (c : Convoy) (slot : Nat) (w : Instr) : List (Nat × Nat × Nat) :=
  let ty := c.mode.etype
  let left := rangeFrom (if c.sameSegment slot c.resk then c.start slot else 0) (c.vlMax mvl)
  match w with
  | .vldb4 .. | .vstb4 .. =>
    left.flatMap fun i => [(i, elemAddr t c slot ty i w, 4), (i, ((c.cap slot 1).toNat + i) % 2 ^ 64, 1)]
  | .mrd .. | .mwr .. =>
    (List.range (clipRows (c.cap slot 1))).flatMap fun j => (List.range (clipCols (c.cap slot 1))).map fun k =>
      (0, accAddr (c.cap slot 0) (c.cap slot 1) j k, 4)
  | .mldb .. =>
    (List.range (par0 (c.cap slot 1))).flatMap fun r =>
      (rowRuns ty (par2 (c.cap slot 1)) (rowBase ty (par2 (c.cap slot 1)) (c.cap slot 0).toNat r) (par3 (c.cap slot 1))).map
        fun x => (0, x.1, x.2)
  | .mstep .. =>
    (List.range (Nat.min (c.vlMax mvl) 64)).flatMap fun r =>
      (rowRuns ty (par2 (c.cap slot 1)) (rowBase ty (par2 (c.cap slot 1)) (c.cap slot 0).toNat r) (par0 (c.cap slot 1))).map
        fun x => (0, x.1, x.2)
  | .mstepr .. => (List.range (c.vlMax mvl)).map fun j => (0, ((c.cap slot 0).toNat + 64 * j) % 2 ^ 64, 64)
  | _ => if memoryWord w then left.map fun i => (i, elemAddr t c slot ty i w, elemBytes ty) else []

/-- An index register that a word of this convoy before the slot, or an earlier convoy, has still to write. -/
def indexUnknown (t : Strand) (c : Convoy) (slot : Nat) (w : Instr) : Bool :=
  match indexReg w with
  | none => false
  | some vi =>
    (c.todo.any fun x => decide (x.1 < slot) && (uses c.mode x.2).2.contains vi) ||
      ((convoysOf t.va ++ convoysOf t.vm).any fun o => decide (o.seq < c.seq) && (o.usesOf o.todo).2.contains vi)

/-- Physical addresses in the host window and in a peer's (03 R44). -/
def hostPA (a : Nat) : Nat := 11 * 2 ^ 48 + a
def peerPA (id off : Nat) : Nat := 10 * 2 ^ 48 + id * 2 ^ 42 + off

/-- The physical address that a target has as a location; a control page takes no vector access. -/
def Target.location : Target → Option Nat
  | .mem pa => some pa
  | .host a => some (hostPA a)
  | .peer id off => some (peerPA id off)
  | .page _ _ _ => none

/-- Physical bytes that an access of a strand's convoy names, if it translates. -/
def accessPa (s : State) (w k i va : Nat) : Option Nat :=
  match resolve s w k ((s.ctx w k).core (i / 512)) va .load with
  | .ok x => x.target.location
  | .error _ => match resolve s w k ((s.ctx w k).core (i / 512)) va .store with
    | .ok x => x.target.location
    | .error _ => none

/-- Bytes of a record field. -/
def recordField (s : State) (w k va off n : Nat) : Nat :=
  match accessPa s w k 0 ((va + off) % 2 ^ 64) with
  | some pa => readNum s (keySlot s w) pa n
  | none => 0

/-- The rows of A or of B that the operand record at an address names (22 R412): addresses and spans. -/
def recordA (s : State) (w k va : Nat) : List (Nat × Nat) :=
  let d0 := recordField s w k va 0 8
  let d2 := recordField s w k va 0x10 8
  let ty := bits d2 35 32
  let st := bits d0 63 48
  (List.range (bits d2 45 40 + 1)).map fun r =>
    (rowBase ty st (sext 48 (bits d0 47 0)).toNat r, rowSpan ty st (bits d2 15 0))
def recordB (s : State) (w k va : Nat) : List (Nat × Nat) :=
  let d1 := recordField s w k va 8 8
  let d2 := recordField s w k va 0x10 8
  let ty := bits d2 39 36
  let st := bits d1 63 48
  (List.range (Nat.min (bits d2 15 0) 256)).map fun r =>
    (rowBase ty st (sext 48 (bits d1 47 0)).toNat r, rowSpan ty st (bits d2 25 16))

/-- The rows that the records of an MSTEPR name are accesses of the strand too (22 R415). -/
def recordAccesses (s : State) (w k : Nat) (c : Convoy) (slot : Nat) : Instr → List (Nat × Nat × Nat)
  | .mstepr .. => (List.range (c.vlMax (s.ctx w k).mvl)).flatMap fun j =>
    let va := ((c.cap slot 0).toNat + 64 * j) % 2 ^ 64
    (recordA s w k va ++ recordB s w k va).map fun x => (0, x.1, x.2)
  | _ => []

/-- The parts of an access that lie in one page each. -/
def accessPieces (a : Nat × Nat × Nat) : List (Nat × Nat × Nat) :=
  (List.range ((a.2.1 % 4096 + a.2.2 + 4095) / 4096)).map fun i =>
    let lo := if i = 0 then a.2.1 else (a.2.1 / 4096 + i) * 4096
    (a.1, lo % 2 ^ 64, Nat.min (a.2.1 + a.2.2) ((a.2.1 / 4096 + i + 1) * 4096) - lo)

/-- Physical runs of accesses, page by page. -/
def runsOf (s : State) (w k : Nat) (as : List (Nat × Nat × Nat)) : List (Nat × Nat) :=
  (as.flatMap accessPieces).filterMap fun a => (accessPa s w k a.1 a.2.1).map fun pa => (pa, a.2.2)

/-- The runs of physical bytes that words of a convoy still name; none where an index is not known yet. -/
def Convoy.runs (s : State) (w k : Nat) (c : Convoy) (ws : List (Nat × Instr)) : Option (List (Nat × Nat)) :=
  let t := (s.ctx w k).strand
  if ws.any fun x => indexUnknown t c x.1 x.2 then none
  else some (runsOf s w k (ws.flatMap fun x => wordAccesses t (s.ctx w k).mvl c x.1 x.2 ++ recordAccesses s w k c x.1 x.2))

/-- Two runs share an aligned doubleword, the location of R192. -/
def sameLocation (a b : Nat × Nat) : Bool :=
  decide (a.1 / 8 ≤ (b.1 + b.2 - 1) / 8) && decide (b.1 / 8 ≤ (a.1 + a.2 - 1) / 8)

/-- A vector memory word, or a matrix word that reads or writes memory. -/
def accessWord (i : Instr) : Bool :=
  memoryWord i || match i with
    | .mrd .. | .mwr .. | .mldb .. | .mstep .. | .mstepr .. => true
    | _ => false

/-- A record that the Anvil holds has still to read its B rows there: a later access of the strand waits (10 R193, 22 R415). -/
def matrixReads (s : State) (w k pa n : Nat) : Bool :=
  match (s.ctx w k).strand.anvil with
  | none => false
  | some a => a.held.any fun h => h.words.length == 8 && !h.loaded &&
      (runsOf s w k ((recordB s w k ((h.xa + 64 * h.index) % 2 ^ 64)).map fun x => (0, x.1, x.2))).any (sameLocation (pa, n))

/-- A waiting convoy of the strand, or an operand record that the Anvil holds, names one of these bytes' locations: a later scalar
access waits for it (10 R193). Replayed accesses precede every saved convoy (11 R222). -/
def convoyNames (s : State) (w k pa n : Nat) : Bool :=
  let c := s.ctx w k
  matrixReads s w k pa n || c.state != .resuming && (convoysOf c.strand.vm ++ convoysOf c.strand.va).any fun o =>
    (o.todo.any fun x => accessWord x.2) && match o.runs s w k o.todo with
      | none => true
      | some rs => rs.any (sameLocation (pa, n))

/-- An older convoy of the other queue names a location that the segment of this one names (10 R193). -/
def olderNames (s : State) (w k : Nat) (other : List QEntry) (c : Convoy) : Bool :=
  (c.issuing.any fun x => accessWord x.2) && (convoysOf other).any fun o =>
    decide (o.seq < c.seq) && (o.todo.any fun x => accessWord x.2) &&
      match o.runs s w k o.todo, c.runs s w k c.issuing with
      | some a, some b => a.any fun x => b.any (sameLocation x)
      | _, _ => true

/-- A write of the strand waits at its location: another strand's LR holds it (15 R299), an update of the strand is outstanding
there, or the Anvil has still to read it (10 R193). -/
def writeHeld (s : State) (w k pa n : Nat) : Bool :=
  granuleHeld s w k pa n || (s.ctx w k).strand.updating pa n || matrixReads s w k pa n

/-! ## Slot order in a segment (10 R193) -/

/-- Physical runs of a memory word's elements from lo up to hi. -/
def elemRuns (s : State) (w k : Nat) (c : Convoy) (x : Nat × Instr) (lo hi : Nat) : List (Nat × Nat) :=
  let c := { c with resk := x.1, rese := lo, ahead := [] }
  runsOf s w k ((wordAccesses (s.ctx w k).strand (s.ctx w k).mvl c x.1 x.2).filter fun a => decide (a.1 < hi))

/-- Where issue would halt at a position, an element that a later slot performs before the halt meets an element that an earlier
slot has left, and one of them writes: the later slot may not go first. (Chunks that a copy word of the segment has issued are not
taken back: such a segment keeps the order of its elements.) -/
def Convoy.crosses (s : State) (w k vl : Nat) (c : Convoy) (ws : List (Nat × Instr)) (slot e : Nat) : Bool :=
  let ms := ws.filter fun x => memoryWord x.2
  let top := fun (j : Nat) => if j < slot then e + 1 else e
  !(ws.any fun x => copyWordOf x.2) && ms.any fun x => ms.any fun y =>
    decide (x.1 < y.1) && (vectorWrite x.2 || vectorWrite y.2) && decide (c.start y.1 < top y.1) && decide (top x.1 < vl) &&
      ((match indexReg x.2 with
        | some vi => ws.any fun z => decide (z.1 < x.1) && (uses c.mode z.2).2.contains vi
        | none => false) ||
        (elemRuns s w k c x (top x.1) vl).any fun a => (elemRuns s w k c y (c.start y.1) (top y.1)).any (sameLocation a))

end Sys2Proof.Machine
end

