-- ==== Sys2Proof/Machine/Loads.lean ====
section
/-!
DEFINITION. Scalar memory operations, as an instruction issues them and as a replay reissues them: loads, load-reserve,
monitor arming, atomics, store-conditional and barrier updates (15 R288-R299, 16 R313, 21 R389-R392, 04 R85-R87).
-/

namespace Sys2Proof.Machine

/-- What becomes of an operation at its issue. -/
inductive Did where
  /-- It is done, or it is outstanding with its entry. -/
  | next (s : State)
  /-- It waits: nothing has changed but what it asked of the host. -/
  | busy (s : State)
  | fault (s : State) (c : Cause)

/-- What becomes of a read. -/
inductive Got where
  | value (s : State) (v : Nat)
  /-- A host address: a request is to go out. -/
  | host (s : State) (a : Nat)
  | busy
  | fault (c : Cause)

/-- The record would hold no more than the limit of the class with n more entries (08 R150): the wait that the strand is
in is one of them. -/
def virgaRoom (s : State) (w k n : Nat) : Bool :=
  let c := s.ctx w k
  decide (c.strand.record.length + c.wait.isSome.toNat + n ≤ virgaLimit c.elat)

/-- A scalar access to these bytes waits: at its port, for an outstanding update, or for a convoy element. -/
def scalarWaits (s : State) (w k pa n : Nat) : Bool :=
  portBusy s pa n || (s.ctx w k).strand.acquiring || (s.ctx w k).strand.updating pa n || convoyNames s w k pa n

/-- A request of the strand to these host locations has not completed, or there is no room for one more: a later access to
them waits (10 R193, 04 R79, 08 R150). -/
def hostBusy (s : State) (w k a n : Nat) : Bool :=
  !virgaRoom s w k 1 || !hostRoom s || s.hreqs.any fun (e : Nat × HReq) =>
    e.2.world == w && e.2.ctx == k && !e.2.dropped && !e.2.posted && e.2.link.isNone &&
      decide (a / 8 ≤ (e.2.addr + e.2.len - 1) / 8) && decide (e.2.addr / 8 ≤ (a + n - 1) / 8)

/-- A scalar access to the host waits besides for an acquire, and for a convoy element (10 R193, R195). -/
def hostWaits (s : State) (w k a n : Nat) : Bool :=
  (s.ctx w k).strand.acquiring || hostBusy s w k a n || convoyNames s w k (hostPA a) n

/-- A scalar access. -/
def scalarAsk (s : State) (w k va width : Nat) (acc : Acc) (sd : Option Nat) : Ask :=
  { va := va, width := width, acc := acc, vec := false, sd := sd, locks := (s.ctx w k).strand.locked }

/-- The walk of an aligned scalar access waits at a port (01 R27). -/
def walkBusy (s : State) (w k va width : Nat) (acc : Acc) : Bool := va % width == 0 && xlatWaits s w k va acc

/-- An access of a kind that the host and peer windows never take goes there: PERM, whatever else holds (04 R87, 10 R188). -/
def remoteVa (s : State) (w k va : Nat) (acc : Acc) : Bool :=
  match resolve s w k ((s.ctx w k).core 0) va acc with
  | .ok x => (match x.target with | .host _ | .peer _ _ => true | _ => false)
  | .error _ => false

/-- The value that a load of funct3 gives (R288, R457). -/
def extend (f3 v : Nat) : Word := if f3 < 3 then sext (8 * 2 ^ f3) v else BitVec.ofNat 64 v

/-- A scalar load reads (R288, R293, R294). -/
def loadAt (s : State) (w k va width : Nat) : Got :=
  if walkBusy s w k va width .load then .busy
  else match checkAccess s w k ((s.ctx w k).core 0) (scalarAsk s w k va width .load none) with
  | .error c => .fault c
  | .ok x =>
    match x.target with
    | .mem pa =>
      if scalarWaits s w k pa width then .busy
      else match loadNum s w pa width with
        | .error c => .fault c
        | .ok v => .value (setAD s w x .load) v
    | .page kind idx off =>
      if (s.ctx w k).strand.acquiring then .busy else .value (setAD s w x .load) (readPage s w kind idx off width)
    | .host a => if hostWaits s w k a width then .busy else .host (setAD s w x .load) a
    | .peer _ _ => .fault .perm

/-- LR reads and reserves (R297); another strand's hold makes it wait (R299). -/
def reserveAt (s : State) (w k va width : Nat) : Got :=
  if walkBusy s w k va width .load then .busy
  else if va % width = 0 ∧ remoteVa s w k va .load then .fault .perm
  else match checkAccess s w k ((s.ctx w k).core 0) (scalarAsk s w k va width .load none) with
  | .error c => .fault c
  | .ok x =>
    match x.target with
    | .mem pa =>
      if scalarWaits s w k pa width || granuleHeld s w k pa width then .busy
      else match loadNum s w pa width with
        | .error c => .fault c
        | .ok v => .value ((setAD s w x .load).modStrand w k fun t =>
            { t with resv := some { addr := va, width := width, granule := pa / 64, hold := true } }) v
    | .page _ _ _ => .fault .ctlvec
    | .host _ | .peer _ _ => .fault .perm

/-- MONARM reads and arms, as one step (16 R313, 10 R203). -/
def armAt (s : State) (w k va : Nat) : Got :=
  let arm := fun (s : State) (world line : Nat) =>
    s.modStrand w k fun t => { t with mon := some { world := world, line := line, woken := false } }
  if walkBusy s w k va 8 .load then .busy
  else if va % 8 = 0 ∧ remoteVa s w k va .load then .fault .perm
  else match checkAccess s w k ((s.ctx w k).core 0) (scalarAsk s w k va 8 .load none) with
  | .error c => .fault c
  | .ok x =>
    match x.target with
    | .mem pa =>
      if scalarWaits s w k pa 8 then .busy
      else match loadNum s w pa 8 with
        | .error c => .fault c
        | .ok v => .value (arm (setAD s w x .load) 0 (pa / 64)) v
    | .page kind idx off =>
      .value (arm (setAD s w x .load) (if instanced kind then w else 0) (pagePA kind idx off / 64))
        (readPage s w kind idx off 8)
    | .host _ | .peer _ _ => .fault .perm

/-- A load of the host window goes out; its register waits for the completion (04 R85). -/
def hostLoad (s : State) (w k pc va a f3 rd : Nat) : State :=
  let width := 2 ^ (f3 % 4)
  let id := (s.ctx w k).strand.opNext
  let o : Op := { Op.zero with
    kind := 1, func := f3, reg := rd, wlog := f3 % 4, addr := va, host := some (nextId s), pc := pc }
  (hostAsk s w k id a width fun h n => .hostRead h width n).modStrand w k fun t =>
    (t.addOp o).addPend rd (4 * id + 1)

/-- A checked store, as what becomes of its operation. -/
def storeDid (s : State) (w k : Nat) (x : Xlat) (a : Ask) (v : Nat) (strip : Option Nat := none) : Did :=
  match storeNum s w k x a v strip with
  | .done s => .next s
  | .fault s c => .fault s c
  | .waits s => .busy s

/-- A scalar store to memory, the host or a peer performs, or waits at its port as a retired store (R288, R294). -/
def storeAt (s : State) (w k : Nat) (x : Xlat) (a : Ask) (v : Nat) : Did :=
  let t := (s.ctx w k).strand
  let waits := match x.target with
    | .mem pa => granuleHeld s w k pa a.width || t.acquiring || t.updating pa a.width || convoyNames s w k pa a.width
    | .host h => hostWaits s w k h a.width
    | .peer id off => t.acquiring || convoyNames s w k (peerPA id off) a.width
    | .page _ _ _ => false
  if waits || t.lockPending a.va a.width then .busy s else storeDid s w k x a v

/-! ## Updates -/

/-- The object of a barrier operation, checked as for an AMO (21 R389). -/
def barrierTarget (s : State) (w k va : Nat) : Except Cause Xlat :=
  match checkAccess s w k ((s.ctx w k).core 0) (scalarAsk s w k va 64 .amo none) with
  | .error c => .error c
  | .ok x => match x.target with | .host _ => .error .perm | _ => .ok x

/-- Where an update goes: AMO (R292), SC (R297), or a barrier operation. -/
def updateTarget (s : State) (w k : Nat) (o : Op) : Except Cause Xlat :=
  let acc := if o.kind = 0x11 then Acc.store else .amo
  if o.kind ≥ 0x14 then barrierTarget s w k o.addr
  else if o.kind = 0x11 ∧ o.addr % 2 ^ o.wlog = 0 ∧ remoteVa s w k o.addr acc then .error .perm
  else
    match checkAccess s w k ((s.ctx w k).core 0)
        { scalarAsk s w k o.addr (2 ^ o.wlog) acc none with fetch := o.kind == 0x10 && (o.func == 0 || o.func == 1) } with
    | .error c =>
      -- a control page refuses SC as it refuses an AMO (03 R48)
      .error (if o.kind = 0x11 ∧ c = .misalign ∧ o.addr % 2 ^ o.wlog = 0 then .ctlvec else c)
    | .ok x =>
      match x.target with
      | .page _ _ _ => .error .ctlvec
      | .peer _ _ => .error .perm
      | .host _ | .mem _ => .ok x

/-- An AtomicOp of an operation that has its name and tag goes out (04 R87); the register waits for its response. -/
def sendAtomic (s : State) (w k : Nat) (o : Op) (a : Nat) : State :=
  let n := 2 ^ o.wlog
  let r := { HReq.zero with world := w, ctx := k, op := o.id, addr := a, len := n, pasid := pasidOf s w k, tag := some o.tag }
  leaveT (hostRequest s r fun h id => .hostAtomic h n o.func o.opnd id) w k { o with host := some (nextId s) }

/-- A scalar AMO of the host window issues. -/
def hostAtomic (s : State) (w k : Nat) (o : Op) (a : Nat) : State :=
  sendAtomic (s.modStrand w k Strand.nextT) w k ((s.ctx w k).strand.tagged w k o) a

/-- A scalar AMO, an SC or a barrier update issues. -/
def issueUpdate (s : State) (w k : Nat) (o : Op) : Did :=
  let acc := if o.kind = 0x11 then Acc.store else .amo
  if walkBusy s w k o.addr (if o.kind ≥ 0x14 then 64 else 2 ^ o.wlog) acc then .busy s
  else match updateTarget s w k o with
  | .error c => .fault s c
  | .ok x =>
    if !virgaRoom s w k 1 || (s.ctx w k).strand.lockPending o.addr (if o.kind ≥ 0x14 then 64 else 2 ^ o.wlog) ||
        (o.len % 2 == 1 && (s.ctx w k).strand.releasing) then .busy s
    else match x.target with
    | .host a => if hostWaits s w k a (2 ^ o.wlog) then .busy s else .next (hostAtomic (setAD s w x acc) w k o a)
    | .mem pa =>
      let o := { o with pa := pa }
      if granuleHeld s w k pa o.bytes || (s.ctx w k).strand.acquiring || (s.ctx w k).strand.updating pa o.bytes ||
          convoyNames s w k pa o.bytes then .busy s
      else match issueT (setAD s w x acc) w k o with
        | .error c => .fault s c
        | .ok s => .next s
    | _ => .busy s

/-! ## Waits -/

/-- The phase of the barrier at an address, as BWAIT reads it (21 R389, R392). -/
def barrierPhase (s : State) (w k va : Nat) : Except Cause (Xlat × Nat) :=
  if va % 64 ≠ 0 then .error .misalign
  else match resolve s w k ((s.ctx w k).core 0) va .load with
    | .error c => .error c
    | .ok x =>
      match x.target with
      | .page _ _ _ => .error .ctlvec
      | .host _ | .peer _ _ => .error .perm
      | .mem pa =>
        if !memReady s pa then .error .memnr
        else match loadNum s w pa 8 with
          | .error c => .error c
          | .ok v => .ok (x, v / 2 ^ 32)

/-- BWAIT's read waits at a port, or for an update of the strand (R389, 01 R27). -/
def barrierBusy (s : State) (w k va : Nat) : Bool :=
  walkBusy s w k va 64 .load || match barrierPhase s w k va with
    | .ok (x, _) => (match x.target with | .mem pa => portBusy s pa 24 || (s.ctx w k).strand.updating pa 24 | _ => false)
    | .error _ => false

/-- The strand enters a wait (03 R57): PC stands past the instruction, and the dispatcher may find its launch blocked. -/
def enterWait (s : State) (w k : Nat) (wt : Wait) : State :=
  let s := s.modCtx w k fun c => { c with wait := some wt, strand := { c.strand with pc := c.strand.pc + 4 } }
  let s := s.setCtxState w k .waiting
  if (s.launch w (s.ctx w k).launch).toPlace then s.push .dispatchDecision [] else s

/-- A wait ends and the context runs again (R57); the launch has made progress (08 R152). -/
def endWait (s : State) (w k : Nat) (f : Strand → Strand) : State :=
  let s := s.modCtx w k fun c => { c with wait := none, strand := f c.strand }
  (s.setCtxState w k .running).progress w (s.ctx w k).launch

/-- An MWAIT of an id covers a batch (22 R406). -/
def covers32 (id b : Nat) : Bool := decide ((id % 2 ^ 32 + 2 ^ 32 - b) % 2 ^ 32 < 2 ^ 31)

/-- Every batch that an id covers is complete. -/
def Strand.batchesDone (t : Strand) (id : Nat) : Bool :=
  match t.anvil with
  | some a => (a.done.filter fun b => covers32 id b.id).all (·.complete)
  | none => true

/-- The batches that an id covers leave the list. -/
def Strand.cover (t : Strand) (id : Nat) : Strand :=
  { t with anvil := t.anvil.map fun a => { a with done := a.done.filter fun b => !covers32 id b.id } }

/-- The child that a token names (08 R153, R154): bit 63, CHILDQ, count. -/
def Strand.child (t : Strand) (tok : Nat) : Option Child :=
  if bit tok 63 ∧ bits tok 62 47 = 0 then
    t.kids.find? fun c => c.q == bits tok 46 32 && c.count == bits tok 31 0
  else none

/-- A child's token is released. -/
def Strand.dropChild (t : Strand) (c : Child) : Strand :=
  { t with kids := t.kids.filter fun x => !(x.q == c.q && x.count == c.count) }

/-- What JOIN returns for a token that names no child of the strand (R154): STATUS 1, PERR 1, DETAIL 0. The manual
states no VALUE: a free value. -/
def badToken (s : State) : Word := BitVec.ofNat 64 (2 ^ 40 + 2 ^ 32) + (Config.joinValue s.fresh).zeroExtend 64

/-- What ends the wait that a context is in, if it has come. -/
def waitOver (s : State) (w k : Nat) (wt : Wait) : Option (Strand → Strand) :=
  let t := (s.ctx w k).strand
  match wt.kind with
  | 0x30 =>
    if barrierBusy s w k (wt.operand / 2 * 2) then none
    else match barrierPhase s w k (wt.operand / 2 * 2) with
    | .ok (_, ph) => if ph % 2 = wt.operand % 2 then none else some id
    | .error _ => none
  | 0x31 =>
    match t.mon with
    | some m => if m.woken then some (fun t => { t with mon := none }) else none
    | none => some id
  | 0x32 =>
    match t.child wt.operand with
    | some c => match c.done with
      | some v => some fun t => (t.dropChild c).wx wt.reg (BitVec.ofNat 64 v)
      | none => none
    | none => some fun t => t.wx wt.reg (badToken s)
  | _ => if t.batchesDone wt.operand then some (fun t => t.cover wt.operand) else none

end Sys2Proof.Machine
end

