-- ==== Sys2Proof/Machine/Strands.lean ====
section
/-!
DEFINITION. What happens to a strand without an instruction of its own: waits that end, replay after RUN, updates at
their ports and their responses, faults that a port or the host reports (03 R57, 09 R169, R456, 10 R189,
11 R218-R223, 15 R299, 22 R416).
-/

namespace Sys2Proof.Machine

/-! ## Waits -/

/-- WAIT_SATISFIED w k (03 R57): the wait is tested again, and the context runs once it has ended. A BWAIT whose read waits
at a port is tested when the port changes. -/
def waitSatisfied (s : State) (w k : Nat) : State :=
  match (s.ctx w k).state, (s.ctx w k).wait with
  | .waiting, some wt =>
    match waitOver s w k wt with
    | some f => endWait { s with fresh := s.fresh + 1 } w k f
    | none =>
      if wt.kind = 0x30 ∧ barrierBusy s w k (wt.operand / 2 * 2) ∧ !s.parked.contains (event .waitSatisfied [w, k]) then
        park s (event .waitSatisfied [w, k])
      else s
  | _, _ => s

def execWaitSatisfied (s : State) : Res := .next (waitSatisfied s (s.arg 0) (s.arg 1))

/-- RESERVATION_HOLD_EXPIRY w k (15 R299): 4,096 cycles have passed since the LR; what waited at the granule goes on. So it does
where the reservation itself has ended (a third operand, MODEL). -/
def execReservationHoldExpiry (s : State) : Res :=
  .next (unholdAll (if s.arg 2 ≠ 0 then s else s.modStrand (s.arg 0) (s.arg 1) fun t =>
    { t with resv := t.resv.map fun r => { r with hold := false } }))

/-! ## Faults after issue -/

/-- Place of an entry in its record (11 R223 PROGRESS). -/
def recordIndex (s : State) (c : Ctx) (pa : Nat) : Nat :=
  ((recordPlaces s c).takeWhile fun e => e.1 + 0x6000 + 32 * e.2 != pa).length

/-- An operation of a convoy's element that stands ahead of the convoy's resume point. -/
def Strand.ahead (t : Strand) (o : Op) : Bool :=
  (o.kind == 0x12 || o.kind == 0x13) && !o.replayed && match t.vm with
    | .convoy c :: _ => c.sent.contains (o.slot, o.elem) &&
        (decide (c.rese < o.elem) || (c.rese == o.elem && decide (c.resk < o.slot)))
    | _ => false

/-- An element is no longer sent: its convoy performs it again (09 R456). Where issue has gone past it, the convoy comes back to
it, and the class T elements behind it have been sent. -/
def Strand.unsend (t : Strand) (o : Op) : Strand :=
  { t.dropOp o.id with
    vm := match t.vm with
      | .convoy c :: r =>
        let c := { c with sent := c.sent.filter (· != (o.slot, o.elem)), ahead := [] }
        let back := o.cls == 1 && o.pc == c.addr && c.sameSegment o.slot c.resk &&
          (decide (o.elem < c.rese) || (o.elem == c.rese && decide (o.slot < c.resk)))
        .convoy (if back then { c with resk := o.slot, rese := o.elem, prog := 0 } else c) :: r
      | q => q }

/-- FELEM of an operation's fault: no element for SPAWN's packet (16 R316, 11 R217). -/
def Op.faultElem (o : Op) : Nat := if o.slot = 0 ∧ o.kind = 2 ∧ o.group ≠ 0 then 0 else o.elem

/-- FADDR of an operation's fault: the scale address of a block whose codes have come (19 R371). -/
def Op.faultAddr (o : Op) : Nat := if o.kind = 2 ∧ o.func / 16 = 1 ∧ o.len = 1 then o.opnd else o.addr

/-- A read that a convoy's element has sent to the host: a failure is found where the element issues again, with everything
before it performed (09 R176). -/
def Op.elementAsk (o : Op) : Bool := o.kind == 2 && o.group != 0 && o.slot != 0

/-- The operation is of the strand's own instruction or element, which is performed again after a fault: SPAWN's read of its
packet, or a class T element of the head convoy. -/
def Op.again (o : Op) : Bool := (o.kind == 2 && o.group != 0) || ((o.kind == 0x12 || o.kind == 0x13) && !o.replayed)

/-- A fault reported after an operation issued (04 R86, 09 R456, 11 R223). A class T element at or before the resume point faults
there, precisely; one ahead of it did not apply, and faults, if it still does, where its convoy comes to it, as the read of an
element does; every other operation stays in the record and is issued again by the replay. A context that is STOPPING takes
TAGFAIL alone (03 R57, 11 R211). -/
def opFault (s : State) (w k : Nat) (o : Op) (c : Cause) : State :=
  let st := (s.ctx w k).state
  if c ≠ .tagfail ∧ st.live ∧ (s.ctx w k).strand.ahead o then s.modStrand w k fun t => (t.unsend o).unhold
  else if st.live ∧ o.elementAsk then s.modStrand w k fun t => (t.modOp o.id fun o => { o with done := true, part := c.code }).unhold
  else if st.live ∨ (c = .tagfail ∧ st = .stopping) then
    let f : FaultRec := { cause := c, fslot := if o.replayed then 5 else o.slot, fpc := o.pc, felem := o.faultElem,
                          progress := if o.replayed then recordIndex s (s.ctx w k) o.pc else 0, faddr := o.faultAddr }
    let s := if o.again then s.modStrand w k fun t => t.unsend o else s
    takeFault s w k f
  else s

/-- PORT_FAULT_REPORT w k id cause (09 R456). -/
def execPortFaultReport (s : State) : Res :=
  let w := s.arg 0
  let k := s.arg 1
  .next (match (s.ctx w k).strand.findOp (s.arg 2) with
    | some o => if o.done ∨ o.queued then s else opFault s w k o (causeOf (s.arg 3))
    | none => s)

/-! ## Updates and responses (11 R220) -/

/-- A request of a saved strand reaches its port (20 R374): it applies once, behind what waits there, and its tag stays pinned. A port
that has failed loses it. -/
def flightUpdate (s : State) (w k id : Nat) : State :=
  match s.flights.find? fun x => x.1 == w && x.2.1 == k && x.2.2.id == id with
  | none => s
  | some (_, _, o) =>
    let s1 : State := { s with flights := s.flights.filter fun x => !(x.1 == w && x.2.1 == k && x.2.2.id == id) }
    let earlier := s.flights.takeWhile fun x => !(x.1 == w && x.2.1 == k && x.2.2.id == id)
    if !memReady s o.pa then wakeAll s1
    else if writeWaits s o.pa o.bytes || granuleHeld s w k o.pa o.bytes || portFull s (portOf s o.pa) ||
        earlier.any (fun x => x.1 == w && x.2.1 == k && x.2.2.meets o.pa o.bytes) then s
    else match applyUpdate s1 w k o with
      | .error _ => wakeAll (compromise s1 w)
      | .ok (s, old) => wakeAll (spillFull { s with sundogs := s.sundogs ++ [Sundog.mk o.tag (portOf s o.pa) o.pa old] } (portOf s o.pa))

/-- WRITE_QUEUE_UPDATE w k id (10 R189, 11 R220): the update applies once, and its port keeps tag, location and old
value; a full table, a link that retrains or another strand's hold makes it wait. An earlier update of the strand to
the same locations applies first. -/
def writeQueueUpdate (s : State) (w k id : Nat) : State :=
  let t := (s.ctx w k).strand
  match t.findOp id with
  | none => flightUpdate s w k id
  | some o =>
    let earlier := { t with ops := t.ops.takeWhile fun x => x.id != id }
    let s := spillFull s (portOf s o.pa)
    if o.cls ≠ 1 ∨ o.done ∨ o.queued ∨ o.host.isSome then s
    else if !memReady s o.pa then opFault s w k o .memnr
    else if writeWaits s o.pa o.bytes || granuleHeld s w k o.pa o.bytes || portFull s (portOf s o.pa) ||
        earlier.updating o.pa o.bytes then s
    else match applyUpdate s w k o with
      | .error c => opFault s w k o c
      | .ok (s, old) =>
        let s : State := { s with sundogs := s.sundogs ++ [Sundog.mk o.tag (portOf s o.pa) o.pa old] }
        ((spillFull s (portOf s o.pa)).modStrand w k fun t => t.modOp id fun o => { o with done := true, old := old }).push .operationResponse [w, k, id]

def execWriteQueueUpdate (s : State) : Res := .next (writeQueueUpdate s (s.arg 0) (s.arg 1) (s.arg 2))

/-- OPERATION_RESPONSE w k id (11 R220): the destination is written, the operation is complete and the strand
acknowledges it. A response that comes after the frame was written finds no operation and is discarded. -/
def execOperationResponse (s : State) : Res :=
  let w := s.arg 0
  let k := s.arg 1
  .next (match (s.ctx w k).strand.findOp (s.arg 2) with
    | some o =>
      if o.cls = 1 ∧ o.done then
        (s.modStrand w k fun t => ((respond t o o.old).dropOp o.id).unhold).push .sundogAck [o.tag]
      else s
    | none => s)

/-- SUNDOG_ACK tag (11 R220): the entry is freed; what waited for a full table goes on. -/
def execSundogAck (s : State) : Res :=
  .next (wakeAll { s with sundogs := s.sundogs.filter fun d => d.tag != s.arg 0 })

/-! ## Length markers (09 R169, 16 R308) -/

/-- A convoy receives the value of a marker before it: its VL, if it takes it from there, and the ranges that depend on it. -/
def QEntry.given (id g : Nat) (e : QEntry) : QEntry :=
  match e with
  | .convoy c => .convoy { c with
      vl := if c.vl = .mark id then .fixed g else c.vl
      locks := c.locks ++ hardened id g c.soft
      soft := c.soft.filter fun l => l.1 != id }
  | e => e

/-- A marker of a strand takes its value: both copies and the convoys behind them receive it, x[xd] and VL are
written unless something later has written them. -/
def Strand.takeMark (t : Strand) (id g : Nat) : Strand :=
  match t.marks.find? fun m => m.id == id with
  | none => t
  | some m =>
    let xd := bits m.word 11 7
    let t := { t with
      va := t.va.map (QEntry.given id g), vm := t.vm.map (QEntry.given id g)
      anvil := t.anvil.map fun (a : Anvil) => { a with opn := Batch.harden id g a.opn, done := a.done.map (Batch.harden id g) }
      marks := t.marks.map fun (m : Mark) => if m.id = id then { m with val := some g } else m
      vl := if t.vlMark = some id then g else t.vl
      vlMark := if t.vlMark = some id then none else t.vlMark }
    (t.settle xd (4 * id + 2) (BitVec.ofNat 64 g)).unhold

/-- A copy of a marker passes the head of its queue; a SETVLQ is over when both have. -/
def Strand.passMark (t : Strand) (vm : Bool) (id : Nat) : Strand :=
  let t := { t with
    va := if vm then t.va else t.va.tail
    vm := if vm then t.vm.tail else t.vm
    marks := t.marks.map fun (m : Mark) => if m.id = id then
      (if vm then { m with vmPast := true } else { m with vaPast := true }) else m }
  { t with marks := t.marks.filter fun m => !(m.vaPast && m.vmPast) }.unhold

/-- The head of a queue is a marker: it takes an entry of its length queue if its pair has no value yet, and passes;
an empty length queue blocks it. True: it passed. -/
def Strand.stepMark (t : Strand) (mvl : Nat) (vm : Bool) (id : Nat) : Strand × Bool :=
  match t.marks.find? fun m => m.id == id with
  | none => (t.passMark vm id, true)
  | some m =>
    match m.val with
    | some _ => (t.passMark vm id, true)
    | none =>
      let n := bits m.word 16 12 % 4
      match t.lqget n with
      | [] => (t, false)
      | v :: r => (((t.lqput n r).takeMark id (Nat.min v mvl)).passMark vm id, true)

/-- LENGTH_MARKER_TAKE w k vm (09 R169). -/
def execLengthMarkerTake (s : State) : Res :=
  let w := s.arg 0
  let k := s.arg 1
  let t := (s.ctx w k).strand
  let vm := s.arg 2 != 0
  .next (if (s.ctx w k).state ≠ .running ∧ (s.ctx w k).state ≠ .waiting then s
    else match (if vm then t.vm else t.va) with
    | .mark id _ :: _ => s.modStrand w k fun t => (t.stepMark (s.ctx w k).mvl vm id).1
    | _ => s)

/-! ## Replay (11 R218, R220, R222, R223) -/

/-- What replaying one entry does. -/
inductive Replay where
  /-- Reissued: the operations outstanding afresh are in the strand. -/
  | next (s : State)
  /-- It waits; nothing has changed but what it asked of the host. -/
  | waits (s : State)
  | fault (s : State) (c : Cause) (faddr : Nat)

/-- The accumulator element that an MWR entry names: ELEM holds 512 × row + column. -/
def Strand.setAcc (t : Strand) (m e v : Nat) : Strand :=
  { t with anvil := t.anvil.map fun a => { a with acc := tput 0 (m * 32768 + e % 32768) (BitVec.ofNat 32 v) a.acc } }

/-- A vector element's read. -/
def elementLoad (s : State) (w k core va width : Nat) : Got :=
  if walkBusy s w k va width .load then .busy
  else match checkAccess s w k core { va := va, width := width, acc := .load, vec := true, sd := none, locks := [] } with
  | .error c => .fault c
  | .ok x =>
    match x.target with
    | .mem pa =>
      if portBusy s pa width || (s.ctx w k).strand.updating pa width then .busy
      else match loadNum s w pa width with
        | .error c => .fault c
        | .ok v => .value (setAD s w x .load) v
    | .host a => .host (setAD s w x .load) a
    | _ => .fault .ctlvec

/-- The strip of the convoy at the head of VM. -/
def Strand.vmStrip (t : Strand) : Option Nat := match t.vm with | .convoy c :: _ => some c.strip | _ => none

/-- A vector write of an earlier strip has not performed, or a vector atomic of one or of a replay has not applied: the vector writes
of a strip wait for it (10 R196). -/
def stripWaits (s : State) (w k strip : Nat) : Bool :=
  let t := (s.ctx w k).strand
  (s.heldW.any fun h => h.world == w && h.ctx == k && match h.strip with | some p => decide (p < strip) | none => false) ||
    t.ops.any fun o => (o.kind == 0x12 || o.kind == 0x13) && !o.done && !o.queued &&
      (o.replayed || t.vmStrip.any fun p => decide (p < strip))

/-- A vector element's write, in a strip; a replayed one is of no strip that is still open. -/
def elementStore (s : State) (w k core va width v : Nat) (locks : List (Nat × Nat)) (strip : Option Nat := none) : Did :=
  let a : Ask := { va := va, width := width, acc := .store, vec := true, sd := none, locks := locks }
  if walkBusy s w k va width .store then .busy s
  else match checkAccess s w k core a with
  | .error c => .fault s c
  | .ok x =>
    let waits := match x.target with
      | .mem pa => writeHeld s w k pa width
      | .host a => hostBusy s w k a width
      | _ => false
    let early := match strip with | some p => stripWaits s w k p | none => false
    if waits || early then .busy s else storeDid s w k x a v (some (strip.getD 0))

/-- The element of a load entry is written as its type gives (12 R228). -/
def Op.write (o : Op) (v : Nat) (t : Strand) : Strand :=
  if o.func / 16 = 2 then t.setAcc (o.reg % 4) o.elem v else t.setElem (o.func % 16) o.reg o.elem v

/-- A load entry of the host window stays outstanding. -/
def replayAsk (s : State) (w k : Nat) (o : Op) (a width : Nat) : State :=
  (hostAsk s w k o.id a width fun h n => .hostRead h width n).modStrand w k fun t =>
    let t := { t with ops := t.ops ++ [{ o with host := some (nextId s), group := 0 }] }
    if o.kind = 1 then t.addPend o.reg (4 * o.id + 1) else t

/-- Kind 0x01: a load, an LR or a MONARM. -/
def replayLoad (s : State) (w k : Nat) (o : Op) : Replay :=
  let f3 := o.func % 8
  let done := fun (s : State) (v : Nat) => Replay.next (s.modStrand w k fun t => t.wx o.reg (extend f3 v))
  match (match o.func / 16 % 4 with
      | 1 => reserveAt s w k o.addr (2 ^ (f3 % 4))
      | 2 => armAt s w k o.addr
      | _ => loadAt s w k o.addr (2 ^ (f3 % 4))) with
  | .value s v => done s v
  | .host s a => .next (replayAsk s w k o a (2 ^ (f3 % 4)))
  | .busy => .waits s
  | .fault c => .fault s c o.addr

/-- Kind 0x02: an element, an MWR element, or a VLDB4 block with its codes at ADDR and its scale at OPND; LEN 1 marks a block
whose codes have come and whose scale is on its way. -/
def replayElement (s : State) (w k : Nat) (o : Op) : Replay :=
  let core := (s.ctx w k).core o.slice
  match elementLoad s w k core o.addr (2 ^ o.wlog) with
  | .busy => .waits s
  | .fault c => .fault s c o.addr
  | .host s1 a => if hostBusy s w k a (2 ^ o.wlog) then .waits s else .next (replayAsk s1 w k o a (2 ^ o.wlog))
  | .value s1 v =>
    if o.func / 16 ≠ 1 then .next (s1.modStrand w k (o.write v))
    else match elementLoad s1 w k core o.opnd 1 with
      | .busy => .waits s
      | .fault c => .fault s c o.opnd
      | .host s2 a => if hostBusy s w k a 1 then .waits s else .next (replayAsk s2 w k { o with old := v, len := 1 } a 1)
      | .value s2 b => .next (s2.modStrand w k fun t => t.setBlock o.reg o.elem v b)

/-- The request that carries a class T operation of a tag, and still counts. -/
def requestOfTag (s : State) (tag : Nat) : Option Nat :=
  (s.hreqs.find? fun (e : Nat × HReq) => e.2.tag == some tag && !e.2.dropped).map (·.1)

/-- The walk of a class T entry's access waits at a port. -/
def updateWalks (s : State) (w k : Nat) (o : Op) : Bool :=
  walkBusy s w k o.addr (if o.kind ≥ 0x14 then 64 else 2 ^ o.wlog) (if o.kind = 0x11 then .store else .amo)

/-- Class T (11 R220): the old value comes from the entry, or from the port's table under the tag, which frees the table's
entry; otherwise the update goes to its port under its tag as a new one, and applies there at once or later. An AtomicOp of the
host that is on its way under the tag is awaited. -/
def replayT (s : State) (w k : Nat) (o : Op) : Replay :=
  let give := fun (s : State) (v : Nat) => Replay.next (s.modStrand w k fun t => deliver t o v)
  if o.applied then give s o.old
  else if updateWalks s w k o then .waits s
  else
    let acc := if o.kind = 0x11 then Acc.store else .amo
    let target := if o.kind = 0x12 ∨ o.kind = 0x13 then
        checkAccess s w k ((s.ctx w k).core (o.elem / 512))
          { va := o.addr, width := 2 ^ o.wlog, acc := .amo, vec := true, sd := none, locks := [] }
      else updateTarget s w k o
    match target with
    | .error c => .fault s c o.addr
    | .ok x =>
      if s.flights.any fun x => x.2.2.tag == o.tag then .waits s
      else match s.sundogs.find? fun d => d.tag == o.tag with
      | some d => give { s with sundogs := s.sundogs.filter fun d => d.tag != o.tag } d.old
      | none =>
        if o.kind = 0x11 then give s 1
        else match x.target with
          | .host a =>
            match requestOfTag s o.tag with
            | some id => .next (leaveT s w k { o with host := some id })
            | none => if hostBusy s w k a (2 ^ o.wlog) then .waits s else .next (sendAtomic (setAD s w x acc) w k o a)
          | .mem pa =>
            let o := { o with pa := pa }
            if granuleHeld s w k pa o.bytes then .waits s
            else if portLater s pa o.bytes || (s.ctx w k).strand.updating pa o.bytes then .next (leaveT (setAD s w x acc) w k o)
            else match applyUpdate (setAD s w x acc) w k o with
              | .error c => .fault s c o.addr
              | .ok (s, old) => give s old
          | _ => .fault s .perm o.addr

/-- The rebuilt copy of a chunk entry: the one that its entry belonged to at the save, or, where the device knows nothing of the
entry, the one of its function and register. -/
def Copy.holds (o : Op) (c : Copy) : Bool := c.op5 == o.func && c.reg == o.reg && (o.group == 0 || c.id == o.group)

/-- A chunk entry belongs to its copy, rebuilt at the first of its entries; a status carrier only brings its status (21 R381,
R382). No copy ends before every entry has been reissued. -/
def replayChunk (s : State) (w k : Nat) (o : Op) : State :=
  let t := (s.ctx w k).strand
  let s1 := match t.copies.find? (Copy.holds o) with
    | some _ => s
    | none =>
      let c : Copy := { id := if o.group = 0 then 4 * o.id + 3 else o.group, op5 := o.func, reg := o.reg, status := o.cst, sidx := o.cidx, issued := false }
      s.modStrand w k fun t =>
        let t := { t with copies := t.copies ++ [c] }
        if o.func = 0x0A then t else t.addPend o.reg c.id
  let g := match (s1.ctx w k).strand.copies.find? (Copy.holds o) with
    | some c => c.id
    | none => 0
  let s2 := s1.modStrand w k fun t => { t with
    copies := t.copies.map fun (c : Copy) => if c.id = g ∧ o.cst ≠ 0 then c.join o.cidx o.cst else c }
  if o.len = 0 then s2
  else
    (s2.modStrand w k fun t => { t with ops := t.ops ++ [{ o with group := g, applied := false }] }).push
      .chunkComplete [w, k, o.id]

/-- A matrix operation goes on where the Anvil holds it (11 R218, 22 R416): the entry must still name it. -/
def replayMatrix (s : State) (w k : Nat) (o : Op) : Replay :=
  match (s.ctx w k).strand.anvil with
  | none => .fault s .illegal 0
  | some a =>
    if a.held.any fun h => h.op == o.id && h.kind == o.kind && h.func == o.func && h.xa == o.addr && h.xp == o.opnd &&
        h.done + h.index * 2 ^ 16 == o.tag then
      .next ((s.modStrand w k fun t => { t with
        ops := t.ops ++ [o]
        anvil := some { a with held := a.held.map fun (h : MatOp) => if h.op = o.id then { h with live := true } else h } }))
    else .fault s .illegal 0

/-- What replay leaves of the Anvil's operations: those that an entry went on with; a discarded one's batch may be complete. -/
def Strand.liveHeld (t : Strand) : Strand :=
  { t with anvil := t.anvil.map fun a => { a with held := a.held.filter (·.live) } }

/-- One entry. -/
def replayOne (s : State) (w k : Nat) (o : Op) : Replay :=
  match o.kind with
  | 0x00 => .next s
  | 0x01 => replayLoad s w k o
  | 0x02 => replayElement s w k o
  | 0x03 =>
    match elementStore s w k ((s.ctx w k).core o.slice) o.addr (2 ^ o.wlog) o.opnd [] with
    | .next s => .next s
    | .busy s => .waits s
    | .fault s c => .fault s c o.addr
  | 0x04 | 0x05 => .next (replayChunk s w k o)
  | 0x06 =>
    .next ((s.modStrand w k fun t => { t with ops := t.ops ++ [{ o with applied := false }] }).push
      (if bits o.tag 7 0 = 0x40 then .decryptCommand else .engineCopyCommand) [w, k, o.reg])
  | 0x10 | 0x11 | 0x12 | 0x13 | 0x14 | 0x15 | 0x16 => replayT s w k o
  | 0x20 | 0x21 => replayMatrix s w k o
  | 0x31 => .next s
  | 0x30 | 0x32 | 0x33 =>
    .next (s.modCtx w k fun c => { c with wait := some { kind := o.kind, operand := o.tag, reg := o.reg } })
  | _ => .fault s .illegal 0

/-- The queued entries in record order, until one waits or faults. At a fault, what remains stands ahead of what the replays
made outstanding (R223), and PROGRESS is the entry's place in its record. True: all have been reissued. -/
def replayAll (s : State) (w k : Nat) : List Op → State × Bool
  | [] => (s, true)
  | o :: os =>
    match replayOne s w k { o with queued := false } with
    | .next s => replayAll s w k os
    | .waits s => (s.modStrand w k fun t => { t with ops := t.ops ++ o :: os }, false)
    | .fault s c fa =>
      let s := s.modStrand w k fun t => { t with ops := o :: os ++ t.ops }
      (takeFault s w k { cause := c, fslot := 5, fpc := o.pc, felem := o.elem, progress := recordIndex s (s.ctx w k) o.pc,
                         faddr := fa }, false)

/-- A copy's word goes on issuing when the convoy at the head of VM resumes in its segment after some of its elements
(21 R381). -/
def Strand.openCopies (t : Strand) : Strand :=
  match t.vm with
  | .convoy c :: _ =>
    let opens := fun (x : Copy) => !c.drop && c.slots.any fun sl =>
      c.sameSegment sl.1 c.resk && decide (0 < c.start sl.1) && !c.past sl.1 &&
        (let wd := nth 0 c.words (sl.1 - 1)
         decide (x.op5 = bits wd 31 27) && decide (x.reg = bits wd 11 7) && decide (bits wd 6 0 = 0x2B))
    { t with copies := t.copies.map fun (x : Copy) => { x with issued := !opens x } }
  | _ => { t with copies := t.copies.map fun (x : Copy) => { x with issued := true } }

/-- x registers that the saved convoys have still to write, named by their place in commit order (R166, R222). A word
whose copy goes on issuing writes through that copy. -/
def Strand.convoyPends (t : Strand) : List (Nat × Pend) :=
  (convoysOf t.va ++ convoysOf t.vm).flatMap fun c =>
    if c.drop then []
    else c.slots.filterMap fun sl =>
      let opened := t.copies.any fun x => !x.issued && decide (x.op5 = bits (nth 0 c.words (sl.1 - 1)) 31 27) && xDest sl.2 == some x.reg
      match xDest sl.2 with
      | some xd => if c.past sl.1 || opened || xd == 0 then none else some (c.seq * 8 + sl.1, { reg := xd, tok := 4 * (c.seq * 8 + sl.1) })
      | none => none

def insertPend (p : Nat × Pend) : List (Nat × Pend) → List (Nat × Pend)
  | [] => [p]
  | q :: r => if p.1 < q.1 then p :: q :: r else q :: insertPend p r

/-- Pending writes after the replays: those of the replayed operations first, then those of markers and saved convoys in
commit order (R222). -/
def Strand.repend (t : Strand) : Strand :=
  let marks := (t.pend.filter fun p => p.tok % 4 == 2).map fun p => (p.tok / 4 * 8, p)
  let later := (marks ++ t.convoyPends).foldl (fun l p => insertPend p l) []
  { t with pend := (t.pend.filter fun p => p.tok % 4 != 2) ++ later.map (·.2) }

/-- The first saved convoy of a queue whose words no longer form a legal convoy of that queue, with the slot: 0 where its CVY
word or its framing is at fault (11 R208, R215). -/
def badConvoy (features : Nat) (vm : Bool) (q : List QEntry) : Option (Convoy × Nat) :=
  (convoysOf q).findSome? fun c =>
    if c.drop then none
    else match wordOf c.head with
      | some (.cvy cnt guard gneg etype rm sat tb) =>
        let i := Instr.cvy cnt guard gneg etype rm sat tb
        if !i.inRange || !admitted features i || isVmBody c.words != vm then some (c, 0)
        else (illegalSlot features c.mode.etype c.words).map fun j => (c, j)
      | _ => some (c, 0)

/-- Copies that nothing more is awaited for write their tokens. -/
def Strand.endCopies (t : Strand) : Strand := t.copies.foldl (fun t c => t.endCopy c.id) t

/-- Class T elements after the resume point that stand in the record: the head convoy of VM leaves them out (09 R456). -/
def Strand.markSent (t : Strand) (os : List Op) : Strand :=
  match t.vm with
  | .convoy c :: r =>
    let sent := (os.filter fun o => (o.kind == 0x12 || o.kind == 0x13) &&
      (decide (c.rese < o.elem) || (c.rese == o.elem && decide (c.resk ≤ o.slot)))).map fun o => (o.slot, o.elem)
    { t with vm := .convoy { c with sent := (c.sent ++ sent).eraseDups } :: r }
  | _ => t

/-- Every entry has been reissued (R222): the saved convoys are checked, and the context runs, or waits again. -/
def replayEnds (s : State) (w k : Nat) : State :=
  let s := s.modStrand w k fun t => t.openCopies.endCopies.repend.liveHeld
  let features := (s.launch w (s.ctx w k).launch).features
  let t := (s.ctx w k).strand
  match (badConvoy features false t.va).or (badConvoy features true t.vm) with
  | some (c, j) =>
    takeFault s w k { cause := .illegal, fslot := j, fpc := c.addr, felem := 0, progress := 0, faddr := 0 }
  | none =>
    let s := if t.anvil.isSome then s.push .batchComplete [w, k] else s
    let s := s.modCtx w k fun c => { c with heldState := 0 }
    if (s.ctx w k).wait.isSome then (s.setCtxState w k .waiting).push .waitSatisfied [w, k]
    else s.setCtxState w k .running

/-- The saved convoys may re-enter their queues: with its eight, or as long as the core's queue holds them (09 R164, 11 R222). -/
def reenters (s : State) (w k : Nat) : Bool :=
  [false, true].all fun vm =>
    let own := (s.ctx w k).strand.entries vm
    decide (own ≤ 8) || decide (own + othersIn s w k vm id ≤ 32)

/-- REPLAY_DONE w k (11 R222): the entries are reissued in record order, as far as none has to wait; when all have been, the
requests of before the save have reached their ports, and the queues have room for the saved convoys, the context runs. -/
def replayDone (s : State) (w k : Nat) : State :=
  if (s.ctx w k).state ≠ .resuming ∨ (s.ctx w k).due then s
  else
    let os := (s.ctx w k).strand.ops.filter (·.queued)
    let r := replayAll (s.modStrand w k fun t => { t.markSent os with ops := t.ops.filter fun o => !o.queued }) w k os
    if r.2 && reenters r.1 w k && !(r.1.flights.any fun x => x.1 == w && x.2.1 == k) then replayEnds r.1 w k else r.1

def execReplayDone (s : State) : Res := .next (replayDone s (s.arg 0) (s.arg 1))

end Sys2Proof.Machine
end

