-- ==== Sys2Proof/Machine/Answers.lean ====
section
/-!
DEFINITION. The answers to requests: completions and failures of the host's, translations and page requests, and what a peer
answers to an engine (04 R79, R85-R88, 11 R220, 21 R378).
-/

namespace Sys2Proof.Machine

/-! ## Requests that end -/

/-- A request leaves the list: an invalidation or a destruction may have waited for it, and accesses that wait try again. -/
def endRequest (s : State) (id : Nat) (r : HReq) : State :=
  let s : State := { s with hreqs := terase id 1 s.hreqs }
  let s := if s.invals.isEmpty then s else s.push .atsInvalidationCompletion []
  let s := if (s.world r.world).wstate = 3 then s.push .destroyComplete [r.world] else s
  unholdAll s

/-- A request by its id. -/
def State.hreq (s : State) (id : Nat) : Option HReq :=
  (s.hreqs.find? fun (e : Nat × HReq) => e.1 == id).map (·.2)

/-- The operation that a request carries: a load or an AtomicOp names its request, a chunk's or a command's request names it. -/
def opOfRequest (s : State) (id : Nat) (r : HReq) : Option Op :=
  (s.ctx r.world r.ctx).strand.ops.find? fun o =>
    !o.queued && (o.host == some id || ((o.kind == 4 || o.kind == 6) && o.id == r.op))

/-- The party of a queue's parser (MODEL). -/
def HReq.isRing (r : HReq) : Bool := r.ctx == 16384 && !r.posted

/-- A request has failed (R86): TRANS at the access or element; a chunk or a command ends with status 0x03; a ring read fails. A
posted write is refused when it is tried again. An AtomicOp of a strand that stops stays in its record (11 R220). -/
def requestFails (s : State) (id : Nat) : State :=
  match s.hreq id with
  | none => s
  | some r =>
    if r.dropped then endRequest s id r
    else if r.posted then unholdAll { s with hreqs := tset id { r with refused := true, asking := false } s.hreqs }
    else
      let s1 := endRequest s id r
      if r.isRing then ringData s1 r.op id none
      else match opOfRequest s id r with
        | none => s1
        | some o =>
          if o.kind = 4 ∨ o.kind = 6 then engineAnswer s1 r.world r.ctx o r false [] else opFault s1 r.world r.ctx o .trans

/-- The data of a completed load or AtomicOp reach the strand. A VLDB4 block's scale may still be to come (LEN 1: it has). -/
def giveData (s : State) (w k : Nat) (o : Op) (v : Nat) : State :=
  match o.kind with
  | 1 => s.modStrand w k fun t => ((t.settle o.reg (4 * o.id + 1) (extend (o.func % 8) v)).dropOp o.id).unhold
  | 0x10 => s.modStrand w k fun t => ((respond t o v).dropOp o.id).unhold
  | _ =>
    if o.group ≠ 0 then s.modStrand w k fun t => (t.modOp o.id fun o => { o with done := true, old := v }).unhold
    else if o.func / 16 ≠ 1 then s.modStrand w k fun t => ((o.write v t).dropOp o.id).unhold
    else if o.len = 1 then s.modStrand w k fun t => ((t.setBlock o.reg o.elem o.old v).dropOp o.id).unhold
    else
      match elementLoad s w k ((s.ctx w k).core o.slice) o.opnd 1 with
      | .value s b => s.modStrand w k fun t => ((t.setBlock o.reg o.elem v b).dropOp o.id).unhold
      | .host s a => replayAsk (s.modStrand w k fun t => t.dropOp o.id) w k { o with old := v, len := 1 } a 1
      | .busy => s
      | .fault c => opFault s w k { o with addr := o.opnd } c

/-- The scale of a VLDB4 block whose codes have come waits at its port: the completion waits with it. -/
def scaleWaits (s : State) (w k : Nat) (o : Op) : Bool :=
  o.kind == 2 && o.group == 0 && o.func / 16 == 1 && o.len != 1 &&
    match elementLoad s w k ((s.ctx w k).core o.slice) o.opnd 1 with
    | .busy => true
    | _ => false

/-- A response reaches a strand that can still take it (11 R220). -/
def CtxState.takes : CtxState → Bool
  | .running | .waiting | .resuming | .stopping => true
  | _ => false

/-- The old value of an AtomicOp whose strand's frame was written before its response came is kept until its entry is replayed
(11 R220, R221). -/
def keepOld (s : State) (tag : Nat) (r : HReq) (old : Nat) : State :=
  spillFull { s with sundogs := s.sundogs ++ [Sundog.mk tag hostPort (hostPA r.addr) old] } hostPort

/-- HOST_COMPLETION id ok; data: the bytes (R86), or what a peer answered to an engine (21 R378). -/
def hostCompletion (s : State) (id : Nat) (ok : Bool) (data : List Nat) : State :=
  match s.hreq id with
  | none => s
  | some r =>
    if r.asking ∨ r.posted then s
    else if !ok then requestFails s id
    else if !r.dropped ∧ (opOfRequest s id r).any (scaleWaits s r.world r.ctx) then
      park s { what := .hostCompletion, args := [id, 1], data := data }
    else
      let s1 := endRequest s id r
      let d := (List.range r.len).map fun i => BitVec.ofNat 8 (nth 0 data i)
      if r.dropped then s1
      else if r.isRing then ringData s1 r.op id (some d)
      else match opOfRequest s id r with
        | none => (match r.tag with | some tag => keepOld s1 tag r (natOf d) | none => s1)
        | some o =>
          if !(s.ctx r.world r.ctx).state.takes then s1
          else if o.kind = 4 ∨ o.kind = 6 then engineAnswer s1 r.world r.ctx o r true data
          else giveData s1 r.world r.ctx o (natOf d)

def execHostCompletion (s : State) : Res := .next (hostCompletion s (s.arg 0) (s.arg 1 != 0) s.ev.data)

/-- HOST_REQUEST_TIMEOUT id (R86): no completion within 50 ms. -/
def execHostRequestTimeout (s : State) : Res :=
  .next (match s.hreq (s.arg 0) with
    | some r => if r.asking ∨ r.posted then s else requestFails s (s.arg 0)
    | none => s)

/-! ## Translations (R85, R86) -/

/-- A request asks for its translation. -/
def askTranslation (s : State) (id : Nat) (r : HReq) : State :=
  ({ s with hreqs := tset id { r with asking := true, stale := false, refused := false } s.hreqs } : State).emit
    (.atsAsk { fn := r.world, pasid := r.pasid, translated := false, addr := r.addr } id)

/-- Up to 512 page requests stand for a function (R79). -/
def pageRoom (s : State) (w : Nat) : Bool := decide ((s.fn w).prgs < 512)

/-- A refused translation asks for its page, or waits until a page request may go (`refused` while it still asks). -/
def askPage (s : State) (id : Nat) (r : HReq) : State :=
  if pageRoom s r.world then
    let s : State := { s with hreqs := tset id { r with refused := false } s.hreqs }
    (s.modFn r.world fun f => { f with prgs := f.prgs + 1 }).emit
      (.pageAsk { fn := r.world, pasid := r.pasid, translated := false, addr := r.addr } id)
  else { s with hreqs := tset id { r with refused := true } s.hreqs }

/-- A function's oldest request that waits to ask for its page. -/
def nextPage (s : State) (w : Nat) : State :=
  match s.hreqs.find? fun (e : Nat × HReq) => e.2.asking && e.2.refused && e.2.world == w with
  | some (id, r) => askPage s id r
  | none => s

/-- What goes out for a request whose translation has come. -/
def requestMsg (s : State) (id : Nat) (r : HReq) : Out :=
  let h := tlp s r.world r.pasid r.addr
  match r.tag, opOfRequest s id r with
  | some _, some o => .hostAtomic h r.len o.func o.opnd id
  | _, _ => .hostRead h r.len id

/-- The host answers a translation request (R85, R86). A translation that an invalidation has overtaken is asked for again (R88).
A refused one asks for its page, where the function may make page requests; the retried translation, and one of a function
without page requests, fails (DESIGN CHOICE, assumption 75). -/
def hostTranslation (s : State) (id : Nat) (ok : Bool) : State :=
  match s.hreq id with
  | none => s
  | some r =>
    if !r.asking then s
    else if r.dropped then endRequest s id r
    else if ok then
      if r.stale then askTranslation s id r
      else
        let s := s.modFn r.world fun f => { f with
          atc := if f.atc.contains (r.pasid, r.addr / 4096) then f.atc else f.atc ++ [(r.pasid, r.addr / 4096)] }
        if r.posted then endRequest s id r
        else ({ s with hreqs := tset id { r with asking := false, translated := true } s.hreqs } : State).emit (requestMsg s id r)
    else if (s.fn r.world).priOn ∧ !r.retried then askPage s id r
    else requestFails s id

/-- PRG_RESPONSE id ok (R86): after Success the translation is tried once more; otherwise the request fails. -/
def prgResponse (s : State) (id : Nat) (ok : Bool) : State :=
  match s.hreq id with
  | none => s
  | some r =>
    if !r.asking ∨ r.refused then s
    else
      let s := s.modFn r.world fun f => { f with prgs := f.prgs - 1 }
      let s := if r.dropped then endRequest s id r
        else if ok ∧ !r.retried then askTranslation s id { r with retried := true } else requestFails s id
      nextPage s r.world

def execPrgResponse (s : State) : Res := .next (prgResponse s (s.arg 0) (s.arg 1 != 0))

end Sys2Proof.Machine
end

