-- ==== Sys2Proof/Machine/Pages.lean ====
section
/-!
DEFINITION. Control stores: what a page does with an aligned doubleword (03 R48-R52, and the maps that PageRead
names), and the device's own reset.
-/

namespace Sys2Proof.Machine

/-- Bits of a value that are set, each handled in turn. -/
def eachBit (v n : Nat) (f : State → Nat → State) (s : State) : State := (setBitsOf v n).foldl f s

/-- Readiness page: W1C and retraining (01 R28). Only world 0's mapping has W. -/
def writeReady (s : State) (off v : Nat) : State :=
  match off with
  | 0x38 => clearMlinkFail s (v % 2 ^ 24)
  | 0x48 => clearPlinkFail s (v % 2 ^ 16)
  | 0x78 => eachBit (bits v 47 32) 16 retrainPeer (eachBit (bits v 23 0) 24 retrainMem s)
  | _ => s

/-- The RW fields of a world page (05 R96). -/
def setWorldField (x : World) (off v : Nat) : World :=
  match off with
  | 0x18 => { x with fmask := bits v 12 8, zeroFill := bit v 1, confreq := bit v 0 }
  | 0x20 => { x with tregion := bits v 51 21 }
  | 0x30 => { x with pwrgnt := setBits x.pwrgnt 63 0 v }
  | 0x38 => { x with pwrgnt := setBits x.pwrgnt 79 64 v }
  | 0x40 => { x with mongnt := setBits x.mongnt 63 0 v }
  | 0x48 => { x with mongnt := setBits x.mongnt 127 64 v }
  | 0x50 => { x with mongnt := setBits x.mongnt 167 128 v }
  | 0x58 => { x with plgnt := bits v 15 0, pwingnt := bits v 31 16, readygnt := bit v 33, hostwin := bit v 34 }
  | _ =>
    if 0x80 ≤ off ∧ off < 0xC0 then { x with ranges := setNth x.ranges ((off - 0x80) / 8) (bits v 12 0, bits v 47 32) }
    else x

/-- World page: WCMD, and fields of a FREE world through world 0's mapping. -/
def writeWorld (s : State) (who idx off v : Nat) : State :=
  if off = 8 then wcmd s idx (v % 4) who
  else if who = 0 ∧ (s.world idx).wstate = 0 then s.modWorld idx fun x => setWorldField x off v
  else s

/-- Queue page (06 R112). -/
def writeQueue (s : State) (who idx off v : Nat) : State :=
  match off with
  | 0x00 => ownerWrite s idx (bits v 15 8) who
  | 0x08 => qcmd s idx (v % 4) who
  | 0x18 | 0x20 | 0x28 => lockedWrite s idx off v who
  | 0x30 | 0x40 => configWrite s idx off v who
  | 0x38 => tailStore s idx (v % 2 ^ 32) who
  | 0x68 => if bit v 0 then ringerrClear s idx who else s
  | _ => s

/-- Launch policy page: GCMD (03 R61). -/
def writeLaunch (s : State) (w : Nat) (root : Bool) (idx off v : Nat) : State :=
  if off ≠ 8 then s
  else match v % 4 with
    | 1 => stopAll s w idx
    | 2 => runAll s w idx
    | 3 => killAllCmd s w idx root
    | _ => s

/-- Context page: CMD, HANDLER, the saved fields (03 R54, R55, R59). -/
def writeCtx (s : State) (w : Nat) (root : Bool) (idx off v : Nat) : State :=
  if off = 8 then
    match v % 4 with
    | 1 => cmdStop s w idx
    | 2 => cmdRun s w idx
    | 3 => cmdKill s w idx root
    | _ => cmdResult s w idx 1
  else if off = 0x38 then s.modCtx w idx fun c => { c with hvalid := bit v 14, handler := bits v 13 0 }
  else savedFieldWrite s w idx off v

/-- Power page (02 R32-R35). CAP needs world-root rights. -/
def writePower (s : State) (root : Bool) (idx off v : Nat) : State :=
  match off with
  | 0x00 => s.onPow idx fun p => p.request (v % 1024)
  | 0x10 =>
    if !root then s else s.onPow idx fun p => p.setCap (v % 8)
  | 0x38 => clearPowerFlags s idx v
  | _ => s

/-- Monitor page (02 R41, R43). -/
def writeMonit (m : Monit) (off v : Nat) : Monit :=
  if off = 0 then
    let m := { m with freeze := bit v 2, en := bit v 0 }
    if bit v 1 then m.clear else m
  else if off = 8 then (if srcListed (v % 256) then { m with src := v % 256 } else m)
  else if 0x10 ≤ off ∧ off < 0x50 then
    let i := (off - 0x10) / 4
    let e := tput 0 i (bits v 31 0) m.edges
    { m with edges := if i + 1 < 15 then tput 0 (i + 1) (bits v 63 32) e else e }
  else m

/-- Peer-link page (05 R109). -/
def writePeer (s : State) (idx off v : Nat) : State :=
  match off with
  | 0x08 => if bit v 0 then peerUnfreeze s idx else s
  | 0x10 => inworldWrite s idx v
  | 0x18 => s.modPeer idx fun p => { p with inbase := bits v 51 12 }
  | 0x20 => s.modPeer idx fun p => { p with insize := bits v 47 12 }
  | _ => s

/-- Checkpoint engine page (07 R136, R137). -/
def writeCkpt (s : State) (off v : Nat) : State :=
  if off = 8 then
    match v % 4 with
    | 1 => restore s
    | 2 => abort s
    | _ => ecmdResult (countEcmd s) 11
  else if off = 0x18 then { s with ckpt := { s.ckpt with rworld := v % 256 } }
  else if off = 0x20 then { s with ckpt := { s.ckpt with rmanpa := bits v 51 0 } }
  else if 0x48 ≤ off ∧ off < 0x68 then
    let i := (off - 0x48) / 8
    { s with ckpt := { s.ckpt with rdig := setBits s.ckpt.rdig (64 * i + 63) (64 * i) v } }
  else s

/-- What a control store does to the fields of its page. -/
def storeWord (s : State) (w : Nat) (root : Bool) (kind idx off v : Nat) : State :=
  match kind with
  | 0 => if w = 0 then writeReady s off v else s
  | 1 => writeWorld s w idx off v
  | 2 => writeQueue s w idx off v
  | 3 => writeLaunch s w root idx off v
  | 4 => writeCtx s w root idx off v
  | 5 => writePower s root idx off v
  | 6 => s.modMonit idx fun m => writeMonit m off v
  | 8 => if w = 0 then writePeer s idx off v else s
  | 9 => if w = 0 then writeCkpt s off v else s
  | _ => s

/-- A control store of a party of world w performs (03 R51); monitors on the word's line wake (10 R203). -/
def writePage (s : State) (w : Nat) (root : Bool) (kind idx off v : Nat) : State :=
  wakePage (storeWord s w root kind idx off v) w kind idx off

/-- A control store that needs the policy core (06 R125): WCMD, QCMD, CAP, and ECMD (assumption 73). -/
def needsCore (kind off : Nat) : Bool :=
  (off == 8 && (kind == 1 || kind == 2 || kind == 9)) || (kind == 5 && off == 0x10)

/-- The page at an offset of a function's BAR0, kind and index (04 R81); none: unbacked, or not present for it (R82). -/
def bar0Page (s : State) (fn off : Nat) : Option (Nat × Nat) :=
  let p := off / 0x1000
  let x := s.world fn
  let pf := fn == 0
  let given := fun (b : Bool) (kind idx : Nat) => if b then some (kind, idx) else none
  if p = 0 then some (1, fn)
  else if p = 1 then given (pf || x.readygnt) 0 0
  else if p = 2 then given pf 9 0
  else if 0x10 ≤ p ∧ p < 0x60 then given (pf || bit x.pwrgnt (p - 0x10)) 5 (p - 0x10)
  else if 0x60 ≤ p ∧ p < 0x108 then given (pf || bit x.mongnt (p - 0x60)) 6 (p - 0x60)
  else if 0x110 ≤ p ∧ p < 0x120 then given (pf || bit x.plgnt (p - 0x110)) 8 (p - 0x110)
  else if 0x120 ≤ p ∧ p < 0x170 then some (7, p - 0x120)
  else if 0x201 ≤ p ∧ p ≤ 0x280 then given pf 1 (p - 0x200)
  else if 0x400 ≤ p ∧ p < 0x800 then some (3, p - 0x400)
  else if 0x4000 ≤ p ∧ p < 0x8000 then some (4, p - 0x4000)
  else if 0x8000 ≤ p ∧ p < 0x10000 then given ((s.queue (p - 0x8000)).owner == fn) 2 (p - 0x8000)
  else none

/-- CONTROL_WORD_WRITE fn off v (00 R6, R7; 03 R52; 04 R81, R82): a host's write of an aligned doubleword at an offset of a
function's BAR0. It holds world-root rights for its world; on a page that is not there, or of a function that is frozen
(05 R108), it is dropped. -/
def execControlWordWrite (s : State) : Res :=
  let fn := s.arg 0
  let off := s.arg 1
  .next (match bar0Page s fn off with
    | none => s
    | some (kind, idx) =>
      let go := fun (s : State) => writePage s fn true kind idx (off % 0x1000) (s.arg 2 % 2 ^ 64)
      if off % 8 ≠ 0 ∨ (s.world fn).fnFrozen then s
      else if needsCore kind (off % 0x1000) ∨ s.barWaits fn then s.serve go else go s)

/-- POWER_ON_RESET (01 R23): every page at its Reset column; what lies outside the device stays. -/
def execPowerOnReset (s : State) : Res :=
  .next { State.reset with
    inputs := s.inputs, sched := s.sched, out := s.out, fresh := s.fresh, deferPorts := s.deferPorts }

/-- ILLEGAL word (13 R265): the scalar stream has reached a word that decodes as no instruction. -/
def execIllegal (s : State) : Res := .next (scalarFault s .illegal 0)

/-- INSTRUCTION_FETCH_FAULT cause a (15 R293): the strand faults before any instruction is decoded. -/
def execInstructionFetchFault (s : State) : Res := .next (scalarFault s (causeOf (s.arg 0)) (s.arg 1))

end Sys2Proof.Machine
end

