-- ==== Sys2Proof/Machine/Scalar.lean ====
section
/-!
DEFINITION. The scalar base: RV64I at user level with M, A and FENCE.I (15 R286-R303). Every meaning acts on the strand
in turn. A stalled instruction leaves the state as it is.
-/

namespace Sys2Proof.Machine

/-! ## Shared operations -/

/-- A register result: x[rd] := v, and PC moves on. -/
def setReg (s : State) (rd : Nat) (v : Word) : Res := .next ((s.wx rd v).advance)

/-- The low 32 bits, sign-extended. -/
def sextW (v : Word) : Word := (v.setWidth 32).signExtend 64

/-- 1 or 0. -/
def boolW (b : Bool) : Word := if b then 1 else 0

/-- A control transfer (R293): a target that is not a multiple of 4 faults and writes nothing. -/
def jumpTo (s : State) (rd : Nat) (t : Word) : Res :=
  .next (if t.toNat % 4 ≠ 0 then scalarFault s .misalign t.toNat else (s.wx rd (s.pc + 4)).retire t)

/-- A conditional branch. -/
def branchIf (s : State) (b : Bool) (off : Nat) : Res :=
  .next (if b then
      let t := s.pc + imm13 off
      if t.toNat % 4 ≠ 0 then scalarFault s .misalign t.toNat else s.retire t
    else s.advance)

/-- A load of funct3 (R288, R294). -/
def loadReg (s : State) (f3 rd va : Nat) : Res :=
  .next (match loadAt s s.cur.1 s.cur.2 va (2 ^ (f3 % 4)) with
    | .fault c => scalarFault s c va
    | .busy => s
    | .value s v => (s.wx rd (extend f3 v)).advance
    | .host s a => (hostLoad s s.cur.1 s.cur.2 s.pc.toNat va a f3 rd).advance)

/-- A strand's control store performs once the instruction has retired. One that needs the policy core stalls while the core does
not serve or an earlier store waits for it, and keeps its place among them (06 R125). -/
def controlStore (s : State) (w k kind idx off v : Nat) : State :=
  let go := fun (s : State) => writePage s.advance w (rootRights s w k) kind idx off v
  if !needsCore kind off then go s
  else if s.mayServe w k then go (s.dequeue w k)
  else s.enqueue w k

/-- A store of 2^wl bytes (R288, R294). -/
def storeReg (s : State) (wl rs2 va : Nat) : Res :=
  let w := s.cur.1
  let k := s.cur.2
  let v := (s.rx rs2).toNat
  let a := scalarAsk s w k va (2 ^ wl) .store (if wl = 3 then some v else none)
  .next (if walkBusy s w k va (2 ^ wl) .store then s
    else match checkAccess s w k (s.me.core 0) a with
    | .error c => scalarFault s c va
    | .ok x =>
      match x.target with
      | .page kind idx off =>
        if s.strand.acquiring || s.strand.lockPending va (2 ^ wl) then s else controlStore (setAD s w x .store) w k kind idx off v
      | _ => match storeAt s w k x a v with
        | .next s => s.advance
        | .busy s => s
        | .fault s c => scalarFault s c va)

/-- Every earlier scalar access of the strand in the given sets has performed (R300): stores no longer wait at a port,
loads and updates have completed. -/
def scalarDone (s : State) (rd wr : Bool) : Bool :=
  let t := s.strand
  !(wr && storesHeld s s.cur.1 s.cur.2) &&
    !(t.ops.any fun o => !o.done && ((rd && o.kind == 1) || ((rd || wr) && o.cls == 1)))

/-- A scalar AMO or SC (R292, R296, R297): rl waits for earlier accesses, aq holds later ones.
An SC lets go what waited at the granule (R299). -/
def atomicReg (s : State) (kind f5 wl rd rs1 rs2 aq rl : Nat) : Res :=
  let va := (s.rx rs1).toNat
  let hold := s.strand.resv.any fun r => r.hold
  let o : Op := { Op.zero with
    kind := kind, func := f5, reg := rd, wlog := wl, addr := va, opnd := (s.rx rs2).toNat % 2 ^ (8 * 2 ^ wl),
    len := aq + 2 * rl, pc := s.pc.toNat }
  .next (if rl = 1 ∧ !scalarDone s true true then s
    else match issueUpdate s s.cur.1 s.cur.2 o with
      | .fault s c => scalarFault s c va
      | .busy s => s
      | .next s => (if kind = 0x11 ∧ hold then wakeAll s else s).advance)

/-- LR (R292, R297): rl waits for earlier accesses; with aq it follows an outstanding release (10 R195). Its own read has performed
before the next instruction issues, which is what aq asks. -/
def loadReserve (s : State) (wl rd rs1 aq rl : Nat) : Res :=
  let va := (s.rx rs1).toNat
  .next (if (rl = 1 ∧ !scalarDone s true true) ∨ (aq = 1 ∧ s.strand.releasing) then s
    else match reserveAt s s.cur.1 s.cur.2 va (2 ^ wl) with
      | .fault c => scalarFault s c va
      | .value s v => (s.wx rd (extend wl v)).advance
      | _ => s)

/-! ## Upper immediates and control transfer (R287) -/

/-- LUI (R287). -/
def execLui (rd imm : Nat) (s : State) : Res := setReg s rd (immU imm)
/-- AUIPC (R287). -/
def execAuipc (rd imm : Nat) (s : State) : Res := setReg s rd (s.pc + immU imm)
/-- JAL (R287, R293). -/
def execJal (rd off : Nat) (s : State) : Res := jumpTo s rd (s.pc + imm21 off)
/-- JALR (R287, R293): bit 0 of the target is cleared. -/
def execJalr (rd rs1 imm : Nat) (s : State) : Res := jumpTo s rd ((s.rx rs1 + imm12 imm) &&& ~~~1#64)
/-- BEQ (R287, R293). -/
def execBeq (rs1 rs2 off : Nat) (s : State) : Res := branchIf s (s.rx rs1 == s.rx rs2) off
/-- BNE (R287, R293). -/
def execBne (rs1 rs2 off : Nat) (s : State) : Res := branchIf s (s.rx rs1 != s.rx rs2) off
/-- BLT (R287, R293). -/
def execBlt (rs1 rs2 off : Nat) (s : State) : Res := branchIf s ((s.rx rs1).slt (s.rx rs2)) off
/-- BGE (R287, R293). -/
def execBge (rs1 rs2 off : Nat) (s : State) : Res := branchIf s (!(s.rx rs1).slt (s.rx rs2)) off
/-- BLTU (R287, R293). -/
def execBltu (rs1 rs2 off : Nat) (s : State) : Res := branchIf s ((s.rx rs1).ult (s.rx rs2)) off
/-- BGEU (R287, R293). -/
def execBgeu (rs1 rs2 off : Nat) (s : State) : Res := branchIf s (!(s.rx rs1).ult (s.rx rs2)) off

/-! ## Loads and stores (R288, R293, R294) -/

/-- LB (R288). -/
def execLb (rd rs1 imm : Nat) (s : State) : Res := loadReg s 0 rd (memAddr s rs1 imm)
/-- LH (R288). -/
def execLh (rd rs1 imm : Nat) (s : State) : Res := loadReg s 1 rd (memAddr s rs1 imm)
/-- LW (R288). -/
def execLw (rd rs1 imm : Nat) (s : State) : Res := loadReg s 2 rd (memAddr s rs1 imm)
/-- LD (R288). -/
def execLd (rd rs1 imm : Nat) (s : State) : Res := loadReg s 3 rd (memAddr s rs1 imm)
/-- LBU (R288). -/
def execLbu (rd rs1 imm : Nat) (s : State) : Res := loadReg s 4 rd (memAddr s rs1 imm)
/-- LHU (R288). -/
def execLhu (rd rs1 imm : Nat) (s : State) : Res := loadReg s 5 rd (memAddr s rs1 imm)
/-- LWU (R288). -/
def execLwu (rd rs1 imm : Nat) (s : State) : Res := loadReg s 6 rd (memAddr s rs1 imm)
/-- SB (R288). -/
def execSb (rs2 rs1 imm : Nat) (s : State) : Res := storeReg s 0 rs2 (memAddr s rs1 imm)
/-- SH (R288). -/
def execSh (rs2 rs1 imm : Nat) (s : State) : Res := storeReg s 1 rs2 (memAddr s rs1 imm)
/-- SW (R288). -/
def execSw (rs2 rs1 imm : Nat) (s : State) : Res := storeReg s 2 rs2 (memAddr s rs1 imm)
/-- SD (R288); alone it may store into a table region (03 R71). -/
def execSd (rs2 rs1 imm : Nat) (s : State) : Res := storeReg s 3 rs2 (memAddr s rs1 imm)

/-! ## Register-immediate (R289) -/

/-- ADDI (R289). -/
def execAddi (rd rs1 imm : Nat) (s : State) : Res := setReg s rd (s.rx rs1 + imm12 imm)
/-- SLTI (R289). -/
def execSlti (rd rs1 imm : Nat) (s : State) : Res := setReg s rd (boolW ((s.rx rs1).slt (imm12 imm)))
/-- SLTIU (R289). -/
def execSltiu (rd rs1 imm : Nat) (s : State) : Res := setReg s rd (boolW ((s.rx rs1).ult (imm12 imm)))
/-- XORI (R289). -/
def execXori (rd rs1 imm : Nat) (s : State) : Res := setReg s rd (s.rx rs1 ^^^ imm12 imm)
/-- ORI (R289). -/
def execOri (rd rs1 imm : Nat) (s : State) : Res := setReg s rd (s.rx rs1 ||| imm12 imm)
/-- ANDI (R289). -/
def execAndi (rd rs1 imm : Nat) (s : State) : Res := setReg s rd (s.rx rs1 &&& imm12 imm)
/-- ADDIW (R289). -/
def execAddiw (rd rs1 imm : Nat) (s : State) : Res := setReg s rd (sextW (s.rx rs1 + imm12 imm))
/-- SLLI (R289). -/
def execSlli (rd rs1 shamt : Nat) (s : State) : Res := setReg s rd (s.rx rs1 <<< shamt)
/-- SRLI (R289). -/
def execSrli (rd rs1 shamt : Nat) (s : State) : Res := setReg s rd (s.rx rs1 >>> shamt)
/-- SRAI (R289). -/
def execSrai (rd rs1 shamt : Nat) (s : State) : Res := setReg s rd ((s.rx rs1).sshiftRight shamt)
/-- SLLIW (R289). -/
def execSlliw (rd rs1 shamt : Nat) (s : State) : Res := setReg s rd ((((s.rx rs1).setWidth 32) <<< shamt).signExtend 64)
/-- SRLIW (R289). -/
def execSrliw (rd rs1 shamt : Nat) (s : State) : Res := setReg s rd ((((s.rx rs1).setWidth 32) >>> shamt).signExtend 64)
/-- SRAIW (R289). -/
def execSraiw (rd rs1 shamt : Nat) (s : State) : Res := setReg s rd ((((s.rx rs1).setWidth 32).sshiftRight shamt).signExtend 64)

/-! ## Register-register (R290, 12 R241) -/

/-- High half of the product of two operands taken as integers. -/
def mulHigh (a b : Int) : Word := BitVec.ofInt 64 (a * b / 2 ^ 64)

/-- Signed division at width w (R241): toward zero; a zero divisor gives -1, MIN / -1 gives MIN. -/
def divS {w : Nat} (a b : BitVec w) : BitVec w := if b = 0 then BitVec.allOnes w else a.sdiv b
/-- Unsigned division (R241): a zero divisor gives all ones. -/
def divU {w : Nat} (a b : BitVec w) : BitVec w := if b = 0 then BitVec.allOnes w else a / b
/-- Signed remainder (R241): the sign of the dividend; a zero divisor gives the dividend. -/
def remS {w : Nat} (a b : BitVec w) : BitVec w := if b = 0 then a else a.srem b
/-- Unsigned remainder (R241). -/
def remU {w : Nat} (a b : BitVec w) : BitVec w := if b = 0 then a else a % b

/-- The low words of the two operands, an operation on them, and its result sign-extended. -/
def onWords (s : State) (rd rs1 rs2 : Nat) (f : BitVec 32 → BitVec 32 → BitVec 32) : Res :=
  setReg s rd ((f ((s.rx rs1).setWidth 32) ((s.rx rs2).setWidth 32)).signExtend 64)

/-- Shift counts (R290). -/
def sh6 (v : Word) : Nat := v.toNat % 64
def sh5 (v : BitVec 32) : Nat := v.toNat % 32

/-- ADD (R290). -/
def execAdd (rd rs1 rs2 : Nat) (s : State) : Res := setReg s rd (s.rx rs1 + s.rx rs2)
/-- SUB (R290). -/
def execSub (rd rs1 rs2 : Nat) (s : State) : Res := setReg s rd (s.rx rs1 - s.rx rs2)
/-- SLL (R290). -/
def execSll (rd rs1 rs2 : Nat) (s : State) : Res := setReg s rd (s.rx rs1 <<< sh6 (s.rx rs2))
/-- SLT (R290). -/
def execSlt (rd rs1 rs2 : Nat) (s : State) : Res := setReg s rd (boolW ((s.rx rs1).slt (s.rx rs2)))
/-- SLTU (R290). -/
def execSltu (rd rs1 rs2 : Nat) (s : State) : Res := setReg s rd (boolW ((s.rx rs1).ult (s.rx rs2)))
/-- XOR (R290). -/
def execXor (rd rs1 rs2 : Nat) (s : State) : Res := setReg s rd (s.rx rs1 ^^^ s.rx rs2)
/-- SRL (R290). -/
def execSrl (rd rs1 rs2 : Nat) (s : State) : Res := setReg s rd (s.rx rs1 >>> sh6 (s.rx rs2))
/-- SRA (R290). -/
def execSra (rd rs1 rs2 : Nat) (s : State) : Res := setReg s rd ((s.rx rs1).sshiftRight (sh6 (s.rx rs2)))
/-- OR (R290). -/
def execOr (rd rs1 rs2 : Nat) (s : State) : Res := setReg s rd (s.rx rs1 ||| s.rx rs2)
/-- AND (R290). -/
def execAnd (rd rs1 rs2 : Nat) (s : State) : Res := setReg s rd (s.rx rs1 &&& s.rx rs2)
/-- MUL (R290). -/
def execMul (rd rs1 rs2 : Nat) (s : State) : Res := setReg s rd (s.rx rs1 * s.rx rs2)
/-- MULH (R290). -/
def execMulh (rd rs1 rs2 : Nat) (s : State) : Res := setReg s rd (mulHigh (s.rx rs1).toInt (s.rx rs2).toInt)
/-- MULHSU (R290). -/
def execMulhsu (rd rs1 rs2 : Nat) (s : State) : Res := setReg s rd (mulHigh (s.rx rs1).toInt (s.rx rs2).toNat)
/-- MULHU (R290). -/
def execMulhu (rd rs1 rs2 : Nat) (s : State) : Res := setReg s rd (mulHigh (s.rx rs1).toNat (s.rx rs2).toNat)
/-- DIV (R290). -/
def execDiv (rd rs1 rs2 : Nat) (s : State) : Res := setReg s rd (divS (s.rx rs1) (s.rx rs2))
/-- DIVU (R290). -/
def execDivu (rd rs1 rs2 : Nat) (s : State) : Res := setReg s rd (divU (s.rx rs1) (s.rx rs2))
/-- REM (R290). -/
def execRem (rd rs1 rs2 : Nat) (s : State) : Res := setReg s rd (remS (s.rx rs1) (s.rx rs2))
/-- REMU (R290). -/
def execRemu (rd rs1 rs2 : Nat) (s : State) : Res := setReg s rd (remU (s.rx rs1) (s.rx rs2))
/-- ADDW (R290). -/
def execAddw (rd rs1 rs2 : Nat) (s : State) : Res := onWords s rd rs1 rs2 fun a b => a + b
/-- SUBW (R290). -/
def execSubw (rd rs1 rs2 : Nat) (s : State) : Res := onWords s rd rs1 rs2 fun a b => a - b
/-- SLLW (R290). -/
def execSllw (rd rs1 rs2 : Nat) (s : State) : Res := onWords s rd rs1 rs2 fun a b => a <<< sh5 b
/-- SRLW (R290). -/
def execSrlw (rd rs1 rs2 : Nat) (s : State) : Res := onWords s rd rs1 rs2 fun a b => a >>> sh5 b
/-- SRAW (R290). -/
def execSraw (rd rs1 rs2 : Nat) (s : State) : Res := onWords s rd rs1 rs2 fun a b => a.sshiftRight (sh5 b)
/-- MULW (R290). -/
def execMulw (rd rs1 rs2 : Nat) (s : State) : Res := onWords s rd rs1 rs2 fun a b => a * b
/-- DIVW (R290). -/
def execDivw (rd rs1 rs2 : Nat) (s : State) : Res := onWords s rd rs1 rs2 fun a b => divS a b
/-- DIVUW (R290). -/
def execDivuw (rd rs1 rs2 : Nat) (s : State) : Res := onWords s rd rs1 rs2 fun a b => divU a b
/-- REMW (R290). -/
def execRemw (rd rs1 rs2 : Nat) (s : State) : Res := onWords s rd rs1 rs2 fun a b => remS a b
/-- REMUW (R290). -/
def execRemuw (rd rs1 rs2 : Nat) (s : State) : Res := onWords s rd rs1 rs2 fun a b => remU a b

/-! ## Fences and traps (R291, R300-R302) -/

/-- FENCE pred, succ (R300): bit 1 is R, bit 0 is W; control-page accesses have performed at their issue. -/
def execFence (pred succ : Nat) (s : State) : Res :=
  .next (if pred = 0 ∨ succ = 0 ∨ scalarDone s (bit pred 1) (bit pred 0) then s.advance else s)

/-- FENCE.TSO (R300): earlier loads before everything later, earlier stores before later stores. Waiting for both is
within what it orders. -/
def execFenceTso (s : State) : Res := .next (if scalarDone s true true then s.advance else s)

/-- A store of the strand has still to perform: one that waits at a port, an update, or an element of a convoy. -/
def storesLeft (s : State) (w k : Nat) : Bool :=
  let t := (s.ctx w k).strand
  storesAhead s w k || (convoysOf t.va ++ convoysOf t.vm).any fun c => c.todo.any fun x => vectorWrite x.2

/-- FENCE.I (R301): a fetch reads memory as it stands, so every earlier store of the strand must have performed. -/
def execFenceI (s : State) : Res := .next (if storesLeft s s.cur.1 s.cur.2 then s else s.advance)

/-- Every convoy and marker that the strand has committed has retired (16 R320). -/
def Strand.drained (t : Strand) : Bool := t.va.isEmpty && t.vm.isEmpty

def QEntry.isConvoy : QEntry → Bool
  | .convoy _ => true
  | _ => false

/-- Every convoy that the strand has committed has retired. -/
def Strand.convoysDone (t : Strand) : Bool := !(t.va.any QEntry.isConvoy) && !(t.vm.any QEntry.isConvoy)

/-- Class T operations that have been sent and have not applied, at ports that can still take them. -/
def sentOps (s : State) (w k : Nat) : List Op :=
  (s.ctx w k).strand.ops.filter fun o => o.cls == 1 && !o.done && o.host.isNone && memReady s o.pa

/-- One of them waits at its port (01 R27, 15 R299): the strand ends once it can apply (DEDUCED, assumption 95). -/
def sentWaits (s : State) (w k : Nat) : Bool :=
  (sentOps s w k).any fun o => writeWaits s o.pa o.bytes || granuleHeld s w k o.pa o.bytes

/-- Class T operations that have been sent apply once (R302). -/
def applySent (s : State) (w k : Nat) : State :=
  (sentOps s w k).foldl (fun s o =>
    match applyUpdate s w k o with
    | .ok (s, _) => s
    | .error _ => s) s

/-- ECALL (R302): with x17 = 0 the strand ends once its convoys have retired; otherwise it faults. -/
def execEcall (s : State) : Res :=
  .next (if s.rx 17 = 0 then
      (if s.strand.convoysDone && !sentWaits s s.cur.1 s.cur.2 then
        let s := s.advance
        killCtx (applySent s s.cur.1 s.cur.2) s.cur.1 s.cur.2
      else s)
    else scalarFault s .ecall 0)

/-- EBREAK (R302). -/
def execEbreak (s : State) : Res := .next (scalarFault s .ebreak 0)

/-! ## Atomics (R292, R296-R299) -/

/-- LR.W (R292, R297). -/
def execLrW (rd rs1 aq rl : Nat) (s : State) : Res := loadReserve s 2 rd rs1 aq rl
/-- LR.D (R292, R297). -/
def execLrD (rd rs1 aq rl : Nat) (s : State) : Res := loadReserve s 3 rd rs1 aq rl
/-- SC.W (R292, R297). -/
def execScW (rd rs1 rs2 aq rl : Nat) (s : State) : Res := atomicReg s 0x11 3 2 rd rs1 rs2 aq rl
/-- SC.D (R292, R297). -/
def execScD (rd rs1 rs2 aq rl : Nat) (s : State) : Res := atomicReg s 0x11 3 3 rd rs1 rs2 aq rl
/-- AMOSWAP.W (R292). -/
def execAmoswapW (rd rs1 rs2 aq rl : Nat) (s : State) : Res := atomicReg s 0x10 0x01 2 rd rs1 rs2 aq rl
/-- AMOSWAP.D (R292). -/
def execAmoswapD (rd rs1 rs2 aq rl : Nat) (s : State) : Res := atomicReg s 0x10 0x01 3 rd rs1 rs2 aq rl
/-- AMOADD.W (R292). -/
def execAmoaddW (rd rs1 rs2 aq rl : Nat) (s : State) : Res := atomicReg s 0x10 0x00 2 rd rs1 rs2 aq rl
/-- AMOADD.D (R292). -/
def execAmoaddD (rd rs1 rs2 aq rl : Nat) (s : State) : Res := atomicReg s 0x10 0x00 3 rd rs1 rs2 aq rl
/-- AMOXOR.W (R292). -/
def execAmoxorW (rd rs1 rs2 aq rl : Nat) (s : State) : Res := atomicReg s 0x10 0x04 2 rd rs1 rs2 aq rl
/-- AMOXOR.D (R292). -/
def execAmoxorD (rd rs1 rs2 aq rl : Nat) (s : State) : Res := atomicReg s 0x10 0x04 3 rd rs1 rs2 aq rl
/-- AMOAND.W (R292). -/
def execAmoandW (rd rs1 rs2 aq rl : Nat) (s : State) : Res := atomicReg s 0x10 0x0C 2 rd rs1 rs2 aq rl
/-- AMOAND.D (R292). -/
def execAmoandD (rd rs1 rs2 aq rl : Nat) (s : State) : Res := atomicReg s 0x10 0x0C 3 rd rs1 rs2 aq rl
/-- AMOOR.W (R292). -/
def execAmoorW (rd rs1 rs2 aq rl : Nat) (s : State) : Res := atomicReg s 0x10 0x08 2 rd rs1 rs2 aq rl
/-- AMOOR.D (R292). -/
def execAmoorD (rd rs1 rs2 aq rl : Nat) (s : State) : Res := atomicReg s 0x10 0x08 3 rd rs1 rs2 aq rl
/-- AMOMIN.W (R292). -/
def execAmominW (rd rs1 rs2 aq rl : Nat) (s : State) : Res := atomicReg s 0x10 0x10 2 rd rs1 rs2 aq rl
/-- AMOMIN.D (R292). -/
def execAmominD (rd rs1 rs2 aq rl : Nat) (s : State) : Res := atomicReg s 0x10 0x10 3 rd rs1 rs2 aq rl
/-- AMOMAX.W (R292). -/
def execAmomaxW (rd rs1 rs2 aq rl : Nat) (s : State) : Res := atomicReg s 0x10 0x14 2 rd rs1 rs2 aq rl
/-- AMOMAX.D (R292). -/
def execAmomaxD (rd rs1 rs2 aq rl : Nat) (s : State) : Res := atomicReg s 0x10 0x14 3 rd rs1 rs2 aq rl
/-- AMOMINU.W (R292). -/
def execAmominuW (rd rs1 rs2 aq rl : Nat) (s : State) : Res := atomicReg s 0x10 0x18 2 rd rs1 rs2 aq rl
/-- AMOMINU.D (R292). -/
def execAmominuD (rd rs1 rs2 aq rl : Nat) (s : State) : Res := atomicReg s 0x10 0x18 3 rd rs1 rs2 aq rl
/-- AMOMAXU.W (R292). -/
def execAmomaxuW (rd rs1 rs2 aq rl : Nat) (s : State) : Res := atomicReg s 0x10 0x1C 2 rd rs1 rs2 aq rl
/-- AMOMAXU.D (R292). -/
def execAmomaxuD (rd rs1 rs2 aq rl : Nat) (s : State) : Res := atomicReg s 0x10 0x1C 3 rd rs1 rs2 aq rl

end Sys2Proof.Machine
end

