-- ==== Sys2Proof/Machine/Control.lean ====
section
/-!
DEFINITION. The SC-major instructions but CVY: lengths, fences between streams, queue transfers, monitors, child
launches, sticky flags, remote stores (16 R304-R322), the barrier words (21 R388-R393) and the Anvil's scalar words
(22 R398, R399, R406). A stalled instruction leaves the state as it is, but for its count in RESYNC.
-/

namespace Sys2Proof.Machine

/-! ## Shared operations -/

/-- The instruction in hand is counted in RESYNC (09 R166). -/
def countResync (s : State) (w k : Nat) : State :=
  wakePage (s.modCtx w k fun c => { c with resync := c.resync + 1 }) w 4 k 0x78

/-- An x register that convoy words or a copy write, or a marker alone (`marker`): the next instruction that names it is a
counted resynchronisation (09 R166, 18 R347). -/
def Strand.addUnread (t : Strand) (n : Nat) (marker : Bool) : Strand :=
  if n = 0 then t else { t with unread := (t.unread.filter fun p => p.1 != n) ++ [(n, marker)] }

/-- An instruction that reads `rs` and writes `ds`, or the commit of a convoy that captures `rs`, is a counted resynchronisation:
it is the first to name a register since a convoy, a copy or a marker was to write it (R166, 18 R347), whether the write has
landed or not (DEDUCED, assumption 86). A register that a marker alone writes counts for a reader (16 R308). -/
def Strand.resyncs (t : Strand) (rs ds : List Nat) : Bool :=
  t.unread.any fun p => rs.contains p.1 || (!p.2 && ds.contains p.1)

/-- A completed instruction has named registers. -/
def nameRegs (s : State) (w k : Nat) (rs ds : List Nat) : State :=
  let t := (s.ctx w k).strand
  if !t.unread.any fun p => rs.contains p.1 || ds.contains p.1 then s
  else
    let s' := s.modStrand w k fun t => { t with unread := t.unread.filter fun p => !(rs.contains p.1 || ds.contains p.1) }
    if t.resyncs rs ds then countResync s' w k else s'

/-- The registers that convoys have written by now need no resynchronisation any more: the scalar stream has waited for
them otherwise (DEDUCED, assumption 86). -/
def Strand.forget (t : Strand) : Strand := { t with unread := t.unread.filter fun p => t.pending p.1 }

/-- A register that a replayed operation has still to write (11 R222). -/
def Strand.replayPends (t : Strand) (n : Nat) : Bool :=
  t.pend.any fun p => p.reg == n && p.tok % 4 == 1 && t.ops.any fun o => o.id == p.tok / 4 && o.replayed

/-- The instruction at PC stalls at pending registers; one that waits for a replayed operation will be counted too
(R166, 11 R222). -/
def stallAt (s : State) (rs : List Nat) : State :=
  match rs.filter s.strand.replayPends with
  | [] => s
  | ns => s.onStrand fun t => ns.foldl (fun t n => t.addUnread n false) t

/-- The frame holds one more entry of a queue: 32, with the copies of a SETVLQ that have passed (11 R213, R214; DESIGN CHOICE,
assumption 19). -/
def frameRoom (s : State) (w k : Nat) (vm : Bool) : Bool := decide (((s.ctx w k).strand.area vm).length < 32)

/-- A queue has an entry for one more convoy of a strand (R164). It holds 32; eight of them are guaranteed to each resident
strand, and the others are free to take. A strand that has come to a core whose queue another had filled has its eight all
the same (DESIGN CHOICE, assumption 19). -/
def roomIn (s : State) (w k : Nat) (vm : Bool) : Bool :=
  let own := (s.ctx w k).strand.entries vm
  frameRoom s w k vm && (decide (own < 8) || decide (own + 1 + othersIn s w k vm (Nat.max 8) ≤ 32))

/-- The vector memory words (R309): VM op5 0x00 to 0x08, and VAMOR, 0x0E. -/
def vectorAccess (w : Nat) : Bool := bits w 6 0 == 0x2B && (decide (bits w 31 27 ≤ 8) || bits w 31 27 == 0x0E)

/-- Every vector access of the convoys committed so far has performed (R309). -/
def vectorDone (s : State) : Bool :=
  let t := s.strand
  !(t.vm.any fun e => match e with | .convoy c => c.words.any vectorAccess | _ => false) &&
    !(t.ops.any fun o => o.kind == 2 || o.kind == 3 || (!o.done && (o.kind == 0x12 || o.kind == 0x13))) &&
    !storesHeld s s.cur.1 s.cur.2

/-! ## Lengths (R306-R308) -/

/-- VL and x[xd] receive the grant; a marker that is under way no longer gives the scalar stream its VL. A new strip opens
(10 R196). -/
def setLength (s : State) (xd req : Nat) : Res :=
  let g := Nat.min req s.me.mvl
  setReg (s.onStrand fun t => { t with vl := g, vlMark := none, strip := t.strip + 1 }) xd (BitVec.ofNat 64 g)

/-- SETVL (R307). -/
def execSetvl (xd xs : Nat) (s : State) : Res := setLength s xd (s.rx xs).toNat
/-- SETVLI (R307). -/
def execSetvli (xd imm : Nat) (s : State) : Res := setLength s xd imm

/-- SETVLQ (R308): a marker enters both queues; x[xd] and VL are pending until it takes its value. -/
def execSetvlq (xd n : Nat) (s : State) : Res :=
  .next (if !frameRoom s s.cur.1 s.cur.2 false || !frameRoom s s.cur.1 s.cur.2 true then s
    else
      let id := s.strand.seq
      let m : Mark := { id := id, word := encodeWord (.setvlq xd n), val := none, vaPast := false, vmPast := false }
      (s.onStrand fun t => ({ t.unhold with
        va := t.va ++ [QEntry.mark id false], vm := t.vm ++ [QEntry.mark id false], marks := t.marks ++ [m], seq := t.seq + 1
        vlMark := some id, strip := t.strip + 1 }.addPend xd (4 * id + 2)).addUnread xd true).advance)

/-! ## Fences between streams (R309) -/

/-- FSV and FVV: a marker enters both queues. -/
def fenceMark (s : State) (word : Nat) : Res :=
  .next (if !frameRoom s s.cur.1 s.cur.2 false || !frameRoom s s.cur.1 s.cur.2 true then s
    else (s.onStrand fun t => { t.unhold with
      va := t.va ++ [QEntry.fence word t.seq], vm := t.vm ++ [QEntry.fence word t.seq], seq := t.seq + 1 }).advance)

/-- FSV (R309). -/
def execFsv (scope : Nat) (s : State) : Res := fenceMark s (encodeWord (.fsv scope))
/-- FVV (R309). -/
def execFvv (scope : Nat) (s : State) : Res := fenceMark s (encodeWord (.fvv scope))
/-- FVS (R309): the scalar stream waits for earlier vector accesses. Here they perform at every scope at once. -/
def execFvs (_scope : Nat) (s : State) : Res := .next (if vectorDone s then s.advance else s)

/-! ## Queue transfers (R310) -/

/-- QSEND (R310): waits while the queue register is full. -/
def execQsend (n xs : Nat) (s : State) : Res :=
  .next (if n > 3 then scalarFault s .illegal 0
    else if (s.strand.qget n).length ≥ 16 then s
    else (s.onStrand fun t => (t.qput n (t.qget n ++ [t.rx xs])).unhold).advance)

/-- QRECV (R310): waits while the queue register is empty; the entry is removed even when xd is x0. -/
def execQrecv (xd n : Nat) (s : State) : Res :=
  .next (if n ≠ 4 ∧ n ≠ 5 then scalarFault s .illegal 0
    else match s.strand.qget n with
      | [] => s
      | v :: r => (s.onStrand fun t => ((t.qput n r).wx xd v).unhold).advance)

/-! ## Names, translation, traps -/

/-- Field f of a work identifier with given widths (09 R158). -/
def widField (widths : List Nat) (v f : Nat) : Nat :=
  v / 2 ^ ((widths.take f).foldl (· + ·) 0) % 2 ^ nth 0 widths f

/-- WID (R311). -/
def execWid (xd f : Nat) (s : State) : Res :=
  if f > 6 then .next (scalarFault s .illegal 0)
  else if f = 6 then setReg s xd s.me.widv
  else setReg s xd (BitVec.ofNat 64 (widField s.myLaunch.widths s.me.widv.toNat f))

/-- A table store of the strand still waits at a port. -/
def tableStoresHeld (s : State) (w k : Nat) : Bool :=
  s.heldW.any fun h => h.world == w && h.ctx == k && tableByte s h.pa

/-- TSYNC (R312, 03 R74): the model's walker reads the tables at every access, so nothing stale is left once the
strand's table stores have performed. -/
def execTsync (s : State) : Res := .next (if tableStoresHeld s s.cur.1 s.cur.2 then s else s.advance)

/-- XLTRAP (R318). -/
def execXltrap (n : Nat) (s : State) : Res := .next (scalarFault s .xlate n)

/-! ## Waits -/

/-- A wait is entered while the record has room for it (08 R150). -/
def startWait (s : State) (wt : Wait) : State :=
  if virgaRoom s s.cur.1 s.cur.2 1 then enterWait s s.cur.1 s.cur.2 wt else s

/-- MONARM (R313). -/
def execMonarm (xd xa : Nat) (s : State) : Res :=
  let va := (s.rx xa).toNat
  .next (if s.strand.acquiring then s
    else match armAt s s.cur.1 s.cur.2 va with
      | .fault c => scalarFault s c va
      | .value s v => (s.wx xd (BitVec.ofNat 64 v)).advance
      | _ => s)

/-- MONWAIT (R315): returns at once when the monitor is disarmed or its line has been written. -/
def execMonwait (s : State) : Res :=
  .next (match s.strand.mon with
    | none => s.advance
    | some m =>
      if m.woken then (s.onStrand fun t => { t with mon := none }).advance
      else startWait s { kind := 0x31, operand := 0, reg := 0 })

/-- JOIN (R317, 08 R154). -/
def execJoin (xd xt : Nat) (s : State) : Res :=
  let tok := (s.rx xt).toNat
  .next (match s.strand.child tok with
    | none => ({ s with fresh := s.fresh + 1 }.wx xd (badToken s)).advance
    | some c =>
      match c.done with
      | some v => ((s.onStrand fun t => t.dropChild c).wx xd (BitVec.ofNat 64 v)).advance
      | none => startWait s { kind := 0x32, operand := tok, reg := xd })

/-- MWAIT (22 R406). -/
def execMwait (xs : Nat) (s : State) : Res :=
  let id := (s.rx xs).toNat
  .next (if s.strand.batchesDone id then (s.onStrand fun t => t.cover id).advance
    else startWait s { kind := 0x33, operand := id, reg := 0 })

/-! ## SPAWN (R316, 08 R153) -/

/-- The eight doublewords of a packet, read so far. -/
inductive PacketRead where
  | words (s : State) (dws : List Word)
  | waits (s : State)
  | fault (c : Cause) (va : Nat)

/-- The doubleword of a packet that a host read has brought, or that is on its way. -/
def packetOp (t : Strand) (i : Nat) : Option Op :=
  t.ops.find? fun o => o.kind == 2 && o.slot == 0 && o.group != 0 && o.elem == i

/-- Read a packet from doubleword i on. A doubleword in the host window is asked for and awaited. -/
def readPacket (s : State) (w k va : Nat) : Nat → Nat → List Word → PacketRead
  | 0, _, acc => .words s acc
  | n + 1, i, acc =>
    let a := va + 8 * i
    match packetOp (s.ctx w k).strand i with
    | some o => if o.done then readPacket s w k va n (i + 1) (acc ++ [BitVec.ofNat 64 o.old]) else .waits s
    | none =>
      match loadAt s w k (a % 2 ^ 64) 8 with
      | .fault c => .fault c (a % 2 ^ 64)
      | .busy => .waits s
      | .value s v => readPacket s w k va n (i + 1) (acc ++ [BitVec.ofNat 64 v])
      | .host s h =>
        let o : Op := { Op.zero with
          kind := 2, elem := i, wlog := 3, addr := a % 2 ^ 64, group := 1, host := some (nextId s)
          pc := (s.ctx w k).strand.pc.toNat }
        .waits ((hostAsk s w k (s.ctx w k).strand.opNext h 8 fun m r => .hostRead m 8 r).modStrand w k fun t => t.addOp o)

/-- SPAWN's refusals (08 R153). -/
def spawnRefused (s : State) (dws : List Word) : Bool :=
  let q := s.queue s.myLaunch.queue
  let c := s.queue q.childq
  (nth 0 dws 5) == 0 || !q.childv || c.istate != 2 || c.owner != s.cur.1 || decide (8 ≤ c.inlines) ||
    decide (16 ≤ s.strand.kids.length)

/-- SPAWN (R316): the packet is read, and appended to CHILDQ unless it is refused. -/
def execSpawn (xd xa : Nat) (s : State) : Res :=
  let va := (s.rx xa).toNat
  .next (if va % 8 ≠ 0 then scalarFault s .misalign va
    else match readPacket s s.cur.1 s.cur.2 va 8 0 [] with
      | .fault c a => scalarFault s c a
      | .waits s => s
      | .words s dws =>
        let s := s.onStrand fun t => { t with ops := t.ops.filter fun o => !(o.kind == 2 && o.slot == 0 && o.group != 0) }
        if spawnRefused s dws then (s.wx xd 0).advance
        else
          let q := (s.queue s.myLaunch.queue).childq
          let n := (s.queue q).appended % 2 ^ 32
          let s := (s.onStrand fun t => { t with kids := t.kids ++ [Child.mk q n none] }.wx xd
            (BitVec.ofNat 64 (2 ^ 63 + q * 2 ^ 32 + n))).advance
          appendInline s q dws true (some n))

/-! ## VSYNC, FFLAGS, REMST (R320-R322) -/

/-- VSYNC (R320): counted when it executes. -/
def execVsync (s : State) : Res :=
  .next (if s.strand.drained then (countResync (s.onStrand Strand.forget) s.cur.1 s.cur.2).advance else s)

/-- FFLAGS (R321): waits and is counted as VSYNC, then reads and clears the sticky flags. -/
def execFflags (xd : Nat) (s : State) : Res :=
  .next (if s.strand.drained then
      ((countResync (s.onStrand fun t => { t.forget with fflags := 0 }) s.cur.1 s.cur.2).wx xd
        (BitVec.ofNat 64 s.strand.fflags)).advance
    else s)

/-- REMST (R322): a remote store, and nothing else. Like every write it meets the locked ranges (22 R407). -/
def execRemst (xs xa : Nat) (s : State) : Res :=
  let w := s.cur.1
  let k := s.cur.2
  let va := (s.rx xa).toNat
  .next (if va % 8 ≠ 0 then scalarFault s .misalign va
    else if s.strand.acquiring || xlatWaits s w k va .store then s
    else match resolve s w k (s.me.core 0) va .store with
      | .error c => scalarFault s c va
      | .ok x =>
        match x.target with
        | .peer id off =>
          match route s id with
          | .error c => scalarFault s c va
          | .ok _ =>
            if meets va 8 s.strand.locked then scalarFault s .opbusy va
            else if s.strand.lockPending va 8 then s
            else (remoteStore (setAD s w x .store) w k id off 8 (s.rx xs).toNat).advance
        | _ => scalarFault s .perm va)

/-! ## Barriers (21 R388-R393) -/

/-- BINIT (R390): a store of the whole object, which reads its line as every barrier operation does (R389, 05 R455). -/
def execBinit (xa xp : Nat) (s : State) : Res :=
  let w := s.cur.1
  let k := s.cur.2
  let va := (s.rx xa).toNat
  .next (if walkBusy s w k va 64 .amo then s else match barrierTarget s w k va with
    | .error c => scalarFault s c va
    | .ok x =>
      match x.target with
      | .mem pa =>
        if granuleHeld s w k pa 64 || s.strand.acquiring || s.strand.updating pa 64 || convoyNames s w k pa 64 ||
            portBusy s pa 64 || s.strand.lockPending va 64 then s
        else if tagFails s (keySlot s w) pa 64 then scalarFault s .tagfail va
        else
          let b := Barrier.init (s.rx xp).toNat
          (postWrite (setAD s w x .amo) w k pa
            (bytesOf 8 b.w0 ++ bytesOf 8 b.w1 ++ bytesOf 8 b.w2 ++ List.replicate 40 0)).advance
      | _ => s)

/-- A class T barrier operation issues (R389). Its entry's WLOG is that of a doubleword: the spec states no width for it
(DESIGN CHOICE, assumption 91). -/
def barrierOp (s : State) (kind va opnd : Nat) : State :=
  match issueUpdate s s.cur.1 s.cur.2 { Op.zero with kind := kind, wlog := 3, addr := va, opnd := opnd, pc := s.pc.toNat } with
  | .fault s c => scalarFault s c va
  | .busy s => s
  | .next s => s.advance

/-- BARRIVE (R390, R391): a release, so earlier scalar accesses perform first. -/
def execBarrive (xa : Nat) (s : State) : Res :=
  .next (if scalarDone s true true then barrierOp s 0x14 (s.rx xa).toNat 0 else s)

/-- BEXPECT (R390). -/
def execBexpect (xa xn : Nat) (s : State) : Res := .next (barrierOp s 0x15 (s.rx xa).toNat (s.rx xn).toNat)

/-- PHEND (R393, R391): waits for the strand's convoys and their writes, then arrives. -/
def execPhend (xa : Nat) (s : State) : Res :=
  .next (if s.strand.convoysDone && vectorDone s && scalarDone s true true then
      barrierOp s 0x16 (s.rx xa).toNat 0 else s)

/-- BWAIT (R392): bit 0 of the operand is the parity. -/
def execBwait (xa : Nat) (s : State) : Res :=
  let w := s.cur.1
  let k := s.cur.2
  let v := (s.rx xa).toNat
  let va := v / 2 * 2
  .next (if walkBusy s w k va 64 .load then s else match barrierPhase s w k va with
    | .error c => scalarFault s c va
    | .ok (x, ph) =>
      match x.target with
      | .mem pa =>
        if scalarWaits s w k pa 24 then s
        else if ph % 2 ≠ v % 2 then (setAD s w x .load).advance
        else startWait (setAD s w x .load) { kind := 0x30, operand := v, reg := 0 }
      | _ => s)

/-! ## The Anvil (22 R398, R399) -/

/-- A matrix word (22 R395): VX op5 0x0D to 0x13. -/
def matrixWord (w : Nat) : Bool := bits w 6 0 == 0x5B && decide (0x0D ≤ bits w 31 27) && decide (bits w 31 27 ≤ 0x13)

/-- Every matrix word committed so far has completed: none waits in VA, and the Anvil holds no operation. -/
def Strand.matrixDone (t : Strand) : Bool :=
  !(t.va.any fun e => match e with | .convoy c => c.words.any matrixWord | _ => false) &&
    (match t.anvil with | some a => a.held.isEmpty | none => true)

/-- Bands granted to the other strands of a gang. -/
def bandsGranted (s : State) (w k : Nat) : Nat :=
  (((s.gangOf w k).ctxs.filter (· != k)).map fun j =>
    match (s.ctx w j).strand.anvil with | some a => a.grant | none => 0).foldl (· + ·) 0

/-- Strands attached to the same Anvil: at most eight (R394). -/
def attachedHere (s : State) (w k : Nat) : Nat :=
  ((s.bound w).filter fun j => j != k && holdsAnvil s w j && engineOf s w j == engineOf s w k).length

/-- MATT (R398): attaches with a grant of bands, or reads and clears ASTAT. -/
def execMatt (xd xs : Nat) (s : State) : Res :=
  let w := s.cur.1
  let k := s.cur.2
  match s.strand.anvil with
  | none =>
    let req := Nat.min (s.rx xs).toNat 16
    let g := Nat.min req (Nat.min ((s.gangOf w k).bands - bandsGranted s w k) (bandClamp s.me.elat))
    if g = 0 ∨ !bit s.ready.anvil (engineOf s w k) ∨ attachedHere s w k ≥ 8 then setReg s xd 0
    else setReg (s.onStrand fun t => { t with anvil := some { Anvil.zero with grant := g } }) xd (BitVec.ofNat 64 g)
  | some a =>
    if s.strand.matrixDone then
      setReg (s.onStrand fun t => { t with anvil := some { a with astat := 0 } }) xd
        (BitVec.ofNat 64 (a.grant + a.astat * 2 ^ 32))
    else .next s

/-- MDET (R399). -/
def execMdet (s : State) : Res :=
  .next (if s.strand.anvil.isSome && !s.strand.matrixDone then s
    else (s.onStrand fun t => { t with anvil := none }).advance)

end Sys2Proof.Machine
end

