-- ==== Sys2Proof/Machine/Fetch.lean ====
section
/-!
DEFINITION. Fetching a word, and CVY: how a convoy is framed, checked, captured and committed (13 R249-R257, 16 R305,
09 R163, 22 R405-R408).
-/

namespace Sys2Proof.Machine

/-! ## Fetch (R257, 15 R293) -/

inductive WordFetch where
  | word (s : State) (w : Nat)
  | waits
  | fault (c : Cause)

/-- One aligned word with X rights. -/
def fetchWord (s : State) (w k va : Nat) : WordFetch :=
  if walkBusy s w k va 4 .fetch then .waits
  else match checkAccess s w k ((s.ctx w k).core 0) (scalarAsk s w k va 4 .fetch none) with
  | .error c => .fault c
  | .ok x =>
    match x.target with
    | .mem pa =>
      if portBusy s pa 4 then .waits
      else match loadNum s w pa 4 with
        | .error c => .fault c
        | .ok v => .word (setAD s w x .fetch) v
    | .page _ _ _ => .fault .ctlvec
    | _ => .fault .perm

/-- The body words of a convoy, or the slot whose fetch fails, with the words before it. -/
inductive BodyFetch where
  | words (s : State) (ws : List Nat)
  | waits
  | fault (c : Cause) (slot : Nat) (ws : List Nat)

def fetchBody (s : State) (w k pc : Nat) : Nat → Nat → List Nat → BodyFetch
  | 0, _, ws => .words s ws
  | n + 1, slot, ws =>
    match fetchWord s w k ((pc + 4 * slot) % 2 ^ 64) with
    | .fault c => .fault c slot ws
    | .waits => .waits
    | .word s v => fetchBody s w k pc n (slot + 1) (ws ++ [v])

/-! ## Matrix bookkeeping at commit (22 R397, R405, R407, R408) -/

/-- Columns in a band (R394). -/
def colsPerBand (t : Nat) : Nat := if t = 14 then 256 else if t = 8 ∨ t = 9 then 64 else 128

/-- The ranges that a matrix word locks (R407), each with its row: as far as the largest VL that it can have. -/
def lockedBy (s : State) (w k : Nat) (c : Convoy) (a : Anvil) (slot : Nat) (i : Instr) : List (Nat × Nat × Nat) :=
  let ty := c.mode.etype
  let base := (c.cap slot 0).toNat
  let p := c.cap slot 1
  let vl := c.vlMax (s.ctx w k).mvl
  match i with
  | .mldb .. =>
    let nc := Nat.min (par3 p) (Nat.min 512 (a.grant * colsPerBand ty))
    let n := if 256 ≤ par1 p ∨ nc = 0 then 0 else Nat.min (par0 p) (256 - par1 p)
    (List.range n).map fun r => (0, rowBase ty (par2 p) base r, rowSpan ty (par2 p) nc)
  | .mstep .. =>
    let d := if 256 ≤ par1 p then 0 else Nat.min (par0 p) (256 - par1 p)
    if d = 0 then [] else (List.range (Nat.min vl 64)).map fun r => (r, rowBase ty (par2 p) base r, rowSpan ty (par2 p) d)
  | .mstepr .. => (List.range vl).flatMap fun j =>
      let va := (base + 64 * j) % 2 ^ 64
      ((va, 64) :: recordA s w k va).map fun x => (j, x)
  | _ => []

/-- An older store of the strand to an operand record of the convoy has still to perform, so that the A rows that the commit locks are
not known (R407): the commit waits. -/
def recordsWait (s : State) (w k : Nat) (c : Convoy) : Bool :=
  let t := (s.ctx w k).strand
  c.slots.any fun x => match x.2 with
    | .mstepr .. => (List.range (c.vlMax (s.ctx w k).mvl)).any fun j =>
      match accessPa s w k 0 (((c.cap x.1 0).toNat + 64 * j) % 2 ^ 64) with
      | none => false
      | some pa => heldOver s pa 64 || t.updating pa 64 || (convoysOf t.vm ++ convoysOf t.va).any fun o =>
          (o.todo.any fun y => vectorWrite y.2) && match o.runs s w k (o.todo.filter fun y => vectorWrite y.2) with
            | none => true
            | some rs => rs.any (sameLocation (pa, 64))
    | _ => false

/-- A step of a batch not yet covered targets an accumulator. -/
def Anvil.targets (a : Anvil) (m : Nat) : Bool := a.opn.accs.contains m || a.done.any fun b => b.accs.contains m

def Batch.fresh : Batch := { id := 0, closed := false, complete := false, words := 0, accs := [], locks := [] }

/-- A matrix word commits: what becomes of the Anvil state, and whether the word will fault ACCBUSY. -/
def commitMatrix (s : State) (w k : Nat) (c : Convoy) (slot : Nat) (i : Instr) (a : Anvil) (bno : Nat) :
    Anvil × Nat × Bool :=
  let join := fun (m : List Nat) =>
    let rs := lockedBy s w k c a slot i
    let o := { a.opn with words := a.opn.words + 1, accs := a.opn.accs ++ m }
    { a with opn := match c.vl, i with
      | .mark id, .mstep .. | .mark id, .mstepr .. => { o with soft := o.soft ++ rs.map fun x => (id, x) }
      | _, _ => { o with locks := o.locks ++ rs.map (·.2) } }
  match i with
  | .mldb .. => (join [], bno, false)
  | .mstep m _ _ | .mstepr m _ _ => (join [m], bno, false)
  | .mzero m | .mrd m _ _ | .mwr m _ _ => (a, bno, a.targets m)
  | .mcommit _ =>
    let id := (bno + 1) % 2 ^ 32
    ({ a with opn := Batch.fresh, done := a.done ++ [{ a.opn with id := id }] }, id, false)
  | _ => (a, bno, false)

/-- The matrix words of a convoy commit in slot order; words of a strand that is not attached will fault (R397). -/
def commitWords (s : State) (w k : Nat) (c : Convoy) (t : Strand) : Strand × List Nat :=
  c.slots.foldl (fun (r : Strand × List Nat) x =>
    if !matrixWord (nth 0 c.words (x.1 - 1)) then r
    else match r.1.anvil with
      | none => (r.1, r.2 ++ [x.1])
      | some a =>
        let m := commitMatrix s w k c x.1 x.2 a r.1.bno
        ({ r.1 with anvil := some m.1, bno := m.2.1 }, if m.2.2 then r.2 ++ [x.1] else r.2)) (t, [])

/-! ## Commit (R305) -/

/-- A convoy as it commits, with its captured operands and the VL that it uses (R306). -/
def Strand.newConvoy (t : Strand) (head pc : Nat) (ws : List Nat) : Convoy :=
  { seq := t.seq, addr := pc, head := head, words := ws
    vl := match t.vlMark with | some id => .mark id | none => .fixed t.vl
    caps := ws.map fun x => match wordOf x with | some i => (captures i).map t.rx | none => []
    resk := 1, rese := 0, prog := 0, drop := false, locks := [], busy := [], sent := [], strip := t.strip }

/-- The convoy enters its queue. The commit names the registers that it captures (09 R166). -/
def commitConvoy (s : State) (head pc : Nat) (ws : List Nat) : State :=
  let w := s.cur.1
  let k := s.cur.2
  let t := s.strand
  let c := t.newConvoy head pc ws
  let rs := (ws.filterMap wordOf).flatMap captures
  let r := commitWords s w k c t
  let c := { c with busy := r.2, locks := r.1.locked, soft := r.1.softLocked }
  let t := { r.1.unhold with seq := t.seq + 1 }
  let t : Strand := if isVmBody ws then { t with vm := t.vm ++ [.convoy c] } else { t with va := t.va ++ [.convoy c] }
  let t := c.slots.foldl (fun t x => match xDest x.2 with
    | some xd => (t.addPend xd (4 * (c.seq * 8 + x.1))).addUnread xd false
    | none => t) ({ t with unread := t.unread.filter fun p => !rs.contains p.1 } : Strand)
  let s' := s.onStrand fun _ => t
  if s.strand.resyncs rs [] then countResync s' w k else s'

/-- CVY (R305, R253-R257). -/
def execCvy (cnt guard gneg etype rm sat tb : Nat) (s : State) : Res :=
  let w := s.cur.1
  let k := s.cur.2
  let pc := s.pc.toNat
  let stop := fun (s : State) (c : Cause) (slot fa : Nat) =>
    takeFault s w k { cause := c, fslot := slot, fpc := pc, felem := 0, progress := 0, faddr := fa }
  .next (match fetchBody s w k pc (cnt + 1) 1 [] with
    | .fault c slot ws =>
      match prefixIllegal s.myLaunch.features etype ws with
      | some j => stop s .illegal j 0
      | none => stop s c slot ((pc + 4 * slot) % 2 ^ 64)
    | .waits => s
    | .words s1 ws =>
      match illegalSlot s.myLaunch.features etype ws with
      | some slot => stop s1 .illegal slot 0
      | none =>
        if (ws.filterMap wordOf).any fun i => (captures i).any s.strand.pending then
          stallAt s ((ws.filterMap wordOf).flatMap captures)
        else
          let head := encodeWord (.cvy cnt guard gneg etype rm sat tb)
          if !roomIn s w k (isVmBody ws) || recordsWait s w k (s.strand.newConvoy head pc ws) then s
          else (commitConvoy s1 head pc ws).retire
            (s.pc + BitVec.ofNat 64 (4 * (cnt + 2))))

end Sys2Proof.Machine
end

