-- ==== Sys2Proof/Machine/Issue.lean ====
section
/-!
DEFINITION. Issuing the head of VA or VM: markers and fences, the segments of a convoy, where it halts, and how it
retires (09 R164-R180, R456, 16 R308, R309, 25 R428). The meanings of the body words read the latch `State.issue`; the
function that runs a word is a parameter here.
-/

namespace Sys2Proof.Machine

/-! ## What the meanings of body words use -/

/-- A body word stands in a convoy; anywhere else it is ILLEGAL (13 R254). -/
def onIssue (s : State) (f : Issue → State) : Res :=
  .next (match s.issue with
    | some q => f q
    | none => scalarFault s .illegal 0)

/-- Issue halts in this word. -/
def State.haltAt (s : State) (h : Halt) : State := { s with issue := s.issue.map fun q => { q with halt := some h } }

def Strand.raise (t : Strand) (fl : Nat) : Strand := { t with fflags := Nat.lor t.fflags fl }

/-- Operand j that the word captured. -/
def Issue.cap (q : Issue) (j : Nat) : Word := q.cv.cap q.slot j
def Issue.mode (q : Issue) : Mode := q.cv.mode
/-- The token of an x register that the word writes (R166). -/
def Issue.tok (q : Issue) : Nat := 4 * (q.cv.seq * 8 + q.slot)

/-- Elements of the latch that pass a test, in ascending order, one strand update each. The test is made when the
element issues. -/
def overElems (s : State) (q : Issue) (ok : Strand → Nat → Bool) (f : Strand → Nat → Strand) : State :=
  s.onStrand fun t => (rangeFrom q.lo q.hi).foldl (fun t i => if ok t i then f t i else t) t

/-- The active elements (00 R9). -/
def overActive (s : State) (q : Issue) (f : Strand → Nat → Strand) : State :=
  overElems s q (fun t i => t.active q.mode q.vl i) f

/-- What an element with an access does. -/
inductive Elem where
  | next (s : State)
  | halt (h : Halt)

/-- Elements that pass a test, in ascending order, up to the first that halts. -/
def overAccess (ok : Strand → Nat → Bool) (f : State → Nat → Elem) : List Nat → State → State
  | [], s => s
  | i :: is, s =>
    if ok s.strand i then
      (match f s i with
      | .next s => overAccess ok f is s
      | .halt h => s.haltAt h)
    else overAccess ok f is s

/-! ## Running the words of a convoy -/

/-- One word over its elements: the state after it, and what halted it. -/
def runWord (ex : Instr → State → State) (s : State) (vm : Bool) (c : Convoy) (vl slot lo hi : Nat)
    (cut : Option (Nat × Nat) := none) : State × Option Halt :=
  match c.word slot with
  | none => (s, none)
  | some i =>
    let r := ex i { s with
      issue := some { vm := vm, cv := c, vl := vl, slot := slot, lo := lo, hi := hi, halt := none, cut := cut } }
    ({ r with issue := none }, r.issue.bind (·.halt))

/-- Where a segment has halted: element, slot, and why. -/
abbrev Stop := Nat × Nat × Halt

def Halt.elem : Halt → Nat
  | .fault _ e _ _ => e
  | .wait e _ => e
  | .ask e _ _ _ _ _ _ => e
  | .send e _ => e
  | .gate e _ _ => e
  | .pause e _ => e

/-- The words of a segment one after another; a word issues no element past the lowest that has halted (R176, R177). -/
def sweep (ex : Instr → State → State) (vm : Bool) (c : Convoy) (vl : Nat) (hi : Nat → Nat) :
    List Nat → State → Option Stop → State × Option Stop
  | [], s, b => (s, b)
  | j :: js, s, b =>
    let top := match b with | some (e, _, _) => Nat.min (hi j) e | none => hi j
    match runWord ex s vm c vl j (c.start j) top with
    | (s, some h) => sweep ex vm c vl hi js s (some (h.elem, j, h))
    | (s, none) => sweep ex vm c vl hi js s b

/-- A segment: every position before the halt is performed, and none at or after it (R176, R329). -/
def segment (ex : Instr → State → State) (s : State) (vm : Bool) (c : Convoy) (vl : Nat) (js : List Nat) :
    Nat → Option Stop → State × Option Stop
  | 0, b => (s, b)
  | n + 1, b =>
    let hi := fun j => match b with | some (e, k, _) => if j < k then Nat.min vl (e + 1) else Nat.min vl e | none => vl
    match sweep ex vm c vl hi js s none with
    | (s', none) => (s', b)
    | (_, some b') => segment ex s vm c vl js n (some b')

/-! ## Halting and retiring -/

def Strand.queueOf (t : Strand) (vm : Bool) : List QEntry := if vm then t.vm else t.va
def Strand.putQueue (t : Strand) (vm : Bool) (q : List QEntry) : Strand := if vm then { t with vm := q } else { t with va := q }

/-- The head waits until something changes. -/
def Strand.hold (t : Strand) (vm : Bool) : Strand := if vm then { t with vmHold := true } else { t with vaHold := true }

/-- The head convoy with its resume point. -/
def Strand.setHead (t : Strand) (vm : Bool) (c : Convoy) : Strand := t.putQueue vm (.convoy c :: (t.queueOf vm).tail)

/-- A convoy leaves its queue (R164): the strand has retired an instruction. -/
def retireHead (s : State) (w k : Nat) (vm : Bool) : State :=
  wakeResuming ((s.modStrand w k fun t => (t.putQueue vm (t.queueOf vm).tail).unhold).progress w (s.ctx w k).launch) w k

/-- A class T element leaves the core for its port, outstanding with its tag (R456, 11 R219). -/
def sendUpdate (s : State) (w k : Nat) (o : Op) : State :=
  let s := match resolve s w k ((s.ctx w k).core (o.elem / 512)) o.addr .amo with
    | .ok x => setAD s w x .amo
    | .error _ => s
  leaveT (s.modStrand w k Strand.nextT) w k ((s.ctx w k).strand.tagged w k o)

/-- The refusals of translations that a fault has reported are done with (04 R86). -/
def dropRefused (s : State) (w k : Nat) : State :=
  { s with hreqs := s.hreqs.filter fun (e : Nat × HReq) => !(e.2.posted && e.2.refused && e.2.world == w && e.2.ctx == k) }

/-- The convoy stands at a resume point (R176) with its progress (R178), and what halted the word in a slot takes its course. -/
def haltConvoy (s : State) (w k : Nat) (vm : Bool) (c : Convoy) (slot rese : Nat) (h : Halt) (at_ : Nat := slot) : State :=
  let stand := fun (p : Nat) => s.modStrand w k fun t => t.setHead vm { c with resk := slot, rese := rese, prog := p }
  match h with
  | .fault cause elem p faddr =>
    takeFault (if cause = .trans then dropRefused (stand p) w k else stand p) w k { cause := cause, fslot := at_, fpc := c.addr, felem := elem, progress := p, faddr := faddr }
  | .wait _ p => (stand p).modStrand w k fun t => t.hold vm
  | .pause _ p => stand p
  | .ask elem ty reg sub width va a =>
    let s := (stand 0).modStrand w k fun t => t.hold vm
    if hostBusy s w k a width then s
    else
      let o : Op := { Op.zero with
        kind := 2, func := ty + 16 * sub, reg := reg, elem := elem, slot := at_, wlog := Nat.log2 width, addr := va
        group := c.seq + 1, host := some (nextId s), pc := c.addr }
      (hostAsk s w k (s.ctx w k).strand.opNext a width fun h n => .hostRead h width n).modStrand w k fun t => t.addOp o
  | .send _ os =>
    let c := { c with resk := slot, rese := rese, prog := 0, sent := c.sent ++ os.map fun o => (o.slot, o.elem) }
    os.foldl (fun s o => sendUpdate s w k o) (s.modStrand w k fun t => (t.setHead vm c).hold vm)
  | .gate _ width a =>
    if hostBusy s w k a width then (stand 0).modStrand w k fun t => t.hold vm
    else match hostGate (stand 0) w k (pasidOf s w k) a with
      | .waits s => s.modStrand w k fun t => t.hold vm
      | _ => stand 0

/-! ## A whole convoy -/

/-- The slots of the segment that begins at a slot with an elementwise word. -/
def Convoy.run (c : Convoy) (j : Nat) : List Nat :=
  (rangeFrom j (c.words.length + 1)).takeWhile fun i => match c.word i with | some w => !isCross w | none => true

/-- A word that writes as it goes: what it has done stands when it halts (22 R413, 24 R427). -/
def keepsPart : Instr → Bool
  | .mstepr .. | .gor2 .. | .gor3 .. | .ginc .. | .gins .. | .gsegx .. => true
  | _ => false

/-- A geometric word resumes at an element (24 R427). -/
def resumesAt : Instr → Bool
  | .gor2 .. | .gor3 .. | .ginc .. | .gins .. | .gsegx .. => true
  | _ => false

/-- Vector registers that a replayed operation has still to write (11 R222): a segment that uses them waits. -/
def replayConflicts (t : Strand) (c : Convoy) : Bool :=
  let u := c.usesOf c.issuing
  t.ops.any fun o =>
    !o.done && (if o.kind = 2 ∧ o.group = 0 then
        (if o.func / 16 = 2 then c.issuing.any fun x => matrixWord (nth 0 c.words (x.1 - 1))
         else (if o.func / 16 = 1 then [o.reg, o.reg + 1, vvId] else vregs (o.func % 16) o.reg).any fun r => u.1.contains r || u.2.contains r)
      else o.kind == 0x13 && (vregs (o.func / 16) o.reg).any fun r => u.1.contains r || u.2.contains r)

/-- The order of the registers (R428), of the locations (10 R193) and of the strips (10 R196) lets a convoy's next segment
issue. -/
def mayIssue (s : State) (w k : Nat) (vm : Bool) (c : Convoy) : Bool :=
  let t := (s.ctx w k).strand
  !((convoysOf (t.queueOf (!vm))).any fun o => decide (o.seq < c.seq) && (o.conflicts c || o.strips c)) && !replayConflicts t c &&
    !olderNames s w k (t.queueOf (!vm)) c

/-- A class T element of the convoy has left for its port, and its acknowledgement has not come (19 R366). -/
def Convoy.unacknowledged (t : Strand) (c : Convoy) : Bool :=
  t.ops.any fun o => (o.kind == 0x12 || o.kind == 0x13) && !o.replayed && o.pc == c.addr

/-- While class T elements are unacknowledged, every class T element before a position counts as sent: where one of them fails
at its port, the convoy comes back to it and leaves those behind it to what has become of them (09 R456). So do those that lie
behind the resume point. -/
def Convoy.markT (t : Strand) (c : Convoy) (js : List Nat) (slot e : Nat) (behind : Bool := false) : Convoy :=
  if behind || c.unacknowledged t then
    { c with sent := (c.sent ++ (c.slots.filter fun x => js.contains x.1 && (match x.2 with
        | .vamo .. | .vamor .. => true
        | _ => false)).flatMap fun x => (List.range (if x.1 < slot then e + 1 else e)).map fun i => (x.1, i)).eraseDups }
  else c

/-- A halt that ends by itself: nothing has faulted. -/
def Halt.passing : Halt → Bool
  | .fault .. => false
  | _ => true

/-- The elementwise segment from slot j on. Where a word waits and a later word may not go first (10 R193), each word keeps what it
has performed, and the resume point stays. A segment is complete once its class T elements have been acknowledged: a failure that a
port reports finds the convoy at its element (09 R456). -/
def runSegment (ex : Instr → State → State) (s : State) (w k : Nat) (vm : Bool) (vl : Nat) (c : Convoy) (j : Nat)
    (next : State → State) : State :=
  let js := c.run j
  match segment ex s vm c vl js (4 * vl + 5) none with
  | (s', none) =>
    if c.unacknowledged (s'.ctx w k).strand then
      s'.modStrand w k fun t => (t.setHead vm { (c.markT t js j vl) with resk := j, rese := vl, prog := 0, ahead := [] }).hold vm
    else next s'
  | (s', some (e, k', h)) =>
    let ws := c.slots.filter fun x => js.contains x.1
    if h.passing && c.crosses s w k vl ws k' e then
      let r := sweep ex vm c vl (fun i => if i < k' then Nat.min vl (e + 1) else if i = k' then Nat.min vl e else c.start i) js s none
      let c := { (c.markT (r.1.ctx w k).strand js k' e true) with
        ahead := (rangeFrom 1 (c.words.length + 1)).map fun i =>
          if !js.contains i then 0 else if i < k' then Nat.min vl (e + 1) else if i = k' then e else c.start i }
      haltConvoy r.1 w k vm c c.resk c.rese h k'
    else haltConvoy s' w k vm { (c.markT (s'.ctx w k).strand js k' e) with ahead := [] } k' e h

/-- The segments from a slot on. Each issues as the orders of registers, locations and strips let it. -/
def runSegments (ex : Instr → State → State) (w k : Nat) (vm : Bool) (vl : Nat) (cut : Option (Nat × Nat)) :
    Nat → Convoy → Nat → State → State
  | 0, _, _, s => retireHead s w k vm
  | n + 1, c, j, s =>
    let next := fun (i : Nat) => { c with resk := i, rese := 0, prog := 0, sent := [], ahead := [] }
    match c.word j with
    | none => retireHead s w k vm
    | some i =>
      if !mayIssue s w k vm c then s.modStrand w k fun t => (t.setHead vm c).hold vm
      else if isCross i then
        match runWord ex s vm c vl j (if resumesAt i then c.rese else 0) vl cut with
        | (s', none) => runSegments ex w k vm vl cut n (next (j + 1)) (j + 1) s'
        | (s', some h) =>
          haltConvoy (if keepsPart i then s' else s) w k vm c j (if resumesAt i then h.elem else 0) h
      else
        runSegment ex s w k vm vl c j (runSegments ex w k vm vl cut n (next (j + (c.run j).length)) (j + (c.run j).length))

/-- The oldest batch whose MCOMMIT has not issued is closed (22 R405); an empty one is complete at once. -/
def Strand.closeBatch (t : Strand) : Strand :=
  { t with anvil := t.anvil.map fun a =>
      match a.done.find? fun b => !b.closed with
      | none => a
      | some b => { a with done := a.done.map fun (x : Batch) =>
          if x.id = b.id then { x with closed := true, complete := x.complete || x.words == 0 } else x } }

/-- A convoy whose entry says DROP retires without effect (11 R213). The batch that it would have closed is closed. -/
def dropConvoy (s : State) (w k : Nat) (vm : Bool) (c : Convoy) : State :=
  let n := (c.slots.filter fun x => match x.2 with | .mcommit _ => true | _ => false).length
  let s := (List.range n).foldl (fun s _ => (s.modStrand w k Strand.closeBatch).push .batchComplete [w, k]) s
  retireHead s w k vm

/-- A fence marker passes (16 R309): FSV once the scalar accesses have performed; the VM copy of FVV once the vector
accesses before it have. No VA word makes a vector access, so FVV's VA copy passes at once. -/
def fencePasses (s : State) (w k : Nat) (vm : Bool) (word : Nat) : Bool :=
  let s := { s with cur := (w, k) }
  if bits word 31 27 = 4 then scalarDone s true true
  else !vm || (!(s.strand.ops.any fun o => !o.done && (o.kind == 2 || o.kind == 3 || o.kind == 0x12 || o.kind == 0x13)) &&
    !storesHeld s w k)

/-- The head of a queue of strand (w, k) issues, passes, or waits. -/
def issueHead (ex : Instr → State → State) (s : State) (w k : Nat) (vm : Bool) (cut : Option (Nat × Nat) := none) : State :=
  let t := (s.ctx w k).strand
  let wait := s.modStrand w k fun t => t.hold vm
  if (s.ctx w k).state ≠ .running ∧ (s.ctx w k).state ≠ .waiting then s
  else match t.queueOf vm with
  | [] => s
  | .mark id _ :: _ =>
    let r := t.stepMark (s.ctx w k).mvl vm id
    if r.2 then s.modStrand w k fun _ => r.1 else wait
  | .fence word _ :: _ => if fencePasses s w k vm word then retireHead s w k vm else wait
  | .convoy c :: _ =>
    if c.drop then dropConvoy s w k vm c
    else match c.vl with
    | .mark _ => wait
    | .fixed vl =>
      runSegments ex w k vm vl cut 5 c c.resumeSlot { s with cur := (w, k) }

end Sys2Proof.Machine
end

