-- ==== Sys2Proof/Machine/Geo.lean ====
section
/-!
DEFINITION. The exact geometric predicates (24 R419-R427, R459): one expression for each word, read in fp64, as a
permanent, exactly, and as a polynomial in the perturbation.
-/

namespace Sys2Proof.Machine

/-! ## The expressions of R459 -/

/-- A reading of the expressions: the difference of two coordinates, and arithmetic on terms. -/
structure Reading (α : Type) where
  diff : Nat → Nat → α
  add  : α → α → α
  sub  : α → α → α
  mul  : α → α → α

/-- GOR2 of points by their first coordinates. -/
def orient2 {α : Type} (r : Reading α) (a b c : Nat) : α :=
  let acx := r.diff a c
  let acy := r.diff (a + 1) (c + 1)
  let bcx := r.diff b c
  let bcy := r.diff (b + 1) (c + 1)
  r.sub (r.mul acx bcy) (r.mul acy bcx)

/-- GOR3 with origin d. -/
def orient3 {α : Type} (r : Reading α) (a b c d : Nat) : α :=
  let x := fun p => r.diff p d
  let y := fun p => r.diff (p + 1) (d + 1)
  let z := fun p => r.diff (p + 2) (d + 2)
  let term := fun p q s => r.mul (x p) (r.sub (r.mul (y q) (z s)) (r.mul (z q) (y s)))
  r.add (r.add (term a b c) (r.mul (x b) (r.sub (r.mul (y c) (z a)) (r.mul (z c) (y a)))))
    (r.mul (x c) (r.sub (r.mul (y a) (z b)) (r.mul (z a) (y b))))

/-- GINC with origin d. -/
def inCircle {α : Type} (r : Reading α) (a b c d : Nat) : α :=
  let x := fun p => r.diff p d
  let y := fun p => r.diff (p + 1) (d + 1)
  let lift := fun p => r.add (r.mul (x p) (x p)) (r.mul (y p) (y p))
  let minor := fun p q => r.sub (r.mul (x p) (y q)) (r.mul (x q) (y p))
  r.add (r.add (r.mul (lift a) (minor b c)) (r.mul (lift b) (minor c a))) (r.mul (lift c) (minor a b))

/-- GINS with origin e. -/
def inSphere {α : Type} (r : Reading α) (a b c d e : Nat) : α :=
  let x := fun p => r.diff p e
  let y := fun p => r.diff (p + 1) (e + 1)
  let z := fun p => r.diff (p + 2) (e + 2)
  let pair := fun p q => r.sub (r.mul (x p) (y q)) (r.mul (x q) (y p))
  let ab := pair a b
  let bc := pair b c
  let cd := pair c d
  let da := pair d a
  let ac := pair a c
  let bd := pair b d
  let abc := r.add (r.sub (r.mul (z a) bc) (r.mul (z b) ac)) (r.mul (z c) ab)
  let bcd := r.add (r.sub (r.mul (z b) cd) (r.mul (z c) bd)) (r.mul (z d) bc)
  let cda := r.add (r.add (r.mul (z c) da) (r.mul (z d) ac)) (r.mul (z a) cd)
  let dab := r.add (r.add (r.mul (z d) ab) (r.mul (z a) bd)) (r.mul (z b) da)
  let lift := fun p => r.add (r.add (r.mul (x p) (x p)) (r.mul (y p) (y p))) (r.mul (z p) (z p))
  r.add (r.sub (r.mul (lift d) abc) (r.mul (lift c) dab)) (r.sub (r.mul (lift b) cda) (r.mul (lift a) bcd))

/-- The determinants of a word; GSEGX has four (R422). -/
inductive GWord where
  | gor2 | gor3 | ginc | gins | gsegx
  deriving DecidableEq, Repr

def GWord.terms {α : Type} (g : GWord) (r : Reading α) : List α :=
  match g with
  | .gor2 => [orient2 r 0 2 4]
  | .gor3 => [orient3 r 0 3 6 9]
  | .ginc => [inCircle r 0 2 4 6]
  | .gins => [inSphere r 0 3 6 9 12]
  | .gsegx => [orient2 r 0 2 4, orient2 r 0 2 6, orient2 r 4 6 0, orient2 r 4 6 2]

/-- Coordinates of a word (R419). -/
def GWord.coords : GWord → Nat
  | .gor2 => 6 | .gor3 => 12 | .ginc => 8 | .gins => 15 | .gsegx => 8

/-! ## Readings -/

/-- Stage A: fp64, every operation rounded RNE. -/
def rne (x : Nat → Nat) : Reading Nat :=
  { diff := fun p q => (fSub 11 0 false (x p) (x q)).1
    add := fun a b => (fAdd 11 0 false a b).1
    sub := fun a b => (fSub 11 0 false a b).1
    mul := fun a b => (fMul 11 0 false a b).1 }

/-- The permanent P (R424): absolute differences, additions for subtractions, every operation rounded RUP. -/
def permanent (x : Nat → Nat) : Reading Nat :=
  { diff := fun p q => setBit (fSub 11 0 false (x p) (x q)).1 63 false
    add := fun a b => (fAdd 11 3 false a b).1
    sub := fun a b => (fAdd 11 3 false a b).1
    mul := fun a b => (fMul 11 3 false a b).1 }

/-- Exact arithmetic on coordinates brought to one exponent. -/
def exactly (x : Nat → Int) : Reading Int :=
  { diff := fun p q => x p - x q, add := (· + ·), sub := (· - ·), mul := (· * ·) }

/-- A polynomial in ε: coefficients by exponent, in rising order, none of them zero. -/
abbrev Poly := Tbl Int

def Poly.plus (a b : Poly) : Poly := b.foldl (fun t e => tput 0 e.1 (tget 0 t e.1 + e.2) t) a
def Poly.times (a b : Poly) : Poly :=
  a.foldl (fun t e => b.foldl (fun t f => tput 0 (e.1 + f.1) (tget 0 t (e.1 + f.1) + e.2 * f.2) t) t) []
def Poly.minus (a b : Poly) : Poly := Poly.plus a (b.map fun e => (e.1, -e.2))

/-- Coordinate k perturbed by ε^(3^k) (R423). -/
def coordPoly (x : Nat → Int) (k : Nat) : Poly := tput 0 0 (x k) [(3 ^ k, 1)]

/-- The perturbed reading. -/
def perturbed (x : Nat → Int) : Reading Poly :=
  { diff := fun p q => (coordPoly x p).minus (coordPoly x q), add := Poly.plus, sub := Poly.minus, mul := Poly.times }

/-- Sign of a number, and of the coefficient of the lowest power of ε. -/
def signOf (v : Int) : Int := if v < 0 then -1 else if v = 0 then 0 else 1
def Poly.sign (p : Poly) : Int := match p with | [] => 0 | e :: _ => signOf e.2

/-! ## Results (R421, R422) -/

/-- Coordinates at one exponent: sign and order of every determinant are those of the values. -/
def intCoords (vs : List Fp) : Nat → Int :=
  let e0 := vs.foldl (fun m v => match v with | .fin _ _ e => min m e | _ => m) 0
  let is := vs.map fun v => match v with | .fin n m e => scaleTo n m e e0 | _ => 0
  fun k => nth 0 is k

/-- The exact result for finite coordinates, with or without tie-break. -/
def geoResult (g : GWord) (tb : Bool) (x : Nat → Int) : Int :=
  match (g.terms (exactly x)).map signOf with
  | [o1, o2, o3, o4] =>
    if o1 * o2 > 0 ∨ o3 * o4 > 0 then -1
    else if o1 * o2 < 0 ∧ o3 * o4 < 0 then 1
    else if !tb then 0
    else match (g.terms (perturbed x)).map Poly.sign with
      | [p1, p2, p3, p4] => if p1 * p2 < 0 ∧ p3 * p4 < 0 then 2 else -2
      | _ => -2
  | [o] =>
    if o ≠ 0 ∨ !tb then o
    else match (g.terms (perturbed x)).map Poly.sign with
      | [p] => 2 * p
      | _ => 0
  | _ => 0

/-! ## Stages (R424) -/

/-- cA and cB as multiples of 2^-106. -/
def GWord.cA : GWord → Nat
  | .gor2 | .gsegx => 3 * 2 ^ 53 + 16 | .gor3 => 7 * 2 ^ 53 + 56 | .ginc => 10 * 2 ^ 53 + 96 | .gins => 16 * 2 ^ 53 + 224
def GWord.cB : GWord → Nat
  | .gor2 | .gsegx => 2 * 2 ^ 53 + 12 | .gor3 => 3 * 2 ^ 53 + 28 | .ginc => 4 * 2 ^ 53 + 48 | .gins => 5 * 2 ^ 53 + 72

/-- a × 2^e at most b × 2^f. -/
def atMost (a : Nat) (e : Int) (b : Nat) (f : Int) : Bool :=
  decide (a * 2 ^ (e - min e f).toNat ≤ b * 2 ^ (f - min e f).toNat)

/-- 2^-900 ≤ P ≤ 2^900, and |t| > c·P. -/
def certain (c : Nat) (t p : Nat) : Bool :=
  match fpOf 11 t, fpOf 11 p with
  | .fin _ m e, .fin _ n f =>
    atMost 1 (-900) n f && atMost n f 1 900 && !atMost m e (c * n) (f - 106)
  | _, _ => false

/-- Pairs of coordinates whose differences an expression takes. -/
def GWord.diffs : GWord → List (Nat × Nat)
  | .gor2 => [(0, 4), (1, 5), (2, 4), (3, 5)]
  | .gor3 => (List.range 9).map fun k => (k, 9 + k % 3)
  | .ginc => (List.range 6).map fun k => (k, 6 + k % 2)
  | .gins => (List.range 12).map fun k => (k, 12 + k % 3)
  | .gsegx => [(0, 4), (1, 5), (2, 4), (3, 5), (0, 6), (1, 7), (2, 6), (3, 7), (4, 0), (5, 1), (6, 0), (7, 1), (4, 2),
      (5, 3), (6, 2), (7, 3)]

/-- A rounded difference is exact. -/
def exactDiff (x : Nat → Nat) (d : Nat × Nat) : Bool :=
  match addExact 0 (fpOf 11 (x d.1)) (fpOf 11 (x d.2)).neg, fpOf 11 (fSub 11 0 false (x d.1) (x d.2)).1 with
  | (.fin n m e, _), .fin o k f => fOrder (.fin n m e) (.fin o k f) == 0
  | _, _ => false

/-- round(D, RNE) as fp64, from D × 2^-(n e0) computed in integers. -/
def roundDet (d : Int) (e : Int) : Nat := (roundFin 11 0 false (decide (d < 0)) d.natAbs e false).1

/-- Degree of a word's determinants in the differences. -/
def GWord.degree : GWord → Nat
  | .gor2 | .gsegx => 2 | .gor3 => 3 | .ginc => 4 | .gins => 5

/-- The first stage that is certain: 1, 2 or 3. `x` holds fp64 bits. -/
def stageOf (g : GWord) (x : Nat → Nat) (n : Nat) : Nat :=
  let ts := g.terms (rne x)
  let ps := g.terms (permanent x)
  let vs := (List.range n).map fun k => fpOf 11 (x k)
  let e0 := vs.foldl (fun m v => match v with | .fin _ _ e => min m e | _ => m) (0 : Int)
  let ds := (g.terms (exactly (intCoords vs))).map fun d => roundDet d (g.degree * e0)
  if (List.range ts.length).all fun j => certain g.cA (nth 0 ts j) (nth 0 ps j) then 1
  else if g.diffs.all (exactDiff x) && (List.range ts.length).all fun j => certain g.cB (nth 0 ds j) (nth 0 ps j) then 2
  else 3

/-! ## The words (R425) -/

/-- Coordinate k of element i as fp64 bits: exact. -/
def coordAt (t : Strand) (ty vs i k : Nat) : Nat :=
  if ty = 11 then t.elem 11 (vs + 2 * k) i else (fToF 10 11 0 false (t.slot (vs + k) i)).1

/-- Every coordinate of element i is finite. -/
def finiteAt (t : Strand) (g : GWord) (ty vs i : Nat) : Bool :=
  (List.range g.coords).all fun k => match fpOf 11 (coordAt t ty vs i k) with | .fin .. => true | _ => false

/-- The result of element i. -/
def resultAt (t : Strand) (g : GWord) (tb : Bool) (ty vs i : Nat) : Int :=
  geoResult g tb (intCoords ((List.range g.coords).map fun k => fpOf 11 (coordAt t ty vs i k)))

/-- Element i of pass p comes before a pass and an element. -/
def beforeCut (p i : Nat) : Option (Nat × Nat) → Bool
  | none => true
  | some c => decide (p < c.1) || (p == c.1 && decide (i < c.2))

/-- The passes from p on over the elements S, ascending, pass p from element e (R425), as far as a cut. The operands are not
written. -/
def passes (t0 : Strand) (g : GWord) (tb : Bool) (ty vs vd e p : Nat) (sel : List Nat) (t : Strand)
    (cut : Option (Nat × Nat) := none) : Strand :=
  let st := sel.map fun i => (i, stageOf g (coordAt t0 ty vs i) g.coords)
  (rangeFrom p 4).foldl (fun t q => st.foldl (fun t x =>
    if x.2 = q ∧ (q ≠ p ∨ e ≤ x.1) ∧ beforeCut q x.1 cut then
      t.setSlot vd x.1 (ofSigned 32 (resultAt t0 g tb ty vs x.1))
    else t) t) t

/-- A geometric word, from its resume state (p, e) (R425, R427). Where a cut stops it, it stands there; what has been written is
complete up to the cut. -/
def geometric (g : GWord) (vd vs : Nat) (s : State) : Res :=
  onIssue s fun q =>
    let t0 := s.strand
    let ty := q.mode.etype
    let tb := q.mode.tb != 0
    let p := Nat.max 1 q.cv.prog
    let e := q.lo
    let sel := (List.range q.vl).filter (t0.active q.mode q.vl)
    let run := fun (sel : List Nat) =>
      s.onStrand fun t => passes t0 g tb ty vs vd e p (sel.filter (finiteAt t0 g ty vs)) t q.cut
    let end_ := fun (s : State) =>
      match q.cut with
      | some c =>
        if 3 < c.1 then s
        else if beforeCut p e (some c) then s.haltAt (.pause (Nat.min c.2 q.vl) c.1)
        else s.haltAt (.pause e p)
      | none => s
    if p = 1 then
      match sel.find? fun i => decide (e ≤ i) && !finiteAt t0 g ty vs i with
      | some f => if beforeCut 1 f q.cut then (run (sel.filter (· < f))).haltAt (.fault .geomnf f 1 0) else end_ (run (sel.filter (· < f)))
      | none => end_ (run sel)
    else match sel.find? fun i => !finiteAt t0 g ty vs i with
      | some b => s.haltAt (.fault .geomnf e p b)
      | none => end_ (run sel)

def execGor2 (vd vs : Nat) (s : State) : Res := geometric .gor2 vd vs s
def execGor3 (vd vs : Nat) (s : State) : Res := geometric .gor3 vd vs s
def execGinc (vd vs : Nat) (s : State) : Res := geometric .ginc vd vs s
def execGins (vd vs : Nat) (s : State) : Res := geometric .gins vd vs s
def execGsegx (vd vs : Nat) (s : State) : Res := geometric .gsegx vd vs s

end Sys2Proof.Machine
end

