-- ==== Sys2Proof/Machine/Vmem.lean ====
section
/-!
DEFINITION. Vector memory words (19 R357-R372): loads, stores, atomics and FP4 blocks, each active element with its own
access, in ascending order up to the first that halts.
-/

namespace Sys2Proof.Machine

/-- What an element's read answers. -/
inductive Read where
  | value (s : State) (v : Nat)
  | halt (h : Halt)

/-- The read that a convoy's element has sent to the host. -/
def Strand.asked (t : Strand) (q : Issue) (i wlog : Nat) : Option Op :=
  t.ops.find? fun o => o.kind == 2 && o.group == q.cv.seq + 1 && o.slot == q.slot && o.elem == i && o.wlog == wlog

/-- Element i reads 2^wlog bytes (R360, R361): memory answers at once, the host later. -/
def readElem (s : State) (q : Issue) (core i ty reg sub wlog va : Nat) : Read :=
  let w := s.cur.1
  let k := s.cur.2
  match s.strand.asked q i wlog with
  | some o =>
    if !o.done then .halt (.wait i 0)
    else if o.part ≠ 0 then .halt (.fault (causeOf o.part) i 0 va)
    else .value (s.onStrand fun t => t.dropOp o.id) o.old
  | none =>
    match elementLoad s w k core va (2 ^ wlog) with
    | .value s v => .value s v
    | .host _ a => .halt (.ask i ty reg sub (2 ^ wlog) va a)
    | .busy => .halt (.wait i 0)
    | .fault c => .halt (.fault c i 0 va)

/-- The host address that an element's access goes to. -/
def hostVa (s : State) (w k core va : Nat) (acc : Acc) : Option Nat :=
  match resolve s w k core va acc with
  | .ok x => (match x.target with | .host a => some a | _ => none)
  | .error _ => none

/-- Element i writes 2^wlog bytes (R360, R362, R363), against the locks of its convoy's commit (22 R407). -/
def writeElem (s : State) (q : Issue) (core i wlog va v : Nat) : Elem :=
  match elementStore s s.cur.1 s.cur.2 core va (2 ^ wlog) v q.cv.locks (some q.cv.strip) with
  | .next s => .next s
  | .busy _ =>
    match hostVa s s.cur.1 s.cur.2 core va .store with
    | some a => .halt (.gate i (2 ^ wlog) a)
    | none => .halt (.wait i 0)
  | .fault _ c => .halt (.fault c i 0 va)

/-- log2 of an element's bytes. -/
def elemLog (ty : Nat) : Nat := Nat.log2 (elemBytes ty)

/-- VLD, VLDS and VLDX (R361). -/
def vectorLoad (v : Nat) (i : Instr) (s : State) : Res :=
  onIssue s fun q =>
    let ty := q.mode.etype
    overAccess (fun t e => t.active q.mode q.vl e) (fun s e =>
      match readElem s q (s.me.core (e / 512)) e ty v 0 (elemLog ty) (elemAddr s.strand q.cv q.slot ty e i) with
      | .value s x => .next (s.onStrand fun t => t.setElem ty v e x)
      | .halt h => .halt h) (rangeFrom q.lo q.hi) s

/-- VST, VSTS and VSTX (R362). -/
def vectorStore (v : Nat) (i : Instr) (s : State) : Res :=
  onIssue s fun q =>
    let ty := q.mode.etype
    overAccess (fun t e => t.active q.mode q.vl e) (fun s e =>
      writeElem s q (s.me.core (e / 512)) e (elemLog ty) (elemAddr s.strand q.cv q.slot ty e i) (s.strand.elem ty v e))
      (rangeFrom q.lo q.hi) s

def execVld (v xb : Nat) (s : State) : Res := vectorLoad v (.vld v xb) s
def execVlds (v xb xs : Nat) (s : State) : Res := vectorLoad v (.vlds v xb xs) s
def execVldx (v xb vi : Nat) (s : State) : Res := vectorLoad v (.vldx v xb vi) s
def execVst (v xb : Nat) (s : State) : Res := vectorStore v (.vst v xb) s
def execVsts (v xb xs : Nat) (s : State) : Res := vectorStore v (.vsts v xb xs) s
def execVstx (v xb vi : Nat) (s : State) : Res := vectorStore v (.vstx v xb vi) s

/-- An element's operation that has left the core and whose response is still to come. -/
def Strand.awaits (t : Strand) (q : Issue) (i : Nat) : Bool :=
  t.ops.any fun o => (o.kind == 0x12 || o.kind == 0x13) && !o.replayed && o.slot == q.slot && o.elem == i && o.pc == q.cv.addr

/-- One element of VAMO or VAMOR (R364-R366), with n elements ahead of it that leave with it. It applies at its port at once, or
leaves for it: issue goes on past a VAMO, and halts at a VAMOR until its old value has come. A position that has left, or that stands
in the record, is left to its operation (09 R456). -/
def amoElem (s : State) (q : Issue) (old : Bool) (v fn va n i : Nat) : Elem :=
  let w := s.cur.1
  let k := s.cur.2
  let ty := q.mode.etype
  let len := elemBytes ty
  if q.cv.sent.contains (q.slot, i) then (if old && s.strand.awaits q i then .halt (.wait i 0) else .next s)
  else if walkBusy s w k va len .amo then .halt (.wait i 0)
  else match checkAccess s w k (s.me.core (i / 512))
      { va := va, width := len, acc := .amo, vec := true, sd := none, locks := q.cv.locks } with
  | .error c => .halt (.fault c i 0 va)
  | .ok x =>
    match x.target with
    | .mem pa =>
      let o : Op := { Op.zero with
        kind := if old then 0x13 else 0x12
        func := fn + 16 * ty
        reg := if old then v else 0
        elem := i
        slot := q.slot
        wlog := elemLog ty
        addr := va
        opnd := s.strand.elem ty v i
        pc := q.cv.addr
        pa := pa }
      if writeHeld s w k pa len || stripWaits s w k q.cv.strip then .halt (.wait i 0)
      else if portLater s pa len && !virgaRoom s w k (n + 1) then .halt (.wait i 0)
      else if old && portLater s pa len then .halt (.send i [o])
      else
        match issueT (setAD s w x .amo) w k o with
        | .error c => .halt (.fault c i 0 va)
        | .ok s => .next s
    | _ => .halt (.fault .perm i 0 va)

/-- The elements that leave along with the first of them, up to one that does not. -/
def amoAhead (s : State) (q : Issue) (f : State → Nat → Nat → Elem) : List Nat → List Op → List Op
  | [], os => os
  | i :: is, os =>
    if !s.strand.active q.mode q.vl i then amoAhead s q f is os
    else match f s os.length i with
      | .halt (.send _ o) => amoAhead s q f is (os ++ o)
      | _ => os

/-- VAMO and VAMOR (R365). Where issue halts because an element leaves for its port, the elements after it leave too, if the word
is alone in its segment: every position before them has passed its checks (R366). -/
def vectorAmo (old : Bool) (v fn : Nat) (i : Instr) (s : State) : Res :=
  onIssue s fun q =>
    let elem := fun (s : State) (n e : Nat) => amoElem s q old v fn (elemAddr s.strand q.cv q.slot q.mode.etype e i) n e
    let r := overAccess (fun t e => t.active q.mode q.vl e) (fun s e => elem s 0 e) (rangeFrom q.lo q.hi) s
    match r.issue.bind (·.halt) with
    | some (.send e os) =>
      if (rangeFrom 1 (q.cv.words.length + 1)).any fun j => j != q.slot && q.cv.sameSegment j q.slot then r
      else r.haltAt (.send e (amoAhead r q elem (rangeFrom (e + 1) q.vl) os))
    | _ => r

def execVamo (v xb vi fn : Nat) (s : State) : Res := vectorAmo false v fn (.vamo v xb vi fn) s
def execVamor (v xb vi fn : Nat) (s : State) : Res := vectorAmo true v fn (.vamor v xb vi fn) s

/-- Addresses of a block: codes and scale (R367). -/
def codesAddr (q : Issue) (i : Nat) : Nat := (q.cap 0 + BitVec.ofNat 64 (4 * i)).toNat
def scaleAddr (q : Issue) (i : Nat) : Nat := (q.cap 1 + BitVec.ofNat 64 i).toNat

/-- Blocks that VL and the guard admit, valid or not (R368, R369). -/
def admitsBlock (q : Issue) (t : Strand) (i : Nat) : Bool := decide (i < q.vl) && t.admits q.mode i

/-- VLDB4 (R368). -/
def execVldb4 (v _xb _xs : Nat) (s : State) : Res :=
  onIssue s fun q =>
    overAccess (admitsBlock q) (fun s i =>
      match readElem s q (s.me.core (i / 512)) i 14 v 1 2 (codesAddr q i) with
      | .halt h => .halt h
      | .value s c =>
        match readElem s q (s.me.core (i / 512)) i 14 v 1 0 (scaleAddr q i) with
        | .halt h => .halt h
        | .value s b => .next (s.onStrand fun t => t.setBlock v i c b)) (rangeFrom q.lo q.hi) s

/-- VSTB4 (R369). -/
def execVstb4 (v _xb _xs : Nat) (s : State) : Res :=
  onIssue s fun q =>
    overAccess (admitsBlock q) (fun s i =>
      match writeElem s q (s.me.core (i / 512)) i 2 (codesAddr q i) (s.strand.slot v i) with
      | .halt h => .halt h
      | .next s =>
        writeElem s q (s.me.core (i / 512)) i 0 (scaleAddr q i) (if s.strand.vvbit i then s.strand.slot (v + 1) i % 256 else 0xFF))
      (rangeFrom q.lo q.hi) s

end Sys2Proof.Machine
end

