-- ==== Sys2Proof/Machine/Matrix.lean ====
section
/-!
DEFINITION. The matrix words of a convoy (22 R394-R416) and the arithmetic of a step (12 R246-R248). A step, a record or a load of
B issues once its rows are checked; the Anvil then holds it, and BATCH_COMPLETE performs one row at a time, in issue order.
-/

namespace Sys2Proof.Machine

/-! ## Operands of a step (12 R246) -/

/-- An operand of a product: a number m × 2^e, a NaN or an infinity, or an element of an invalid block. -/
inductive MVal where
  | num (m e : Int)
  | nan
  | inv
  deriving DecidableEq, Repr

/-- A signed magnitude. -/
def signed (neg : Bool) (m : Nat) : Int := if neg then -(m : Int) else m

/-- The value of a stored element: its bits, for fp4 with the block scale from bit 16 on. -/
def matVal (ty raw : Nat) : MVal :=
  if ty = 0 then .num (max (-127) (toSigned 8 raw)) 0
  else if ty = 14 then
    match scaleOf (bits raw 23 16), fpOf 14 (raw % 16) with
    | some (sm, se), .fin neg m e => .num (signed neg (m * sm)) (e + se)
    | _, _ => .inv
  else match fpOf ty (raw % 2 ^ tyWidth ty) with
    | .fin neg m e => .num (signed neg m) e
    | _ => .nan

/-- An fp4 element under a band scale, given as BF16 bits; a scale that is not finite makes its block invalid (R235). -/
def underBand (ty scale : Nat) (v : MVal) : MVal :=
  if ty ≠ 14 then v
  else match v, fpOf 9 scale with
    | .num m e, .fin neg sm se => .num (m * signed neg sm) (e + se)
    | _, _ => .inv

/-- Magnitude bits W of an aligned operand; none: exact. -/
def alignWidth (ty : Nat) : Option Nat := if ty = 0 ∨ ty = 14 then none else some (if ty = 8 ∨ ty = 9 then 15 else 7)

/-- Least E for which an element rounds below 2^W. -/
def leastE (w : Nat) : MVal → Option Int
  | .num m e =>
    if m = 0 then none
    else
      let x : Int := e + bitLen m.natAbs - w
      some (if 2 ^ w ≤ (roundAt 0 false m.natAbs e x false).1 then x + 1 else x)
  | _ => none

/-- The block's elements aligned to one exponent, no lower than that of the smallest subnormal. -/
def alignBlock (ty : Nat) (vs : List MVal) : List MVal :=
  match alignWidth ty with
  | none => vs
  | some w =>
    let f := fmtOf ty
    let e := (vs.filterMap (leastE w)).foldl max (1 - (f.bias : Int) - f.mant)
    vs.map fun v => match v with
      | .num m x => .num (signed (decide (m < 0)) (roundAt 0 false m.natAbs x e false).1) e
      | _ => v

/-- A's elements from depth d on, aligned block by block; K-row k0 + d decides the block. -/
def alignRow (ty : Nat) : Nat → Nat → List MVal → List MVal
  | 0, _, _ => []
  | f + 1, krow, vs =>
    if vs.isEmpty then []
    else
      let n := 8 - krow % 8
      alignBlock ty (vs.take n) ++ alignRow ty f (krow + n) (vs.drop n)

/-- Whether an A format pairs with a B format (R403). -/
def pairs (a b : Nat) : Bool :=
  let fl := fun (t : Nat) => t == 14 || t == 12 || t == 13 || t == 8 || t == 9
  (a == 0 && b == 0) || (fl a && fl b)

/-! ## The exact sum and its roundings (R247, R248) -/

/-- An exact number m × 2^e. -/
abbrev Exact := Int × Int

def addScaled (a b : Exact) : Exact :=
  let e := min a.2 b.2
  (a.1 * 2 ^ (a.2 - e).toNat + b.1 * 2 ^ (b.2 - e).toNat, e)

def MVal.isNan : MVal → Bool
  | .nan => true
  | _ => false
def MVal.isInv : MVal → Bool
  | .inv => true
  | _ => false

/-- The exact sum of products; invalid operands contribute nothing. -/
def dot : List MVal → List MVal → Exact
  | .num m e :: as, .num n f :: bs => addScaled (m * n, e + f) (dot as bs)
  | _ :: as, _ :: bs => dot as bs
  | _, _ => (0, 0)

/-- s as fp32 bits. -/
def stepSum (as bs : List MVal) : Nat :=
  if as.any MVal.isNan || (bs.take as.length).any MVal.isNan then canonNaN 10
  else
    let r := dot as bs
    if r.1 = 0 then 0 else (roundFin 10 0 false (decide (r.1 < 0)) r.1.natAbs r.2 false).1

def accKey (m r c : Nat) : Nat := m * 32768 + r * 512 + c

/-- m(r, c) := round(m(r, c) + s). -/
def Anvil.add (a : Anvil) (m r c sum : Nat) : Anvil :=
  let k := accKey m r c
  { a with acc := tput 0 k (BitVec.ofNat 32 (fAdd 10 0 false (tget 0 a.acc k).toNat sum).1) a.acc }

/-- One row of A against the columns of B: each column a list of aligned weights. -/
def Anvil.stepRow (a : Anvil) (m r : Nat) (as : List MVal) (cols : List (List MVal)) : Anvil :=
  (List.range cols.length).foldl (fun a c => a.add m r c (stepSum as (nth [] cols c))) a

def Anvil.flag (a : Anvil) (i : Nat) (b : Bool) : Anvil := if b then { a with astat := setBit a.astat i true } else a
/-- ASTAT bits (R409). -/
def inv : Nat := 0
def clip : Nat := 1
def fmtBad : Nat := 2
def rdeny : Nat := 3

/-- A step meets an invalid block. -/
def meetsInv (as : List MVal) (cols : List (List MVal)) : Bool :=
  as.any MVal.isInv || cols.any fun c => (c.take as.length).any MVal.isInv

/-! ## Rows in memory (R400, R401) -/

/-- The bytes of a row, checked: where each part lies, or what stops it. -/
inductive Row where
  | parts (xs : List (Xlat × Nat))
  | waits
  | fault (c : Cause) (va : Nat)

/-- A byte of an A row or a record lies in an allocation of the gang on the Anvil's cluster (R401). -/
def ownVault (s : State) (w k pa : Nat) : Bool :=
  match place s pa with
  | .vault core off =>
    clusterOf core == engineOf s w k && match (s.gangOf w k).allocAt core with
      | some b => decide (b ≤ off) && decide (off < b + (s.gangOf w k).size)
      | none => false
  | _ => false

/-- One part of a row: at most a page. Its first byte and its last are checked. -/
def checkPart (s : State) (w k : Nat) (own : Bool) (p : Nat × Nat) : Except (Cause × Nat) (Xlat × Nat) :=
  let one := fun (va : Nat) =>
    match resolve s w k ((s.ctx w k).core 0) va .load with
    | .error c => Except.error (c, va)
    | .ok x =>
      match x.target with
      | .page _ _ _ => .error (.ctlvec, va)
      | .host _ | .peer _ _ => .error (.perm, va)
      | .mem pa =>
        if own && !ownVault s w k pa then .error (.vaultbound, va)
        else if !memReady s pa then .error (.memnr, va) else .ok x
  match one p.1, one ((p.1 + p.2 - 1) % 2 ^ 64) with
  | .ok x, .ok _ => .ok (x, p.2)
  | .error e, _ => .error e
  | _, .error e => .error e

/-- Runs of bytes, each in order; a walk may wait at a port (01 R27). -/
def checkRuns (s : State) (w k : Nat) (own : Bool) (runs : List (Nat × Nat)) : Row :=
  let ps := (runs.filter fun r => r.2 != 0).flatMap fun r => pagePieces r.1 r.2
  if ps.any fun p => xlatWaits s w k p.1 .load then .waits
  else match ps.foldl (fun r p =>
      match r with
      | .error e => .error e
      | .ok xs => match checkPart s w k own p with
        | .ok x => .ok (xs ++ [x])
        | .error e => .error e) (Except.ok []) with
  | .ok xs => .parts xs
  | .error e => .fault e.1 e.2

/-- An operand row of n elements: its alignment, then its bytes. -/
def checkRow (s : State) (w k : Nat) (own : Bool) (ty st base n : Nat) : Row :=
  if base % rowAlign ty ≠ 0 then .fault .misalign base else checkRuns s w k own (rowRuns ty st base n)

/-- A part waits at its port, or for an update of the strand (10 R193, 22 R415). -/
def partsWait (s : State) (w k : Nat) (xs : List (Xlat × Nat)) : Bool :=
  xs.any fun x => match x.1.target with
    | .mem pa => portBusy s pa x.2 || (s.ctx w k).strand.updating pa x.2
    | _ => false

/-- The bytes of checked parts; none: a line failed (05 R108). -/
def readParts (s : State) (w : Nat) : List (Xlat × Nat) → Option (List Byte)
  | [] => some []
  | x :: xs =>
    match x.1.target with
    | .mem pa =>
      if tagFails s (keySlot s w) pa x.2 then none
      else (readParts s w xs).map (readBytes s (keySlot s w) pa x.2 ++ ·)
    | _ => readParts s w xs

/-- Element c of a row of n elements from its bytes, as `matVal` takes it. -/
def rowElem (ty n : Nat) (bs : List Byte) (c : Nat) : Nat :=
  let at8 := fun i => (nth 0 bs i).toNat
  if ty = 14 then bits (at8 (c / 2)) (4 * (c % 2) + 3) (4 * (c % 2)) + at8 ((n + 1) / 2 + c / 8) * 2 ^ 16
  else if opWidth ty = 2 then at8 (2 * c) + 256 * at8 (2 * c + 1)
  else at8 c

def rowElems (ty n : Nat) (bs : List Byte) : List Nat := (List.range n).map (rowElem ty n bs)

/-- What a read of bytes or of a row answers. -/
inductive RowRead (α : Type) where
  | got (s : State) (x : α)
  | waits
  | fault (c : Cause) (va : Nat)

/-- Runs of bytes are checked and read. -/
def readRuns (s : State) (w k : Nat) (own : Bool) (runs : List (Nat × Nat)) : RowRead (List Byte) :=
  match checkRuns s w k own runs with
  | .waits => .waits
  | .fault c va => .fault c va
  | .parts xs =>
    if partsWait s w k xs then .waits
    else match readParts s w xs with
      | none => .fault .tagfail (runs.headD (0, 0)).1
      | some bs => .got (xs.foldl (fun s x => setAD s w x.1 .load) s) bs

/-- A row of n elements is checked and read. -/
def readRow (s : State) (w k : Nat) (own : Bool) (ty st base n : Nat) : RowRead (List Nat) :=
  if base % rowAlign ty ≠ 0 then .fault .misalign base
  else match readRuns s w k own (rowRuns ty st base n) with
    | .got s bs => .got s (rowElems ty n bs)
    | .waits => .waits
    | .fault c va => .fault c va

/-- The rows of a word are checked in ascending order before it issues (R400): what halts it. -/
def checkRows (s : State) (w k : Nat) (own : Bool) (ty st base n : Nat) (rs : List Nat) : Option Halt :=
  rs.findSome? fun r => match checkRow s w k own ty st (rowBase ty st base r) n with
    | .parts _ => none
    | .waits => some (.wait 0 0)
    | .fault c va => some (.fault c r 0 va)

/-- An fp4 stride that is no multiple of 8 is rounded down (R400). -/
def strideClips (ty st : Nat) : Bool := ty == 14 && st % 8 != 0

/-! ## The words -/

/-- A matrix word of a strand that was not attached, or of an accumulator in use, at the convoy's commit (R397, R408). -/
def onAnvil (s : State) (f : Issue → Anvil → State) : Res :=
  onIssue s fun q =>
    match s.strand.anvil with
    | some a => if q.cv.busy.contains q.slot then s.haltAt (.fault .accbusy 0 0 0) else f q a
    | none => s.haltAt (.fault .accbusy 0 0 0)

def State.putAnvil (s : State) (a : Anvil) : State := s.onStrand fun t => { t with anvil := some a }

/-- No weight is resident and no format latched. -/
def Anvil.clearB (a : Anvil) : Anvil := { a with b := [], fmt := none, nc := 0 }

def Anvil.loadRow (a : Anvil) (krow : Nat) (vs : List Nat) : Anvil :=
  { a with b := tputRun 0 (krow * 512) vs a.b }

/-- A stored element as its alignment leaves it (12 R246): an aligned value is one of its format. -/
def alignedRaw (ty raw : Nat) : MVal → Nat
  | .num m e => if ty = 0 then ofSigned 8 m else if ty = 14 then raw else (roundFin ty 0 false (decide (m < 0)) m.natAbs e false).1
  | _ => raw

/-- K-rows lo to hi of one K-block are aligned, column by column, as the last of them has been loaded (12 R246, R402). -/
def Anvil.alignRows (a : Anvil) (ty lo hi : Nat) : Anvil :=
  (List.range a.nc).foldl (fun a c =>
    let raws := (rangeFrom lo (hi + 1)).map fun r => tget 0 a.b (r * 512 + c)
    let vs := alignBlock ty (raws.map (matVal ty))
    (List.range raws.length).foldl (fun a i =>
      { a with b := tput 0 ((lo + i) * 512 + c) (alignedRaw ty (nth 0 raws i) (nth .nan vs i)) a.b }) a) a

/-! ## Operations that the Anvil holds (R416) -/

def MatOp.zero : MatOp :=
  { op := 0, place := 0, pc := 0, slot := 0, kind := 0, func := 0, xa := 0, xp := 0, done := 0, index := 0, rows := [], batch := 0
    words := [], bands := 0, loaded := false, b := [], rinv := false, live := true }

/-- What a virga entry and PROGRESS show of an operation: rows done, and the record index (R416). -/
def MatOp.progress (h : MatOp) : Nat := h.done + h.index * 2 ^ 16

def MatOp.params (h : MatOp) : Word := BitVec.ofNat 64 h.xp
def MatOp.etype (h : MatOp) : Nat := h.func / 16
def MatOp.acc (h : MatOp) : Nat := h.func % 16

/-- The batch of a word that issues now: the oldest whose MCOMMIT has still to close it (R405). -/
def Strand.batchNow (t : Strand) (a : Anvil) : Nat :=
  match a.done.find? fun b => !b.closed with
  | some b => b.id
  | none => (t.bno + 1) % 2 ^ 32

/-- An operation issues: it stands outstanding, the Anvil holds it, and its rows follow. -/
def holdMatrix (s : State) (q : Issue) (h : MatOp) : State :=
  match s.strand.anvil with
  | none => s
  | some a =>
    let h := { h with
      op := s.strand.opNext, pc := q.cv.addr, slot := q.slot, xp := (q.cap 1).toNat, batch := s.strand.batchNow a }
    let o : Op := { Op.zero with
      kind := h.kind, cls := 2, func := h.func, slot := h.slot, addr := h.xa, opnd := h.xp, tag := h.progress, pc := h.pc }
    let s := s.onStrand fun t => { t.addOp o with anvil := some { a with held := a.held ++ [h] } }
    if a.held.isEmpty then s.push .batchComplete [s.cur.1, s.cur.2] else s

/-- A word issues with its operation, if its rows pass and the record has room. -/
def issueMatrix (s : State) (q : Issue) (halt : Option Halt) (a : Anvil) (h : MatOp) : State :=
  match halt with
  | some x => s.haltAt x
  | none => if virgaRoom s s.cur.1 s.cur.2 1 then holdMatrix (s.putAnvil a) q h else s.haltAt (.wait 0 0)

/-- Columns that an MLDB loads (R402). -/
def loadCols (a : Anvil) (ty : Nat) (p : Word) : Nat := Nat.min (par3 p) (Nat.min 512 (a.grant * colsPerBand ty))

/-- MLDB (R402). -/
def execMldb (_xa _xp : Nat) (s : State) : Res :=
  onAnvil s fun q a =>
    let ty := q.mode.etype
    let p := q.cap 1
    let nc := loadCols a ty p
    let none_ := nc == 0 || par0 p == 0 || decide (256 ≤ par1 p)
    let rows := List.range (Nat.min (par0 p) (256 - par1 p))
    let a := (a.flag clip (strideClips ty (par2 p))).flag clip
      (decide (nc < par3 p) || none_ || decide (256 < par1 p + par0 p))
    if none_ then s.putAnvil a
    else issueMatrix s q (checkRows s s.cur.1 s.cur.2 false ty (par2 p) (q.cap 0).toNat nc rows) a
      { MatOp.zero with kind := 0x21, func := 16 * ty, xa := (q.cap 0).toNat, rows := rows }

/-- Weight (krow, c) of the resident B, as MLDB has aligned it. -/
def Anvil.weight (a : Anvil) (ty krow c : Nat) : MVal := matVal ty (tget 0 a.b (krow * 512 + c))

/-- The resident columns over D K-rows from k0. -/
def Anvil.columns (a : Anvil) (ty k0 d : Nat) : List (List MVal) :=
  (List.range a.nc).map fun c => (List.range d).map fun i => a.weight ty (k0 + i) c

/-- The rows that an MSTEP steps: below VL and 64, with the guard admitting them (R396). -/
def stepRows (t : Strand) (q : Issue) (top : Nat) : List Nat := (List.range top).filter (t.admits q.mode)

/-- K-rows that an MSTEP steps (R404). -/
def stepDepth (p : Word) : Nat := if 256 ≤ par1 p then 0 else Nat.min (par0 p) (256 - par1 p)

/-- MSTEP (R404). -/
def execMstep (m _xa _xp : Nat) (s : State) : Res :=
  onAnvil s fun q a =>
    let ty := q.mode.etype
    let p := q.cap 1
    let rows := if stepDepth p = 0 then [] else stepRows s.strand q (Nat.min q.vl 64)
    let clips := stepDepth p != par0 p || stepDepth p == 0 || (stepRows s.strand q q.vl).any (64 ≤ ·)
    issueMatrix s q (checkRows s s.cur.1 s.cur.2 true ty (par2 p) (q.cap 0).toNat (stepDepth p) rows)
      (a.flag clip (strideClips ty (par2 p)))
      { MatOp.zero with kind := 0x20, func := m + 16 * ty, xa := (q.cap 0).toNat, rows := rows, words := [clips.toNat] }

/-- MZERO (R410). -/
def execMzero (m : Nat) (s : State) : Res :=
  onAnvil s fun _ a => s.putAnvil { a with acc := terase (m * 32768) 32768 a.acc }

/-- Elements (e, row, column) of a transfer. -/
def transferElems (p : Word) : List (Nat × Nat × Nat) :=
  (List.range (clipRows p)).flatMap fun j => (List.range (clipCols p)).map fun c => (512 * j + c, par1 p + j, c)

def transferClips (p : Word) : Bool := clipRows p != par0 p || clipCols p != par3 p

/-- Every element of a transfer is checked before any is performed (R411): what halts the word. -/
def checkTransfer (s : State) (q : Issue) (acc : Acc) : Option Halt :=
  let w := s.cur.1
  let k := s.cur.2
  (transferElems (q.cap 1)).findSome? fun x =>
    let va := accAddr (q.cap 0) (q.cap 1) (x.1 / 512) x.2.2
    if walkBusy s w k va 4 acc then some (.wait 0 0)
    else match checkAccess s w k (s.me.core 0) { va := va, width := 4, acc := acc, vec := true, sd := none, locks := q.cv.locks } with
      | .error c => some (.fault c x.1 0 va)
      | .ok _ => none

/-- MRD (R411): every element is written or none, and the word retires once the writes have performed. -/
def execMrd (m _xa _xp : Nat) (s : State) : Res :=
  onAnvil s fun q a =>
    let p := q.cap 1
    match checkTransfer s q .store with
    | some h => s.haltAt h
    | none =>
    let r := overAccess (fun _ _ => true) (fun s e =>
      writeElem s q (s.me.core 0) e 2 (accAddr (q.cap 0) p (e / 512) (e % 512)) (tget 0 a.acc (accKey m (par1 p + e / 512) (e % 512))).toNat)
      ((transferElems p).map (·.1)) (s.putAnvil (a.flag clip (transferClips p)))
    if (match r.issue with | some x => x.halt.isNone | none => true) && storesHeld r s.cur.1 s.cur.2 then
      s.haltAt (.wait 0 0)
    else r

/-- MWR (R411): every element is read before the accumulator changes. -/
def execMwr (m _xa _xp : Nat) (s : State) : Res :=
  onAnvil s fun q a =>
    let p := q.cap 1
    match checkTransfer s q .load with
    | some h => s.haltAt h
    | none =>
    overAccess (fun _ _ => true) (fun s e =>
      match readElem s q (s.me.core 0) e 10 m 2 2 (accAddr (q.cap 0) p (e / 512) (e % 512)) with
      | .halt h => .halt h
      | .value s v => .next (s.onStrand fun t => t.setAcc m (par1 p * 512 + e) v))
      ((transferElems p).map (·.1)) (s.putAnvil (a.flag clip (transferClips p)))

/-- MCOMMIT (R405): waits while four committed batches are incomplete. An MWAIT may have waited for an empty batch. -/
def execMcommit (xd : Nat) (s : State) : Res :=
  onAnvil s fun q a =>
    if 4 ≤ (a.done.filter fun b => b.closed && !b.complete).length then s.haltAt (.wait 0 0)
    else match a.done.find? fun b => !b.closed with
      | none => s
      | some b =>
        ((s.onStrand fun t => (t.closeBatch.settle xd q.tok (BitVec.ofNat 64 b.id)).unhold).push .batchComplete [s.cur.1, s.cur.2]).push
          .waitSatisfied [s.cur.1, s.cur.2]

/-! ## Operand records (R412-R414) -/

/-- The doublewords 0x00 to 0x38 of a record. -/
structure Record where
  d : List Nat
  deriving DecidableEq, Repr

def Record.dw (r : Record) (i : Nat) : Nat := nth 0 r.d i
def Record.astride (r : Record) : Nat := bits (r.dw 0) 63 48
def Record.abase (r : Record) : Nat := sext48 (bits (r.dw 0) 47 0)
def Record.bstride (r : Record) : Nat := bits (r.dw 1) 63 48
def Record.bbase (r : Record) : Nat := sext48 (bits (r.dw 1) 47 0)
def Record.row0 (r : Record) : Nat := bits (r.dw 2) 53 48
def Record.rows (r : Record) : Nat := bits (r.dw 2) 45 40 + 1
def Record.bfmt (r : Record) : Nat := bits (r.dw 2) 39 36
def Record.afmt (r : Record) : Nat := bits (r.dw 2) 35 32
def Record.ncol (r : Record) : Nat := bits (r.dw 2) 25 16
def Record.depth (r : Record) : Nat := bits (r.dw 2) 15 0
def Record.tag (r : Record) : Nat := bits (r.dw 4) 27 16
def Record.ascale (r : Record) : Nat := bits (r.dw 4) 15 0
/-- Band scale of B for a K-row. -/
def Record.bscale (r : Record) (krow : Nat) : Nat := bits (r.dw 3) (16 * (krow / 64) + 15) (16 * (krow / 64))

/-- DETAIL of a record that is refused as RSTAT 3; 0: none (R413). -/
def Record.bad (r : Record) (rb : Nat) : Nat :=
  if bits (r.dw 2) 63 54 ≠ 0 ∨ bits (r.dw 2) 47 46 ≠ 0 ∨ bits (r.dw 2) 31 26 ≠ 0 ∨ bits (r.dw 4) 63 28 ≠ 0 ∨ r.dw 6 ≠ 0 ∨
      r.dw 7 ≠ 0 ∨ r.depth = 0 ∨ 256 < r.depth ∨ r.ncol = 0 ∨ 512 < r.ncol ∨ 64 < r.row0 + r.rows ∨
      (r.afmt = 14 ∧ r.astride % 8 ≠ 0) ∨ (r.bfmt = 14 ∧ r.bstride % 8 ≠ 0) then 8
  else if !pairs r.afmt r.bfmt then 7
  else if rb < (r.ncol + colsPerBand r.bfmt - 1) / colsPerBand r.bfmt then 6
  else 0

/-- The check of one page of B (R414): 0, or the DETAIL; none: a table line failed. -/
def pageDeny (s : State) (w k tag va : Nat) : Option Nat :=
  if !canonical va || inWindows va then some 3
  else match walk s w va 4 0 (s.ctx w k).root with
    | .error .tagfail => none
    | .error .memnr => some 4
    | .error _ => some 3
    | .ok l =>
      if l.tag ≠ tag then some 1
      else if Nat.land l.rights 1 = 0 then some 2
      else match targetOf s w (l.pa va) with
        | none => some 3
        | some (.mem pa) => if memReady s pa then some 0 else some 4
        | some _ => some 5

/-- The runs of bytes of B's rows. -/
def Record.bruns (r : Record) : List (Nat × Nat) :=
  (List.range r.depth).flatMap fun i =>
    (rowRuns r.bfmt r.bstride (rowBase r.bfmt r.bstride r.bbase i) r.ncol).flatMap fun x => pagePieces x.1 x.2

/-- The first failing page of B decides (R414). -/
def Record.deny (s : State) (w k : Nat) (r : Record) : Option Nat :=
  r.bruns.foldl (fun a p => match a with
    | some 0 => pageDeny s w k r.tag p.1
    | x => x) (some 0)

/-- The resident B is lost where the record bands meet its bands (R413). -/
def Anvil.meetBands (a : Anvil) (rb : Nat) : Anvil :=
  match a.fmt with
  | some f => if a.grant - rb < (a.nc + colsPerBand f - 1) / colsPerBand f then a.clearB else a
  | none => a

/-- The columns of a record's B over its depth, aligned, with band scales. -/
def Record.columns (r : Record) (rows : List (List Nat)) : List (List MVal) :=
  (List.range r.ncol).map fun c =>
    alignRow r.bfmt 33 0 ((List.range r.depth).map fun i =>
      underBand r.bfmt (r.bscale i) (matVal r.bfmt (nth 0 (nth [] rows i) c)))

/-- The records of an MSTEPR issue one after another (R413); the records before a halt stand. -/
def issueRecords (q : Issue) (m rb base : Nat) : List Nat → State → State
  | [], s => s
  | j :: js, s =>
    let w := s.cur.1
    let k := s.cur.2
    let wait := s.haltAt (.wait 0 (j * 2 ^ 16))
    match readRuns s w k true [((base + 64 * j) % 2 ^ 64, 64)] with
    | .waits => wait
    | .fault c va => s.haltAt (.fault c j (j * 2 ^ 16) va)
    | .got t bs =>
      let r : Record := { d := (List.range 8).map fun i => natOf ((bs.drop (8 * i)).take 8) }
      match (if tMat r.afmt then checkRows t w k true r.afmt r.astride r.abase r.depth (List.range r.rows) else none) with
      | some (.fault c _ _ va) => s.haltAt (.fault c j (j * 2 ^ 16) va)
      | some _ => wait
      | none =>
        if !virgaRoom s w k 1 then wait
        else issueRecords q m rb base js (holdMatrix t q { MatOp.zero with
          kind := 0x20, func := m + 16 * q.mode.etype, xa := base, index := j, rows := List.range r.rows, words := r.d, bands := rb })

/-- MSTEPR (R413). -/
def execMstepr (m _xa _xp : Nat) (s : State) : Res :=
  onAnvil s fun q a =>
    let base := (q.cap 0).toNat
    let rb0 := bits (q.cap 1).toNat 20 16
    let off := decide (rb0 = 0) || decide (a.grant < rb0)
    if base % 64 ≠ 0 then s.haltAt (.fault .misalign 0 0 base)
    else
      let js := (stepRows s.strand q q.vl).filter fun j => decide (q.cv.prog / 2 ^ 16 ≤ j)
      issueRecords q m (if off then a.grant else rb0) base js (s.putAnvil (a.flag clip off))

/-! ## Rows -/

/-- What a held operation does when its turn comes. -/
inductive Stepped where
  /-- It goes on: begun, or one row further. -/
  | more (s : State) (a : Anvil) (h : MatOp)
  /-- It is complete. -/
  | done (s : State) (a : Anvil)
  | waits
  | fault (c : Cause) (elem va : Nat)

/-- An operation has done a row. -/
def MatOp.rowDone (h : MatOp) : MatOp := { h with rows := h.rows.tail, done := h.done + 1 }

/-- A load of B (R402): its format and its columns are latched, then its rows are loaded. The rows of a K-block that the word loads
are aligned together, over themselves: what an earlier word has loaded of the block keeps its alignment (DEDUCED, assumption 43). -/
def loadStep (s : State) (w k : Nat) (a : Anvil) (h : MatOp) : Stepped :=
  let ty := h.etype
  let p := h.params
  let nc := loadCols a ty p
  if !h.loaded then
    .more s (if a.fmt = some ty ∧ a.nc = nc then a else { a with b := [], fmt := some ty, nc := nc }) { h with loaded := true }
  else match h.rows with
  | [] => .done s a
  | r :: _ =>
    match readRow s w k false ty (par2 p) (rowBase ty (par2 p) h.xa r) nc with
    | .waits => .waits
    | .fault c va => .fault c r va
    | .got s xs =>
      let krow := par1 p + r
      let a := a.loadRow krow xs
      .more s (if h.rows.length = 1 ∨ krow % 8 = 7 then a.alignRows ty (Nat.max (par1 p) (krow / 8 * 8)) krow else a) h.rowDone

/-- An MSTEP (R404): its format is held against the latched one, then its rows step. -/
def rowStep (s : State) (w k : Nat) (a : Anvil) (h : MatOp) : Stepped :=
  let ty := h.etype
  let p := h.params
  if !h.loaded then
    if (match a.fmt with | some f => pairs ty f | none => false) then
      .more s (a.flag clip (h.words != [0])) { h with loaded := true }
    else .done s (a.flag fmtBad true)
  else match h.rows with
  | [] => .done s a
  | r :: _ =>
    match readRow s w k true ty (par2 p) (rowBase ty (par2 p) h.xa r) (stepDepth p) with
    | .waits => .waits
    | .fault c va => .fault c r va
    | .got s xs =>
      let row := alignRow ty 33 (par1 p) (xs.map (matVal ty))
      let cols := a.columns (a.fmt.getD 0) (par1 p) (stepDepth p)
      .more s ((a.stepRow h.acc r row cols).flag inv (meetsInv row cols)) h.rowDone

/-- The rows of a record's B are read (R413). -/
def readB (w k : Nat) (r : Record) : List Nat → State → Tbl Nat → RowRead (Tbl Nat)
  | [], s, b => .got s b
  | i :: is, s, b =>
    match readRow s w k false r.bfmt r.bstride (rowBase r.bfmt r.bstride r.bbase i) r.ncol with
    | .waits => .waits
    | .fault c va => .fault c va
    | .got s xs => readB w k r is s (tputRun 0 (i * 512) xs b)

/-- The status doubleword is written, and the record is complete (R412, R413). The address was checked as a read: a leaf without W
does not stop this write (DESIGN CHOICE, assumption 82). -/
def endRecord (s : State) (w k : Nat) (a : Anvil) (h : MatOp) (status detail : Nat) (rinv : Bool) : Stepped :=
  match checkRuns s w k true [((h.xa + 64 * h.index) % 2 ^ 64, 64)] with
  | .waits => .waits
  | .fault c va => .fault c h.index va
  | .parts xs =>
    match xs with
    | ({ target := .mem pa, leaf := l }, _) :: _ =>
      if writeWaits s (pa + 0x28) 8 || granuleHeld s w k (pa + 0x28) 8 then .waits
      else .done (performWrite (setAD s w { target := .mem pa, leaf := l } .store) (keySlot s w) (pa + 0x28)
        (bytesOf 8 (status + detail * 256 + rinv.toNat * 2 ^ 16))) a
    | _ => .done s a

/-- A record (R413): it is refused, or denied, or its B is loaded into the record bands and its rows step. -/
def recordStep (s : State) (w k : Nat) (a : Anvil) (h : MatOp) : Stepped :=
  let r : Record := { d := h.words }
  if !h.loaded then
    if r.bad h.bands ≠ 0 then endRecord s w k (a.flag rdeny true) h 3 (r.bad h.bands) false
    else if r.bruns.any fun p => xlatWaits s w k p.1 .load then .waits
    else match r.deny s w k with
    | none => .fault .tagfail h.index r.bbase
    | some (d + 1) => endRecord s w k ((a.flag rdeny true).meetBands h.bands) h 2 (d + 1) false
    | some 0 =>
      match readB w k r (List.range r.depth) s [] with
      | .waits => .waits
      | .fault c va => .fault c h.index va
      | .got s b => .more s (a.meetBands h.bands) { h with loaded := true, b := b }
  else match h.rows with
  | [] => endRecord s w k a h 1 0 h.rinv
  | i :: _ =>
    match readRow s w k true r.afmt r.astride (rowBase r.afmt r.astride r.abase i) r.depth with
    | .waits => .waits
    | .fault c va => .fault c h.index va
    | .got s xs =>
      let row := alignRow r.afmt 33 0 (xs.map fun v => underBand r.afmt r.ascale (matVal r.afmt v))
      let cols := r.columns ((List.range r.depth).map fun d => (List.range r.ncol).map fun c => tget 0 h.b (d * 512 + c))
      let met := meetsInv row cols
      .more s ((a.stepRow h.acc (r.row0 + i) row cols).flag inv met) { h.rowDone with rinv := h.rinv || met }

def stepHeld (s : State) (w k : Nat) (a : Anvil) (h : MatOp) : Stepped :=
  if h.kind = 0x21 then loadStep s w k a h
  else if h.words.length = 8 then recordStep s w k a h
  else rowStep s w k a h

/-- Closed batches of which the Anvil holds no operation are complete (R405): their waiters are told. -/
def completeBatches (s : State) (w k : Nat) : State :=
  match (s.ctx w k).strand.anvil with
  | none => s
  | some a =>
    let over_ := fun (b : Batch) => b.closed && !b.complete && !(a.held.any fun h => h.batch == b.id)
    if a.done.any over_ then
      (s.modStrand w k fun t => { t.unhold with anvil := some { a with
        done := a.done.map fun (b : Batch) => if over_ b then { b with complete := true } else b } }).push .waitSatisfied [w, k]
    else s

/-- BATCH_COMPLETE w k (R405, R416): the oldest operation that the Anvil holds for the strand does its next row, or ends; batches
of which none is left are complete. -/
def batchComplete (s : State) (w k : Nat) : State :=
  match (s.ctx w k).strand.anvil with
  | none => s
  | some a =>
    match a.held with
    | [] => completeBatches s w k
    | h :: hs =>
      if !(s.ctx w k).state.live || !h.live then s
      else
        let next := fun (s : State) (f : Strand → Strand) (a : Anvil) (held : List MatOp) =>
          completeBatches ((s.modStrand w k fun t => { f t with anvil := some { a with held := held } }).push .batchComplete [w, k]) w k
        match stepHeld s w k a h with
        | .more s a h => next s (fun t => t.modOp h.op fun o => { o with tag := h.progress }) a (h :: hs)
        | .done s a => next s (fun t => t.dropOp h.op) a hs
        | .waits => park s (event .batchComplete [w, k])
        | .fault c e va =>
          takeFault s w k { cause := c, fslot := h.slot, fpc := h.pc, felem := e, progress := h.progress, faddr := va }

def execBatchComplete (s : State) : Res := .next (batchComplete s (s.arg 0) (s.arg 1))

end Sys2Proof.Machine
end

