-- ==== Sys2Proof/Machine/Varith.lean ====
section
/-!
DEFINITION. The vector words that compute on registers alone: arithmetic, comparison, conversion, moves, cross-element
words, reductions, element access, queue transfers, predicate words and FP4 quantisation (18 R327-R356, 12 R237-R245).
-/

namespace Sys2Proof.Machine

/-! ## Operands -/

/-- The second operand of element i: element i of vb, or bcast of the captured register (R327). -/
def opB (t : Strand) (q : Issue) (ty vb sx i : Nat) : Nat :=
  if sx = 1 then (q.cap 0).toNat % 2 ^ tyWidth ty else t.elem ty vb i

/-- `OP vd, va, vb` over the active elements, with the flags that it raises (R333). -/
def twoOp (vd va vb sx : Nat) (f : Mode → Nat → Nat → Nat × Nat) (s : State) : Res :=
  onIssue s fun q => overActive s q fun t i =>
    let ty := q.mode.etype
    let r := f q.mode (t.elem ty va i) (opB t q ty vb sx i)
    (t.setElem ty vd i r.1).raise r.2

/-- `OP vd, va` over the active elements (R335). -/
def oneOp (vd va : Nat) (f : Mode → Nat → Nat × Nat) (s : State) : Res :=
  onIssue s fun q => overActive s q fun t i =>
    let ty := q.mode.etype
    let r := f q.mode (t.elem ty va i)
    (t.setElem ty vd i r.1).raise r.2

/-- An exact integer result, or a floating operation. -/
def arith (fi : Int → Int → Int) (ff : Nat → Nat → Bool → Nat → Nat → Nat × Nat) (m : Mode) (a b : Nat) : Nat × Nat :=
  if tyInt m.etype then (intTo m.etype m.sat (fi (intOf m.etype a) (intOf m.etype b)), 0)
  else ff m.etype m.rm m.sat a b

/-! ## Functions of two operands (R333, R240, R241) -/

def vAdd : Mode → Nat → Nat → Nat × Nat := arith (· + ·) fAdd
def vSub : Mode → Nat → Nat → Nat × Nat := arith (· - ·) fSub
def vRsub (m : Mode) (a b : Nat) : Nat × Nat := vSub m b a
def vMul : Mode → Nat → Nat → Nat × Nat := arith (· * ·) fMul

/-- High half of the product. -/
def vMulh (m : Mode) (a b : Nat) : Nat × Nat :=
  (ofSigned (tyWidth m.etype) (intOf m.etype a * intOf m.etype b / 2 ^ tyWidth m.etype), 0)

/-- Quotient toward zero; a divisor of 0 gives all ones (R241). -/
def vDiv (m : Mode) (a b : Nat) : Nat × Nat :=
  if tyInt m.etype then
    let y := intOf m.etype b
    (if y = 0 then 2 ^ tyWidth m.etype - 1 else ofSigned (tyWidth m.etype) ((intOf m.etype a).tdiv y), 0)
  else fDiv m.etype m.rm m.sat a b

/-- Remainder with the dividend's sign; a divisor of 0 gives the dividend (R241). -/
def vRem (m : Mode) (a b : Nat) : Nat × Nat :=
  let y := intOf m.etype b
  (if y = 0 then a else ofSigned (tyWidth m.etype) ((intOf m.etype a).tmod y), 0)

def vMinMax (wantMax : Bool) (m : Mode) (a b : Nat) : Nat × Nat :=
  if tyInt m.etype then (if decide (intOf m.etype a < intOf m.etype b) != wantMax then a else b, 0)
  else fMinMax wantMax m.etype a b

def vAnd (_ : Mode) (a b : Nat) : Nat × Nat := (Nat.land a b, 0)
def vOr (_ : Mode) (a b : Nat) : Nat × Nat := (Nat.lor a b, 0)
def vXor (_ : Mode) (a b : Nat) : Nat × Nat := (Nat.xor a b, 0)

def vSll (m : Mode) (a b : Nat) : Nat × Nat :=
  (intTo m.etype m.sat (intOf m.etype a * 2 ^ (b % tyWidth m.etype)), 0)
def vSrl (m : Mode) (a b : Nat) : Nat × Nat := (a / 2 ^ (b % tyWidth m.etype), 0)
def vSra (m : Mode) (a b : Nat) : Nat × Nat :=
  (ofSigned (tyWidth m.etype) (toSigned (tyWidth m.etype) a / 2 ^ (b % tyWidth m.etype)), 0)

/-- The magnitude bits of a under the sign of b. -/
def vSgnj (m : Mode) (a b : Nat) : Nat × Nat :=
  (setBit a (tyWidth m.etype - 1) (bit b (tyWidth m.etype - 1)), 0)

/-- round(a × 2^n); beyond 8,192 either way no format tells n apart. -/
def vScale (m : Mode) (a : Nat) (n : Int) : Nat × Nat :=
  match fpOf m.etype a with
  | .nan sig => nanOut m.etype sig
  | .inf _ => (a, 0)
  | .fin neg mag e => if mag = 0 then (a, 0) else roundFin m.etype m.rm m.sat neg mag (e + max (-8192) (min 8192 n)) false

def execVadd (vd va vb sx : Nat) (s : State) : Res := twoOp vd va vb sx vAdd s
def execVsub (vd va vb sx : Nat) (s : State) : Res := twoOp vd va vb sx vSub s
def execVrsub (vd va vb sx : Nat) (s : State) : Res := twoOp vd va vb sx vRsub s
def execVmul (vd va vb sx : Nat) (s : State) : Res := twoOp vd va vb sx vMul s
def execVmulh (vd va vb sx : Nat) (s : State) : Res := twoOp vd va vb sx vMulh s
def execVdiv (vd va vb sx : Nat) (s : State) : Res := twoOp vd va vb sx vDiv s
def execVrem (vd va vb sx : Nat) (s : State) : Res := twoOp vd va vb sx vRem s
def execVmin (vd va vb sx : Nat) (s : State) : Res := twoOp vd va vb sx (vMinMax false) s
def execVmax (vd va vb sx : Nat) (s : State) : Res := twoOp vd va vb sx (vMinMax true) s
def execVand (vd va vb sx : Nat) (s : State) : Res := twoOp vd va vb sx vAnd s
def execVor (vd va vb sx : Nat) (s : State) : Res := twoOp vd va vb sx vOr s
def execVxor (vd va vb sx : Nat) (s : State) : Res := twoOp vd va vb sx vXor s
def execVsll (vd va vb sx : Nat) (s : State) : Res := twoOp vd va vb sx vSll s
def execVsrl (vd va vb sx : Nat) (s : State) : Res := twoOp vd va vb sx vSrl s
def execVsra (vd va vb sx : Nat) (s : State) : Res := twoOp vd va vb sx vSra s
def execVsgnj (vd va vb sx : Nat) (s : State) : Res := twoOp vd va vb sx vSgnj s

/-- VSCALE (R333): the scale is the element bits of vb as a signed number, or the whole captured register. -/
def execVscale (vd va vb sx : Nat) (s : State) : Res :=
  onIssue s fun q => overActive s q fun t i =>
    let ty := q.mode.etype
    let n := if sx = 1 then (q.cap 0).toInt else toSigned (tyWidth ty) (t.elem ty vb i)
    let r := vScale q.mode (t.elem ty va i) n
    (t.setElem ty vd i r.1).raise r.2

/-! ## Fused multiply-add (R334) -/

/-- vd is both the addend and the destination; np and nc negate the product and the addend. -/
def fused (np nc : Bool) (vd va vb sx : Nat) (s : State) : Res :=
  onIssue s fun q => overActive s q fun t i =>
    let ty := q.mode.etype
    let r := fFma ty q.mode.rm q.mode.sat np nc (t.elem ty va i) (opB t q ty vb sx i) (t.elem ty vd i)
    (t.setElem ty vd i r.1).raise r.2

def execVfma (vd va vb sx : Nat) (s : State) : Res := fused false false vd va vb sx s
def execVfms (vd va vb sx : Nat) (s : State) : Res := fused false true vd va vb sx s
def execVfnma (vd va vb sx : Nat) (s : State) : Res := fused true true vd va vb sx s
def execVfnms (vd va vb sx : Nat) (s : State) : Res := fused true false vd va vb sx s

/-! ## One operand (R335) -/

def vAbs (m : Mode) (a : Nat) : Nat × Nat :=
  if tyFloat m.etype then (setBit a (tyWidth m.etype - 1) false, 0)
  else (intTo m.etype m.sat ((intOf m.etype a).natAbs : Int), 0)

def vNeg (m : Mode) (a : Nat) : Nat × Nat :=
  if tyFloat m.etype then (setBit a (tyWidth m.etype - 1) (!bit a (tyWidth m.etype - 1)), 0)
  else (intTo m.etype m.sat (0 - intOf m.etype a), 0)

/-- The class of a floating number: one bit. -/
def vClass (m : Mode) (a : Nat) : Nat × Nat :=
  let f := fmtOf m.etype
  let normal := decide (2 ^ f.mant ≤ a % 2 ^ (f.mant + f.expo))
  (2 ^ (match fpOf m.etype a with
    | .inf neg => if neg then 0 else 7
    | .nan sig => if sig then 8 else 9
    | .fin neg mag _ =>
      if mag = 0 then (if neg then 3 else 4)
      else if normal then (if neg then 1 else 6)
      else if neg then 2 else 5), 0)

def vClz (m : Mode) (a : Nat) : Nat × Nat := (tyWidth m.etype - bitLen a, 0)

/-- Number of set bits among the low n. -/
def popCount (n a : Nat) : Nat := ((List.range n).filter (bit a)).length

def execVabs (vd va : Nat) (s : State) : Res := oneOp vd va vAbs s
def execVneg (vd va : Nat) (s : State) : Res := oneOp vd va vNeg s
def execVsqrt (vd va : Nat) (s : State) : Res := oneOp vd va (fun m a => fSqrt m.etype m.rm m.sat a) s
def execVclass (vd va : Nat) (s : State) : Res := oneOp vd va vClass s
def execVclz (vd va : Nat) (s : State) : Res := oneOp vd va vClz s
def execVpopcnt (vd va : Nat) (s : State) : Res := oneOp vd va (fun m a => (popCount (tyWidth m.etype) a, 0)) s

/-! ## Comparison (R336) -/

/-- Integer comparison by number: EQ, NE, LT, LE, GT, GE. -/
def iCompare (op : Nat) (a b : Int) : Bool :=
  match op with
  | 0 => a == b | 1 => a != b | 2 => decide (a < b) | 3 => decide (a ≤ b) | 4 => decide (b < a) | _ => decide (b ≤ a)

def compare (op pd va vb sx : Nat) (s : State) : Res :=
  onIssue s fun q => overActive s q fun t i =>
    let ty := q.mode.etype
    let a := t.elem ty va i
    let b := opB t q ty vb sx i
    if tyInt ty then t.setP pd i (iCompare op (intOf ty a) (intOf ty b))
    else
      let r := fCompare op ty a b
      (t.setP pd i r.1).raise r.2

def execVcmpeq (pd va vb sx : Nat) (s : State) : Res := compare 0 pd va vb sx s
def execVcmpne (pd va vb sx : Nat) (s : State) : Res := compare 1 pd va vb sx s
def execVcmplt (pd va vb sx : Nat) (s : State) : Res := compare 2 pd va vb sx s
def execVcmple (pd va vb sx : Nat) (s : State) : Res := compare 3 pd va vb sx s
def execVcmpgt (pd va vb sx : Nat) (s : State) : Res := compare 4 pd va vb sx s
def execVcmpge (pd va vb sx : Nat) (s : State) : Res := compare 5 pd va vb sx s
def execVcmpuo (pd va vb sx : Nat) (s : State) : Res := compare 6 pd va vb sx s

/-! ## Conversion and moves (R337-R340) -/

/-- From one type to another. -/
def convert (src : Nat) (m : Mode) (v : Nat) : Nat × Nat :=
  if src = m.etype then (v, 0)
  else match tyInt src, tyInt m.etype with
    | true, true => (intTo m.etype m.sat (intOf src v), 0)
    | true, false => intToF src m.etype m.rm m.sat v
    | false, true => fToInt src m.etype m.rm v
    | false, false => fToF src m.etype m.rm m.sat v

def execVcvt (vd va ty : Nat) (s : State) : Res :=
  onIssue s fun q => overActive s q fun t i =>
    let r := convert ty q.mode (t.elem ty va i)
    (t.setElem q.mode.etype vd i r.1).raise r.2

/-- VMV vd, va: for fp4 both slots of the pair, and vv is left as it is. -/
def execVmvV (vd va : Nat) (s : State) : Res :=
  onIssue s fun q => overActive s q fun t i =>
    if q.mode.etype = 14 then
      let lo := t.slot va i
      let hi := t.slot (va + 1) i
      (t.setSlot vd i lo).setSlot (vd + 1) i hi
    else t.setElem q.mode.etype vd i (t.elem q.mode.etype va i)

/-- VMV vd, xs. -/
def execVmvX (vd _xs : Nat) (s : State) : Res :=
  onIssue s fun q => overActive s q fun t i =>
    t.setElem q.mode.etype vd i ((q.cap 0).toNat % 2 ^ tyWidth q.mode.etype)

/-- VMERGE (R339): the guard selects, and every element below VL is written. -/
def execVmerge (vd va vb sx : Nat) (s : State) : Res :=
  onIssue s fun q => overElems s q (fun _ i => decide (i < q.vl)) fun t i =>
    let ty := q.mode.etype
    t.setElem ty vd i (if t.admits q.mode i then t.elem ty va i else opB t q ty vb sx i)

/-- VID (R340). -/
def execVid (vd : Nat) (s : State) : Res :=
  onIssue s fun q => overActive s q fun t i => t.setElem q.mode.etype vd i (i % 2 ^ tyWidth q.mode.etype)

/-! ## Cross-element words: every element is read before any is written (R328) -/

/-- Write element i := f i for the active elements, f reading the strand as it was. -/
def gather (s : State) (q : Issue) (vd : Nat) (f : Strand → Nat → Option Nat) : State :=
  let t0 := s.strand
  overActive s q fun t i => match f t0 i with | some v => t.setElem q.mode.etype vd i v | none => t

/-- Active elements with bit j of a predicate set, below i. -/
def countBelow (t : Strand) (q : Issue) (pa i : Nat) : Nat :=
  ((List.range i).filter fun j => t.active q.mode q.vl j && t.pbit pa j).length

/-- VIOTA (R341). -/
def execViota (vd pa : Nat) (s : State) : Res :=
  onIssue s fun q => gather s q vd fun t i => some (countBelow t q pa i % 2 ^ tyWidth q.mode.etype)

/-- The active elements of slice t, in order. -/
def sliceActive (t : Strand) (q : Issue) (sl : Nat) : List Nat :=
  (rangeFrom (512 * sl) (Nat.min q.vl (512 * sl + 512))).filter (t.active q.mode q.vl)

/-- Write a run of values to elements from i on. -/
def Strand.setRun (t : Strand) (ty vd : Nat) : Nat → List Nat → Strand
  | _, [] => t
  | i, v :: vs => (t.setElem ty vd i v).setRun ty vd (i + 1) vs

/-- VCOMPRESS (R342). -/
def execVcompress (vd va : Nat) (s : State) : Res :=
  onIssue s fun q =>
    let t0 := s.strand
    let ty := q.mode.etype
    s.onStrand fun t => (List.range ((q.vl + 511) / 512)).foldl (fun t sl =>
      t.setRun ty vd (512 * sl) ((sliceActive t0 q sl).map fun i => t0.elem ty va i)) t

/-- VSLIDEUP (R343). -/
def execVslideup (vd va _xs : Nat) (s : State) : Res :=
  onIssue s fun q => gather s q vd fun t i =>
    let k := (q.cap 0).toNat
    if k ≤ i % 512 then some (t.elem q.mode.etype va (i - k)) else none

/-- VSLIDEDN (R343). -/
def execVslidedn (vd va _xs : Nat) (s : State) : Res :=
  onIssue s fun q => gather s q vd fun t i =>
    let j := i + (q.cap 0).toNat
    some (if j < Nat.min q.vl (i / 512 * 512 + 512) then t.elem q.mode.etype va j else 0)

/-- VPERM (R344): an index that leaves the slice faults PERMX, and nothing is written. -/
def execVperm (vd va vb : Nat) (s : State) : Res :=
  onIssue s fun q =>
    let t0 := s.strand
    let far := fun i => t0.active q.mode q.vl i && decide (t0.slot vb i < q.vl) && t0.slot vb i / 512 != i / 512
    match (List.range q.vl).find? far with
    | some i => s.haltAt (.fault .permx i 0 0)
    | none => gather s q vd fun t i =>
        some (if q.vl ≤ t.slot vb i then 0 else t.elem q.mode.etype va (t.slot vb i))

/-- VXCHG (R345). -/
def execVxchg (vd va _xs : Nat) (s : State) : Res :=
  onIssue s fun q => gather s q vd fun t i =>
    let j := Nat.xor i (512 * ((q.cap 0).toNat % 2 ^ s.me.span))
    some (if j < s.me.mvl then t.elem q.mode.etype va j else 0)

/-! ## Reductions (R346, 12 R243-R245) -/

/-- The fixed tree over 2^k elements from lo: the value, if any element is active, and the flags. -/
def redTree (n : Nat) (act : Nat → Bool) (el : Nat → Nat) (f : Nat → Nat → Nat × Nat) : Nat → Nat → Option Nat × Nat
  | 0, lo => (if act lo then some (el lo) else none, 0)
  | k + 1, lo =>
    if n ≤ lo then (none, 0)
    else
      let a := redTree n act el f k lo
      let b := redTree n act el f k (lo + 2 ^ k)
      match a.1, b.1 with
      | none, _ => (b.1, Nat.lor a.2 b.2)
      | _, none => (a.1, Nat.lor a.2 b.2)
      | some x, some y => let r := f x y; (some r.1, Nat.lor r.2 (Nat.lor a.2 b.2))

/-- The seed: element 0 of vb, or bcast of the captured register. -/
def reduce (f : Mode → Nat → Nat → Nat × Nat) (vd va vb sx : Nat) (s : State) : Res :=
  onIssue s fun q =>
    let t := s.strand
    let ty := q.mode.etype
    let seed := opB t q ty vb sx 0
    let r := redTree q.vl (t.active q.mode q.vl) (t.elem ty va) (f q.mode) 16 0
    let v := match r.1 with | none => (seed, 0) | some x => f q.mode x seed
    s.onStrand fun t => (t.setElem ty vd 0 v.1).raise (Nat.lor r.2 v.2)

def execVredsum (vd va vb sx : Nat) (s : State) : Res := reduce vAdd vd va vb sx s
def execVredmax (vd va vb sx : Nat) (s : State) : Res := reduce (vMinMax true) vd va vb sx s
def execVredmin (vd va vb sx : Nat) (s : State) : Res := reduce (vMinMax false) vd va vb sx s
def execVredand (vd va vb sx : Nat) (s : State) : Res := reduce vAnd vd va vb sx s
def execVredor (vd va vb sx : Nat) (s : State) : Res := reduce vOr vd va vb sx s
def execVredxor (vd va vb sx : Nat) (s : State) : Res := reduce vXor vd va vb sx s

/-- VFREDOSUM (12 R245). -/
def execVfredosum (vd va vb sx : Nat) (s : State) : Res :=
  onIssue s fun q =>
    let t := s.strand
    let ty := q.mode.etype
    let r := ((List.range q.vl).filter (t.active q.mode q.vl)).foldl (fun (a : Nat × Nat) i =>
      let x := fAdd ty q.mode.rm q.mode.sat a.1 (t.elem ty va i)
      (x.1, Nat.lor a.2 x.2)) (opB t q ty vb sx 0, 0)
    s.onStrand fun t => (t.setElem ty vd 0 r.1).raise r.2

/-! ## Element access and queue registers (R347-R349) -/

/-- An element as a doubleword: sign-extended for the signed integer types, zero-extended otherwise. -/
def extElem (ty v : Nat) : Word := if tySigned ty then sext (tyWidth ty) v else BitVec.ofNat 64 v

/-- VEXT (R347). -/
def execVext (xd va _xs : Nat) (s : State) : Res :=
  onIssue s fun q =>
    let j := (q.cap 0).toNat
    let ty := q.mode.etype
    let v := if s.me.mvl ≤ j then 0 else extElem ty (s.strand.elem ty va j)
    s.onStrand fun t => (t.settle xd q.tok v).unhold

/-- VINS (R348). -/
def execVins (vd _xi _xs : Nat) (s : State) : Res :=
  onIssue s fun q => overActive s q fun t i =>
    if i = (q.cap 0).toNat then t.setElem q.mode.etype vd i ((q.cap 1).toNat % 2 ^ tyWidth q.mode.etype) else t

/-- VQRECV (R349): waits while the queue register is empty; removes one entry in every case. -/
def execVqrecv (vd n : Nat) (s : State) : Res :=
  onIssue s fun q =>
    match s.strand.qget n with
    | [] => s.haltAt (.wait 0 0)
    | e :: r =>
      let s := overActive s q fun t i => t.setElem q.mode.etype vd i (e.toNat % 2 ^ tyWidth q.mode.etype)
      s.onStrand fun t => (t.qput n r).unhold

/-- VQSEND (R349): waits while the queue register is full; sends element 0 in every case. -/
def execVqsend (n va : Nat) (s : State) : Res :=
  onIssue s fun q =>
    if 16 ≤ (s.strand.qget n).length then s.haltAt (.wait 0 0)
    else
      let e := extElem q.mode.etype (s.strand.elem q.mode.etype va 0)
      s.onStrand fun t => (t.qput n (t.qget n ++ [e])).unhold

/-! ## Predicate words (R351-R354) -/

def predOp (pd pa pb : Nat) (f : Bool → Bool → Bool) (s : State) : Res :=
  onIssue s fun q => overActive s q fun t i => t.setP pd i (f (t.pbit pa i) (t.pbit pb i))

def execPand (pd pa pb : Nat) (s : State) : Res := predOp pd pa pb (fun a b => a && b) s
def execPor (pd pa pb : Nat) (s : State) : Res := predOp pd pa pb (fun a b => a || b) s
def execPxor (pd pa pb : Nat) (s : State) : Res := predOp pd pa pb (fun a b => a != b) s
def execPandn (pd pa pb : Nat) (s : State) : Res := predOp pd pa pb (fun a b => a && !b) s
def execPnot (pd pa : Nat) (s : State) : Res := predOp pd pa pa (fun a _ => !a) s
def execPset (pd : Nat) (s : State) : Res := predOp pd pd pd (fun _ _ => true) s
def execPclr (pd : Nat) (s : State) : Res := predOp pd pd pd (fun _ _ => false) s

/-- PFIRST (R352): a cross-element word. -/
def execPfirst (pd pa : Nat) (s : State) : Res :=
  onIssue s fun q =>
    let t0 := s.strand
    let j := (List.range q.vl).find? fun i => t0.active q.mode q.vl i && t0.pbit pa i
    let act := (List.range q.vl).filter (t0.active q.mode q.vl)
    s.onStrand fun t => act.foldl (fun t i => t.setP pd i (j == some i)) t

/-- VPOPC with an x destination (R353). -/
def execVpopcX (xd pa : Nat) (s : State) : Res :=
  onIssue s fun q => s.onStrand fun t => (t.settle xd q.tok (BitVec.ofNat 64 (countBelow t q pa q.vl))).unhold

/-- VPOPC with a length queue destination (R353, 09 R169): waits while the queue holds eight entries. -/
def execVpopcLq (n pa : Nat) (s : State) : Res :=
  onIssue s fun q =>
    if 8 ≤ (s.strand.lqget n).length then s.haltAt (.wait 0 0)
    else s.onStrand fun t => (t.lqput n (t.lqget n ++ [countBelow t q pa q.vl])).unhold

/-- PMOVV (R354). -/
def execPmovv (vd pa : Nat) (s : State) : Res :=
  onIssue s fun q => overActive s q fun t i => t.setElem q.mode.etype vd i (t.pbit pa i).toNat

/-- VMOVP (R354). -/
def execVmovp (pd va : Nat) (s : State) : Res :=
  onIssue s fun q => overActive s q fun t i => t.setP pd i (t.elem q.mode.etype va i != 0)

/-! ## FP4 quantisation (R355, R356) -/

/-- a × 2^e at most b × 2^f. -/
def leScaled (a : Nat) (e : Int) (b : Nat) (f : Int) : Bool :=
  decide (a * 2 ^ (e - min e f).toNat ≤ b * 2 ^ (f - min e f).toNat)

/-- The least scale byte from 0x01 on that reaches m × 2^e at code 6, or 0xFE. -/
def blockScale (m : Nat) (e : Int) : Nat :=
  ((rangeFrom 1 0xFF).find? fun b => match scaleOf b with
    | some (sm, se) => leScaled m e (6 * sm) se
    | none => false).getD 0xFE

/-- One code: round(x / scale) as FP4, with its flags. -/
def quantise (rm : Nat) (sm : Nat) (se : Int) (x : Fp) : Nat × Nat :=
  match x with
  | .fin neg m e =>
    let k := 80 + bitLen sm
    roundFin 14 rm false neg (m * 2 ^ k / sm) (e - se - k) (m * 2 ^ k % sm != 0)
  | _ => (0, 0)

/-- A block of eight fp32 numbers: codes, scale, validity and flags. -/
def quantBlock (rm : Nat) (xs : List Nat) : Nat × Nat × Bool × Nat :=
  let ps := xs.map (fpOf 10)
  if ps.any fun p => match p with | .fin .. => false | _ => true then (0, 0xFF, false, NV)
  else
    let amax := (xs.map (· % 2 ^ 31)).foldl Nat.max 0
    let sc := match fpOf 10 amax with | .fin _ m e => blockScale m e | _ => 0xFE
    match scaleOf sc with
    | none => (0, 0xFF, false, NV)
    | some (sm, se) =>
      let cs := ps.map (quantise rm sm se)
      ((List.range 8).foldl (fun a j => a + (nth (0, 0) cs j).1 * 16 ^ j) 0, sc, true,
        cs.foldl (fun a c => Nat.lor a c.2) 0)

/-- VQNT4 (R355): whatever vv holds, since the word sets it. -/
def execVqnt4 (vd vs : Nat) (s : State) : Res :=
  onIssue s fun q => overElems s q (fun t i => decide (i < q.vl) && t.admits q.mode i) fun t i =>
    let b := quantBlock q.mode.rm ((List.range 8).map fun j => t.slot (vs + j) i)
    ((((t.setSlot vd i b.1).setSlot (vd + 1) i b.2.1).setVv i b.2.2.1).raise b.2.2.2)

/-- The fp32 bits of a code under a scale: exact (12 R235). -/
def dequant (code sm : Nat) (se : Int) : Nat :=
  match fpOf 14 code with
  | .fin neg m e => (roundFin 10 0 false neg (m * sm) (e + se) false).1
  | _ => 0

/-- VDQ4 (R356): a block whose scale is the NaN scale is invalid and writes nothing. -/
def execVdq4 (vd vs : Nat) (s : State) : Res :=
  onIssue s fun q => overActive s q fun t i =>
    let codes := t.slot vs i
    match scaleOf (t.slot (vs + 1) i % 256) with
    | none => t
    | some (sm, se) => (List.range 8).foldl (fun t j => t.setSlot (vd + j) i (dequant (bits codes (4 * j + 3) (4 * j)) sm se)) t

end Sys2Proof.Machine
end

