-- ==== Sys2Proof/Machine/Vcopy.lean ====
section
/-!
DEFINITION. The VM words that hand work to the copy engine: COPY, COPYC, COPYS, RROT and CMDB (21 R376-R387). A chunk
stands outstanding from its issue; CHUNK_COMPLETE performs it.
-/

namespace Sys2Proof.Machine

/-! ## The copy of a word -/

/-- The copy that a word goes on with: its own, or one that replay has rebuilt for it (R381). -/
def Strand.copyOf (t : Strand) (q : Issue) (op5 reg : Nat) : Option Copy :=
  (t.copies.find? fun c => c.id == q.tok).or (t.copies.find? fun c => !c.issued && c.op5 == op5 && c.reg == reg)

/-- The word's copy stands in the strand. -/
def Strand.beginCopy (t : Strand) (q : Issue) (op5 reg : Nat) : Strand :=
  match t.copyOf q op5 reg with
  | some _ => t
  | none => { t with copies := t.copies ++
      [{ id := q.tok, op5 := op5, reg := reg, status := 0, sidx := 0, issued := false }] }

/-- Every chunk of the word has been issued (R380). -/
def Strand.issuedCopy (t : Strand) (id : Nat) : Strand :=
  ({ t with copies := t.copies.map fun (c : Copy) => if c.id = id then { c with issued := true } else c }).endCopy id

/-- The name of the word's copy. -/
def Strand.copyId (t : Strand) (q : Issue) (op5 reg : Nat) : Nat :=
  match t.copyOf q op5 reg with
  | some c => c.id
  | none => q.tok

/-- The copy has begun, or the record has room for it (08 R150). -/
def copyRoom (s : State) (id : Nat) : Bool :=
  (s.strand.copies.any fun c => c.id == id) || virgaRoom s s.cur.1 s.cur.2 1

/-- A chunk that ends at its issue, with a status and no access. -/
def failChunk (s : State) (q : Issue) (kind op5 reg group i status : Nat) : Elem :=
  let w := s.cur.1
  let k := s.cur.2
  if !copyRoom s group then .halt (.wait i 0)
  else
  let s := s.onStrand fun t => t.beginCopy q op5 reg
  .next <| endChunk s w k { Op.zero with id := s.strand.opNext, kind := kind, func := op5, reg := reg, idx := i, group := group }
    (if (s.engine w (engineOf s w k)).efrozen then 16 else status)

/-- Chunk i issues (R379): its lock test, then its place among the outstanding operations. -/
def issueChunk (s : State) (q : Issue) (kind op5 reg group i src dst len : Nat) : Elem :=
  if meets dst len q.cv.locks then .halt (.fault .opbusy i 0 dst)
  else if !virgaRoom s s.cur.1 s.cur.2 1 then .halt (.wait i 0)
  else
    let id := s.strand.opNext
    let o : Op := { Op.zero with
      kind := kind, func := op5, reg := reg, elem := i, slot := q.slot, addr := src, opnd := dst, len := len, idx := i
      group := group, pc := q.cv.addr }
    .next ((s.onStrand fun t => (t.beginCopy q op5 reg).addOp o).push .chunkComplete [s.cur.1, s.cur.2, id])

/-- The elements of a copy word, and the end of its issue. The copy begins with its first chunk. A word whose elements all lie
before the resume point is complete. -/
def copyElems (q : Issue) (op5 reg : Nat) (f : Nat → State → Nat → Elem) (s : State) : State :=
  if 0 < q.lo ∧ q.vl ≤ q.lo then s
  else
    let id := s.strand.copyId q op5 reg
    let s := overAccess (fun t i => t.active q.mode q.vl i) (f id) (rangeFrom q.lo q.hi) s
    if q.hi == q.vl && (match s.issue with | some x => x.halt.isNone | none => true) then
      s.onStrand fun t => (t.beginCopy q op5 reg).issuedCopy id
    else s

/-- COPY, COPYC and COPYS (R379, R380). -/
def copyWord (op5 reg len : Nat) (stride : Word) (s : State) : Res :=
  onIssue s fun q => copyElems q op5 reg (fun id s i =>
    let s := if op5 = 0x0A then s.onStrand fun t => t.setP reg i false else s
    if len = 0 ∨ 65536 < len then failChunk s q 4 op5 reg id i 1
    else issueChunk s q 4 op5 reg id i (q.cap 1 + BitVec.ofNat 64 i * stride).toNat
      (q.cap 0 + BitVec.ofNat 64 (i * len)).toNat len) s

/-- Captured operand j of the word in the latch. -/
def capNow (s : State) (j : Nat) : Word := match s.issue with | some q => q.cap j | none => 0

def execCopy (xt _xd _xs _xn : Nat) (s : State) : Res := copyWord 0x09 xt (capNow s 2).toNat (capNow s 2) s
def execCopyc (pk _xd _xs _xn : Nat) (s : State) : Res := copyWord 0x0A pk (capNow s 2).toNat (capNow s 2) s

/-- COPYS: the length is the low word of x[xq], the stride its signed high word. -/
def execCopys (xt _xd _xs _xq : Nat) (s : State) : Res :=
  let p := (capNow s 2).toNat
  copyWord 0x0B xt (bits p 31 0) (sext 32 (bits p 63 32)) s

/-! ## RROT (R383) -/

/-- The cores of the strand's cluster that hold an allocation of its gang, 0 to 7 in ascending order. -/
def ringOf (s : State) (w k : Nat) : List Nat :=
  (List.range 8).filter fun j => ((s.gangOf w k).allocAt ((s.ctx w k).core 0 / 8 * 8 + j)).isSome

/-- The next core of the ring. -/
def successor (ring : List Nat) (j : Nat) : Nat :=
  match ring.find? (j < ·) with
  | some x => x
  | none => ring.headD j

/-- Address of an offset on core j through the own-cluster window (10 R182). -/
def clusterVa (j off : Nat) : Nat := (0xFFFFF10000000000 + j * 0x400000 + off) % 2 ^ 64

/-- RROT: all its transfers form one step, which follows the issue of the last of them. -/
def execRrot (xt _xd _xs _xn : Nat) (s : State) : Res :=
  onIssue s fun q =>
    let w := s.cur.1
    let k := s.cur.2
    let ring := ringOf s w k
    let size := (s.gangOf w k).size
    let dst := (q.cap 0).toNat
    let src := (q.cap 1).toNat
    let len := (q.cap 2).toNat
    let id := s.strand.copyId q 0x0C xt
    let s := copyElems q 0x0C xt (fun id s j =>
      if !ring.contains j then .next s
      else if len = 0 ∨ 65536 < len then failChunk s q 5 0x0C xt id j 1
      else if size < src + len ∨ size < dst + len then failChunk s q 5 0x0C xt id j 6
      else issueChunk s q 5 0x0C xt id j (clusterVa j src) (clusterVa (successor ring j) dst) len) s
    match s.strand.ops.find? fun o => o.kind == 5 && o.group == id with
    | some o => s.push .chunkComplete [w, k, o.id]
    | none => s

/-! ## CMDB (R384, R386) -/

/-- The command that stands in slots 8c to 8c + 7 of a register. -/
def cmdAt (t : Strand) (vs c : Nat) : Cmd :=
  let d := fun j => t.slot vs (8 * c + 2 * j) + t.slot vs (8 * c + 2 * j + 1) * 2 ^ 32
  { w0 := d 0, w1 := d 1, w2 := d 2, w3 := d 3 }

/-- A command of a kind that the engine accepts has a destination, which meets a lock. -/
def Cmd.locked (c : Cmd) (locks : List (Nat × Nat)) : Bool :=
  (c.kind == 0x01 || c.kind == 0x40) && meets c.dst c.len locks

/-- Command c is offered to the engine. -/
def cmdElem (q : Issue) (pd vs : Nat) (s : State) (i : Nat) : Elem :=
  let w := s.cur.1
  let k := s.cur.2
  let cmd := cmdAt s.strand vs (i / 8)
  if cmd.locked q.cv.locks then .halt (.fault .opbusy i 0 cmd.dst)
  else if s.strand.ops.any fun o => o.kind == 0x15 && !o.done then .halt (.wait i 0)
  else
    let offer := fun (slot : Nat) =>
      let r := offerCmd s w k slot q.slot q.cv.addr i cmd
      Elem.next (r.1.onStrand fun t => t.setP pd (i / 8) r.2)
    match cmd.test s w k with
    | .accept =>
      match freeSlot s.strand with
      | some slot => if virgaRoom s w k 1 then offer slot else .halt (.wait i 0)
      | none => .halt (.wait i 0)
    | _ => offer 0

/-- CMDB: command c issues with element 8c. -/
def execCmdb (pd vs : Nat) (s : State) : Res :=
  onIssue s fun q =>
    overAccess (fun t i => t.active q.mode q.vl i) (cmdElem q pd vs)
      ((rangeFrom q.lo q.hi).filter fun i => i % 8 == 0 && decide (i + 8 ≤ q.vl)) s

end Sys2Proof.Machine
end

