-- ==== Sys2Proof/Machine/Dispatch.lean ====
section
/-!
DEFINITION. What every instruction does: one arm for each constructor, each a direct call of its meaning.
-/

namespace Sys2Proof.Machine

def exec (i : Instr) (s : State) : Host.Outcome State Fault Refusal :=
  match i with
  | .lui rd imm => Sys2Proof.Machine.execLui rd imm s
  | .auipc rd imm => Sys2Proof.Machine.execAuipc rd imm s
  | .jal rd off => Sys2Proof.Machine.execJal rd off s
  | .jalr rd rs1 imm => Sys2Proof.Machine.execJalr rd rs1 imm s
  | .beq rs1 rs2 off => Sys2Proof.Machine.execBeq rs1 rs2 off s
  | .bne rs1 rs2 off => Sys2Proof.Machine.execBne rs1 rs2 off s
  | .blt rs1 rs2 off => Sys2Proof.Machine.execBlt rs1 rs2 off s
  | .bge rs1 rs2 off => Sys2Proof.Machine.execBge rs1 rs2 off s
  | .bltu rs1 rs2 off => Sys2Proof.Machine.execBltu rs1 rs2 off s
  | .bgeu rs1 rs2 off => Sys2Proof.Machine.execBgeu rs1 rs2 off s
  | .lb rd rs1 imm => Sys2Proof.Machine.execLb rd rs1 imm s
  | .lh rd rs1 imm => Sys2Proof.Machine.execLh rd rs1 imm s
  | .lw rd rs1 imm => Sys2Proof.Machine.execLw rd rs1 imm s
  | .ld rd rs1 imm => Sys2Proof.Machine.execLd rd rs1 imm s
  | .lbu rd rs1 imm => Sys2Proof.Machine.execLbu rd rs1 imm s
  | .lhu rd rs1 imm => Sys2Proof.Machine.execLhu rd rs1 imm s
  | .lwu rd rs1 imm => Sys2Proof.Machine.execLwu rd rs1 imm s
  | .sb rs2 rs1 imm => Sys2Proof.Machine.execSb rs2 rs1 imm s
  | .sh rs2 rs1 imm => Sys2Proof.Machine.execSh rs2 rs1 imm s
  | .sw rs2 rs1 imm => Sys2Proof.Machine.execSw rs2 rs1 imm s
  | .sd rs2 rs1 imm => Sys2Proof.Machine.execSd rs2 rs1 imm s
  | .addi rd rs1 imm => Sys2Proof.Machine.execAddi rd rs1 imm s
  | .slti rd rs1 imm => Sys2Proof.Machine.execSlti rd rs1 imm s
  | .sltiu rd rs1 imm => Sys2Proof.Machine.execSltiu rd rs1 imm s
  | .xori rd rs1 imm => Sys2Proof.Machine.execXori rd rs1 imm s
  | .ori rd rs1 imm => Sys2Proof.Machine.execOri rd rs1 imm s
  | .andi rd rs1 imm => Sys2Proof.Machine.execAndi rd rs1 imm s
  | .slli rd rs1 shamt => Sys2Proof.Machine.execSlli rd rs1 shamt s
  | .srli rd rs1 shamt => Sys2Proof.Machine.execSrli rd rs1 shamt s
  | .srai rd rs1 shamt => Sys2Proof.Machine.execSrai rd rs1 shamt s
  | .addiw rd rs1 imm => Sys2Proof.Machine.execAddiw rd rs1 imm s
  | .slliw rd rs1 shamt => Sys2Proof.Machine.execSlliw rd rs1 shamt s
  | .srliw rd rs1 shamt => Sys2Proof.Machine.execSrliw rd rs1 shamt s
  | .sraiw rd rs1 shamt => Sys2Proof.Machine.execSraiw rd rs1 shamt s
  | .add rd rs1 rs2 => Sys2Proof.Machine.execAdd rd rs1 rs2 s
  | .sub rd rs1 rs2 => Sys2Proof.Machine.execSub rd rs1 rs2 s
  | .sll rd rs1 rs2 => Sys2Proof.Machine.execSll rd rs1 rs2 s
  | .slt rd rs1 rs2 => Sys2Proof.Machine.execSlt rd rs1 rs2 s
  | .sltu rd rs1 rs2 => Sys2Proof.Machine.execSltu rd rs1 rs2 s
  | .xor rd rs1 rs2 => Sys2Proof.Machine.execXor rd rs1 rs2 s
  | .srl rd rs1 rs2 => Sys2Proof.Machine.execSrl rd rs1 rs2 s
  | .sra rd rs1 rs2 => Sys2Proof.Machine.execSra rd rs1 rs2 s
  | .or rd rs1 rs2 => Sys2Proof.Machine.execOr rd rs1 rs2 s
  | .and rd rs1 rs2 => Sys2Proof.Machine.execAnd rd rs1 rs2 s
  | .mul rd rs1 rs2 => Sys2Proof.Machine.execMul rd rs1 rs2 s
  | .mulh rd rs1 rs2 => Sys2Proof.Machine.execMulh rd rs1 rs2 s
  | .mulhsu rd rs1 rs2 => Sys2Proof.Machine.execMulhsu rd rs1 rs2 s
  | .mulhu rd rs1 rs2 => Sys2Proof.Machine.execMulhu rd rs1 rs2 s
  | .div rd rs1 rs2 => Sys2Proof.Machine.execDiv rd rs1 rs2 s
  | .divu rd rs1 rs2 => Sys2Proof.Machine.execDivu rd rs1 rs2 s
  | .rem rd rs1 rs2 => Sys2Proof.Machine.execRem rd rs1 rs2 s
  | .remu rd rs1 rs2 => Sys2Proof.Machine.execRemu rd rs1 rs2 s
  | .addw rd rs1 rs2 => Sys2Proof.Machine.execAddw rd rs1 rs2 s
  | .subw rd rs1 rs2 => Sys2Proof.Machine.execSubw rd rs1 rs2 s
  | .sllw rd rs1 rs2 => Sys2Proof.Machine.execSllw rd rs1 rs2 s
  | .srlw rd rs1 rs2 => Sys2Proof.Machine.execSrlw rd rs1 rs2 s
  | .sraw rd rs1 rs2 => Sys2Proof.Machine.execSraw rd rs1 rs2 s
  | .mulw rd rs1 rs2 => Sys2Proof.Machine.execMulw rd rs1 rs2 s
  | .divw rd rs1 rs2 => Sys2Proof.Machine.execDivw rd rs1 rs2 s
  | .divuw rd rs1 rs2 => Sys2Proof.Machine.execDivuw rd rs1 rs2 s
  | .remw rd rs1 rs2 => Sys2Proof.Machine.execRemw rd rs1 rs2 s
  | .remuw rd rs1 rs2 => Sys2Proof.Machine.execRemuw rd rs1 rs2 s
  | .fence pred succ => Sys2Proof.Machine.execFence pred succ s
  | .fenceTso => Sys2Proof.Machine.execFenceTso s
  | .fenceI => Sys2Proof.Machine.execFenceI s
  | .ecall => Sys2Proof.Machine.execEcall s
  | .ebreak => Sys2Proof.Machine.execEbreak s
  | .lrW rd rs1 aq rl => Sys2Proof.Machine.execLrW rd rs1 aq rl s
  | .lrD rd rs1 aq rl => Sys2Proof.Machine.execLrD rd rs1 aq rl s
  | .scW rd rs1 rs2 aq rl => Sys2Proof.Machine.execScW rd rs1 rs2 aq rl s
  | .scD rd rs1 rs2 aq rl => Sys2Proof.Machine.execScD rd rs1 rs2 aq rl s
  | .amoswapW rd rs1 rs2 aq rl => Sys2Proof.Machine.execAmoswapW rd rs1 rs2 aq rl s
  | .amoswapD rd rs1 rs2 aq rl => Sys2Proof.Machine.execAmoswapD rd rs1 rs2 aq rl s
  | .amoaddW rd rs1 rs2 aq rl => Sys2Proof.Machine.execAmoaddW rd rs1 rs2 aq rl s
  | .amoaddD rd rs1 rs2 aq rl => Sys2Proof.Machine.execAmoaddD rd rs1 rs2 aq rl s
  | .amoxorW rd rs1 rs2 aq rl => Sys2Proof.Machine.execAmoxorW rd rs1 rs2 aq rl s
  | .amoxorD rd rs1 rs2 aq rl => Sys2Proof.Machine.execAmoxorD rd rs1 rs2 aq rl s
  | .amoandW rd rs1 rs2 aq rl => Sys2Proof.Machine.execAmoandW rd rs1 rs2 aq rl s
  | .amoandD rd rs1 rs2 aq rl => Sys2Proof.Machine.execAmoandD rd rs1 rs2 aq rl s
  | .amoorW rd rs1 rs2 aq rl => Sys2Proof.Machine.execAmoorW rd rs1 rs2 aq rl s
  | .amoorD rd rs1 rs2 aq rl => Sys2Proof.Machine.execAmoorD rd rs1 rs2 aq rl s
  | .amominW rd rs1 rs2 aq rl => Sys2Proof.Machine.execAmominW rd rs1 rs2 aq rl s
  | .amominD rd rs1 rs2 aq rl => Sys2Proof.Machine.execAmominD rd rs1 rs2 aq rl s
  | .amomaxW rd rs1 rs2 aq rl => Sys2Proof.Machine.execAmomaxW rd rs1 rs2 aq rl s
  | .amomaxD rd rs1 rs2 aq rl => Sys2Proof.Machine.execAmomaxD rd rs1 rs2 aq rl s
  | .amominuW rd rs1 rs2 aq rl => Sys2Proof.Machine.execAmominuW rd rs1 rs2 aq rl s
  | .amominuD rd rs1 rs2 aq rl => Sys2Proof.Machine.execAmominuD rd rs1 rs2 aq rl s
  | .amomaxuW rd rs1 rs2 aq rl => Sys2Proof.Machine.execAmomaxuW rd rs1 rs2 aq rl s
  | .amomaxuD rd rs1 rs2 aq rl => Sys2Proof.Machine.execAmomaxuD rd rs1 rs2 aq rl s
  | .vadd vd va vb sx => Sys2Proof.Machine.execVadd vd va vb sx s
  | .vsub vd va vb sx => Sys2Proof.Machine.execVsub vd va vb sx s
  | .vrsub vd va vb sx => Sys2Proof.Machine.execVrsub vd va vb sx s
  | .vmul vd va vb sx => Sys2Proof.Machine.execVmul vd va vb sx s
  | .vmulh vd va vb sx => Sys2Proof.Machine.execVmulh vd va vb sx s
  | .vdiv vd va vb sx => Sys2Proof.Machine.execVdiv vd va vb sx s
  | .vrem vd va vb sx => Sys2Proof.Machine.execVrem vd va vb sx s
  | .vmin vd va vb sx => Sys2Proof.Machine.execVmin vd va vb sx s
  | .vmax vd va vb sx => Sys2Proof.Machine.execVmax vd va vb sx s
  | .vand vd va vb sx => Sys2Proof.Machine.execVand vd va vb sx s
  | .vor vd va vb sx => Sys2Proof.Machine.execVor vd va vb sx s
  | .vxor vd va vb sx => Sys2Proof.Machine.execVxor vd va vb sx s
  | .vsll vd va vb sx => Sys2Proof.Machine.execVsll vd va vb sx s
  | .vsrl vd va vb sx => Sys2Proof.Machine.execVsrl vd va vb sx s
  | .vsra vd va vb sx => Sys2Proof.Machine.execVsra vd va vb sx s
  | .vabs vd va => Sys2Proof.Machine.execVabs vd va s
  | .vfma vd va vb sx => Sys2Proof.Machine.execVfma vd va vb sx s
  | .vfms vd va vb sx => Sys2Proof.Machine.execVfms vd va vb sx s
  | .vfnma vd va vb sx => Sys2Proof.Machine.execVfnma vd va vb sx s
  | .vfnms vd va vb sx => Sys2Proof.Machine.execVfnms vd va vb sx s
  | .vsqrt vd va => Sys2Proof.Machine.execVsqrt vd va s
  | .vneg vd va => Sys2Proof.Machine.execVneg vd va s
  | .vsgnj vd va vb sx => Sys2Proof.Machine.execVsgnj vd va vb sx s
  | .vscale vd va vb sx => Sys2Proof.Machine.execVscale vd va vb sx s
  | .vcmpeq pd va vb sx => Sys2Proof.Machine.execVcmpeq pd va vb sx s
  | .vcmpne pd va vb sx => Sys2Proof.Machine.execVcmpne pd va vb sx s
  | .vcmplt pd va vb sx => Sys2Proof.Machine.execVcmplt pd va vb sx s
  | .vcmple pd va vb sx => Sys2Proof.Machine.execVcmple pd va vb sx s
  | .vcmpgt pd va vb sx => Sys2Proof.Machine.execVcmpgt pd va vb sx s
  | .vcmpge pd va vb sx => Sys2Proof.Machine.execVcmpge pd va vb sx s
  | .vcmpuo pd va vb sx => Sys2Proof.Machine.execVcmpuo pd va vb sx s
  | .vclass vd va => Sys2Proof.Machine.execVclass vd va s
  | .vcvt vd va ty => Sys2Proof.Machine.execVcvt vd va ty s
  | .vmvV vd va => Sys2Proof.Machine.execVmvV vd va s
  | .vmvX vd xs => Sys2Proof.Machine.execVmvX vd xs s
  | .vmerge vd va vb sx => Sys2Proof.Machine.execVmerge vd va vb sx s
  | .vid vd => Sys2Proof.Machine.execVid vd s
  | .viota vd pa => Sys2Proof.Machine.execViota vd pa s
  | .vcompress vd va => Sys2Proof.Machine.execVcompress vd va s
  | .vslideup vd va xs => Sys2Proof.Machine.execVslideup vd va xs s
  | .vslidedn vd va xs => Sys2Proof.Machine.execVslidedn vd va xs s
  | .vperm vd va vb => Sys2Proof.Machine.execVperm vd va vb s
  | .vxchg vd va xs => Sys2Proof.Machine.execVxchg vd va xs s
  | .vredsum vd va vb sx => Sys2Proof.Machine.execVredsum vd va vb sx s
  | .vredmax vd va vb sx => Sys2Proof.Machine.execVredmax vd va vb sx s
  | .vredmin vd va vb sx => Sys2Proof.Machine.execVredmin vd va vb sx s
  | .vredand vd va vb sx => Sys2Proof.Machine.execVredand vd va vb sx s
  | .vredor vd va vb sx => Sys2Proof.Machine.execVredor vd va vb sx s
  | .vredxor vd va vb sx => Sys2Proof.Machine.execVredxor vd va vb sx s
  | .vfredosum vd va vb sx => Sys2Proof.Machine.execVfredosum vd va vb sx s
  | .vext xd va xs => Sys2Proof.Machine.execVext xd va xs s
  | .vins vd xi xs => Sys2Proof.Machine.execVins vd xi xs s
  | .vclz vd va => Sys2Proof.Machine.execVclz vd va s
  | .vpopcnt vd va => Sys2Proof.Machine.execVpopcnt vd va s
  | .vqrecv vd n => Sys2Proof.Machine.execVqrecv vd n s
  | .vqsend n va => Sys2Proof.Machine.execVqsend n va s
  | .pand pd pa pb => Sys2Proof.Machine.execPand pd pa pb s
  | .por pd pa pb => Sys2Proof.Machine.execPor pd pa pb s
  | .pxor pd pa pb => Sys2Proof.Machine.execPxor pd pa pb s
  | .pandn pd pa pb => Sys2Proof.Machine.execPandn pd pa pb s
  | .pnot pd pa => Sys2Proof.Machine.execPnot pd pa s
  | .pset pd => Sys2Proof.Machine.execPset pd s
  | .pclr pd => Sys2Proof.Machine.execPclr pd s
  | .pfirst pd pa => Sys2Proof.Machine.execPfirst pd pa s
  | .vpopcX xd pa => Sys2Proof.Machine.execVpopcX xd pa s
  | .vpopcLq n pa => Sys2Proof.Machine.execVpopcLq n pa s
  | .pmovv vd pa => Sys2Proof.Machine.execPmovv vd pa s
  | .vmovp pd va => Sys2Proof.Machine.execVmovp pd va s
  | .vqnt4 vd vs => Sys2Proof.Machine.execVqnt4 vd vs s
  | .vdq4 vd vs => Sys2Proof.Machine.execVdq4 vd vs s
  | .mldb xa xp => Sys2Proof.Machine.execMldb xa xp s
  | .mstep m xa xp => Sys2Proof.Machine.execMstep m xa xp s
  | .mstepr m xa xp => Sys2Proof.Machine.execMstepr m xa xp s
  | .mzero m => Sys2Proof.Machine.execMzero m s
  | .mrd m xa xp => Sys2Proof.Machine.execMrd m xa xp s
  | .mwr m xa xp => Sys2Proof.Machine.execMwr m xa xp s
  | .mcommit xd => Sys2Proof.Machine.execMcommit xd s
  | .gor2 vd vs => Sys2Proof.Machine.execGor2 vd vs s
  | .gor3 vd vs => Sys2Proof.Machine.execGor3 vd vs s
  | .ginc vd vs => Sys2Proof.Machine.execGinc vd vs s
  | .gins vd vs => Sys2Proof.Machine.execGins vd vs s
  | .gsegx vd vs => Sys2Proof.Machine.execGsegx vd vs s
  | .vld v xb => Sys2Proof.Machine.execVld v xb s
  | .vlds v xb xs => Sys2Proof.Machine.execVlds v xb xs s
  | .vldx v xb vi => Sys2Proof.Machine.execVldx v xb vi s
  | .vst v xb => Sys2Proof.Machine.execVst v xb s
  | .vsts v xb xs => Sys2Proof.Machine.execVsts v xb xs s
  | .vstx v xb vi => Sys2Proof.Machine.execVstx v xb vi s
  | .vamo v xb vi fn => Sys2Proof.Machine.execVamo v xb vi fn s
  | .vldb4 v xb xs => Sys2Proof.Machine.execVldb4 v xb xs s
  | .vstb4 v xb xs => Sys2Proof.Machine.execVstb4 v xb xs s
  | .copy xt xd xs xn => Sys2Proof.Machine.execCopy xt xd xs xn s
  | .copyc pk xd xs xn => Sys2Proof.Machine.execCopyc pk xd xs xn s
  | .copys xt xd xs xq => Sys2Proof.Machine.execCopys xt xd xs xq s
  | .rrot xt xd xs xn => Sys2Proof.Machine.execRrot xt xd xs xn s
  | .cmdb pd vs => Sys2Proof.Machine.execCmdb pd vs s
  | .vamor v xb vi fn => Sys2Proof.Machine.execVamor v xb vi fn s
  | .cvy cnt guard gneg etype rm sat tb => Sys2Proof.Machine.execCvy cnt guard gneg etype rm sat tb s
  | .setvl xd xs => Sys2Proof.Machine.execSetvl xd xs s
  | .setvli xd imm => Sys2Proof.Machine.execSetvli xd imm s
  | .setvlq xd n => Sys2Proof.Machine.execSetvlq xd n s
  | .fsv scope => Sys2Proof.Machine.execFsv scope s
  | .fvs scope => Sys2Proof.Machine.execFvs scope s
  | .fvv scope => Sys2Proof.Machine.execFvv scope s
  | .qsend n xs => Sys2Proof.Machine.execQsend n xs s
  | .qrecv xd n => Sys2Proof.Machine.execQrecv xd n s
  | .wid xd f => Sys2Proof.Machine.execWid xd f s
  | .matt xd xs => Sys2Proof.Machine.execMatt xd xs s
  | .mdet => Sys2Proof.Machine.execMdet s
  | .mwait xs => Sys2Proof.Machine.execMwait xs s
  | .tsync => Sys2Proof.Machine.execTsync s
  | .binit xa xp => Sys2Proof.Machine.execBinit xa xp s
  | .barrive xa => Sys2Proof.Machine.execBarrive xa s
  | .bexpect xa xn => Sys2Proof.Machine.execBexpect xa xn s
  | .bwait xa => Sys2Proof.Machine.execBwait xa s
  | .phend xa => Sys2Proof.Machine.execPhend xa s
  | .monarm xd xa => Sys2Proof.Machine.execMonarm xd xa s
  | .monwait => Sys2Proof.Machine.execMonwait s
  | .spawn xd xa => Sys2Proof.Machine.execSpawn xd xa s
  | .join xd xt => Sys2Proof.Machine.execJoin xd xt s
  | .xltrap n => Sys2Proof.Machine.execXltrap n s
  | .vsync => Sys2Proof.Machine.execVsync s
  | .remst xs xa => Sys2Proof.Machine.execRemst xs xa s
  | .fflags xd => Sys2Proof.Machine.execFflags xd s
  | .edgeUnitReceive => Sys2Proof.Machine.execEdgeUnitReceive s
  | .flitReceive => Sys2Proof.Machine.execFlitReceive s
  | .flitRefusal => Sys2Proof.Machine.execFlitRefusal s
  | .flitAck => Sys2Proof.Machine.execFlitAck s
  | .iodReady => Sys2Proof.Machine.execIodReady s
  | .fnReady => Sys2Proof.Machine.execFnReady s
  | .cdieReady => Sys2Proof.Machine.execCdieReady s
  | .anvilReady => Sys2Proof.Machine.execAnvilReady s
  | .mlinkReady => Sys2Proof.Machine.execMlinkReady s
  | .mgrpReady => Sys2Proof.Machine.execMgrpReady s
  | .plinkReady => Sys2Proof.Machine.execPlinkReady s
  | .linkTrainingLoss => Sys2Proof.Machine.execLinkTrainingLoss s
  | .linkRetrainDone => Sys2Proof.Machine.execLinkRetrainDone s
  | .linkFailure => Sys2Proof.Machine.execLinkFailure s
  | .mlinkRetrain => Sys2Proof.Machine.execMlinkRetrain s
  | .plinkRetrain => Sys2Proof.Machine.execPlinkRetrain s
  | .mlinkFailClear => Sys2Proof.Machine.execMlinkFailClear s
  | .plinkFailClear => Sys2Proof.Machine.execPlinkFailClear s
  | .reqMv => Sys2Proof.Machine.execReqMv s
  | .capWrite => Sys2Proof.Machine.execCapWrite s
  | .voltageRampDone => Sys2Proof.Machine.execVoltageRampDone s
  | .clockLockDone => Sys2Proof.Machine.execClockLockDone s
  | .stallWindowClose => Sys2Proof.Machine.execStallWindowClose s
  | .powerLimiterInterval => Sys2Proof.Machine.execPowerLimiterInterval s
  | .thermalHot => Sys2Proof.Machine.execThermalHot s
  | .thermalRelease => Sys2Proof.Machine.execThermalRelease s
  | .thermalTrip => Sys2Proof.Machine.execThermalTrip s
  | .powerFlagsClear => Sys2Proof.Machine.execPowerFlagsClear s
  | .clear => Sys2Proof.Machine.execClear s
  | .monitorCapture => Sys2Proof.Machine.execMonitorCapture s
  | .monitorLevelSample => Sys2Proof.Machine.execMonitorLevelSample s
  | .stop => Sys2Proof.Machine.execStop s
  | .run => Sys2Proof.Machine.execRun s
  | .kill => Sys2Proof.Machine.execKill s
  | .cmdZero => Sys2Proof.Machine.execCmdZero s
  | .ctxSavedFieldWrite => Sys2Proof.Machine.execCtxSavedFieldWrite s
  | .contextSaved => Sys2Proof.Machine.execContextSaved s
  | .replayDone => Sys2Proof.Machine.execReplayDone s
  | .waitSatisfied => Sys2Proof.Machine.execWaitSatisfied s
  | .stopAll => Sys2Proof.Machine.execStopAll s
  | .runAll => Sys2Proof.Machine.execRunAll s
  | .killAll => Sys2Proof.Machine.execKillAll s
  | .bar0UnbackedWrite => Sys2Proof.Machine.execBar0UnbackedWrite s
  | .launchRegisterWrite => Sys2Proof.Machine.execLaunchRegisterWrite s
  | .prgResponse => Sys2Proof.Machine.execPrgResponse s
  | .hostCompletion => Sys2Proof.Machine.execHostCompletion s
  | .hostRequestTimeout => Sys2Proof.Machine.execHostRequestTimeout s
  | .hostWriteRefusal => Sys2Proof.Machine.execHostWriteRefusal s
  | .atsInvalidationRequest => Sys2Proof.Machine.execAtsInvalidationRequest s
  | .atsInvalidationCompletion => Sys2Proof.Machine.execAtsInvalidationCompletion s
  | .msixUnmask => Sys2Proof.Machine.execMsixUnmask s
  | .coalesceWrite => Sys2Proof.Machine.execCoalesceWrite s
  | .holdExpiry => Sys2Proof.Machine.execHoldExpiry s
  | .vfFlr => Sys2Proof.Machine.execVfFlr s
  | .pfFlr => Sys2Proof.Machine.execPfFlr s
  | .hotReset => Sys2Proof.Machine.execHotReset s
  | .linkDown => Sys2Proof.Machine.execLinkDown s
  | .create => Sys2Proof.Machine.execCreate s
  | .createComplete => Sys2Proof.Machine.execCreateComplete s
  | .destroy => Sys2Proof.Machine.execDestroy s
  | .destroyComplete => Sys2Proof.Machine.execDestroyComplete s
  | .unfreeze => Sys2Proof.Machine.execUnfreeze s
  | .wcmdZero => Sys2Proof.Machine.execWcmdZero s
  | .lockInterfaceRequest => Sys2Proof.Machine.execLockInterfaceRequest s
  | .startInterfaceRequest => Sys2Proof.Machine.execStartInterfaceRequest s
  | .stopInterfaceRequest => Sys2Proof.Machine.execStopInterfaceRequest s
  | .getDeviceInterfaceReport => Sys2Proof.Machine.execGetDeviceInterfaceReport s
  | .getDeviceInterfaceState => Sys2Proof.Machine.execGetDeviceInterfaceState s
  | .getVersion => Sys2Proof.Machine.execGetVersion s
  | .getCapabilities => Sys2Proof.Machine.execGetCapabilities s
  | .negotiateAlgorithms => Sys2Proof.Machine.execNegotiateAlgorithms s
  | .getDigests => Sys2Proof.Machine.execGetDigests s
  | .getCertificate => Sys2Proof.Machine.execGetCertificate s
  | .challenge => Sys2Proof.Machine.execChallenge s
  | .getMeasurements => Sys2Proof.Machine.execGetMeasurements s
  | .keyExchange => Sys2Proof.Machine.execKeyExchange s
  | .finish => Sys2Proof.Machine.execFinish s
  | .keyUpdate => Sys2Proof.Machine.execKeyUpdate s
  | .endSession => Sys2Proof.Machine.execEndSession s
  | .setStreamKey => Sys2Proof.Machine.execSetStreamKey s
  | .setQuantumTable => Sys2Proof.Machine.execSetQuantumTable s
  | .getQuantumTable => Sys2Proof.Machine.execGetQuantumTable s
  | .ideIntegrityFailure => Sys2Proof.Machine.execIdeIntegrityFailure s
  | .inboundRemoteStore => Sys2Proof.Machine.execInboundRemoteStore s
  | .inboundCopyWrite => Sys2Proof.Machine.execInboundCopyWrite s
  | .inboundCopyRead => Sys2Proof.Machine.execInboundCopyRead s
  | .plinkUnfreeze => Sys2Proof.Machine.execPlinkUnfreeze s
  | .inworldWrite => Sys2Proof.Machine.execInworldWrite s
  | .remoteStoreAck => Sys2Proof.Machine.execRemoteStoreAck s
  | .remoteStoreRefusal => Sys2Proof.Machine.execRemoteStoreRefusal s
  | .ownerWrite => Sys2Proof.Machine.execOwnerWrite s
  | .queueLockedFieldWrite => Sys2Proof.Machine.execQueueLockedFieldWrite s
  | .start => Sys2Proof.Machine.execStart s
  | .unlock => Sys2Proof.Machine.execUnlock s
  | .qcmdIgnored => Sys2Proof.Machine.execQcmdIgnored s
  | .tailStore => Sys2Proof.Machine.execTailStore s
  | .ringerrClear => Sys2Proof.Machine.execRingerrClear s
  | .ringPacketRead => Sys2Proof.Machine.execRingPacketRead s
  | .launch => Sys2Proof.Machine.execLaunch s
  | .waitvalue => Sys2Proof.Machine.execWaitvalue s
  | .waitvalueRetest => Sys2Proof.Machine.execWaitvalueRetest s
  | .writevalue => Sys2Proof.Machine.execWritevalue s
  | .writevaluePerformed => Sys2Proof.Machine.execWritevaluePerformed s
  | .checkpoint => Sys2Proof.Machine.execCheckpoint s
  | .nop => Sys2Proof.Machine.execNop s
  | .launchDone => Sys2Proof.Machine.execLaunchDone s
  | .watchdogExpiry => Sys2Proof.Machine.execWatchdogExpiry s
  | .policyCoreRecovery => Sys2Proof.Machine.execPolicyCoreRecovery s
  | .ckptStopped => Sys2Proof.Machine.execCkptStopped s
  | .ckptDieshardsDone => Sys2Proof.Machine.execCkptDieshardsDone s
  | .ckptPageCopied => Sys2Proof.Machine.execCkptPageCopied s
  | .ckptMemshardsDone => Sys2Proof.Machine.execCkptMemshardsDone s
  | .ckptManifestDone => Sys2Proof.Machine.execCkptManifestDone s
  | .restore => Sys2Proof.Machine.execRestore s
  | .restoreDone => Sys2Proof.Machine.execRestoreDone s
  | .abort => Sys2Proof.Machine.execAbort s
  | .ecmdIgnored => Sys2Proof.Machine.execEcmdIgnored s
  | .quantumEnd => Sys2Proof.Machine.execQuantumEnd s
  | .quantumIdleEnd => Sys2Proof.Machine.execQuantumIdleEnd s
  | .switchStopsDone => Sys2Proof.Machine.execSwitchStopsDone s
  | .switchSaveDone => Sys2Proof.Machine.execSwitchSaveDone s
  | .switchRestoreDone => Sys2Proof.Machine.execSwitchRestoreDone s
  | .dispatchDecision => Sys2Proof.Machine.execDispatchDecision s
  | .rotationSaveDone => Sys2Proof.Machine.execRotationSaveDone s
  | .lengthMarkerTake => Sys2Proof.Machine.execLengthMarkerTake s
  | .writeQueueUpdate => Sys2Proof.Machine.execWriteQueueUpdate s
  | .operationResponse => Sys2Proof.Machine.execOperationResponse s
  | .portFaultReport => Sys2Proof.Machine.execPortFaultReport s
  | .sundogAck => Sys2Proof.Machine.execSundogAck s
  | .sundogSpill => Sys2Proof.Machine.execSundogSpill s
  | .reservationHoldExpiry => Sys2Proof.Machine.execReservationHoldExpiry s
  | .chunkComplete => Sys2Proof.Machine.execChunkComplete s
  | .engineCopyCommand => Sys2Proof.Machine.execEngineCopyCommand s
  | .decryptCommand => Sys2Proof.Machine.execDecryptCommand s
  | .batchComplete => Sys2Proof.Machine.execBatchComplete s
  | .controlWordWrite => Sys2Proof.Machine.execControlWordWrite s
  | .powerOnReset => Sys2Proof.Machine.execPowerOnReset s
  | .vectorMask => Sys2Proof.Machine.execVectorMask s
  | .postedStoreDropped => Sys2Proof.Machine.execPostedStoreDropped s
  | .illegal => Sys2Proof.Machine.execIllegal s
  | .instructionFetchFault => Sys2Proof.Machine.execInstructionFetchFault s

end Sys2Proof.Machine
end

