-- ==== Sys2Proof/Machine/Bars.lean ====
section
/-!
DEFINITION. What the host does to the device: its reads and writes of the functions' BARs (03 R52, 04 R80-R84, R89), its
configuration (R79, R80, R93), and the other inputs: sensors, counters, flits, units of the die network.
-/

namespace Sys2Proof.Machine

/-! ## Base address registers (04 R80) -/

/-- Sizes of BAR0, BAR2 and BAR4; BAR2 is prefetchable. -/
def barSize : Nat → Nat | 0 => 2 ^ 28 | 1 => 2 ^ 21 | _ => 2 ^ 16
def barPrefetch (i : Nat) : Bool := i == 1

/-- A host address in a BAR: function, BAR (0, 1, 2 for BAR0, BAR2, BAR4) and offset. -/
def barOf (s : State) (a : Nat) : Option (Nat × Nat × Nat) :=
  if !s.memOn then none
  else (List.range 3).findSome? fun i =>
    let pf := nth 0 s.pfBars i
    let vf := nth 0 s.vfBars i
    if pf ≤ a ∧ a < pf + barSize i then some (0, i, a - pf)
    else if s.vfEnable ∧ vf ≤ a ∧ a < vf + s.numVfs * barSize i then
      some ((a - vf) / barSize i + 1, i, (a - vf) % barSize i)
    else none

/-- Bytes as a little-endian number. -/
def natsNum (bs : List Nat) : Nat := natOf (bs.map (BitVec.ofNat 8))

/-! ## BAR4 (R89) -/

/-- The mask of a vector is written. -/
def maskVec (s : State) (n v : Nat) (on : Bool) : State :=
  if on then checkVec (s.modVec n v fun x => { x with masked := true }) n v
  else if ((s.fn n).vec v).masked then unmaskVec (s.modVec n v fun x => { x with masked := false }) n v
  else s

/-- The coalescing word of a vector is written: it takes effect at once (R91). -/
def coalesce (s : State) (n v x : Nat) : State :=
  checkVec (s.modVec n v fun y => { y with cntm1 := bits x 23 16, hold := Nat.min (bits x 9 0) 1000 }) n v

/-- A doubleword of 32 bits of BAR4 is written: a table entry's message address, data and vector control in the standard
layout, or the low half of a coalescing word; the PBA and the rest are read-only. -/
def writeBar4 (s : State) (n off x : Nat) : State :=
  let v := off / 16
  if off < 0x8000 then
    match off % 16 / 4 with
    | 0 => s.modVec n v fun y => { y with maddr := setBits y.maddr 31 0 x }
    | 1 => s.modVec n v fun y => { y with maddr := setBits y.maddr 63 32 x }
    | 2 => s.modVec n v fun y => { y with mdata := x }
    | _ => maskVec s n v (bit x 0)
  else if 0xC000 ≤ off ∧ off % 8 = 0 then coalesce s n ((off - 0xC000) / 8) x
  else s

/-- A doubleword of 32 bits of BAR4 as it reads. -/
def readBar4 (s : State) (n off : Nat) : Nat :=
  let f := s.fn n
  if off < 0x8000 then
    let y := f.vec (off / 16)
    match off % 16 / 4 with
    | 0 => bits y.maddr 31 0
    | 1 => bits y.maddr 63 32
    | 2 => y.mdata % 2 ^ 32
    | _ => y.masked.toNat
  else if off < 0x8100 then
    (List.range 32).foldl (fun r i => if (f.vec ((off - 0x8000) * 8 + i)).pba then r + 2 ^ i else r) 0
  else if 0xC000 ≤ off then
    let y := f.vec ((off - 0xC000) / 8)
    if off % 8 = 0 then y.hold + y.cntm1 * 2 ^ 16 else y.pend
  else 0

/-- Doublewords of 32 bits of a write, with their offsets. -/
def dwordsOf (off : Nat) (data : List Nat) : List (Nat × Nat) :=
  (List.range (data.length / 4)).map fun i => (off + 4 * i, natsNum ((data.drop (4 * i)).take 4))

/-! ## Writes and reads -/

/-- The step that a host's write of a BAR0 or a BAR2 is (03 R52, 04 R82, R83); none: it has no effect. Of BAR0 eight aligned bytes
are one control store; a narrower write has no effect, and a wider or split one neither (DESIGN CHOICE, assumption 74). -/
def barStep (s : State) (fn i off : Nat) (data : List Nat) (whole : Bool) (secure : Nat) : Option Event :=
  if i = 0 then
    (if data.length = 8 ∧ off % 8 = 0 ∧ whole then
      some (event (if (bar0Page s fn off).isSome then .controlWordWrite else .bar0UnbackedWrite) [fn, off, natsNum data])
    else none)
  else some { what := .launchRegisterWrite, args := [fn, off, (whole && data.length == 64).toNat, secure],
              data := if data.length = 64 then (List.range 8).map fun j => natsNum ((data.drop (8 * j)).take 8) else [] }

/-- A host's write of BAR4: aligned 32-bit doublewords, each with all its bytes. A frozen function's are dropped (05 R108). -/
def bar4Write (s : State) (fn off : Nat) (data : List Nat) (whole : Bool) : State :=
  if (s.world fn).fnFrozen ∨ !whole ∨ off % 4 ≠ 0 ∨ data.length % 4 ≠ 0 then s
  else (dwordsOf off data).foldl (fun s e => writeBar4 s fn e.1 e.2) s

/-- The bytes that a host's read of n bytes of a BAR returns: a control load of 4 or 8 aligned bytes of a page that is there, and
zeros for every other read of BAR0 (03 R52, 04 R82), for BAR2 (R83), and for a frozen function (05 R108). -/
def barRead (s : State) (fn i off n : Nat) : List Nat :=
  let v :=
    if (s.world fn).fnFrozen then 0
    else match i with
      | 0 => if (n = 4 ∨ n = 8) ∧ off % n = 0 then
          (match bar0Page s fn off with
            | some (kind, idx) => readPage s fn kind idx (off % 0x1000) n
            | none => 0) else 0
      | 1 => 0
      | _ => if off % 4 = 0 then
          (List.range (n / 4)).foldl (fun r j => r + readBar4 s fn (off + 4 * j) * 2 ^ (32 * j)) 0 else 0
  (bytesOf n v).map (·.toNat)

/-- A host's read is answered, or waits behind a write of its function that waits (03 R52). -/
def hostReadNow (s : State) (a n tag : Nat) : State :=
  match barOf s a with
  | none => s
  | some (fn, i, off) =>
    if s.barWaits fn ∨ s.reads.any (fun r => (barOf s r.1).any fun b => b.1 == fn) then { s with reads := s.reads ++ [(a, n, tag)] }
    else s.emit (.hostData tag (barRead s fn i off n))

/-- Reads that wait no longer. -/
def answerReads (s : State) : State :=
  if s.reads.isEmpty then s
  else s.reads.foldl (fun s r => hostReadNow s r.1 r.2.1 r.2.2) { s with reads := [] }

/-! ## Configuration (R79, R80, R93) -/

/-- The function exists: the PF, and the VFs while VF Enable is set. -/
def fnExists (s : State) (n : Nat) : Bool := n == 0 || (s.vfEnable && decide (n ≤ s.numVfs))

/-- A field of the configuration is written. A base takes the bits above its BAR's size. Sixteen selective IDE streams exist;
the function mask of MSI-X takes effect as R90 says; clearing VF Enable resets every VF, as an FLR of it does (DESIGN CHOICE,
assumption 76: the manual says so of the PF's resets alone, R93). -/
def configure (s : State) : Cfg → State
  | .bar i b => { s with pfBars := s.pfBars.set i (b / barSize i * barSize i) }
  | .vfBar i b => { s with vfBars := s.vfBars.set i (b / barSize i * barSize i) }
  | .memory on => { s with memOn := on }
  | .master n on => s.modFn n fun f => { f with master := on }
  | .atomics n on => s.modFn n fun f => { f with atomics := on }
  | .pasid n on => s.modFn n fun f => { f with pasidOn := on }
  | .ats n on => s.modFn n fun f => { f with atsOn := on, atc := if on then f.atc else [] }
  | .pri n on => s.modFn n fun f => { f with priOn := on }
  | .mask n on =>
    let vs := (s.fn n).vecs.map (·.1)
    let was := (s.fn n).fnMask
    let s := s.modFn n fun f => { f with fnMask := on }
    if on then vs.foldl (fun s v => checkVec s n v) s
    else if was then vs.foldl (fun s v => unmaskVec s n v) s
    else s
  | .vfEnable n =>
    if n = 0 then
      { s with vfEnable := false, numVfs := 0, work := s.work ++ (List.range s.numVfs).map fun i => event .vfFlr [i + 1] }
    else { s with vfEnable := true, numVfs := Nat.min n 128 }
  | .ideLink on => { s with ideLink := on }
  | .ideStream n st on =>
    let used := (s.fns.map fun e => e.2.selective.length).foldl (· + ·) 0
    if !on then s.modFn n fun f => { f with selective := f.selective.filter (· != st), insecure := f.insecure.filter (· != st) }
    else if (s.fn n).selective.contains st ∨ used ≥ 16 then s
    else s.modFn n fun f => { f with selective := f.selective ++ [st] }

/-- What the host reads of a function's configuration (R79, R80): Device ID and class code; for the PF TotalVFs, First VF Offset
and VF Stride, its bases and the VFs'; and what is enabled. -/
def configWords (s : State) (n : Nat) : List Nat :=
  let f := s.fn n
  let on := [f.master, f.atomics, f.pasidOn, f.atsOn, f.priOn, f.fnMask].map fun b => b.toNat
  if n = 0 then [0x5340, 0x120000, 128, 1, 1, s.numVfs, s.memOn.toNat] ++ s.pfBars ++ s.vfBars ++ on
  else [0x5341, 0x120000] ++ on

/-! ## Inputs that are no step of the opcode table -/

/-- What an input does, where it is no step of its own. -/
def takeInput (s : State) : Input → State
  | .ev _ => s
  | .hostWrite a data whole _ =>
    (match barOf s a with
      | some (fn, 2, off) => bar4Write s fn off data whole
      | _ => s)
  | .hostRead a n tag => hostReadNow s a n tag
  | .config c => configure s c
  | .configRead n => if fnExists s n then s.emit (.config n (configWords s n)) else s
  | .translation id ok => hostTranslation s id ok
  | .sensor c t => sense s c t
  | .ticks c n => s.passTo c ((s.pow c).icount + BitVec.ofNat 64 n)
  | .ioTicks d n => if d = 0 then advanceIod0 s (s.iod0 + n) else { s with iod1 := s.iod1 + n }
  | .flit l noise f => wireFlit s l noise f
  | .die a b p => sendUnit s a b p
  | .slots l ch ss => handSlots s l ch ss

/-- The step that an input is: one of the table, or a host's write of BAR0 or BAR2. -/
def inputStep (s : State) : Input → Option Event
  | .ev e => some e
  | .hostWrite a data whole secure =>
    (match barOf s a with
      | some (fn, i, off) => if i < 2 then barStep s fn i off data whole secure else none
      | none => none)
  | _ => none

end Sys2Proof.Machine
end

