-- ==== Sys2Proof/Machine/Stream.lean ====
section
/-!
DEFINITION. The scalar stream of a strand: fetching, decoding, legality, and the stalls at pending registers (09 R163,
R166, 13 R249-R251, R265, R266, 15 R293, 16 R308). The function that runs an instruction is a parameter here. And which
party moves next, where State does not say.
-/

namespace Sys2Proof.Machine

/-! ## Registers of a scalar instruction -/

/-- The x registers that a scalar instruction reads. What the words of a convoy capture is CVY's own matter. -/
def scalarReads : Instr → List Nat
  | .jalr _ a _ | .lb _ a _ | .lh _ a _ | .lw _ a _ | .ld _ a _ | .lbu _ a _ | .lhu _ a _ | .lwu _ a _ | .addi _ a _
  | .slti _ a _ | .sltiu _ a _ | .xori _ a _ | .ori _ a _ | .andi _ a _ | .addiw _ a _ | .slli _ a _ | .srli _ a _
  | .srai _ a _ | .slliw _ a _ | .srliw _ a _ | .sraiw _ a _ | .lrW _ a _ _ | .lrD _ a _ _ => [a]
  | .beq a b _ | .bne a b _ | .blt a b _ | .bge a b _ | .bltu a b _ | .bgeu a b _ | .sb a b _ | .sh a b _ | .sw a b _
  | .sd a b _ | .add _ a b | .sub _ a b | .sll _ a b | .slt _ a b | .sltu _ a b | .xor _ a b | .srl _ a b | .sra _ a b
  | .or _ a b | .and _ a b | .mul _ a b | .mulh _ a b | .mulhsu _ a b | .mulhu _ a b | .div _ a b | .divu _ a b
  | .rem _ a b | .remu _ a b | .addw _ a b | .subw _ a b | .sllw _ a b | .srlw _ a b | .sraw _ a b | .mulw _ a b
  | .divw _ a b | .divuw _ a b | .remw _ a b | .remuw _ a b
  | .scW _ a b _ _ | .scD _ a b _ _ | .amoswapW _ a b _ _ | .amoswapD _ a b _ _ | .amoaddW _ a b _ _
  | .amoaddD _ a b _ _ | .amoxorW _ a b _ _ | .amoxorD _ a b _ _ | .amoandW _ a b _ _ | .amoandD _ a b _ _
  | .amoorW _ a b _ _ | .amoorD _ a b _ _ | .amominW _ a b _ _ | .amominD _ a b _ _ | .amomaxW _ a b _ _
  | .amomaxD _ a b _ _ | .amominuW _ a b _ _ | .amominuD _ a b _ _ | .amomaxuW _ a b _ _ | .amomaxuD _ a b _ _
  | .binit a b | .bexpect a b | .remst a b => [a, b]
  | .setvl _ a | .qsend _ a | .matt _ a | .monarm _ a | .spawn _ a | .join _ a => [a]
  | .mwait a | .barrive a | .bwait a | .phend a => [a]
  -- the code of an ECALL stands in x17 (15 R302)
  | .ecall => [17]
  | _ => []

/-- The x register that a scalar instruction writes. -/
def scalarDest : Instr → Option Nat
  | .lui d _ | .auipc d _ | .jal d _ | .jalr d _ _ | .lb d _ _ | .lh d _ _ | .lw d _ _ | .ld d _ _ | .lbu d _ _
  | .lhu d _ _ | .lwu d _ _ | .addi d _ _ | .slti d _ _ | .sltiu d _ _ | .xori d _ _ | .ori d _ _ | .andi d _ _
  | .addiw d _ _ | .slli d _ _ | .srli d _ _ | .srai d _ _ | .slliw d _ _ | .srliw d _ _ | .sraiw d _ _
  | .lrW d _ _ _ | .lrD d _ _ _
  | .add d _ _ | .sub d _ _ | .sll d _ _ | .slt d _ _ | .sltu d _ _ | .xor d _ _ | .srl d _ _ | .sra d _ _
  | .or d _ _ | .and d _ _ | .mul d _ _ | .mulh d _ _ | .mulhsu d _ _ | .mulhu d _ _ | .div d _ _ | .divu d _ _
  | .rem d _ _ | .remu d _ _ | .addw d _ _ | .subw d _ _ | .sllw d _ _ | .srlw d _ _ | .sraw d _ _ | .mulw d _ _
  | .divw d _ _ | .divuw d _ _ | .remw d _ _ | .remuw d _ _
  | .scW d _ _ _ _ | .scD d _ _ _ _ | .amoswapW d _ _ _ _ | .amoswapD d _ _ _ _ | .amoaddW d _ _ _ _
  | .amoaddD d _ _ _ _ | .amoxorW d _ _ _ _ | .amoxorD d _ _ _ _ | .amoandW d _ _ _ _ | .amoandD d _ _ _ _
  | .amoorW d _ _ _ _ | .amoorD d _ _ _ _ | .amominW d _ _ _ _ | .amominD d _ _ _ _ | .amomaxW d _ _ _ _
  | .amomaxD d _ _ _ _ | .amominuW d _ _ _ _ | .amominuD d _ _ _ _ | .amomaxuW d _ _ _ _ | .amomaxuD d _ _ _ _
  | .setvl d _ | .setvli d _ | .qrecv d _ | .wid d _ | .matt d _ | .monarm d _ | .spawn d _ | .join d _
  | .fflags d => some d
  | _ => none

/-- Pending writes to a register that are not those of a length marker: a later write waits for them. -/
def Strand.pendingHard (t : Strand) (n : Nat) : Bool := t.pend.any fun p => p.reg == n && p.tok % 4 != 2

/-- The instruction stalls at a register that is pending (R166). A write to a register that only a length marker has
still to write does not wait (16 R308). -/
def stalls (t : Strand) (i : Instr) : Bool :=
  (scalarReads i).any t.pending || (match scalarDest i with | some d => t.pendingHard d | none => false)

/-- The strand has completed the instruction at pc, and goes on or waits. A jump may lead to itself. -/
def completed (s : State) (w k : Nat) (pc : Word) (i : Instr) : Bool :=
  let c := s.ctx w k
  (c.state == .running || c.state == .waiting) && (c.strand.pc != pc || match i with | .jal .. | .jalr .. => true | _ => false)

/-- A later write to a register stands over that of a marker still to come (16 R308). -/
def overtake (s : State) (w k : Nat) (pc : Word) (i : Instr) (r : State) : State :=
  match scalarDest i with
  | some d =>
    let old := (s.ctx w k).strand.pend
    if completed r w k pc i && old.any fun p => p.reg == d && p.tok % 4 == 2 then
      r.modStrand w k fun t => { t with pend := t.pend.filter fun p => !(p.reg == d && p.tok % 4 == 2 && old.contains p) }
    else r
  | none => r

/-- An ECALL has ended its strand (15 R302). -/
def ended (r : State) (w k : Nat) (i : Instr) : Bool :=
  i == .ecall && ((r.ctx w k).state == .dead || (r.ctx w k).state == .empty)

/-- The instruction waits for convoys, beside VSYNC and FFLAGS: an attached MATT (22 R398), MWAIT and PHEND. -/
def waitsConvoys (t : Strand) : Instr → Bool
  | .matt _ _ => t.anvil.isSome
  | .mwait _ | .phend _ => true
  | _ => false

/-- An instruction that completes has named its registers (R166). -/
def named (s : State) (w k : Nat) (pc : Word) (i : Instr) (r : State) : State :=
  if completed r w k pc i || ended r w k i then
    let r := nameRegs r w k (scalarReads i) (scalarDest i).toList
    if waitsConvoys (s.ctx w k).strand i then r.modStrand w k Strand.forget else r
  else r

/-! ## A turn of the scalar stream -/

/-- The decoded instruction at PC executes, stalls or is ILLEGAL (13 R265, 03 R63, R64). -/
def runScalar (ex : Instr → State → Res) (s : State) (i : Instr) : Res :=
  let w := s.cur.1
  let k := s.cur.2
  if !i.inRange || !admitted s.myLaunch.features i then .next (scalarFault s .illegal 0)
  else if stalls s.strand i then
    .next (stallAt s (scalarReads i ++ (match scalarDest i with | some d => if s.strand.pendingHard d then [d] else [] | none => [])))
  else match ex i s with
    | .next r => .next (named s w k s.pc i (overtake s w k s.pc i r))
    | r => r

/-- The scalar stream of strand (w, k) fetches, and executes what it has fetched. -/
def scalarTurn (ex : Instr → State → Res) (s : State) (w k : Nat) : Res :=
  if (s.ctx w k).state ≠ .running then .next s
  else
    let s := { s with cur := (w, k) }
    match fetchWord s w k s.pc.toNat with
    | .waits => .next s
    | .fault c => .next (scalarFault s c s.pc.toNat)
    | .word s v =>
      match decodeWord v with
      | .ok i => runScalar ex s i
      | .error _ => .next (scalarFault s .illegal 0)

/-! ## Who moves next, where the schedule is silent (MODEL) -/

/-- A queue whose head is not known to wait. -/
def Ctx.vectorTurn (w k : Nat) (c : Ctx) : Option Turn :=
  if c.state ≠ .running ∧ c.state ≠ .waiting then none
  else if !c.strand.va.isEmpty && !c.strand.vaHold then some (.va w k)
  else if !c.strand.vm.isEmpty && !c.strand.vmHold then some (.vm w k)
  else none

/-- A strand has something to do. Its scalar stream runs ahead of its convoys (09 R165), for 16 turns or until it
stalls. -/
def Ctx.turn (w k : Nat) (c : Ctx) : Option Turn :=
  if c.state = .running ∧ c.strand.lead < 16 then some (.scalar w k)
  else match c.vectorTurn w k with
    | some t => some t
    | none => if c.state = .running then some (.scalar w k) else none

/-- The lead of a scalar stream after its turn. -/
def pace (w k : Nat) (pc : Word) (r : State) : State :=
  if (r.ctx w k).state = .running then
    r.modStrand w k fun t => { t with lead := if t.pc = pc then 16 else Nat.min 16 (t.lead + 1) }
  else r

/-- A convoy or a marker has moved, or waits. -/
def unpace (w k : Nat) (r : State) : State :=
  if (r.ctx w k).strand.lead = 0 then r else r.modStrand w k fun t => { t with lead := 0 }

/-- The turns of all strands, in the order of their numbers. -/
def strandTurns (s : State) : List (Nat × Turn) :=
  s.ctxs.filterMap fun e => (e.2.turn (e.1 / 16384) (e.1 % 16384)).map fun t => (e.1, t)

/-- Inputs first, then the device's own follow-up steps, then the strands in rotation after the one that moved last. -/
def defaultTurn (s : State) : Option Turn :=
  if !s.inputs.isEmpty then some .input
  else if !s.work.isEmpty then some (.work 0)
  else
    let ts := strandTurns s
    match ts.find? fun e => decide (ctxKey s.cur.1 s.cur.2 < e.1) with
    | some e => some e.2
    | none => (ts.head?).map (·.2)

/-- An event is executed. -/
def runEvent (ex : Instr → State → Res) (s : State) (e : Event) : Res := ex e.what { s with ev := e }

/-- The state after a body word. -/
def after (ex : Instr → State → Res) (i : Instr) (s : State) : State := match ex i s with | .next t => t | _ => s

/-- The peer link whose earlier requests a request comes behind (01 R22). -/
def heldRequest (s : State) (e : Event) : Option Nat :=
  match requestLink e with
  | some n => if (requestsOf n (s.work ++ s.parked)).isEmpty then none else some n
  | none => none

/-- An input is taken: as a step of the table, or as it is. -/
def runInput (ex : Instr → State → Res) (s : State) (i : Input) : Res :=
  match inputStep s i with
  | some e => match heldRequest s e with
    | some n => .next (deliverRequests s n [e])
    | none => runEvent ex s e
  | none => .next (takeInput s i)

/-- The place among the device's follow-up steps of the one that is due at place n: of a peer link's requests the oldest is
(01 R22). -/
def duePlace (s : State) (n : Nat) : Nat :=
  match s.work[n]?.bind requestLink with
  | some l => (s.work.findIdx? fun e => requestLink e == some l).getD n
  | none => n

/-- After an event the host's reads that wait no longer are answered (03 R52). -/
def answering : Res → Res
  | .next s => .next (answerReads s)
  | r => r

/-- One turn. -/
def runTurn (ex : Instr → State → Res) (s : State) : Turn → Res
  | .input =>
    match s.inputs with
    | i :: r => answering (runInput ex { s with inputs := r } i)
    | [] => .next s
  | .work n =>
    match s.work[duePlace s n]? with
    | some e => answering (runEvent ex { s with work := s.work.eraseIdx (duePlace s n) } e)
    | none => .next s
  | .scalar w k => match scalarTurn ex s w k with
    | .next r => .next (pace w k (s.ctx w k).strand.pc r)
    | r => r
  | .va w k => .next (unpace w k (issueHead (after ex) s w k false))
  | .vm w k => .next (unpace w k (issueHead (after ex) s w k true))
  | .part w k p e => .next (unpace w k (issueHead (after ex) s w k false (some (p, e))))

/-- The first power-on reset among the inputs, and what follows it. -/
def afterPowerOn : List Input → Option (Event × List Input)
  | [] => none
  | .ev e :: r => if e.what = .powerOnReset then some (e, r) else afterPowerOn r
  | _ :: r => afterPowerOn r

end Sys2Proof.Machine
end

