-- ==== Sys2Proof/Machine/Placing.lean ====
section
/-!
DEFINITION. A program laid by hand: what a load, a launch and a dispatch leave behind, so that the next step fetches and
runs one given instruction (notes/assumptions: how a program comes to run from reset). Strand 0 of gang 0 of launch 0
of world 0 stands RUNNING at address 0x1000 of an address space whose one leaf maps a GiB of memory with all rights.
-/

namespace Sys2Proof.Machine

/-- Physical address of the placed table region, and of the page that virtual address 0 maps to. -/
def placedBase : Nat := 0x40000000

/-- Virtual address of the placed instruction. -/
def placedAt : Nat := 0x1000

/-- Bytes at a physical address become a world's own, and wake nothing: they stand there from the load. -/
def layBytes (s : State) (slot pa : Nat) (bs : List Byte) : State :=
  retag { s with mem := putCells pa bs.length (trun 0 0 bs) s.mem } slot pa bs.length

/-- The world, the readiness of its memory and its tables: root entry 0 points to the next page, whose entry 0 is a
leaf of a GiB with R, W and X (03 R67, R68). -/
def placeWorld (s : State) : State :=
  let s := { s with
    tripped := false
    ready := { s.ready with grpBytes := 2 ^ 34, mgrp := setBit s.ready.mgrp 0 true, anvil := setBit s.ready.anvil 0 true }
    portMgrp := setBit s.portMgrp 0 true
    mlinks := s.mlinks.map fun (e : Nat × Link) => (e.1, { e.2 with retraining := false })
    heldW := []
    ckpt := { s.ckpt with op := none }
    quantum := { s.quantum with world := 0, switch := none }
    lineBad := [] }
  let s := s.modWorld 0 fun x => { x with wstate := 2, tregion := placedBase / 2 ^ 21 }
  let slot := keySlot s 0
  layBytes (layBytes s slot placedBase (bytesOf 8 (1 + (placedBase / 4096 + 1) * 4096))) slot (placedBase + 4096)
    (bytesOf 8 (1 + 7 * 2))

/-- The launch, its gang and its one strand, resident on core 0. -/
def placeStrand (s : State) (t : Strand) : State :=
  let x := { Launch.zero with
    lstate := .active, total := 1, dispatched := 1, residentg := 1, features := 31, root := placedBase, glvl := 1
    widths := [1, 0, 0, 0, 0, 0], count := 1, vkib := 64, bands := 4, entry := placedAt, nextGang := 1
    gangs := [(0, { Gang.zero with
      state := .resident, ctxs := [0], allocs := [(0, 0)], size := allocSize 64 1 0 0, bands := 4 })] }
  let s := s.modLaunch 0 0 fun _ => x
  { s.putCtx 0 0 { Ctx.zero with
      state := .running, root := placedBase, resident := true
      saveFrame := vaultPA 0 (allocSize 64 1 0 0 - sliceSize 64 - frameSize 0), pcS := BitVec.ofNat 64 placedAt
      strand := t } with
    cur := (0, 0) }

/-- A strand at the placed instruction. -/
def placedStrand : Strand := { Strand.zero with pc := BitVec.ofNat 64 placedAt, vl := 1 }

/-- The convoy of one body word, with the first element type that its word accepts. -/
def placedConvoy (w : Nat) : Convoy :=
  let i := wordOf w
  let ty := ((List.range 15).find? fun t => match i with | some i => bodyOk t i | none => false).getD 0
  { seq := 0, addr := placedAt, head := encodeWord (.cvy 0 31 0 ty 0 0 0), words := [w], vl := .fixed 1
    caps := [match i with | some i => (captures i).map fun _ => 0 | none => []]
    resk := 1, rese := 0, prog := 0, drop := false, locks := [], busy := [], sent := [] }

/-- The word stands where the next step runs it: a body word as the head convoy of its queue, any other at PC, with
four body words `pset p0` behind it for a CVY. -/
def placeWord (s : State) (w : Nat) : State :=
  let s := placeWorld s
  if bodyMajor w then
    let c := [QEntry.convoy (placedConvoy w)]
    let vm := isVmBody [w]
    { placeStrand s (if vm then { placedStrand with vm := c, seq := 1 } else { placedStrand with va := c, seq := 1 }) with
      sched := [if vm then .vm 0 0 else .va 0 0] }
  else
    let body := bytesOf 4 (encodeWord (.pset 0))
    let s := layBytes s (keySlot s 0) placedAt (bytesOf 4 w ++ body ++ body ++ body ++ body)
    { placeStrand s placedStrand with sched := [.scalar 0 0] }

end Sys2Proof.Machine
end

