-- ==== Sys2Proof/Machine/Step.lean ====
section
/-!
DEFINITION. One step of the device, and how an instruction is laid where the next step fetches it.
-/

namespace Sys2Proof.Machine

/-- One step: the schedule's next turn, or the default one. A package that has tripped (02 R37, R38) does nothing until
power-on reset. -/
def step (s : State) : Host.Outcome State Fault Refusal :=
  if s.tripped then
    match afterPowerOn s.inputs with
    | some (e, r) => runEvent exec { s with inputs := r } e
    | none => .fault .poweredOff
  else match s.sched with
    | t :: r => runTurn exec { s with sched := r } t
    | [] => match defaultTurn s with
      | some t => runTurn exec s t
      | none => .next s

/-- An instruction word stands where the next step fetches and runs it. -/
def State.withFetchWord (s : State) (nbits w : Nat) : State := placeWord s (w % 2 ^ Nat.min nbits 32)

end Sys2Proof.Machine
end

