-- ==== Sys2Proof/Machine/Ikiyth.lean ====
section
/-!
DEFINITION. Ikiyth, the portable form (26 R430-R435). The device executes a portable function as the native code that the translator
makes of it; here stands what a call of the function does to its strand: its state, which lasts for the call, its words, and the
effect of each. The translation itself (R440-R444) is a program of the loader's.
-/

namespace Sys2Proof.Machine

/-! ## Words (R432, R433) -/

inductive PInstr where
  | iadd (d a b : Nat)
  | isub (d a b : Nat)
  | imul (d a b : Nat)
  | iaddi (d a imm : Nat)
  | ili (d imm : Nat)
  | islli (d a sh : Nat)
  | ild (d a imm : Nat)
  | ist (b a imm : Nat)
  | iblt (a b imm : Nat)
  | ibne (a b imm : Nat)
  | ret
  | shape (a b : Nat)
  | yld (ty d a b : Nat)
  | yst (ty d a b : Nat)
  | yadd (ty d a b : Nat)
  | ymul (ty d a b : Nat)
  | yfma (ty d a b : Nat)
  | ycvt (ty src d a : Nat)
  | ysplat (ty d a : Nat)
  | yrsum (ty d a : Nat)
  | yext (ty d a b : Nat)
  deriving DecidableEq, Repr

/-- The types of the columns I and F, F, and M. -/
def typeIF (ty : Nat) : Bool := decide (ty < 12)
def typeF (ty : Nat) : Bool := decide (8 ≤ ty) && decide (ty < 12)
def typeM (ty : Nat) : Bool := decide (ty < 14)

/-- A word of the portable form; none where R435 makes it ILLEGAL. -/
def decodePortable (w : Nat) : Option PInstr :=
  let d := bits w 25 22
  let a := bits w 21 18
  let b := bits w 17 14
  let ty := bits w 13 10
  let imm := bits w 9 0
  let when := fun (c : Bool) (i : PInstr) => if c then some i else none
  match bits w 31 26 with
  | 0x00 => when (ty == 0 && imm == 0) (.iadd d a b)
  | 0x01 => when (ty == 0 && imm == 0) (.isub d a b)
  | 0x02 => when (ty == 0 && imm == 0) (.imul d a b)
  | 0x03 => some (.iaddi d a (bits w 17 0))
  | 0x04 => some (.ili d (bits w 21 0))
  | 0x05 => when (b == 0 && ty == 0 && decide (imm < 64)) (.islli d a imm)
  | 0x06 => when (b == 0 && ty == 0) (.ild d a imm)
  | 0x07 => when (d == 0 && ty == 0) (.ist b a imm)
  | 0x08 => when (d == 0 && ty == 0) (.iblt a b imm)
  | 0x09 => when (d == 0 && ty == 0) (.ibne a b imm)
  | 0x0A => when (d == 0 && a == 0 && b == 0 && ty == 0 && imm == 0) .ret
  | 0x0B => when (d == 0 && ty == 0 && imm == 0) (.shape a b)
  | 0x10 => when (typeM ty && imm == 0) (.yld ty d a b)
  | 0x11 => when (typeM ty && imm == 0) (.yst ty d a b)
  | 0x12 => when (typeIF ty && imm == 0) (.yadd ty d a b)
  | 0x13 => when (typeIF ty && imm == 0) (.ymul ty d a b)
  | 0x14 => when (typeF ty && imm == 0) (.yfma ty d a b)
  | 0x15 => when (typeM ty && typeM imm && b == 0) (.ycvt ty imm d a)
  | 0x16 => when (typeM ty && b == 0 && imm == 0) (.ysplat ty d a)
  | 0x17 => when (typeIF ty && b == 0 && imm == 0) (.yrsum ty d a)
  | 0x18 => when (typeM ty && imm == 0) (.yext ty d a b)
  | _ => none

/-- Layouts R, I and L. -/
def layR (op d a b ty imm : Nat) : Nat := imm + ty * 2 ^ 10 + b * 2 ^ 14 + a * 2 ^ 18 + d * 2 ^ 22 + op * 2 ^ 26
def layI (op d a imm : Nat) : Nat := imm + a * 2 ^ 18 + d * 2 ^ 22 + op * 2 ^ 26
def layL (op d imm : Nat) : Nat := imm + d * 2 ^ 22 + op * 2 ^ 26

/-- The word of an instruction. -/
def encodePortable : PInstr → Nat
  | .iadd d a b => layR 0x00 d a b 0 0
  | .isub d a b => layR 0x01 d a b 0 0
  | .imul d a b => layR 0x02 d a b 0 0
  | .iaddi d a imm => layI 0x03 d a imm
  | .ili d imm => layL 0x04 d imm
  | .islli d a sh => layR 0x05 d a 0 0 sh
  | .ild d a imm => layR 0x06 d a 0 0 imm
  | .ist b a imm => layR 0x07 0 a b 0 imm
  | .iblt a b imm => layR 0x08 0 a b 0 imm
  | .ibne a b imm => layR 0x09 0 a b 0 imm
  | .ret => layR 0x0A 0 0 0 0 0
  | .shape a b => layR 0x0B 0 a b 0 0
  | .yld ty d a b => layR 0x10 d a b ty 0
  | .yst ty d a b => layR 0x11 d a b ty 0
  | .yadd ty d a b => layR 0x12 d a b ty 0
  | .ymul ty d a b => layR 0x13 d a b ty 0
  | .yfma ty d a b => layR 0x14 d a b ty 0
  | .ycvt ty src d a => layR 0x15 d a 0 ty src
  | .ysplat ty d a => layR 0x16 d a 0 ty 0
  | .yrsum ty d a => layR 0x17 d a 0 ty 0
  | .yext ty d a b => layR 0x18 d a b ty 0

/-- Every operand at a value that its field admits, every type one that its row accepts. -/
def PInstr.inRange : PInstr → Bool
  | .iadd d a b | .isub d a b | .imul d a b => decide (d < 16 ∧ a < 16 ∧ b < 16)
  | .iaddi d a imm => decide (d < 16 ∧ a < 16 ∧ imm < 2 ^ 18)
  | .ili d imm => decide (d < 16 ∧ imm < 2 ^ 22)
  | .islli d a sh => decide (d < 16 ∧ a < 16 ∧ sh < 64)
  | .ild d a imm | .ist d a imm | .iblt d a imm | .ibne d a imm => decide (d < 16 ∧ a < 16 ∧ imm < 1024)
  | .ret => true
  | .shape a b => decide (a < 16 ∧ b < 16)
  | .yld ty d a b | .yst ty d a b | .yext ty d a b => typeM ty && decide (d < 16 ∧ a < 16 ∧ b < 16)
  | .yadd ty d a b | .ymul ty d a b => typeIF ty && decide (d < 16 ∧ a < 16 ∧ b < 16)
  | .yfma ty d a b => typeF ty && decide (d < 16 ∧ a < 16 ∧ b < 16)
  | .ycvt ty src d a => typeM ty && typeM src && decide (d < 16 ∧ a < 16)
  | .ysplat ty d a => typeM ty && decide (d < 16 ∧ a < 16)
  | .yrsum ty d a => typeIF ty && decide (d < 16 ∧ a < 16)

/-! ## State (R430) -/

/-- What a portable function sees, for the duration of one call. -/
structure Portable where
  /-- i0 to i15. -/
  i    : List Word
  /-- Halves of elements that the call has written, by (2 × register + half) × 4096 + flat element. -/
  y    : Tbl Nat
  /-- The shape in force: R rows of L elements. -/
  rows : Nat
  len  : Nat
  /-- The word under way, and how many elements of it have been accessed. -/
  pc   : Nat
  elem : Nat
  /-- MODEL: names the call. -/
  call : Nat
  /-- The native registers of y0 to y15 (R443), where a read before the first write finds them, and the vector registers at entry. -/
  bind : List (Option Nat)
  v    : Tbl Slot
  deriving DecidableEq, Repr

/-- The registers of the translation, in the order in which the function's words first write them (R443): for y registers, whether
some word takes the register as one of a 64-bit type. -/
def writesI : PInstr → List Nat
  | .iadd d _ _ | .isub d _ _ | .imul d _ _ | .iaddi d _ _ | .ili d _ | .islli d _ _ | .ild d _ _ | .yext _ d _ _ => [d]
  | .shape a b => [a, b]
  | _ => []
def writesY : PInstr → List Nat
  | .yld _ d _ _ | .yadd _ d _ _ | .ymul _ d _ _ | .yfma _ d _ _ | .ycvt _ _ d _ | .ysplat _ d _ | .yrsum _ d _ => [d]
  | _ => []
def pairY : PInstr → List Nat
  | .yld ty d _ _ | .yst ty d _ _ | .ysplat ty d _ => if tyPair ty then [d] else []
  | .yadd ty d a b | .ymul ty d a b | .yfma ty d a b => if tyPair ty then [d, a, b] else []
  | .ycvt ty src d a => (if tyPair ty then [d] else []) ++ if tyPair src then [a] else []
  | .yrsum ty d a => if tyPair ty then [d, a] else []
  | .yext ty _ a _ => if tyPair ty then [a] else []
  | _ => []

/-- The native register of i8 to i15; none: it spills, or no word writes it. -/
def nativeI (f : List Nat) (n : Nat) : Option Nat :=
  match ((f.filterMap decodePortable).flatMap writesI |>.filter (8 ≤ ·)).eraseDups.findIdx? (· == n) with
  | some p => [5, 6, 7, 28, 29, 30, 31][p]?
  | none => none

/-- Vector registers from v48 upward, an even pair for a register of a 64-bit type. -/
def allotY (pairs : List Nat) : Nat → List Nat → List (Nat × Nat)
  | _, [] => []
  | v, n :: ns =>
    if pairs.contains n then (n, v + v % 2) :: allotY pairs (v + v % 2 + 2) ns else (n, v) :: allotY pairs (v + 1) ns

/-- The native register of a y register, if the file has it (R443). -/
def nativeY (f : List Nat) (n : Nat) : Option Nat :=
  let is := f.filterMap decodePortable
  let pairs := is.flatMap pairY
  (((allotY pairs 48 (is.flatMap writesY).eraseDups).find? fun x => x.1 == n).map (·.2)).filter fun v =>
    decide (v + (pairs.contains n).toNat < 64)

/-- A function of these words is called: i0 to i7 hold x10 to x17, the shape is (0, 0). Every other register reads as its native
register or as its spill slot before it has been written. -/
def enterPortable (f : List Nat) (s : State) : State × Portable :=
  ({ s with fresh := s.fresh + 1 },
   { i := (List.range 16).map fun n =>
       if n < 8 then s.rx (10 + n)
       else match nativeI f n with | some r => s.rx r | none => Config.portableScalar s.fresh n
     y := [], rows := 0, len := 0, pc := 0, elem := 0, call := s.fresh
     bind := (List.range 16).map fun n => if Config.portableSpilled s.fresh n then none else nativeY f n
     v := s.strand.v })

def Portable.ix (t : Portable) (n : Nat) : Word := nth 0 t.i n
def Portable.setI (t : Portable) (n : Nat) (v : Word) : Portable := { t with i := t.i.set n v }

/-- Half h of flat element e of a y register: 32 bits (12 R228). -/
def portableHalf (n h e : Nat) : Nat := (2 * n + h) * 4096 + e
/-- A half that the call has not written. -/
def Portable.oldHalf (t : Portable) (n h e : Nat) : Nat :=
  match nth none t.bind n with
  | some v => ({ Strand.zero with v := t.v } : Strand).slot (v + h) e
  | none => (Config.portableElement t.call (portableHalf n h e)).toNat
def Portable.half (t : Portable) (n h e : Nat) : Nat :=
  tget (t.oldHalf n h e) t.y (portableHalf n h e) % 2 ^ 32
def Portable.setHalf (t : Portable) (n h e v : Nat) : Portable := { t with y := tset (portableHalf n h e) (v % 2 ^ 32) t.y }

/-- Flat element e of a y register as a type reads it. An element takes its bits as R228 gives them to a native register, and a
narrow type leaves the upper half: what another type reads there follows (DESIGN CHOICE, assumption 84: R430 calls the register a
sequence of elements and says no more). -/
def Portable.yx (t : Portable) (ty n e : Nat) : Nat :=
  if tyPair ty then t.half n 0 e + t.half n 1 e * 2 ^ 32 else t.half n 0 e % 2 ^ tyWidth ty
def Portable.setY (t : Portable) (ty n e v : Nat) : Portable :=
  if tyPair ty then (t.setHalf n 0 e v).setHalf n 1 e (v / 2 ^ 32) else t.setHalf n 0 e (slotOfElem ty v)

/-- The elements that an instruction acts on: element (r, c) is r × L + c. -/
def Portable.elems (t : Portable) : List Nat := List.range (t.rows * t.len)

/-- The word under way is over. -/
def Portable.next (t : Portable) : Portable := { t with pc := t.pc + 1, elem := 0 }

/-! ## The effect of a word -/

/-- What a word of a call does: it goes on, returns, waits as the native access waits, has an access to the host that is to go
out, or faults, each with the elements before it performed. -/
inductive Called where
  | next (s : State) (t : Portable)
  | ret (s : State)
  | waits (s : State) (t : Portable)
  | ask (s : State) (t : Portable) (addr width : Nat)
  | fault (s : State) (t : Portable) (c : Cause) (faddr : Nat)

/-- Every floating operation rounds RNE, and integers wrap (R430). -/
def portableMode (ty : Nat) : Mode := { guard := 31, gneg := false, etype := ty, rm := 0, sat := false, tb := 0 }

/-- i[n] is written, and the word is over. -/
def Portable.give (t : Portable) (s : State) (n : Nat) (v : Word) : Called := .next s (t.setI n v).next

/-- The elements of the shape, each from those of the registers as they stood: bits, and the flags they raise. -/
def Portable.each (t : Portable) (s : State) (ty d : Nat) (f : Nat → Nat × Nat) : Called :=
  let r := t.elems.map fun e => (e, f e)
  .next (s.onStrand fun u => r.foldl (fun u x => u.raise x.2.2) u) (r.foldl (fun u x => u.setY ty d x.1 x.2.1) t).next

/-- A grant of rows and length (R431). -/
def grantShape (mvl rows len : Nat) : Nat × Nat :=
  let l := Nat.min len mvl
  (if l = 0 then 0 else Nat.min rows (mvl / l), l)

/-- SHAPE (R431). -/
def Portable.takeShape (t : Portable) (s : State) (a b : Nat) : Called :=
  let g := grantShape s.me.mvl (t.ix a).toNat (t.ix b).toNat
  .next s (({ t with rows := g.1, len := g.2 }.setI a (BitVec.ofNat 64 g.1)).setI b (BitVec.ofNat 64 g.2)).next

/-- ILD: the access of a native load of 8 bytes. -/
def Portable.load (t : Portable) (s : State) (d va : Nat) : Called :=
  match loadAt s s.cur.1 s.cur.2 va 8 with
  | .value s v => t.give s d (BitVec.ofNat 64 v)
  | .host s a => .ask s t a 8
  | .busy => .waits s t
  | .fault c => .fault s t c va

/-- IST: the access of a native store of 8 bytes. -/
def Portable.store (t : Portable) (s : State) (v : Word) (va : Nat) : Called :=
  match storeReg (s.wx 31 v) 3 31 va with
  | .next r =>
    if !r.me.state.live then (match r.me.fault with | some f => .fault s t f.cause f.faddr | none => .fault s t .tagfail va)
    else
      let back := r.onStrand fun u => { u with x := s.strand.x, pc := s.pc }
      if r.pc = s.pc then .waits back t else .next back t.next
  | _ => .waits s t

/-- Address of element (r, c): i[a] + r × i[b] + c × w. -/
def Portable.tileVa (t : Portable) (ty a b e : Nat) : Nat :=
  (t.ix a + BitVec.ofNat 64 (e / t.len) * t.ix b + BitVec.ofNat 64 (e % t.len * (tyWidth ty / 8))).toNat

/-- A convoy that the strand has committed before has still to access the element's location (10 R193, 19 R361), or the locks that it
meets are not known yet (22 R407). -/
def tileWaits (s : State) (e va n : Nat) (wr : Bool) : Bool :=
  (wr && s.strand.lockPending va n) || match accessPa s s.cur.1 s.cur.2 e va with
    | some pa => convoyNames s s.cur.1 s.cur.2 pa n
    | none => false

/-- YLD: the elements in ascending order, each the access of a native element load. -/
def Portable.loadTile (ty d a b : Nat) : List Nat → Portable → State → Called
  | [], t, s => .next s t.next
  | e :: es, t, s =>
    let va := t.tileVa ty a b e
    if tileWaits s e va (tyWidth ty / 8) false then .waits s { t with elem := e }
    else match elementLoad s s.cur.1 s.cur.2 (s.me.core (e / 512)) va (tyWidth ty / 8) with
    | .value s v => Portable.loadTile ty d a b es { t.setY ty d e v with elem := e + 1 } s
    | .host s x => .ask s { t with elem := e } x (tyWidth ty / 8)
    | .busy => .waits s { t with elem := e }
    | .fault c => .fault s { t with elem := e } c va

/-- YST: the same with element stores. -/
def Portable.storeTile (ty d a b : Nat) : List Nat → Portable → State → Called
  | [], t, s => .next s t.next
  | e :: es, t, s =>
    let va := t.tileVa ty a b e
    if tileWaits s e va (tyWidth ty / 8) true then .waits s { t with elem := e }
    else match elementStore s s.cur.1 s.cur.2 (s.me.core (e / 512)) va (tyWidth ty / 8) (t.yx ty d e) s.strand.locked with
    | .next s => Portable.storeTile ty d a b es { t with elem := e + 1 } s
    | .busy s => .waits s { t with elem := e }
    | .fault s c => .fault s { t with elem := e } c va

/-- The elements that the word under way has still to access. -/
def Portable.left (t : Portable) : List Nat := t.elems.drop t.elem

/-- The sum of a row in ascending column order, and its flags (R434): from -0, or from 0 for an integer type. -/
def Portable.rowSum (t : Portable) (ty a r : Nat) : Nat × Nat :=
  (List.range t.len).foldl (fun x c =>
    let y := vAdd (portableMode ty) x.1 (t.yx ty a (r * t.len + c))
    (y.1, Nat.lor x.2 y.2)) (if tyInt ty then 0 else 2 ^ (tyWidth ty - 1), 0)

/-- A word at an index of the function. -/
def Portable.jump (t : Portable) (imm : Nat) : Option Nat :=
  let n := (t.pc : Int) + toSigned 10 imm
  if n < 0 then none else some n.toNat

/-- A branch is taken or not. A target before the function is no word of it. -/
def Portable.branch (t : Portable) (s : State) (c : Bool) (imm : Nat) : Called :=
  if !c then .next s t.next
  else match t.jump imm with
    | some n => .next s { t with pc := n, elem := 0 }
    | none => .fault s t .illegal 0

/-- The scalar registers that a translation may write, beside x10 (R443). -/
def clobbered : List Nat := [5, 6, 7, 11, 12, 13, 14, 15, 16, 17, 28, 29, 30, 31]

/-- What a call leaves of the strand's registers: x10 holds i0, and what a translation may write is open (R443). -/
def Portable.leave (t : Portable) (mvl : Nat) (u : Strand) : Strand :=
  let u := (clobbered.foldl (fun u r => u.wx r (Config.portableLeft t.call r)) u).wx 10 (t.ix 0)
  let u := (List.range 16).foldl (fun u r =>
    (List.range mvl).foldl (fun u e => u.setSlot (48 + r) e (Config.portableSlot t.call r e).toNat) u) u
  let u := (List.range 4).foldl (fun u r =>
    (List.range mvl).foldl (fun u e => u.setP (20 + r) e (Config.portablePred t.call r e)) u) u
  match Config.portableVl t.call with
  | some n => { u with vl := Nat.min n mvl, vlMark := none, strip := u.strip + 1 }
  | none => u

/-- The first bytes of the private slice have served as spill slots (R443). -/
def Portable.leaveSlice (t : Portable) (s : State) : State :=
  match resolve s s.cur.1 s.cur.2 (s.me.core 0) 0xFFFFF00080000000 .store with
  | .ok { target := .mem pa, .. } =>
    performWrite s (keySlot s s.cur.1) pa
      ((List.range (Nat.min (Config.portableBytes t.call) (sliceSize s.myLaunch.vkib))).map (Config.portableByte t.call))
  | _ => s

/-- RET: back to the caller, at x1 (R433, R443). -/
def Portable.back (t : Portable) (s : State) : Called :=
  let ra := s.rx 1 &&& ~~~1#64
  if ra.toNat % 4 ≠ 0 then .fault s t .misalign ra.toNat
  else .ret ((t.leaveSlice s).onStrand fun u => { t.leave s.me.mvl u with pc := ra })

/-- One word (R431, R433, R434). -/
def portableWord (t : Portable) (s : State) : PInstr → Called
  | .iadd d a b => t.give s d (t.ix a + t.ix b)
  | .isub d a b => t.give s d (t.ix a - t.ix b)
  | .imul d a b => t.give s d (t.ix a * t.ix b)
  | .iaddi d a imm => t.give s d (t.ix a + sext 18 imm)
  | .ili d imm => t.give s d (sext 22 imm)
  | .islli d a sh => t.give s d (t.ix a <<< sh)
  | .ild d a imm => t.load s d (t.ix a + sext 10 imm).toNat
  | .ist b a imm => t.store s (t.ix b) (t.ix a + sext 10 imm).toNat
  | .iblt a b imm => t.branch s ((t.ix a).slt (t.ix b)) imm
  | .ibne a b imm => t.branch s (t.ix a != t.ix b) imm
  | .ret => t.back s
  | .shape a b => t.takeShape s a b
  | .yld ty d a b => Portable.loadTile ty d a b t.left t s
  | .yst ty d a b => Portable.storeTile ty d a b t.left t s
  | .yadd ty d a b => t.each s ty d fun e => vAdd (portableMode ty) (t.yx ty a e) (t.yx ty b e)
  | .ymul ty d a b => t.each s ty d fun e => vMul (portableMode ty) (t.yx ty a e) (t.yx ty b e)
  | .yfma ty d a b => t.each s ty d fun e => fFma ty 0 false false false (t.yx ty a e) (t.yx ty b e) (t.yx ty d e)
  | .ycvt ty src d a => t.each s ty d fun e => convert src (portableMode ty) (t.yx src a e)
  | .ysplat ty d a => t.each s ty d fun _ => ((t.ix a).toNat % 2 ^ tyWidth ty, 0)
  | .yrsum ty d a => t.each s ty d fun e => if e % t.len = 0 then t.rowSum ty a (e / t.len) else (0, 0)
  | .yext ty d a b => t.give s d (if s.me.mvl ≤ (t.ix b).toNat then 0 else extElem ty (t.yx ty a (t.ix b).toNat))

/-- One word of a function, given by its words; an illegal word faults when it is reached (R435). -/
def portableStep (f : List Nat) (s : State) (t : Portable) : Called :=
  match f[t.pc]? with
  | none => .fault s t .illegal 0
  | some w =>
    match decodePortable w with
    | none => .fault s t .illegal 0
    | some i => portableWord t s i

/-- The host's answer to an access that has gone out: the register or the element receives it. -/
def Portable.answer (t : Portable) (i : PInstr) (v : Nat) : Portable :=
  match i with
  | .ild d _ _ => (t.setI d (BitVec.ofNat 64 v)).next
  | .yld ty d _ _ => { t.setY ty d t.elem v with elem := t.elem + 1 }
  | _ => t

/-- Words of a call, one after another, as long as they go on. -/
def portableRun (f : List Nat) : Nat → State → Portable → Called
  | 0, s, t => .next s t
  | n + 1, s, t => match portableStep f s t with
    | .next s t => portableRun f n s t
    | r => r

end Sys2Proof.Machine
end

