-- ==== Sys2Proof/Safety.lean ====
section
/-!
DEFINITION. The terms in which claims are made: what a machine in good order is, what a step leaves alone, and values
in plain arithmetic as the manual's tables give them.
-/

namespace Sys2Proof.Machine

/-- Memory is in its canonical form: addresses strictly rising, no byte listed that is zero. -/
def Memory.wf (m : Tbl Byte) : Bool := twf 0 m

/-- Instruction i in state s answers a next state, of which P holds. -/
def Answers (i : Instr) (s : State) (P : State → Prop) : Prop := ∃ t, exec i s = .next t ∧ P t

/-! ## What a step leaves alone -/

/-- A context is as before, but for the reservation and the monitor of its strand, which a write may touch
(10 R203, 15 R298). -/
def SameCtx (c c' : Ctx) : Prop :=
  c' = { c with strand := { c.strand with resv := c'.strand.resv, mon := c'.strand.mon } }

/-- A queue interface is as before, but for whether a WAITVALUE that it waits in has found its test true: it is tested after
every write of its line (06 R119). -/
def SameQueue (x y : Queue) : Prop :=
  ∃ c, y = { x with cur := c } ∧ (c = x.cur ∨ ∃ p b, x.cur = some p ∧ c = some { p with hit := b })

/-- t is s but for the strand in turn, and for the visit sets of launches (08 R152): memory, every page and register
of the device, and every other context are as before. -/
structure OwnStrand (s t : State) : Prop where
  device   : t = { s with ctxs := t.ctxs, launches := t.launches }
  others   : ∀ w k, ctxKey w k ≠ ctxKey s.cur.1 s.cur.2 → t.ctx w k = s.ctx w k
  mine     : t.me = { s.me with strand := t.strand }
  launches : ∀ w l, t.launch w l = { s.launch w l with visited := (t.launch w l).visited }

/-- From s to t a scalar instruction retires: x[rd] := v (x0 discards it), PC := pc, and nothing else changes. -/
structure Retires (s t : State) (rd : Nat) (v pc : Word) : Prop where
  own    : OwnStrand s t
  strand : t.strand = { s.strand with x := t.strand.x, pc := pc }
  regs   : ∀ n, t.rx n = if n = rd ∧ n ≠ 0 then v else s.rx n

/-- From s to t the strand in turn faults at its PC (03 R57, 11 R208): STATE reads STOPPING with the record to come, a
CONTEXT_SAVED is due, the reservation, the monitor and a wait are over, and no register and no byte has changed. -/
structure FaultsAtPc (s t : State) (c : Cause) (faddr : Nat) : Prop where
  state  : t.me.state = .stopping
  record : t.me.fault = some { cause := c, fslot := 0, fpc := s.pc.toNat, felem := 0, progress := 0, faddr := faddr }
  saved  : event .contextSaved [s.cur.1, s.cur.2] ∈ t.work
  ended  : t.strand.resv = none ∧ t.strand.mon = none ∧ t.me.wait = none
  regs   : t.strand.x = s.strand.x ∧ t.pc = s.pc ∧ t.strand.v = s.strand.v ∧ t.strand.p = s.strand.p ∧
             t.strand.vl = s.strand.vl ∧ t.strand.fflags = s.strand.fflags ∧ t.strand.anvil = s.strand.anvil
  device : t = { s with ctxs := t.ctxs, queues := t.queues, work := t.work }
  others : ∀ w k, ctxKey w k ≠ ctxKey s.cur.1 s.cur.2 → SameCtx (s.ctx w k) (t.ctx w k)
  queues : ∀ q, SameQueue (s.queue q) (t.queue q)

/-- From s to t a write of the strand in turn has performed and the instruction has retired: PC := pc, and no register
of the strand and no page of the device has changed. What the write leaves in memory is said apart. -/
structure Stored (s t : State) (pc : Word) : Prop where
  device : t = { s with mem := t.mem, lineSlot := t.lineSlot, lineBad := t.lineBad, dirty := t.dirty, dirtyV := t.dirtyV,
                        ctxs := t.ctxs, launches := t.launches, queues := t.queues, work := t.work }
  queues : ∀ q, SameQueue (s.queue q) (t.queue q)
  others : ∀ w k, ctxKey w k ≠ ctxKey s.cur.1 s.cur.2 → SameCtx (s.ctx w k) (t.ctx w k)
  mine   : t.me = { s.me with strand := t.strand }
  strand : t.strand = { s.strand with pc := pc, resv := t.strand.resv, mon := t.strand.mon }
  launches : ∀ w l, t.launch w l = { s.launch w l with visited := (t.launch w l).visited }

/-- Byte a of memory after a write of bytes bs at pa, as a party with a key slot reads it: the bytes written, and
everywhere else what it read before (05 R105). -/
def BytesWritten (s t : State) (slot pa : Nat) (bs : List Byte) : Prop :=
  ∀ a, readByte t slot a = if pa ≤ a ∧ a < pa + bs.length then nth 0 bs (a - pa) else readByte s slot a

/-- No party reads a change outside the 64-byte lines of a range. -/
def OtherLines (s t : State) (pa n : Nat) : Prop :=
  ∀ slot a, a / 64 < pa / 64 ∨ (pa + n - 1) / 64 < a / 64 → readByte t slot a = readByte s slot a

/-! ## Values in plain arithmetic -/

/-- The low w bits of v as a signed number (15 R286). -/
def simm (w v : Nat) : Int := (BitVec.ofNat w v).toInt

/-- Bits [31:0] of a register as a signed number. -/
def lo32 (v : Word) : Int := (v.setWidth 32).toInt

/-- A number as a doubleword, modulo 2^64. -/
def dword (n : Int) : Word := BitVec.ofInt 64 n

/-- A number modulo 2^32, sign-extended. -/
def sword (n : Int) : Word := (BitVec.ofInt 32 n).signExtend 64

/-- The register-register instructions of 15 R290 on 64 bits, with the values of 12 R241 where the divisor is 0. -/
def regRegValues : List ((Nat → Nat → Nat → Instr) × (Word → Word → Word)) :=
  [ (.add,    fun a b => dword (a.toNat + b.toNat)),
    (.sub,    fun a b => dword (a.toInt - b.toInt)),
    (.sll,    fun a b => dword (a.toNat * 2 ^ (b.toNat % 64))),
    (.slt,    fun a b => if a.toInt < b.toInt then 1 else 0),
    (.sltu,   fun a b => if a.toNat < b.toNat then 1 else 0),
    (.xor,    fun a b => dword (Nat.xor a.toNat b.toNat)),
    (.srl,    fun a b => dword (a.toNat / 2 ^ (b.toNat % 64))),
    (.sra,    fun a b => dword (a.toInt / 2 ^ (b.toNat % 64))),
    (.or,     fun a b => dword (Nat.lor a.toNat b.toNat)),
    (.and,    fun a b => dword (Nat.land a.toNat b.toNat)),
    (.mul,    fun a b => dword (a.toNat * b.toNat)),
    (.mulh,   fun a b => dword (a.toInt * b.toInt / 2 ^ 64)),
    (.mulhsu, fun a b => dword (a.toInt * b.toNat / 2 ^ 64)),
    (.mulhu,  fun a b => dword (a.toNat * b.toNat / 2 ^ 64)),
    (.div,    fun a b => if b = 0 then dword (-1) else dword (a.toInt.tdiv b.toInt)),
    (.divu,   fun a b => if b = 0 then dword (-1) else dword (a.toNat / b.toNat)),
    (.rem,    fun a b => if b = 0 then a else dword (a.toInt.tmod b.toInt)),
    (.remu,   fun a b => if b = 0 then a else dword (a.toNat % b.toNat)) ]

/-- The W forms of 15 R290: bits [31:0] of the operands, and the 32-bit result sign-extended. -/
def regRegWordValues : List ((Nat → Nat → Nat → Instr) × (Word → Word → Word)) :=
  [ (.addw,  fun a b => sword (lo32 a + lo32 b)),
    (.subw,  fun a b => sword (lo32 a - lo32 b)),
    (.sllw,  fun a b => sword (lo32 a * 2 ^ (b.toNat % 32))),
    (.srlw,  fun a b => sword ((a.toNat % 2 ^ 32 / 2 ^ (b.toNat % 32) : Nat) : Int)),
    (.sraw,  fun a b => sword (lo32 a / 2 ^ (b.toNat % 32))),
    (.mulw,  fun a b => sword (lo32 a * lo32 b)),
    (.divw,  fun a b => if lo32 b = 0 then sword (-1) else sword ((lo32 a).tdiv (lo32 b))),
    (.divuw, fun a b => if lo32 b = 0 then sword (-1) else sword ((a.toNat % 2 ^ 32 / (b.toNat % 2 ^ 32) : Nat) : Int)),
    (.remw,  fun a b => if lo32 b = 0 then sword (lo32 a) else sword ((lo32 a).tmod (lo32 b))),
    (.remuw, fun a b => if lo32 b = 0 then sword (lo32 a) else sword ((a.toNat % 2 ^ 32 % (b.toNat % 2 ^ 32) : Nat) : Int)) ]

/-- The register-immediate instructions of 15 R289; the immediate or shift count is the last operand. -/
def regImmValues : List ((Nat → Nat → Nat → Instr) × (Word → Nat → Word)) :=
  [ (.addi,  fun a i => dword (a.toInt + simm 12 i)),
    (.slti,  fun a i => if a.toInt < simm 12 i then 1 else 0),
    (.sltiu, fun a i => if a.toNat < (dword (simm 12 i)).toNat then 1 else 0),
    (.xori,  fun a i => dword (Nat.xor a.toNat (dword (simm 12 i)).toNat)),
    (.ori,   fun a i => dword (Nat.lor a.toNat (dword (simm 12 i)).toNat)),
    (.andi,  fun a i => dword (Nat.land a.toNat (dword (simm 12 i)).toNat)),
    (.slli,  fun a n => dword (a.toNat * 2 ^ n)),
    (.srli,  fun a n => dword (a.toNat / 2 ^ n)),
    (.srai,  fun a n => dword (a.toInt / 2 ^ n)),
    (.addiw, fun a i => sword (a.toInt + simm 12 i)),
    (.slliw, fun a n => sword (lo32 a * 2 ^ n)),
    (.srliw, fun a n => sword ((a.toNat % 2 ^ 32 / 2 ^ n : Nat) : Int)),
    (.sraiw, fun a n => sword (lo32 a / 2 ^ n)) ]

/-- The conditional branches of 15 R287, with the test that each makes. -/
def branchTests : List ((Nat → Nat → Nat → Instr) × (Word → Word → Prop)) :=
  [ (.beq,  fun a b => a = b),
    (.bne,  fun a b => a ≠ b),
    (.blt,  fun a b => a.toInt < b.toInt),
    (.bge,  fun a b => b.toInt ≤ a.toInt),
    (.bltu, fun a b => a.toNat < b.toNat),
    (.bgeu, fun a b => b.toNat ≤ a.toNat) ]

/-- Address of a scalar access: x[rs1] + sext(imm) (15 R288). -/
def accessVa (s : State) (rs1 imm : Nat) : Nat := (dword ((s.rx rs1).toInt + simm 12 imm)).toNat

/-- The loads of 15 R288: width in bytes, and whether the value is sign-extended. -/
def loadForms : List ((Nat → Nat → Nat → Instr) × Nat × Bool) :=
  [(.lb, 1, true), (.lh, 2, true), (.lw, 4, true), (.ld, 8, true), (.lbu, 1, false), (.lhu, 2, false), (.lwu, 4, false)]

/-- The stores of 15 R288: width in bytes. -/
def storeForms : List ((Nat → Nat → Nat → Instr) × Nat) := [(.sb, 1), (.sh, 2), (.sw, 4), (.sd, 8)]

/-- The atomics of 15 R292: width in bytes, and the new value from the old one and x[rs2], as numbers of that width. -/
def amoForms : List ((Nat → Nat → Nat → Nat → Nat → Instr) × Nat × (Nat → Nat → Int)) :=
  let sg := fun (n v : Nat) => simm (8 * n) v
  [ (.amoswapW, 4, fun _ b => b), (.amoswapD, 8, fun _ b => b),
    (.amoaddW, 4, fun t b => t + b), (.amoaddD, 8, fun t b => t + b),
    (.amoxorW, 4, fun t b => Nat.xor t b), (.amoxorD, 8, fun t b => Nat.xor t b),
    (.amoandW, 4, fun t b => Nat.land t b), (.amoandD, 8, fun t b => Nat.land t b),
    (.amoorW, 4, fun t b => Nat.lor t b), (.amoorD, 8, fun t b => Nat.lor t b),
    (.amominW, 4, fun t b => if sg 4 t ≤ sg 4 b then t else b), (.amominD, 8, fun t b => if sg 8 t ≤ sg 8 b then t else b),
    (.amomaxW, 4, fun t b => if sg 4 b ≤ sg 4 t then t else b), (.amomaxD, 8, fun t b => if sg 8 b ≤ sg 8 t then t else b),
    (.amominuW, 4, fun t b => if t ≤ b then t else b), (.amominuD, 8, fun t b => if t ≤ b then t else b),
    (.amomaxuW, 4, fun t b => if b ≤ t then t else b), (.amomaxuD, 8, fun t b => if b ≤ t then t else b) ]

/-- A number of n bytes sign-extended to a doubleword. -/
def sextBytes (n v : Nat) : Word := dword (simm (8 * n) v)

/-! ## Words of a convoy -/

/-- An element that the word under way covers: at or after lo and before hi, and active (00 R9). -/
def Covers (s : State) (q : Issue) (i : Nat) : Prop := q.lo ≤ i ∧ i < q.hi ∧ s.strand.active q.mode q.vl i = true

/-- From s to t the strand in turn alone has changed, and of it only vector registers, predicates, validity bits and the
sticky flags: no scalar register, no queue register, no PC, no memory. -/
structure VectorOnly (s t : State) : Prop where
  device : t = { s with ctxs := t.ctxs }
  others : ∀ w k, ctxKey w k ≠ ctxKey s.cur.1 s.cur.2 → t.ctx w k = s.ctx w k
  mine   : t.me = { s.me with strand := t.strand }
  strand : t.strand =
    { s.strand with v := t.strand.v, p := t.strand.p, vv := t.strand.vv, fflags := t.strand.fflags }

/-- What a slot holds for a narrow element: i8 and i16 sign-extended, every other type zero-extended (12 R228). -/
def slotBits (ty v : Nat) : Nat :=
  if ty = 0 ∨ ty = 2 then (BitVec.ofInt 32 (simm (tyWidth ty) v)).toNat else v

/-- Register vd's elements of a type are val where on holds and unchanged elsewhere, and no other register, predicate or
validity bit changes (09 R162). -/
structure WritesElems (s t : State) (ty vd : Nat) (on : Nat → Prop) (val : Nat → Nat) : Prop where
  only   : VectorOnly s t
  elems  : ∀ i, i < 4096 → on i → t.strand.elem ty vd i = val i
  narrow : tyPair ty = false → ∀ i, i < 4096 → on i → t.strand.slot vd i = slotBits ty (val i)
  off    : ∀ n i, i < 4096 → ¬ on i → t.strand.slot n i = s.strand.slot n i
  rest   : ∀ n i, i < 4096 → n ≠ vd → (tyPair ty = true → n ≠ vd + 1) → t.strand.slot n i = s.strand.slot n i
  preds  : t.strand.p = s.strand.p
  valid  : t.strand.vv = s.strand.vv

/-- The sticky flags of t are those of s and what the covered elements raise (12 R238, R239). -/
def Raises (s t : State) (on : Nat → Prop) (fl : Nat → Nat) : Prop :=
  ∀ b, bit t.strand.fflags b = true ↔ bit s.strand.fflags b = true ∨ ∃ i, on i ∧ bit (fl i) b = true

/-- An element as a number of its integer type. -/
def numOf (ty v : Nat) : Int := if ty % 2 = 0 then simm (tyWidth ty) v else (v % 2 ^ tyWidth ty : Nat)

/-- An exact integer wrapped to its type, or clamped to it (12 R240). -/
def intBits (ty : Nat) (sat : Bool) (n : Int) : Nat :=
  let w := tyWidth ty
  let lo : Int := if ty % 2 = 0 then -2 ^ (w - 1) else 0
  let hi : Int := if ty % 2 = 0 then 2 ^ (w - 1) - 1 else 2 ^ w - 1
  (BitVec.ofInt w (if sat then max lo (min hi n) else n)).toNat

/-! ### Exact values of the floating types, and their rounding (12 R229 to R240) -/

/-- Precision, exponent of the smallest normal number, and magnitude bits of the largest finite number, of a floating type
(R229, R231). -/
def floatRow : Nat → Nat × Int × Nat
  | 8 => (11, -14, 0x7BFF)
  | 9 => (8, -126, 0x7F7F)
  | 10 => (24, -126, 0x7F7FFFFF)
  | 11 => (53, -1022, 0x7FEFFFFFFFFFFFFF)
  | 12 => (4, -6, 0x7E)
  | _ => (3, -14, 0x7B)

/-- Sign and magnitude bits of an element of a floating type. -/
def negOf (ty v : Nat) : Bool := bit v (tyWidth ty - 1)
def magBits (ty v : Nat) : Nat := v % 2 ^ (tyWidth ty - 1)

/-- The number that magnitude bits of a finite number stand for. -/
def magnitude (ty m : Nat) : ℚ :=
  let p := (floatRow ty).1
  let low := (floatRow ty).2.1 - (p - 1 : Nat)
  if m < 2 ^ (p - 1) then m * 2 ^ low
  else (2 ^ (p - 1) + m % 2 ^ (p - 1) : Nat) * 2 ^ (low + (m / 2 ^ (p - 1) : Nat) - 1)

/-- A finite number of the type, an infinity, and a NaN, which is signalling with the first fraction bit clear; the NaN of
e4m3 is quiet. -/
abbrev finite (ty v : Nat) : Prop := magBits ty v ≤ (floatRow ty).2.2
abbrev infinite (ty v : Nat) : Prop := ty ≠ 12 ∧ magBits ty v = (floatRow ty).2.2 + 1
abbrev notNumber (ty v : Nat) : Prop := ¬ finite ty v ∧ ¬ infinite ty v
abbrev signalling (ty v : Nat) : Prop := notNumber ty v ∧ ty ≠ 12 ∧ bit v ((floatRow ty).1 - 2) = false
def number (ty v : Nat) : ℚ := if negOf ty v then -magnitude ty (magBits ty v) else magnitude ty (magBits ty v)

/-- The canonical NaN (R229): the first fraction bit set, and for e4m3 the one NaN. -/
def nanBits (ty : Nat) : Nat := if ty = 12 then 0x7F else (floatRow ty).2.2 + 1 + 2 ^ ((floatRow ty).1 - 2)

/-- n is the magnitude x, of a number with the given sign, brought to an integer under a mode: RNE, RTZ, RDN, RUP and RMM (R237). -/
def RoundsTo (rm : Nat) (neg : Bool) (x : ℝ) (n : Nat) : Prop :=
  match rm, neg with
  | 0, _ => |x - n| ≤ 1 / 2 ∧ (|x - n| = 1 / 2 → n % 2 = 0)
  | 1, _ | 2, false | 3, true => n ≤ x ∧ x < n + 1
  | 2, true | 3, false => x ≤ n ∧ n < x + 1
  | _, _ => |x - n| ≤ 1 / 2 ∧ (|x - n| = 1 / 2 → x < n)

/-- Magnitude bits of what an overflow gives: an infinity, the largest finite number, or the NaN of e4m3 (R237, R232). -/
def overflowBits (ty rm : Nat) (sat neg : Bool) : Nat :=
  let top := (floatRow ty).2.2
  if ty = 12 ∨ (ty = 13 ∧ sat = true) then (if sat then top else top + 1)
  else if rm = 1 ∨ (rm = 2 ∧ neg = false) ∨ (rm = 3 ∧ neg = true) then top else top + 1

/-- r, bits and flags, is the exact number ±x, which is not zero, rounded to a type (R237, R238, R232): x is first rounded to the
precision with an unbounded exponent, n × 2^q; an overflow is judged, and a tiny result, on that; what does not overflow is rounded
to a multiple of the last place that the type has there. -/
def Rounded (ty rm : Nat) (sat neg : Bool) (x : ℝ) (r : Nat × Nat) : Prop :=
  let p := (floatRow ty).1
  let emin := (floatRow ty).2.1
  let top := (floatRow ty).2.2
  let sign := neg.toNat * 2 ^ (tyWidth ty - 1)
  ∃ (q : Int) (n : Nat), 2 ^ (q + p - 1) ≤ x ∧ x < 2 ^ (q + p) ∧ RoundsTo rm neg (x / 2 ^ q) n ∧
    ((magnitude ty top : ℝ) < n * 2 ^ q → r = (sign + overflowBits ty rm sat neg, 5)) ∧
    (n * 2 ^ q ≤ (magnitude ty top : ℝ) → ∃ m k, m ≤ top ∧ r.1 = sign + m ∧
      let u := max q (emin - (p - 1 : Nat))
      RoundsTo rm neg (x / 2 ^ u) k ∧ (magnitude ty m : ℝ) = k * 2 ^ u ∧
      r.2 = if k * 2 ^ u = x then 0 else if n * 2 ^ q < (2 : ℝ) ^ emin then 3 else 1)

/-- r is the canonical NaN, with NV where an operand is a signalling NaN or the operation is invalid. -/
def Nan (ty : Nat) (invalid : Prop) (r : Nat × Nat) : Prop := r.1 = nanBits ty ∧ (invalid → r.2 = 16) ∧ (¬ invalid → r.2 = 0)

/-- r is an exact sum rounded: `negZero` is the sign of an exact zero. -/
def RoundedSum (ty rm : Nat) (sat : Bool) (x : ℚ) (negZero : Bool) (r : Nat × Nat) : Prop :=
  (x ≠ 0 → Rounded ty rm sat (decide (x < 0)) |x| r) ∧ (x = 0 → r = (negZero.toNat * 2 ^ (tyWidth ty - 1), 0))

/-- The second operand of R333: element i of vb, or the low bits of the captured register. -/
def operandB (s : State) (q : Issue) (vb sx i : Nat) : Nat :=
  if sx = 1 then (q.cap 0).toNat % 2 ^ tyWidth q.mode.etype else s.strand.elem q.mode.etype vb i

/-- The words of 18 R333 but VSCALE on an integer type: the element's new bits. -/
def integerForms : List ((Nat → Nat → Nat → Nat → Instr) × (Nat → Bool → Nat → Nat → Nat)) :=
  [ (.vadd,  fun ty sat a b => intBits ty sat (numOf ty a + numOf ty b)),
    (.vsub,  fun ty sat a b => intBits ty sat (numOf ty a - numOf ty b)),
    (.vrsub, fun ty sat a b => intBits ty sat (numOf ty b - numOf ty a)),
    (.vmul,  fun ty sat a b => intBits ty sat (numOf ty a * numOf ty b)),
    (.vmulh, fun ty _ a b => intBits ty false (numOf ty a * numOf ty b / 2 ^ tyWidth ty)),
    (.vdiv,  fun ty _ a b => if numOf ty b = 0 then 2 ^ tyWidth ty - 1 else intBits ty false ((numOf ty a).tdiv (numOf ty b))),
    (.vrem,  fun ty _ a b => if numOf ty b = 0 then a else intBits ty false ((numOf ty a).tmod (numOf ty b))),
    (.vmin,  fun ty _ a b => if numOf ty a < numOf ty b then a else b),
    (.vmax,  fun ty _ a b => if numOf ty a < numOf ty b then b else a),
    (.vand,  fun _ _ a b => Nat.land a b),
    (.vor,   fun _ _ a b => Nat.lor a b),
    (.vxor,  fun _ _ a b => Nat.xor a b),
    (.vsll,  fun ty sat a b => intBits ty sat (numOf ty a * 2 ^ (b % tyWidth ty))),
    (.vsrl,  fun ty _ a b => a / 2 ^ (b % tyWidth ty)),
    (.vsra,  fun ty _ a b => intBits ty false (simm (tyWidth ty) a / 2 ^ (b % tyWidth ty))) ]

/-- The words of 18 R333 but VSCALE on a floating type: bits and flags, with the operations of 12 R237 to R240. -/
def floatForms : List ((Nat → Nat → Nat → Nat → Instr) × (Mode → Nat → Nat → Nat × Nat)) :=
  [ (.vadd,  fun m a b => fAdd m.etype m.rm m.sat a b),
    (.vsub,  fun m a b => fSub m.etype m.rm m.sat a b),
    (.vrsub, fun m a b => fSub m.etype m.rm m.sat b a),
    (.vmul,  fun m a b => fMul m.etype m.rm m.sat a b),
    (.vdiv,  fun m a b => fDiv m.etype m.rm m.sat a b),
    (.vmin,  fun m a b => fMinMax false m.etype a b),
    (.vmax,  fun m a b => fMinMax true m.etype a b),
    (.vsgnj, fun m a b => (a % 2 ^ (tyWidth m.etype - 1) + b / 2 ^ (tyWidth m.etype - 1) % 2 * 2 ^ (tyWidth m.etype - 1), 0)) ]

/-- An element as a doubleword: sign-extended for the signed integer types, zero-extended otherwise (18 R347). -/
def extOf (ty v : Nat) : Word := dword (if tyInt ty = true ∧ ty % 2 = 0 then simm (tyWidth ty) v else v)

/-- The active elements below VL, of the word under way. -/
def Act (s : State) (q : Issue) (i : Nat) : Prop := i < q.vl ∧ s.strand.active q.mode q.vl i = true

/-- The fixed binary tree of 12 R244 over 2^k indices from lo: a value if any element is there, and the flags of every
combination. -/
def reduceTree (op : Nat → Nat → Nat × Nat) (leaf : Nat → Option Nat) : Nat → Nat → Option Nat × Nat
  | 0, lo => (leaf lo, 0)
  | k + 1, lo =>
    let a := reduceTree op leaf k lo
    let b := reduceTree op leaf k (lo + 2 ^ k)
    match a.1, b.1 with
    | none, _ => (b.1, Nat.lor a.2 b.2)
    | _, none => (a.1, Nat.lor a.2 b.2)
    | some x, some y => ((op x y).1, Nat.lor (op x y).2 (Nat.lor a.2 b.2))

/-- The combiners of the reductions of 18 R346 but VFREDOSUM. -/
def reduceForms : List ((Nat → Nat → Nat → Nat → Instr) × (Mode → Nat → Nat → Nat × Nat)) :=
  [ (.vredsum, fun m a b => if tyInt m.etype = true then (intBits m.etype m.sat (numOf m.etype a + numOf m.etype b), 0)
      else fAdd m.etype m.rm m.sat a b),
    (.vredmax, fun m a b => if tyInt m.etype = true then (if numOf m.etype a < numOf m.etype b then b else a, 0)
      else fMinMax true m.etype a b),
    (.vredmin, fun m a b => if tyInt m.etype = true then (if numOf m.etype a < numOf m.etype b then a else b, 0)
      else fMinMax false m.etype a b),
    (.vredand, fun _ a b => (Nat.land a b, 0)),
    (.vredor,  fun _ a b => (Nat.lor a b, 0)),
    (.vredxor, fun _ a b => (Nat.xor a b, 0)) ]

/-- From s to t the strand in turn alone has changed. -/
structure StrandOnly (s t : State) : Prop where
  device : t = { s with ctxs := t.ctxs }
  others : ∀ w k, ctxKey w k ≠ ctxKey s.cur.1 s.cur.2 → t.ctx w k = s.ctx w k
  mine   : t.me = { s.me with strand := t.strand }

/-- The word halts and nothing else changes. -/
def HaltsAs (s t : State) (q : Issue) (h : Halt) : Prop := t = { s with issue := some { q with halt := some h } }

/-- Coordinates of element i of a geometric word, brought to one exponent: sign and order of every determinant are those
of the values (24 R420). -/
def geoX (s : State) (g : GWord) (ty vs i : Nat) : Nat → Int :=
  intCoords ((List.range g.coords).map fun k => fpOf 11 (coordAt s.strand ty vs i k))

/-- The determinants of 24 R421 written out, for GOR2, GOR3 and GINC. -/
def det2 (a b c d : Int) : Int := a * d - b * c
def det3 (a b c d e f g h i : Int) : Int := a * (e * i - f * h) - b * (d * i - f * g) + c * (d * h - e * g)
def detGor2 (x : Nat → Int) : Int := det2 (x 0 - x 4) (x 1 - x 5) (x 2 - x 4) (x 3 - x 5)
def detGor3 (x : Nat → Int) : Int :=
  det3 (x 0 - x 9) (x 1 - x 10) (x 2 - x 11) (x 3 - x 9) (x 4 - x 10) (x 5 - x 11) (x 6 - x 9) (x 7 - x 10) (x 8 - x 11)
def detGinc (x : Nat → Int) : Int :=
  let l := fun p => (x p - x 6) ^ 2 + (x (p + 1) - x 7) ^ 2
  det3 (x 0 - x 6) (x 1 - x 7) (l 0) (x 2 - x 6) (x 3 - x 7) (l 2) (x 4 - x 6) (x 5 - x 7) (l 4)

/-! ## Accesses of vector elements, and the scalar stream beside its queues -/

/-- From s to t the strand in turn has become u, and nothing else has changed but visit sets of launches (08 R152). -/
structure Becomes (s t : State) (u : Strand) : Prop where
  own    : OwnStrand s t
  strand : t.strand = u

/-- u after a scalar instruction has retired at pc. -/
def Strand.past (u : Strand) (pc : Word) : Strand := { u with pc := pc }

/-- From s to t writes of the strand in turn have performed; no page of the device and no other register of a strand has
changed, and the strand in turn is u but for its reservation and its monitor, which a write may touch. -/
structure Wrote (s t : State) (u : Strand) : Prop where
  device : t = { s with mem := t.mem, lineSlot := t.lineSlot, lineBad := t.lineBad, dirty := t.dirty, dirtyV := t.dirtyV,
                        ctxs := t.ctxs, launches := t.launches, queues := t.queues, work := t.work }
  queues : ∀ q, SameQueue (s.queue q) (t.queue q)
  others : ∀ w k, ctxKey w k ≠ ctxKey s.cur.1 s.cur.2 → SameCtx (s.ctx w k) (t.ctx w k)
  mine   : t.me = { s.me with strand := t.strand }
  strand : t.strand = { u with resv := t.strand.resv, mon := t.strand.mon }
  launches : ∀ w l, t.launch w l = { s.launch w l with visited := (t.launch w l).visited }

/-- Elements in ascending order, each in the state that the one before it has left; none: one of them does not answer. -/
def inOrder (f : State → Nat → Option State) : List Nat → State → Option State
  | [], s => some s
  | i :: is, s => (f s i).bind (inOrder f is)

/-- The elements that a word covers, in order, each active one as f says. -/
def overCovered (q : Issue) (f : State → Nat → Option State) : State → Option State :=
  inOrder (fun s i => if s.strand.active q.mode q.vl i = true then f s i else some s) (rangeFrom q.lo q.hi)

/-- As `overCovered`, for blocks: VL and the guard decide, whatever the block's validity (19 R368, R369). -/
def overBlocks (q : Issue) (f : State → Nat → Option State) : State → Option State :=
  inOrder (fun s i => if i < q.vl ∧ s.strand.admits q.mode i = true then f s i else some s) (rangeFrom q.lo q.hi)

/-- Element i of the strand in turn loads n bytes: the state after and the number read, where the access answers now. -/
def loadsAt (s : State) (i va n : Nat) : Option (State × Nat) :=
  match elementLoad s s.cur.1 s.cur.2 (s.me.core (i / 512)) va n with
  | .value t v => some (t, v)
  | _ => none

/-- Element i stores the low n bytes of v, against the locked ranges of its convoy and in its strip. -/
def storesAt (q : Issue) (s : State) (i va n v : Nat) : Option State :=
  match elementStore s s.cur.1 s.cur.2 (s.me.core (i / 512)) va n v q.cv.locks (some q.cv.strip) with
  | .next t => some t
  | _ => none

/-- No read of this convoy is out with the host. -/
def NoneAsked (s : State) (q : Issue) : Prop := ∀ o ∈ s.strand.ops, o.kind ≠ 2 ∨ o.group ≠ q.cv.seq + 1

/-- Address of element i (19 R358): base and element, base and stride, base and signed index. -/
def unitVa (q : Issue) (i : Nat) : Nat := ((q.cap 0).toNat + i * (tyWidth q.mode.etype / 8)) % 2 ^ 64
def strideVa (q : Issue) (i : Nat) : Nat := (dword ((q.cap 0).toInt + i * (q.cap 1).toInt)).toNat
def indexVa (s : State) (q : Issue) (vi i : Nat) : Nat := (dword ((q.cap 0).toInt + simm 32 (s.strand.slot vi i))).toNat

/-- The updates of 19 R364: the new value from the old one t and the operand b, as numbers of the type's width. -/
def vamoForms : List (Nat × (Nat → Nat → Nat → Nat)) :=
  [ (0, fun ty t b => intBits ty false (numOf ty t + numOf ty b)),
    (1, fun _ t b => Nat.land t b),
    (2, fun _ t b => Nat.lor t b),
    (3, fun _ t b => Nat.xor t b),
    (4, fun ty t b => if numOf ty t ≤ numOf ty b then t else b),
    (5, fun ty t b => if numOf ty t ≤ numOf ty b then b else t),
    (6, fun _ _ b => b),
    (7, fun ty t b => (fAdd ty 0 false t b).1) ]

/-! ## Operand records and chunks -/

/-- Record j of an MSTEPR at base is read (22 R413): the state after, and the record's eight doublewords. -/
def readsRecord (s : State) (base j : Nat) : Option (State × Record) :=
  match readRuns s s.cur.1 s.cur.2 true [((base + 64 * j) % 2 ^ 64, 64)] with
  | .got t bs => some (t, { d := (List.range 8).map fun i => natOf ((bs.drop (8 * i)).take 8) })
  | _ => none

/-- The operation of record j of an MSTEPR, before its name, its batch and its code address are given (22 R413, R416). -/
def recordOp (q : Issue) (m bands base j : Nat) (r : Record) : MatOp :=
  { MatOp.zero with
    kind := 0x20, func := m + 16 * q.mode.etype, xa := base, index := j, rows := List.range r.rows, words := r.d, bands := bands }

/-- Record j issues, where it can be read, its rows of A pass their check and the record of the strand has room. -/
def issuesRecord (q : Issue) (m bands base : Nat) (s : State) (j : Nat) : Option State :=
  (readsRecord s base j).bind fun x =>
    let r := x.2
    if ((if tMat r.afmt then checkRows x.1 s.cur.1 s.cur.2 true r.afmt r.astride r.abase r.depth (List.range r.rows)
        else none).isNone) && virgaRoom s s.cur.1 s.cur.2 1 then
      some (holdMatrix x.1 q (recordOp q m bands base j r))
    else none

/-- From s to t a matrix operation has issued (22 R416): it stands in the record with what a virga entry shows of it, the
Anvil holds it last, in the batch under way, and its rows follow. -/
structure Held (s t : State) (a : Anvil) (q : Issue) (h : MatOp) : Prop where
  device : t = { s with ctxs := t.ctxs, work := t.work }
  others : ∀ w k, ctxKey w k ≠ ctxKey s.cur.1 s.cur.2 → t.ctx w k = s.ctx w k
  mine   : t.me = { s.me with strand := t.strand }
  record : t.strand.ops = s.strand.ops ++ [{ Op.zero with
             id := s.strand.opNext, kind := h.kind, cls := 2, func := h.func, slot := q.slot, addr := h.xa,
             opnd := (q.cap 1).toNat, tag := h.progress, pc := q.cv.addr }]
  held   : t.strand.anvil = some { a with held := a.held ++ [{ h with
             op := s.strand.opNext, pc := q.cv.addr, slot := q.slot, xp := (q.cap 1).toNat, batch := s.strand.batchNow a }] }
  strand : t.strand = { s.strand with ops := t.strand.ops, anvil := t.strand.anvil, opNext := s.strand.opNext + 1 }
  rows   : t.work = s.work ++ (if a.held = [] then [event .batchComplete [s.cur.1, s.cur.2]] else [])

/-- Chunk i of a copy word stands outstanding, and its completion is due (21 R379). -/
def sendsChunk (q : Issue) (kind op5 reg group : Nat) (s : State) (i src dst len : Nat) : Option State :=
  if meets dst len q.cv.locks = true ∨ virgaRoom s s.cur.1 s.cur.2 1 = false then none
  else some ((s.onStrand fun u => u.addOp { Op.zero with
      kind := kind, func := op5, reg := reg, elem := i, slot := q.slot, addr := src, opnd := dst, len := len, idx := i
      group := group, pc := q.cv.addr }).push .chunkComplete [s.cur.1, s.cur.2, s.strand.opNext])

/-- From s to t the strand in turn enters a wait (03 R57): the context reads WAITING, PC stands past the instruction, and
nothing else changes but what a write of its page wakes. -/
structure Waits (s t : State) (wt : Wait) : Prop where
  device : t = { s with ctxs := t.ctxs, queues := t.queues, work := t.work }
  queues : ∀ q, SameQueue (s.queue q) (t.queue q)
  others : ∀ w k, ctxKey w k ≠ ctxKey s.cur.1 s.cur.2 → SameCtx (s.ctx w k) (t.ctx w k)
  mine   : t.me = { s.me with state := .waiting, wait := some wt, strand := t.strand }
  strand : t.strand = { (s.strand.past (s.pc + 4)) with resv := t.strand.resv, mon := t.strand.mon }

/-! ## Events of the device -/

/-- v' is v with bit i set to b. -/
def Sets (v v' i : Nat) (b : Bool) : Prop := ∀ j, bit v' j = if j = i then b else bit v j

/-- Record n of a collection is x, and every other record is as before. -/
def OnlyAt {α : Type} (f g : Nat → α) (n : Nat) (x : α) : Prop := ∀ j, g j = if j = n then x else f j

/-- t is s but for what the change of a control word wakes (10 R203): reservations and monitors on the line, streams
that try again, follow-up steps added to the work. -/
structure Woken (s t : State) : Prop where
  device : t = { s with ctxs := t.ctxs, queues := t.queues, work := t.work }
  queues : ∀ q, SameQueue (s.queue q) (t.queue q)
  ctxs   : ∀ w k, t.ctx w k = { s.ctx w k with strand := { (s.ctx w k).strand with
             resv := (t.ctx w k).strand.resv, mon := (t.ctx w k).strand.mon,
             vaHold := (t.ctx w k).strand.vaHold, vmHold := (t.ctx w k).strand.vmHold } }
  work   : ∃ es, t.work = s.work ++ es

/-- The operating point of a cluster after something has set TARGET (02 R30): a change begins where none is under way. -/
def started (p : Power) : Power :=
  if p.changing = true ∨ p.target = p.cur then p
  else { p with changing := true, goal := p.target, phase := if p.cur < p.target then 1 else 2, since := p.icount }

/-- A point set from the two limiters (02 R36, R37): LIMIT, and TARGET where it stands above a LIMIT that has fallen. -/
def limited (p : Power) : Power :=
  let n := if p.thermal = true then Nat.min p.plim 3 else p.plim
  if n < p.limit then started { p with limit := n, target := Nat.min p.target n } else { p with limit := n }

/-- The readiness page holds r after one event (01 R453): GEN has advanced by one, unless no field has changed. -/
def State.withReady (s : State) (r : Ready) : State :=
  if r = s.ready then s else { s with ready := { r with gen := s.ready.gen + 1 } }

/-- The power page of a cluster that becomes ready (02 R32, R37): its reset values and the sensors' TEMP_C, to which the thermal
limiter reacts. -/
def State.freshPower (s : State) (c : Nat) : Power :=
  let p : Power := { Power.zero with tempC := (s.pow c).tempC }
  if 100 ≤ p.tempC then limited { p with hot := true, thermal := true } else p

/-! ## The policy core (06 R123, R125) -/

/-- The step under way needs the policy core and waits: the core does not serve, or an earlier store waits. -/
def MustWait (s : State) : Prop := s.core.up = false ∨ ∃ x r, s.waiting = x :: r ∧ x ≠ .ev s.ev

/-- The step under way goes now, and those that wait after it are r. -/
def MayGo (s : State) (r : List Waiter) : Prop :=
  s.core.up = true ∧ ((s.waiting = [] ∧ r = []) ∨ s.waiting = .ev s.ev :: r)

/-- It has joined those that wait, and nothing else has changed. -/
def Deferred (i : Instr) (s : State) : Prop := Answers i s (· = { s with deferred := s.deferred ++ [.ev s.ev] })

/-- The log of t ends with these records. -/
def Logged (t : State) (rs : List WalRec) : Prop := rs <:+ t.wal

/-- The ring holds a transaction's records without an old one giving way. -/
def LogRoom (s : State) : Prop := s.wal.length + 8 ≤ walRing

end Sys2Proof.Machine
end

