-- ==== Sys2Proof/Certificates/Slice0/Obligations.lean ====
section
/-!
DEFINITION. The statements for the provers.
-/

open Sys2Proof Sys2Proof.Machine

/-! ## The scalar base -/

/-- 15 R289, R290, 12 R241, and LUI and AUIPC of 15 R287: every register-register and register-immediate instruction
completes in every state, writes its value to x[rd] (x0 discards it), advances PC by 4, and changes nothing else. -/
def Obligations.RegisterValues : Prop :=
  (∀ e ∈ regRegValues ++ regRegWordValues, ∀ (rd rs1 rs2 : Nat) (s : State),
     Answers (e.1 rd rs1 rs2) s fun t => Retires s t rd (e.2 (s.rx rs1) (s.rx rs2)) (s.pc + 4)) ∧
  (∀ e ∈ regImmValues, ∀ (rd rs1 imm : Nat) (s : State),
    Answers (e.1 rd rs1 imm) s fun t => Retires s t rd (e.2 (s.rx rs1) imm) (s.pc + 4)) ∧
  ∀ (rd imm : Nat) (s : State),
    (Answers (.lui rd imm) s fun t => Retires s t rd (dword (simm 32 (imm * 2 ^ 12))) (s.pc + 4)) ∧
    Answers (.auipc rd imm) s fun t => Retires s t rd (s.pc + dword (simm 32 (imm * 2 ^ 12))) (s.pc + 4)

/-- 15 R287, R293: a jump whose target is a multiple of 4, a taken branch with such a target, and a branch that is not
taken complete: the jump writes the return address to x[rd], PC takes its new value, and nothing else changes. -/
def Obligations.ControlTransfers : Prop :=
  (∀ (rd off : Nat) (s : State), (s.pc + dword (simm 21 off)).toNat % 4 = 0 →
    Answers (.jal rd off) s fun t => Retires s t rd (s.pc + 4) (s.pc + dword (simm 21 off))) ∧
  (∀ (rd rs1 imm : Nat) (s : State), ((s.rx rs1 + dword (simm 12 imm)) &&& ~~~1#64).toNat % 4 = 0 →
    Answers (.jalr rd rs1 imm) s fun t => Retires s t rd (s.pc + 4) ((s.rx rs1 + dword (simm 12 imm)) &&& ~~~1#64)) ∧
  ∀ e ∈ branchTests, ∀ (rs1 rs2 off : Nat) (s : State),
    (e.2 (s.rx rs1) (s.rx rs2) → (s.pc + dword (simm 13 off)).toNat % 4 = 0 →
      Answers (e.1 rs1 rs2 off) s fun t => Retires s t 0 0 (s.pc + dword (simm 13 off))) ∧
    (¬ e.2 (s.rx rs1) (s.rx rs2) → Answers (e.1 rs1 rs2 off) s fun t => Retires s t 0 0 (s.pc + 4))

/-- 15 R293: a JAL, a JALR or a taken branch to a target that is not a multiple of 4, and a scalar load, store or atomic
(LR and SC among them) whose address is not a multiple of its width, fault MISALIGN at the instruction, with the target or the
address in FADDR; no register is written and nothing is performed. The context is one that can take a fault (03 R57). An atomic
with rl faults once earlier scalar accesses have performed, and an LR with aq once no atomic with rl is outstanding. -/
def Obligations.MisalignedAddresses : Prop :=
  (∀ s : State, s.me.state.live = true →
     (∀ (rd off : Nat), (s.pc + dword (simm 21 off)).toNat % 4 ≠ 0 →
       Answers (.jal rd off) s fun t => FaultsAtPc s t .misalign (s.pc + dword (simm 21 off)).toNat) ∧
     (∀ (rd rs1 imm : Nat), ((s.rx rs1 + dword (simm 12 imm)) &&& ~~~1#64).toNat % 4 ≠ 0 →
       Answers (.jalr rd rs1 imm) s fun t =>
         FaultsAtPc s t .misalign ((s.rx rs1 + dword (simm 12 imm)) &&& ~~~1#64).toNat) ∧
     ∀ e ∈ branchTests, ∀ (rs1 rs2 off : Nat), e.2 (s.rx rs1) (s.rx rs2) → (s.pc + dword (simm 13 off)).toNat % 4 ≠ 0 →
       Answers (e.1 rs1 rs2 off) s fun t => FaultsAtPc s t .misalign (s.pc + dword (simm 13 off)).toNat) ∧
  ∀ s : State, s.me.state.live = true →
    (∀ e ∈ loadForms, ∀ (rd rs1 imm : Nat), accessVa s rs1 imm % e.2.1 ≠ 0 →
      Answers (e.1 rd rs1 imm) s fun t => FaultsAtPc s t .misalign (accessVa s rs1 imm)) ∧
    (∀ e ∈ storeForms, ∀ (rs2 rs1 imm : Nat), accessVa s rs1 imm % e.2 ≠ 0 →
      Answers (e.1 rs2 rs1 imm) s fun t => FaultsAtPc s t .misalign (accessVa s rs1 imm)) ∧
    (∀ e ∈ amoForms, ∀ (rd rs1 rs2 aq rl : Nat), (rl = 1 → scalarDone s true true = true) →
      (s.rx rs1).toNat % e.2.1 ≠ 0 →
      Answers (e.1 rd rs1 rs2 aq rl) s fun t => FaultsAtPc s t .misalign (s.rx rs1).toNat) ∧
    (∀ e ∈ [(Instr.scW, 4), (Instr.scD, 8)], ∀ (rd rs1 rs2 aq rl : Nat), (rl = 1 → scalarDone s true true = true) →
      (s.rx rs1).toNat % e.2 ≠ 0 →
      Answers (e.1 rd rs1 rs2 aq rl) s fun t => FaultsAtPc s t .misalign (s.rx rs1).toNat) ∧
    ∀ e ∈ [(Instr.lrW, 4), (Instr.lrD, 8)], ∀ (rd rs1 aq rl : Nat), (rl = 1 → scalarDone s true true = true) →
      (aq = 1 → s.strand.releasing = false) → (s.rx rs1).toNat % e.2 ≠ 0 →
      Answers (e.1 rd rs1 aq rl) s fun t => FaultsAtPc s t .misalign (s.rx rs1).toNat

/-- 15 R288, R294: a load whose access passes its checks to memory, and does not wait, writes the little-endian bytes at
its address, extended, to x[rd]; beside A of the leaf (`setAD`, see AccessedAndDirty) nothing else changes. -/
def Obligations.LoadValues : Prop :=
  ∀ e ∈ loadForms, ∀ (rd rs1 imm : Nat) (s : State) (x : Xlat) (pa : Nat),
    checkAccess s s.cur.1 s.cur.2 (s.me.core 0)
      (scalarAsk s s.cur.1 s.cur.2 (accessVa s rs1 imm) e.2.1 .load none) = .ok x →
    walkBusy s s.cur.1 s.cur.2 (accessVa s rs1 imm) e.2.1 .load = false → x.target = .mem pa → scalarWaits s s.cur.1 s.cur.2 pa e.2.1 = false →
    tagFails s (keySlot s s.cur.1) pa e.2.1 = false →
    Answers (e.1 rd rs1 imm) s fun t =>
      let v := natOf (readBytes s (keySlot s s.cur.1) pa e.2.1)
      Retires (setAD s s.cur.1 x .load) t rd (if e.2.2 then sextBytes e.2.1 v else dword v) (s.pc + 4)

/-- 15 R288, 05 R105: a store whose access passes its checks to memory, and does not wait, writes the low bytes of
x[rs2] at the address that the access translates to. Every other byte reads as before, and beside PC nothing of the
strand changes. A and D of the leaf are `setAD`'s (see AccessedAndDirty). -/
def Obligations.StoreBytes : Prop :=
  ∀ e ∈ storeForms, ∀ (rs2 rs1 imm : Nat) (s : State) (x : Xlat) (pa : Nat),
    let w := s.cur.1
    let k := s.cur.2
    let v := (s.rx rs2).toNat
    let s1 := setAD s w x .store
    checkAccess s w k (s.me.core 0)
      (scalarAsk s w k (accessVa s rs1 imm) e.2 .store (if e.2 = 8 then some v else none)) = .ok x →
    walkBusy s w k (accessVa s rs1 imm) e.2 .store = false → x.target = .mem pa → granuleHeld s w k pa e.2 = false → s.strand.acquiring = false →
    s.strand.updating pa e.2 = false → convoyNames s w k pa e.2 = false →
    s.strand.lockPending (accessVa s rs1 imm) e.2 = false →
    writeTagFails s (keySlot s w) pa e.2 = false → writeWaits s pa e.2 = false →
    Answers (e.1 rs2 rs1 imm) s fun t =>
      Stored s1 t (s.pc + 4) ∧ BytesWritten s1 t (keySlot s w) pa (bytesOf e.2 v) ∧ OtherLines s1 t pa e.2

/-- 03 R69: an access that has passed its translation sets A of its leaf, and a write sets D too, in the entry's eight
bytes; every other byte reads as before, and no register of any strand changes. A window's access sets nothing. -/
def Obligations.AccessedAndDirty : Prop :=
  ∀ (s : State) (w : Nat) (x : Xlat) (a : Acc),
    (x.leaf = none → setAD s w x a = s) ∧
    ∀ l, x.leaf = some l → l.loc % 8 = 0 → isMem l.loc = true → slotOf s.lineSlot (l.loc / 64) = keySlot s w →
      readNum s (keySlot s w) l.loc 8 = l.entry →
      let t := setAD s w x a
      let e := readNum t (keySlot s w) l.loc 8
      bit e 4 = true ∧ (a.writes = true → bit e 5 = true) ∧ (a.writes = false → bit e 5 = bit l.entry 5) ∧
      (∀ i, i ≠ 4 → i ≠ 5 → bit e i = bit l.entry i) ∧
      (∀ slot b, b < l.loc ∨ l.loc + 8 ≤ b → readByte t slot b = readByte s slot b) ∧
      (∀ w' k, SameCtx (s.ctx w' k) (t.ctx w' k)) ∧ t.launches = s.launches ∧
      (∀ q, SameQueue (s.queue q) (t.queue q)) ∧ t.worlds = s.worlds

/-- 15 R292, R296: an AMO to memory that passes its checks, meets no waiting access and finds its port free reads its
old value, stores the new one at its width, writes the old one sign-extended to x[rd], and advances PC; every other byte
reads as before. With rl, earlier scalar accesses have performed; with aq, no earlier atomic with rl is outstanding. -/
def Obligations.AtomicUpdates : Prop :=
  ∀ e ∈ amoForms, ∀ (rd rs1 rs2 aq rl : Nat) (s : State) (x : Xlat) (pa : Nat),
    let w := s.cur.1
    let k := s.cur.2
    let n := e.2.1
    let s1 := setAD s w x .amo
    let old := natOf (readBytes s1 (keySlot s w) pa n)
    (rl = 1 → scalarDone s true true = true) → (aq % 2 = 1 → s.strand.releasing = false) →
    checkAccess s w k (s.me.core 0) (scalarAsk s w k (s.rx rs1).toNat n .amo none) = .ok x →
    walkBusy s w k (s.rx rs1).toNat n .amo = false → s.strand.lockPending (s.rx rs1).toNat n = false →
    x.target = .mem pa → virgaRoom s w k 1 = true → granuleHeld s w k pa n = false → s.strand.acquiring = false →
    s.strand.updating pa n = false → convoyNames s w k pa n = false → portLater s pa n = false → writeTagFails s1 (keySlot s w) pa n = false →
    Answers (e.1 rd rs1 rs2 aq rl) s fun t =>
      BytesWritten s1 t (keySlot s w) pa (bytesOf n (BitVec.ofInt 64 (e.2.2 old ((s.rx rs2).toNat % 2 ^ (8 * n)))).toNat) ∧
      OtherLines s1 t pa n ∧ t.pc = s.pc + 4 ∧
      (∀ r, t.rx r = if r = rd ∧ r ≠ 0 then sextBytes n old else s.rx r) ∧
      (∀ w' k', ctxKey w' k' ≠ ctxKey w k → SameCtx (s1.ctx w' k') (t.ctx w' k')) ∧
      t.strand.v = s.strand.v ∧ t.strand.ops = s.strand.ops ∧ t.strand.vl = s.strand.vl ∧
      (∀ q, SameQueue (s1.queue q) (t.queue q)) ∧ t.worlds = s1.worlds

/-- 15 R292, R297: an LR to memory that passes its checks and does not wait writes the value there, sign-extended, to
x[rd] and reserves the 64-byte granule for its address and width; beside A of the leaf nothing else changes. An SC whose
checks pass and that does not wait clears the reservation: where it stands for its address, width and granule it writes
x[rs2] at its width and 0 to x[rd]; otherwise it writes no byte, and 1 to x[rd]. -/
def Obligations.ReserveAndConditional : Prop :=
  (∀ e ∈ [(Instr.lrW, 4), (Instr.lrD, 8)], ∀ (rd rs1 aq rl : Nat) (s : State) (x : Xlat) (pa : Nat),
     let w := s.cur.1
     let k := s.cur.2
     let va := (s.rx rs1).toNat
     let s1 := setAD s w x .load
     (rl = 1 → scalarDone s true true = true) → (aq = 1 → s.strand.releasing = false) →
     checkAccess s w k (s.me.core 0) (scalarAsk s w k va e.2 .load none) = .ok x → x.target = .mem pa →
     walkBusy s w k va e.2 .load = false → scalarWaits s w k pa e.2 = false → granuleHeld s w k pa e.2 = false → tagFails s (keySlot s w) pa e.2 = false →
     Answers (e.1 rd rs1 aq rl) s fun t =>
       Retires (s1.onStrand fun t => { t with
           resv := some { addr := va, width := e.2, granule := pa / 64, hold := true } }) t rd
         (sextBytes e.2 (natOf (readBytes s (keySlot s w) pa e.2))) (s.pc + 4)) ∧
  ∀ e ∈ [(Instr.scW, 4), (Instr.scD, 8)], ∀ (rd rs1 rs2 aq rl : Nat) (s : State) (x : Xlat) (pa : Nat),
    let w := s.cur.1
    let k := s.cur.2
    let va := (s.rx rs1).toNat
    let n := e.2
    let s1 := setAD s w x .store
    (rl = 1 → scalarDone s true true = true) → (aq % 2 = 1 → s.strand.releasing = false) →
    s.strand.lockPending va n = false →
    checkAccess s w k (s.me.core 0) (scalarAsk s w k va n .store none) = .ok x → x.target = .mem pa →
    walkBusy s w k va n .store = false → virgaRoom s w k 1 = true → granuleHeld s w k pa n = false → s.strand.acquiring = false →
    s.strand.updating pa n = false → convoyNames s w k pa n = false → portLater s pa n = false → writeTagFails s1 (keySlot s w) pa n = false →
    let stands := ∃ h, s1.strand.resv = some { addr := va, width := n, granule := pa / 64, hold := h }
    Answers (e.1 rd rs1 rs2 aq rl) s fun t =>
      t.strand.resv = none ∧ t.pc = s.pc + 4 ∧ t.strand.v = s.strand.v ∧ t.strand.ops = s.strand.ops ∧
      (∀ w' k', ctxKey w' k' ≠ ctxKey w k →
        (t.ctx w' k').strand.x = (s.ctx w' k').strand.x ∧ (t.ctx w' k').strand.pc = (s.ctx w' k').strand.pc) ∧
      (stands → BytesWritten s1 t (keySlot s w) pa (bytesOf n (s.rx rs2).toNat) ∧ OtherLines s1 t pa n ∧
        ∀ r, t.rx r = if r = rd ∧ r ≠ 0 then 0 else s.rx r) ∧
      (¬ stands → t.mem = s1.mem ∧ t.lineSlot = s1.lineSlot ∧ ∀ r, t.rx r = if r = rd ∧ r ≠ 0 then 1 else s.rx r)

/-- 15 R302, 03 R57: ECALL with x17 = 0, once the strand's convoys have retired and no class T operation that it has sent waits at
its port, makes the context DEAD, with no fault recorded and nothing outstanding; sent class T operations apply, and where there is
none no byte of memory changes. Where every other context of its gang is DEAD, the gang ends and all its contexts are EMPTY, this one
among them; every other context is as before. Until then ECALL waits. ECALL with any other x17, and EBREAK, fault at their own
address. That ECALL waits for a port is the model's reading (assumption 95). -/
def Obligations.EcallAndEbreak : Prop :=
  ∀ s : State, s.me.state.live = true →
    let w := s.cur.1
    let k := s.cur.2
    let g := s.gangOf w k
    let inGang := fun (w' k' : Nat) => ∃ j ∈ g.ctxs, ctxKey w j = ctxKey w' k'
    let last := g.state ≠ .ended ∧ ∀ j ∈ g.ctxs, ctxKey w j ≠ ctxKey w k → (s.ctx w j).state = .dead
    (s.rx 17 = 0 → s.strand.convoysDone = true → sentWaits s w k = false →
      Answers .ecall s fun t =>
        (last → inGang w k → t.me.state = .empty) ∧ (¬ (last ∧ inGang w k) → t.me.state = .dead) ∧
        (∀ w' k', ctxKey w' k' ≠ ctxKey w k →
          (last ∧ inGang w' k' → SameCtx { s.ctx w' k' with state := .empty } (t.ctx w' k')) ∧
          (¬ (last ∧ inGang w' k') → SameCtx (s.ctx w' k') (t.ctx w' k'))) ∧
        (last → (tget Gang.zero (t.launch w s.me.launch).gangs s.me.gang).state = .ended) ∧
        (¬ last → tget Gang.zero (t.launch w s.me.launch).gangs s.me.gang = g) ∧
        t.me.fault = none ∧ t.me.fseq = s.me.fseq ∧ t.me.cause = s.me.cause ∧
        t.strand.ops = [] ∧ t.strand.copies = [] ∧ t.strand.cmds = [] ∧ t.strand.x = s.strand.x ∧
        (s.strand.ops.all (fun o => o.cls != 1) = true → t.mem = s.mem)) ∧
    (s.rx 17 = 0 → (s.strand.convoysDone = false ∨ sentWaits s w k = true) → Answers .ecall s (· = s)) ∧
    (s.rx 17 ≠ 0 → Answers .ecall s fun t => FaultsAtPc s t .ecall 0) ∧
    Answers .ebreak s fun t => FaultsAtPc s t .ebreak 0

/-! ## Words of a convoy

The word is under way (`State.issue`) in a legal convoy: its type and operands are those of 13 R256 (`bodyOk`), and it
covers elements below 4,096, the largest vector length (09 R173). -/

/-- 18 R333, 12 R240, R241: a two-operand word on an integer type completes; each covered element of vd is the exact
result wrapped or clamped, no flag is raised, and nothing else changes. -/
def Obligations.IntegerTwoOperandWords : Prop :=
  ∀ e ∈ integerForms, ∀ (vd va vb sx : Nat) (s : State) (q : Issue), s.issue = some q → q.hi ≤ 4096 →
    tyInt q.mode.etype = true → bodyOk q.mode.etype (e.1 vd va vb sx) = true →
    Answers (e.1 vd va vb sx) s fun t =>
      WritesElems s t q.mode.etype vd (Covers s q) (fun i =>
        e.2 q.mode.etype q.mode.sat (s.strand.elem q.mode.etype va i) (operandB s q vb sx i)) ∧
      t.strand.fflags = s.strand.fflags

/-- 18 R333, 12 R237 to R240: a two-operand word on a floating type completes; each covered element of vd is the rounded
result, its flags are raised, and nothing else changes. VSCALE scales by the signed bits of vb, or by the whole signed
captured register. -/
def Obligations.FloatTwoOperandWords : Prop :=
  (∀ e ∈ floatForms, ∀ (vd va vb sx : Nat) (s : State) (q : Issue), s.issue = some q → q.hi ≤ 4096 →
    tyFloat q.mode.etype = true → bodyOk q.mode.etype (e.1 vd va vb sx) = true →
    Answers (e.1 vd va vb sx) s fun t =>
      WritesElems s t q.mode.etype vd (Covers s q) (fun i =>
        (e.2 q.mode (s.strand.elem q.mode.etype va i) (operandB s q vb sx i)).1 % 2 ^ tyWidth q.mode.etype) ∧
      Raises s t (Covers s q) fun i => (e.2 q.mode (s.strand.elem q.mode.etype va i) (operandB s q vb sx i)).2) ∧
  ∀ (vd va vb sx : Nat) (s : State) (q : Issue), s.issue = some q → q.hi ≤ 4096 →
    bodyOk q.mode.etype (.vscale vd va vb sx) = true →
    let n := fun i => if sx = 1 then (q.cap 0).toInt else simm (tyWidth q.mode.etype) (s.strand.elem q.mode.etype vb i)
    Answers (.vscale vd va vb sx) s fun t =>
      WritesElems s t q.mode.etype vd (Covers s q) (fun i =>
        (vScale q.mode (s.strand.elem q.mode.etype va i) (n i)).1 % 2 ^ tyWidth q.mode.etype) ∧
      Raises s t (Covers s q) fun i => (vScale q.mode (s.strand.elem q.mode.etype va i) (n i)).2

/-- 18 R334: a fused word completes; each covered element of vd is ±(a × b) ± d rounded once, with d the element of vd
before the write, its flags are raised, and nothing else changes. 12 R229, R231, R232, R237, R238, R240, R242: what the operations
of the floating words (`fAdd`, `fSub`, `fMul`, `fDiv`, `fFma`, `fSqrt`, `fCompare`, `convert`) give is the exact value rounded once,
with the flags of the table (`Rounded`), the canonical NaN, or the order of the exact values; infinities overflow and convert as
R237, R232 and R242 say. The other statements on floating words rest on these operations. -/
def Obligations.FusedWords : Prop :=
  (∀ e ∈ [(Instr.vfma, false, false), (Instr.vfms, false, true), (Instr.vfnma, true, true), (Instr.vfnms, true, false)],
    ∀ (vd va vb sx : Nat) (s : State) (q : Issue), s.issue = some q → q.hi ≤ 4096 →
    bodyOk q.mode.etype (e.1 vd va vb sx) = true →
    let ty := q.mode.etype
    let r := fun i => fFma ty q.mode.rm q.mode.sat e.2.1 e.2.2 (s.strand.elem ty va i) (operandB s q vb sx i)
      (s.strand.elem ty vd i)
    Answers (e.1 vd va vb sx) s fun t =>
      WritesElems s t ty vd (Covers s q) (fun i => (r i).1 % 2 ^ tyWidth ty) ∧ Raises s t (Covers s q) fun i => (r i).2) ∧
  (∀ (ty rm : Nat) (sat : Bool) (a b : Nat), 8 ≤ ty → ty < 12 → rm < 5 →
    let x := number ty a
    let y := number ty b
    let na := negOf ty a
    let nb := negOf ty b
    let signed := fun (neg : Bool) (m : Nat) => neg.toNat * 2 ^ (tyWidth ty - 1) + m
    let inf := (floatRow ty).2.2 + 1
    -- the sign of an exact zero of a sum (R237)
    let zeroSign := fun (p q : Bool) => if p = q then p else rm == 2
    (finite ty a → finite ty b →
      RoundedSum ty rm sat (x + y) (zeroSign na nb) (fAdd ty rm sat a b) ∧
      RoundedSum ty rm sat (x - y) (zeroSign na !nb) (fSub ty rm sat a b) ∧
      RoundedSum ty rm sat (x * y) (na != nb) (fMul ty rm sat a b) ∧
      (y ≠ 0 → RoundedSum ty rm sat (x / y) (na != nb) (fDiv ty rm sat a b)) ∧
      (x ≠ 0 → y = 0 → fDiv ty rm sat a b = (signed (na != nb) inf, 8)) ∧
      (0 < x → Rounded ty rm sat false (Real.sqrt x) (fSqrt ty rm sat a)) ∧ (x < 0 → Nan ty True (fSqrt ty rm sat a)) ∧
      ∀ np nc c, finite ty c →
        RoundedSum ty rm sat ((if np then -(x * y) else x * y) + if nc then -number ty c else number ty c)
          (zeroSign ((na != nb) != np) (negOf ty c != nc)) (fFma ty rm sat np nc a b c)) ∧
    (infinite ty a → finite ty b → fAdd ty rm sat a b = (signed na inf, 0)) ∧
    (infinite ty a → infinite ty b →
      (na = nb → fAdd ty rm sat a b = (signed na inf, 0)) ∧ (na ≠ nb → Nan ty True (fAdd ty rm sat a b))) ∧
    (infinite ty a → finite ty b → y ≠ 0 → fMul ty rm sat a b = (signed (na != nb) inf, 0)) ∧
    (∀ np nc c, infinite ty a → finite ty b → y = 0 → finite ty c → Nan ty True (fFma ty rm sat np nc a b c)) ∧
    (notNumber ty a ∨ notNumber ty b →
      let nv := signalling ty a ∨ signalling ty b
      Nan ty nv (fAdd ty rm sat a b) ∧ Nan ty nv (fSub ty rm sat a b) ∧ Nan ty nv (fMul ty rm sat a b) ∧
      Nan ty nv (fDiv ty rm sat a b)) ∧
    ∀ e ∈ ([(0, fun p q => p = q, false), (1, fun p q => p ≠ q, true), (2, fun p q => p < q, false), (3, fun p q => p ≤ q, false),
        (4, fun p q => q < p, false), (5, fun p q => q ≤ p, false), (6, fun _ _ => False, true)] :
        List (Nat × (ℚ → ℚ → Prop) × Bool)),
      let r := fCompare e.1 ty a b
      (finite ty a → finite ty b → r.2 = 0 ∧ (r.1 = true ↔ e.2.1 x y)) ∧
      (notNumber ty a ∨ notNumber ty b → r.1 = e.2.2 ∧
        let nv := 2 ≤ e.1 ∧ e.1 ≤ 5 ∨ signalling ty a ∨ signalling ty b
        (nv → r.2 = 16) ∧ (¬ nv → r.2 = 0))) ∧
  ∀ (src v : Nat) (m : Mode), m.rm < 5 → src ≠ m.etype →
    let dst := m.etype
    let r := convert src m v
    let neg := negOf src v
    let x := number src v
    let signed := fun (b : Nat) => neg.toNat * 2 ^ (tyWidth dst - 1) + b
    let lo : Int := if dst % 2 = 0 then -2 ^ (tyWidth dst - 1) else 0
    let hi : Int := if dst % 2 = 0 then 2 ^ (tyWidth dst - 1) - 1 else 2 ^ tyWidth dst - 1
    (8 ≤ src → src < 14 → 8 ≤ dst → dst < 14 →
      (finite src v → RoundedSum dst m.rm m.sat x neg r) ∧
      (infinite src v →
        (dst = 12 → r = if m.sat then (signed 0x7E, 0) else (signed 0x7F, 16)) ∧
        (dst = 13 → m.sat = true → r = (signed 0x7B, 0)) ∧
        (dst ≠ 12 → (dst = 13 → m.sat = false) → r = (signed ((floatRow dst).2.2 + 1), 0))) ∧
      (notNumber src v → Nan dst (signalling src v) r)) ∧
    (src < 8 → 8 ≤ dst → dst < 14 → RoundedSum dst m.rm m.sat (numOf src v) false r) ∧
    (src < 8 → dst < 8 → r = (intBits dst m.sat (numOf src v), 0)) ∧
    (8 ≤ src → src < 14 → dst < 8 →
      (finite src v → ∃ n : Nat, RoundsTo m.rm neg |x| n ∧
        let z : Int := if neg then -n else n
        (lo ≤ z → z ≤ hi → r = (intBits dst false z, if (z : ℚ) = x then 0 else 1)) ∧
        (¬ (lo ≤ z ∧ z ≤ hi) → r = (intBits dst true z, 16))) ∧
      (infinite src v → r = (intBits dst true (if neg then lo else hi), 16)) ∧
      (notNumber src v → r = (intBits dst true hi, 16)))

/-- 18 R335: VABS, VNEG, VCLZ and VPOPCNT on integers, VABS, VNEG, VSQRT and VCLASS on floats complete with the values of
the table, and nothing else changes. -/
def Obligations.OneOperandWords : Prop :=
  ∀ (vd va : Nat) (s : State) (q : Issue), s.issue = some q → q.hi ≤ 4096 →
    let ty := q.mode.etype
    let w := tyWidth ty
    let a := fun i => s.strand.elem ty va i
    let gives := fun (i : Instr) (val fl : Nat → Nat) => bodyOk ty i = true →
      Answers i s fun t => WritesElems s t ty vd (Covers s q) val ∧ Raises s t (Covers s q) fl
    (tyInt ty = true →
      gives (.vabs vd va) (fun i => intBits ty q.mode.sat (numOf ty (a i)).natAbs) (fun _ => 0) ∧
      gives (.vneg vd va) (fun i => intBits ty q.mode.sat (-numOf ty (a i))) (fun _ => 0)) ∧
    (tyFloat ty = true →
      gives (.vabs vd va) (fun i => a i % 2 ^ (w - 1)) (fun _ => 0) ∧
      gives (.vneg vd va) (fun i => a i % 2 ^ (w - 1) + (1 - a i / 2 ^ (w - 1)) * 2 ^ (w - 1)) (fun _ => 0)) ∧
    gives (.vsqrt vd va) (fun i => (fSqrt ty q.mode.rm q.mode.sat (a i)).1 % 2 ^ w)
      (fun i => (fSqrt ty q.mode.rm q.mode.sat (a i)).2) ∧
    gives (.vclass vd va) (fun i => (vClass q.mode (a i)).1 % 2 ^ w) (fun _ => 0) ∧
    gives (.vclz vd va) (fun i => ((List.range w).takeWhile fun j => !bit (a i) (w - 1 - j)).length) (fun _ => 0) ∧
    gives (.vpopcnt vd va) (fun i => ((List.range w).filter fun j => bit (a i) j).length) (fun _ => 0)

/-- 18 R336: a comparison completes: bit i of pd is the comparison of each covered element, every other predicate bit and
every vector register keep its value. -/
def Obligations.CompareWords : Prop :=
  let ops : List ((Nat → Nat → Nat → Nat → Instr) × (Int → Int → Prop) × Nat) :=
    [(.vcmpeq, fun a b => a = b, 0), (.vcmpne, fun a b => a ≠ b, 1), (.vcmplt, fun a b => a < b, 2),
     (.vcmple, fun a b => a ≤ b, 3), (.vcmpgt, fun a b => b < a, 4), (.vcmpge, fun a b => b ≤ a, 5),
     (.vcmpuo, fun _ _ => False, 6)]
  ∀ e ∈ ops, ∀ (pd va vb sx : Nat) (s : State) (q : Issue), s.issue = some q → q.hi ≤ 4096 →
    bodyOk q.mode.etype (e.1 pd va vb sx) = true →
    let ty := q.mode.etype
    let a := fun i => s.strand.elem ty va i
    let b := fun i => operandB s q vb sx i
    Answers (e.1 pd va vb sx) s fun t =>
      VectorOnly s t ∧ t.strand.v = s.strand.v ∧ t.strand.vv = s.strand.vv ∧
      (∀ i, i < 4096 → Covers s q i → tyInt ty = true → (t.strand.pbit pd i = true ↔ e.2.1 (numOf ty (a i)) (numOf ty (b i)))) ∧
      (∀ i, i < 4096 → Covers s q i → tyInt ty = false → t.strand.pbit pd i = (fCompare e.2.2 ty (a i) (b i)).1) ∧
      (∀ n i, i < 4096 → (n ≠ pd ∨ ¬ Covers s q i) → t.strand.pbit n i = s.strand.pbit n i) ∧
      Raises s t (Covers s q) fun i => if tyInt ty = true then 0 else (fCompare e.2.2 ty (a i) (b i)).2

/-- 18 R337 to R340, R348, R354: conversions, moves, VMERGE, VID, VINS and PMOVV complete with the values of their rules,
and nothing else changes. -/
def Obligations.MoveAndConvertWords : Prop :=
  ∀ (vd : Nat) (s : State) (q : Issue), s.issue = some q → q.hi ≤ 4096 →
    let ty := q.mode.etype
    let w := tyWidth ty
    let gives := fun (i : Instr) (on : Nat → Prop) (val fl : Nat → Nat) => bodyOk ty i = true →
      Answers i s fun t => WritesElems s t ty vd on val ∧ Raises s t on fl
    (∀ va src, gives (.vcvt vd va src) (Covers s q) (fun i => (convert src q.mode (s.strand.elem src va i)).1 % 2 ^ w)
      (fun i => (convert src q.mode (s.strand.elem src va i)).2)) ∧
    (∀ va, gives (.vmvV vd va) (Covers s q) (fun i => s.strand.elem ty va i) fun _ => 0) ∧
    (∀ xs, gives (.vmvX vd xs) (Covers s q) (fun _ => (q.cap 0).toNat % 2 ^ w) fun _ => 0) ∧
    (∀ va vb sx, gives (.vmerge vd va vb sx) (fun i => q.lo ≤ i ∧ i < q.hi ∧ i < q.vl)
      (fun i => if s.strand.admits q.mode i = true then s.strand.elem ty va i else operandB s q vb sx i) fun _ => 0) ∧
    gives (.vid vd) (Covers s q) (fun i => i % 2 ^ w) (fun _ => 0) ∧
    (∀ xi xs, gives (.vins vd xi xs) (fun i => Covers s q i ∧ i = (q.cap 0).toNat) (fun _ => (q.cap 1).toNat % 2 ^ w)
      fun _ => 0) ∧
    (∀ pa, gives (.pmovv vd pa) (Covers s q) (fun i => if s.strand.pbit pa i then 1 else 0) fun _ => 0)

/-- 18 R351, R352, R354: a predicate word completes and writes bit i of pd for each element it covers (PFIRST: for each
active element below VL, whether it is the first with its bit set), and leaves every other bit and register. -/
def Obligations.PredicateWords : Prop :=
  ∀ (pd pa pb : Nat) (s : State) (q : Issue), s.issue = some q → q.hi ≤ 4096 → q.vl ≤ 4096 →
    let gives := fun (i : Instr) (on : Nat → Prop) (val : Nat → Bool) =>
      Answers i s fun t => VectorOnly s t ∧ t.strand.v = s.strand.v ∧ t.strand.vv = s.strand.vv ∧
        t.strand.fflags = s.strand.fflags ∧ (∀ i, i < 4096 → on i → t.strand.pbit pd i = val i) ∧
        ∀ n i, i < 4096 → (n ≠ pd ∨ ¬ on i) → t.strand.pbit n i = s.strand.pbit n i
    let a := fun i => s.strand.pbit pa i
    let b := fun i => s.strand.pbit pb i
    let act := fun i => i < q.vl ∧ s.strand.active q.mode q.vl i = true
    gives (.pand pd pa pb) (Covers s q) (fun i => a i && b i) ∧
    gives (.por pd pa pb) (Covers s q) (fun i => a i || b i) ∧
    gives (.pxor pd pa pb) (Covers s q) (fun i => a i != b i) ∧
    gives (.pandn pd pa pb) (Covers s q) (fun i => a i && !b i) ∧
    gives (.pnot pd pa) (Covers s q) (fun i => !a i) ∧
    gives (.pset pd) (Covers s q) (fun _ => true) ∧
    gives (.pclr pd) (Covers s q) (fun _ => false) ∧
    gives (.pfirst pd pa) act (fun i => a i && (List.range i).all fun j => !(s.strand.active q.mode q.vl j && a j)) ∧
    ∀ va, gives (.vmovp pd va) (Covers s q) (fun i => s.strand.elem q.mode.etype va i != 0)

/-- 18 R341 to R345: the cross-element words complete. VIOTA counts the active set bits below each element, VCOMPRESS
packs each slice of 512, the slides move within a slice, VPERM gathers by index, VXCHG exchanges slices; each element is
read before any is written, and nothing else changes. VPERM with an index in another slice halts with PERMX at the lowest
such element and writes nothing. -/
def Obligations.CrossElementWords : Prop :=
  ∀ (vd va : Nat) (s : State) (q : Issue), s.issue = some q → q.lo = 0 → q.hi = q.vl → q.vl ≤ 4096 →
    let ty := q.mode.etype
    let k := (q.cap 0).toNat
    let el := fun i => s.strand.elem ty va i
    let packed := fun sl => (List.range q.vl).filter fun j => j / 512 == sl && s.strand.active q.mode q.vl j
    let gives := fun (i : Instr) (on : Nat → Prop) (val : Nat → Nat) => bodyOk ty i = true →
      Answers i s fun t => WritesElems s t ty vd on val ∧ t.strand.fflags = s.strand.fflags
    (∀ pa, gives (.viota vd pa) (Act s q) fun i =>
      ((List.range i).filter fun j => s.strand.active q.mode q.vl j && s.strand.pbit pa j).length % 2 ^ tyWidth ty) ∧
    gives (.vcompress vd va) (fun i => i % 512 < (packed (i / 512)).length)
      (fun i => el (nth 0 (packed (i / 512)) (i % 512))) ∧
    (∀ xs, gives (.vslideup vd va xs) (fun i => Act s q i ∧ k ≤ i % 512) fun i => el (i - k)) ∧
    (∀ xs, gives (.vslidedn vd va xs) (Act s q) fun i =>
      if i + k < q.vl ∧ (i + k) / 512 = i / 512 then el (i + k) else 0) ∧
    (∀ xs, gives (.vxchg vd va xs) (Act s q) fun i =>
      let j := Nat.xor i (512 * (k % 2 ^ s.me.span))
      if j < s.me.mvl then el j else 0) ∧
    (∀ vb, (∀ i, Act s q i → s.strand.slot vb i < q.vl → s.strand.slot vb i / 512 = i / 512) →
      gives (.vperm vd va vb) (Act s q) fun i => if s.strand.slot vb i < q.vl then el (s.strand.slot vb i) else 0) ∧
    ∀ vb i, Act s q i → s.strand.slot vb i < q.vl → s.strand.slot vb i / 512 ≠ i / 512 →
      (∀ j, j < i → Act s q j → s.strand.slot vb j < q.vl → s.strand.slot vb j / 512 = j / 512) →
      Answers (.vperm vd va vb) s fun t => HaltsAs s t q (.fault .permx i 0 0)

/-- 18 R346, 12 R243 to R245: a reduction completes and writes element 0 of vd alone: the fixed tree over the active
elements and then the seed, or the seed alone where none is active; VFREDOSUM adds in index order from the seed. The
flags are those of every combination. -/
def Obligations.Reductions : Prop :=
  ∀ (vd va vb sx : Nat) (s : State) (q : Issue), s.issue = some q → q.vl ≤ 4096 →
    let ty := q.mode.etype
    let seed := operandB s q vb sx 0
    (∀ e ∈ reduceForms, bodyOk ty (e.1 vd va vb sx) = true →
      let r := reduceTree (e.2 q.mode)
        (fun i => if s.strand.active q.mode q.vl i = true then some (s.strand.elem ty va i) else none) 16 0
      let v := match r.1 with | none => (seed, 0) | some x => e.2 q.mode x seed
      Answers (e.1 vd va vb sx) s fun t => WritesElems s t ty vd (fun i => i = 0) (fun _ => v.1 % 2 ^ tyWidth ty) ∧
        Raises s t (fun i => i = 0) fun _ => Nat.lor r.2 v.2) ∧
    (bodyOk ty (.vfredosum vd va vb sx) = true →
      let add := fun (a : Nat × Nat) (i : Nat) =>
        let r := fAdd ty q.mode.rm q.mode.sat a.1 (s.strand.elem ty va i)
        (r.1, Nat.lor a.2 r.2)
      let r := ((List.range q.vl).filter (s.strand.active q.mode q.vl)).foldl add (seed, 0)
      Answers (.vfredosum vd va vb sx) s fun t => WritesElems s t ty vd (fun i => i = 0) (fun _ => r.1 % 2 ^ tyWidth ty) ∧
        Raises s t (fun i => i = 0) fun _ => r.2)

/-- 18 R347, R349, R353, 09 R167, R169: VEXT and VPOPC write their pending x register; VQSEND and VPOPC to a length queue
append one entry where there is room, VQRECV takes one and writes the covered elements; a full or empty queue makes the
word wait with nothing done. -/
def Obligations.ElementAndQueueWords : Prop :=
  ∀ (s : State) (q : Issue), s.issue = some q → q.hi ≤ 4096 →
    let ty := q.mode.etype
    let u := s.strand
    let count := fun pa => ((List.range q.vl).filter fun j => u.active q.mode q.vl j && u.pbit pa j).length
    let writesX := fun (i : Instr) (xd : Nat) (v : Word) =>
      Answers i s fun t => StrandOnly s t ∧
        t.strand = { u with x := t.strand.x, pend := t.strand.pend, vaHold := false, vmHold := false } ∧
        (∀ n, t.rx n = if n = xd ∧ n ≠ 0 ∧ (u.pend.any fun p => p.reg == xd && p.tok == q.tok) = true then v else s.rx n) ∧
        (∀ p ∈ t.strand.pend, p ∈ u.pend) ∧ ∀ p ∈ u.pend, p.reg ≠ xd → p ∈ t.strand.pend
    (∀ xd va xs, writesX (.vext xd va xs) xd
      (if s.me.mvl ≤ (q.cap 0).toNat then 0 else extOf ty (u.elem ty va (q.cap 0).toNat))) ∧
    (∀ xd pa, writesX (.vpopcX xd pa) xd (dword (count pa))) ∧
    (∀ n pa, if (u.lqget n).length < 8 then
        Answers (.vpopcLq n pa) s fun t => StrandOnly s t ∧
          t.strand = { u with lq := t.strand.lq, vaHold := false, vmHold := false } ∧
          ∀ m, t.strand.lqget m = if m = n then u.lqget n ++ [count pa] else u.lqget m
      else Answers (.vpopcLq n pa) s fun t => HaltsAs s t q (.wait 0 0)) ∧
    (∀ n va, if (u.qget n).length < 16 then
        Answers (.vqsend n va) s fun t => StrandOnly s t ∧
          t.strand = { u with q := t.strand.q, vaHold := false, vmHold := false } ∧
          ∀ m, t.strand.qget m = if m = n then u.qget n ++ [extOf ty (u.elem ty va 0)] else u.qget m
      else Answers (.vqsend n va) s fun t => HaltsAs s t q (.wait 0 0)) ∧
    ∀ vd n, bodyOk ty (.vqrecv vd n) = true → match u.qget n with
      | [] => Answers (.vqrecv vd n) s fun t => HaltsAs s t q (.wait 0 0)
      | e :: r => Answers (.vqrecv vd n) s fun t => StrandOnly s t ∧
          t.strand = { u with v := t.strand.v, q := t.strand.q, vaHold := false, vmHold := false } ∧
          (∀ m, t.strand.qget m = if m = n then r else u.qget m) ∧
          (∀ i, i < 4096 → Covers s q i → t.strand.elem ty vd i = e.toNat % 2 ^ tyWidth ty) ∧
          ∀ m i, i < 4096 → (¬ Covers s q i ∨ (m ≠ vd ∧ (tyPair ty = true → m ≠ vd + 1))) →
            t.strand.slot m i = u.slot m i

/-- 18 R355, R356, 12 R235, R236: VQNT4 completes and writes the codes, the scale and the validity of each block it
covers, whatever its validity was: for a block with a number that is not finite, codes 0, scale 0xFF, not valid, NV.
VDQ4 completes and writes the eight fp32 products of each valid block. Nothing else changes: a block whose validity bit is set
though its scale is 0xFF writes nothing either, which is the model's reading (assumption 44). -/
def Obligations.BlockWords : Prop :=
  ∀ (vd vs : Nat) (s : State) (q : Issue), s.issue = some q → q.hi ≤ 4096 →
    let u := s.strand
    let xs := fun i => (List.range 8).map fun j => u.slot (vs + j) i
    let on := fun i => q.lo ≤ i ∧ i < q.hi ∧ i < q.vl ∧ u.admits q.mode i = true
    (bodyOk q.mode.etype (.vqnt4 vd vs) = true → Answers (.vqnt4 vd vs) s fun t => VectorOnly s t ∧
      t.strand.p = u.p ∧
      (∀ i, i < 4096 → on i →
        t.strand.slot vd i = (quantBlock q.mode.rm (xs i)).1 % 2 ^ 32 ∧
        t.strand.slot (vd + 1) i = (quantBlock q.mode.rm (xs i)).2.1 % 2 ^ 32 ∧
        t.strand.vvbit i = (quantBlock q.mode.rm (xs i)).2.2.1 ∧
        ((∃ x ∈ xs i, bits x 30 23 = 255) →
          t.strand.slot vd i = 0 ∧ t.strand.slot (vd + 1) i = 0xFF ∧ t.strand.vvbit i = false)) ∧
      (∀ i, i < 4096 → ¬ on i → t.strand.vvbit i = u.vvbit i) ∧
      (∀ n i, i < 4096 → (¬ on i ∨ (n ≠ vd ∧ n ≠ vd + 1)) → t.strand.slot n i = u.slot n i) ∧
      Raises s t on fun i => (quantBlock q.mode.rm (xs i)).2.2.2) ∧
    (bodyOk q.mode.etype (.vdq4 vd vs) = true → Answers (.vdq4 vd vs) s fun t => VectorOnly s t ∧
      t.strand.p = u.p ∧ t.strand.vv = u.vv ∧ t.strand.fflags = u.fflags ∧
      (∀ i, i < 4096 → Covers s q i → ∀ sm se, scaleOf (u.slot (vs + 1) i % 256) = some (sm, se) → ∀ j, j < 8 →
        t.strand.slot (vd + j) i = dequant (bits (u.slot vs i) (4 * j + 3) (4 * j)) sm se % 2 ^ 32) ∧
      ∀ n i, i < 4096 → (¬ Covers s q i ∨ scaleOf (u.slot (vs + 1) i % 256) = none ∨ n < vd ∨ vd + 8 ≤ n) →
        t.strand.slot n i = u.slot n i)

/-- 24 R421, R422, R425: a geometric word at a fresh issue (pass 1, element 0) whose active elements are finite completes:
slot i of vd is the exact result of each active element as an i32, and nothing else changes. Without tie-break the result
of GOR2, GOR3 and GINC is the sign of the determinant written out. A NaN or an infinity halts the word with GEOMNF at the
lowest such element.
 R427: a stop that lands inside the word, before element f of pass p, halts it there: the elements whose stage has come before
stand written, no other. Where a stop lands is the turn's choice (assumption 9). -/
def Obligations.GeometricWords : Prop :=
  ∀ e ∈ [(Instr.gor2, GWord.gor2), (Instr.gor3, GWord.gor3), (Instr.ginc, GWord.ginc), (Instr.gins, GWord.gins),
      (Instr.gsegx, GWord.gsegx)], ∀ (vd vs : Nat) (s : State) (q : Issue), s.issue = some q → q.cv.prog = 0 → q.lo = 0 →
    q.vl ≤ 4096 → bodyOk q.mode.etype (e.1 vd vs) = true →
    let ty := q.mode.etype
    let tb := q.mode.tb != 0
    let x := geoX s e.2 ty vs
    (q.cut = none → (∀ i, Act s q i → finiteAt s.strand e.2 ty vs i = true) →
      Answers (e.1 vd vs) s fun t => VectorOnly s t ∧ t.strand.p = s.strand.p ∧ t.strand.vv = s.strand.vv ∧
        t.strand.fflags = s.strand.fflags ∧
        (∀ i, i < 4096 → Act s q i → t.strand.slot vd i = (BitVec.ofInt 32 (geoResult e.2 tb (x i))).toNat) ∧
        (∀ n i, i < 4096 → (n ≠ vd ∨ ¬ Act s q i) → t.strand.slot n i = s.strand.slot n i)) ∧
    (∀ i, geoResult .gor2 false (x i) = (detGor2 (x i)).sign ∧ geoResult .gor3 false (x i) = (detGor3 (x i)).sign ∧
      geoResult .ginc false (x i) = (detGinc (x i)).sign) ∧
    (∀ f, q.cut = none → Act s q f → finiteAt s.strand e.2 ty vs f = false →
      (∀ i, i < f → Act s q i → finiteAt s.strand e.2 ty vs i = true) →
      Answers (e.1 vd vs) s fun t => t.issue = some { q with halt := some (.fault .geomnf f 1 0) } ∧
        (∀ i, i < f → Act s q i → t.strand.slot vd i = (BitVec.ofInt 32 (geoResult e.2 tb (x i))).toNat) ∧
        ∀ n i, i < 4096 → (n ≠ vd ∨ ¬ Act s q i ∨ f ≤ i) → t.strand.slot n i = s.strand.slot n i) ∧
    ∀ p f, q.cut = some (p, f) → 1 ≤ p → p ≤ 3 → f ≤ q.vl → (∀ i, Act s q i → finiteAt s.strand e.2 ty vs i = true) →
      let stage := fun i => stageOf e.2 (coordAt s.strand ty vs i) e.2.coords
      let before := fun i => stage i < p ∨ (stage i = p ∧ i < f)
      Answers (e.1 vd vs) s fun t => t.issue = some { q with halt := some (.pause f p) } ∧
        (∀ i, i < 4096 → Act s q i → before i →
          t.strand.slot vd i = (BitVec.ofInt 32 (geoResult e.2 tb (x i))).toNat) ∧
        ∀ n i, i < 4096 → (n ≠ vd ∨ ¬ Act s q i ∨ ¬ before i) → t.strand.slot n i = s.strand.slot n i

/-! ## Vector memory -/

/-- 19 R360 to R363, 05 R105: the access of one element to memory, once its checks have passed and where it does not
wait. A read answers the little-endian bytes and sets A of the leaf; a write, in no strip or in one before which no vector write of
the strand has still to perform (10 R196), changes those bytes alone, sets A and D, and changes no register. -/
def Obligations.ElementAccesses : Prop :=
  ∀ (s : State) (core va n : Nat) (x : Xlat) (pa : Nat), 1 ≤ n → x.target = .mem pa →
    let w := s.cur.1
    let k := s.cur.2
    (checkAccess s w k core { va := va, width := n, acc := .load, vec := true, sd := none, locks := [] } = .ok x →
      walkBusy s w k va n .load = false → portBusy s pa n = false → s.strand.updating pa n = false → tagFails s (keySlot s w) pa n = false →
      elementLoad s w k core va n = .value (setAD s w x .load) (natOf (readBytes s (keySlot s w) pa n))) ∧
    ∀ v locks (strip : Option Nat), (∀ p, strip = some p → stripWaits s w k p = false) →
      checkAccess s w k core { va := va, width := n, acc := .store, vec := true, sd := none, locks := locks } = .ok x →
      walkBusy s w k va n .store = false → granuleHeld s w k pa n = false → s.strand.updating pa n = false →
      matrixReads s w k pa n = false → writeTagFails s (keySlot s w) pa n = false → writeWaits s pa n = false →
      ∃ t, elementStore s w k core va n v locks strip = .next t ∧ Wrote (setAD s w x .store) t s.strand ∧
        BytesWritten (setAD s w x .store) t (keySlot s w) pa (bytesOf n v) ∧ OtherLines (setAD s w x .store) t pa n

/-- 19 R358, R361, R362: a vector load or store whose active elements' accesses all answer completes: the elements in
ascending order, each at its address and with its width, each loaded element in its place of the register. -/
def Obligations.VectorMemoryWords : Prop :=
  ∀ (v xb xs vi : Nat) (s : State) (q : Issue), s.issue = some q → NoneAsked s q →
    let ty := q.mode.etype
    let n := tyWidth ty / 8
    let loads := fun (i : Instr) (va : State → Nat → Nat) => bodyOk ty i = true → ∀ t,
      overCovered q (fun s e => (loadsAt s e (va s e) n).map fun r => r.1.onStrand fun u => u.setElem ty v e r.2) s = some t →
      Answers i s (· = t)
    let stores := fun (i : Instr) (va : State → Nat → Nat) => bodyOk ty i = true → ∀ t,
      overCovered q (fun s e => storesAt q s e (va s e) n (s.strand.elem ty v e)) s = some t → Answers i s (· = t)
    loads (.vld v xb) (fun _ => unitVa q) ∧ loads (.vlds v xb xs) (fun _ => strideVa q) ∧
    loads (.vldx v xb vi) (fun s => indexVa s q vi) ∧ stores (.vst v xb) (fun _ => unitVa q) ∧
    stores (.vsts v xb xs) (fun _ => strideVa q) ∧ stores (.vstx v xb vi) (fun s => indexVa s q vi)

/-- 19 R367 to R369, 12 R236: VLDB4 reads the codes and the scale of every block that VL and the guard admit and sets its
validity from the scale; VSTB4 writes both, the scale of an invalid block as 0xFF. -/
def Obligations.BlockLoadAndStore : Prop :=
  ∀ (v xb xs : Nat) (s : State) (q : Issue), s.issue = some q → NoneAsked s q →
    let codes := fun (i : Nat) => ((q.cap 0).toNat + 4 * i) % 2 ^ 64
    let scale := fun (i : Nat) => ((q.cap 1).toNat + i) % 2 ^ 64
    (∀ t, overBlocks q (fun s i => (loadsAt s i (codes i) 4).bind fun c => (loadsAt c.1 i (scale i) 1).map fun b =>
        b.1.onStrand fun u => ((u.setSlot v i c.2).setSlot (v + 1) i b.2).setVv i (b.2 != 0xFF)) s = some t →
      Answers (.vldb4 v xb xs) s (· = t)) ∧
    ∀ t, overBlocks q (fun s i => (storesAt q s i (codes i) 4 (s.strand.slot v i)).bind fun m =>
        storesAt q m i (scale i) 1 (if m.strand.vvbit i then m.strand.slot (v + 1) i % 256 else 0xFF)) s = some t →
      Answers (.vstb4 v xb xs) s (· = t)

/-- 19 R364, R365, 09 R456: a VAMO or VAMOR of one element to memory that passes its checks and meets nothing that waits
completes: the location takes the new value at the type's width, every other byte reads as before, and VAMOR writes the
old value to the element. Where its port does not take it at once and the record has room, the element leaves for its port as an
outstanding class T operation: a VAMO goes on, a VAMOR halts there. An element that is not active does nothing, nor does one whose
operation has left, but that a VAMOR waits for its old value. -/
def Obligations.VectorAtomics : Prop :=
  ∀ e ∈ vamoForms, ∀ (v xb vi : Nat) (s : State) (q : Issue), s.issue = some q → q.halt = none → q.hi = q.lo + 1 →
    let ty := q.mode.etype
    let n := tyWidth ty / 8
    let w := s.cur.1
    let k := s.cur.2
    let i := q.lo
    let active := s.strand.active q.mode q.vl i = true
    let left := q.cv.sent.contains (q.slot, i) = true
    bodyOk ty (.vamo v xb vi e.1) = true →
    (¬ active ∨ left → Answers (.vamo v xb vi e.1) s (· = s)) ∧
    (¬ active ∨ (left ∧ s.strand.awaits q i = false) → Answers (.vamor v xb vi e.1) s (· = s)) ∧
    (active → left → s.strand.awaits q i = true → Answers (.vamor v xb vi e.1) s fun t => HaltsAs s t q (.wait i 0)) ∧
    ∀ (x : Xlat) (pa : Nat), i < 4096 → active → ¬ left → x.target = .mem pa →
      checkAccess s w k (s.me.core (i / 512))
        { va := indexVa s q vi i, width := n, acc := .amo, vec := true, sd := none, locks := q.cv.locks } = .ok x →
      walkBusy s w k (indexVa s q vi i) n .amo = false → granuleHeld s w k pa n = false → s.strand.updating pa n = false →
      matrixReads s w k pa n = false → stripWaits s w k q.cv.strip = false →
      let s1 := setAD s w x .amo
      let o := fun (kind reg : Nat) => { Op.zero with
        kind := kind, func := e.1 + 16 * ty, reg := reg, elem := i, slot := q.slot, wlog := elemLog ty
        addr := indexVa s q vi i, opnd := s.strand.elem ty v i, pc := q.cv.addr, pa := pa }
      (portLater s pa n = false → writeTagFails s1 (keySlot s w) pa n = false →
        let old := natOf (readBytes s1 (keySlot s w) pa n)
        let after := fun (u : Strand) (t : State) =>
          Wrote s1 t { u with tcnt := (u.tcnt + 1) % 2 ^ 18, opNext := u.opNext + 1 } ∧
          BytesWritten s1 t (keySlot s w) pa (bytesOf n (e.2 ty old (s.strand.elem ty v i))) ∧ OtherLines s1 t pa n
        Answers (.vamo v xb vi e.1) s (after s.strand) ∧
        Answers (.vamor v xb vi e.1) s (after (s.strand.setElem ty v i old))) ∧
      (portLater s pa n = true → virgaRoom s w k 1 = true →
        (Answers (.vamo v xb vi e.1) s fun t => StrandOnly s1 t ∧ t.strand = { s1.strand with
          tcnt := (s.strand.tcnt + 1) % 2 ^ 18, opNext := s.strand.opNext + 1
          ops := s.strand.ops ++ [{ o 0x12 0 with id := s.strand.opNext, cls := 1, tag := nextTag w k s.strand }] }) ∧
        Answers (.vamor v xb vi e.1) s fun t => ∃ os, HaltsAs s t q (.send i (o 0x13 v :: os))) ∧
      (portLater s pa n = true → virgaRoom s w k 1 = false →
        (Answers (.vamo v xb vi e.1) s fun t => HaltsAs s t q (.wait i 0)) ∧
        Answers (.vamor v xb vi e.1) s fun t => HaltsAs s t q (.wait i 0))

/-! ## The Anvil -/

/-- 22 R397, R408: a matrix word of a strand that is not attached, or one that the convoy's commit found to meet a batch
not yet covered, faults ACCBUSY with FELEM 0 and does nothing.
 22 R411, R405: MRD and MWR check every element first, and an element that fails or waits halts the word with nothing done. Then MRD
stores each accumulator element at its address and MWR loads each, row by row and then column by column, where every access answers;
MRD waits for its stores to perform. MCOMMIT, where fewer than four committed batches
are incomplete, closes the oldest open batch and writes its id to x[xd], and waits otherwise. -/
def Obligations.MatrixTransfers : Prop :=
  (∀ (m xa xp xd : Nat) (s : State) (q : Issue), s.issue = some q →
     (s.strand.anvil = none ∨ q.cv.busy.contains q.slot = true) →
     ∀ i ∈ [Instr.mldb xa xp, .mstep m xa xp, .mstepr m xa xp, .mzero m, .mrd m xa xp, .mwr m xa xp, .mcommit xd],
       Answers i s fun t => HaltsAs s t q (.fault .accbusy 0 0 0)) ∧
  ∀ (m xa xp xd : Nat) (s : State) (q : Issue) (a : Anvil), s.issue = some q → s.strand.anvil = some a →
    q.cv.busy.contains q.slot = false → NoneAsked s q →
    let p := q.cap 1
    let cells := (List.range (clipRows p)).flatMap fun j => (List.range (clipCols p)).map fun c => 512 * j + c
    let va := fun (e : Nat) => ((q.cap 0).toNat + 4 * (e / 512 * par2 p + e % 512)) % 2 ^ 64
    let off := clipRows p != par0 p || clipCols p != par3 p
    let s0 := s.onStrand fun u => { u with anvil := some (if off then { a with astat := setBit a.astat clip true } else a) }
    let at0 := fun (f : State → Nat → Option State) => inOrder f cells s0
    (∀ h, checkTransfer s q .store = some h → Answers (.mrd m xa xp) s fun t => HaltsAs s t q h) ∧
    (∀ h, checkTransfer s q .load = some h → Answers (.mwr m xa xp) s fun t => HaltsAs s t q h) ∧
    (checkTransfer s q .store = none → ∀ t, at0 (fun s e => storesAt q s 0 (va e) 4
          (tget 0 a.acc (accKey m (par1 p + e / 512) (e % 512))).toNat) = some t →
      storesHeld t s.cur.1 s.cur.2 = false → Answers (.mrd m xa xp) s (· = t)) ∧
    (checkTransfer s q .load = none → ∀ t, at0 (fun s e => (loadsAt s 0 (va e) 4).map fun r => r.1.onStrand fun u => u.setAcc m (par1 p * 512 + e) r.2) =
        some t → Answers (.mwr m xa xp) s (· = t)) ∧
    (4 ≤ (a.done.filter fun b => b.closed && !b.complete).length →
      Answers (.mcommit xd) s fun t => HaltsAs s t q (.wait 0 0)) ∧
    ∀ b, (a.done.filter fun b => b.closed && !b.complete).length < 4 → (a.done.find? fun b => !b.closed) = some b →
      Answers (.mcommit xd) s fun t => t = { s with ctxs := t.ctxs, work := t.work } ∧
        event .batchComplete [s.cur.1, s.cur.2] ∈ t.work ∧ event .waitSatisfied [s.cur.1, s.cur.2] ∈ t.work ∧
        (∀ n, t.rx n = if n = xd ∧ n ≠ 0 ∧ (s.strand.pend.any fun x => x.reg == xd && x.tok == q.tok) = true
          then dword b.id else s.rx n) ∧
        t.me = { s.me with strand := t.strand } ∧
        t.strand = { s.strand with
          x := t.strand.x, pend := t.strand.pend, anvil := t.strand.anvil, vaHold := false, vmHold := false } ∧
        ∃ a', t.strand.anvil = some a' ∧ a' = { a with done := a'.done } ∧
          a'.done = a.done.map fun x => if x.id = b.id then { x with closed := true, complete := x.complete || x.words == 0 } else x

/-- 22 R402 to R405, R409, R410, R416, 12 R246 to R248: MZERO of an attached strand makes every element of its accumulator 0.
MLDB and MSTEP, once their rows pass the check of R400 and R401 and the record has room, issue: the operation stands in the
record and on the Anvil with its rows in ascending order (`Held`); a row that fails halts the word, and a full record makes it
wait. MLDB with nothing to load sets CLIP alone. BATCH_COMPLETE at a strand that runs and whose Anvil holds an operation takes the
oldest a row further. A load of B latches its format and columns, dropping a resident B of others, and then puts row r's
elements at K-row KR0 + r; with the last of its rows, or the last of a K-block, the rows of that block which it has loaded are aligned
together, column by column (12 R246; that they alone are is the model's reading, assumption 43). A step is dropped with FMT where its format does not pair with the latched one; otherwise it adds
to each accumulator element of its row the sum of the products, rounded, with INV where a product is invalid. Each row
advances what the record shows of the operation; a row that cannot be read makes the context fault there with FELEM the row
and the rows done in PROGRESS, or waits. An operation whose rows are done leaves the record and the Anvil. Of an Anvil that holds
nothing, closed batches become complete, and waiters are told. One row an event is the model's choice (assumption 11). -/
def Obligations.MatrixSteps : Prop :=
  (∀ (m xa xp : Nat) (s : State) (q : Issue) (a : Anvil), s.issue = some q → s.strand.anvil = some a →
     q.cv.busy.contains q.slot = false →
     let w := s.cur.1
     let k := s.cur.2
     let ty := q.mode.etype
     let p := q.cap 1
     let st := par2 p
     let base := (q.cap 0).toNat
     let k0 := par1 p
     let room := virgaRoom s w k 1 = true
     let clips := fun (a' : Anvil) (c : Bool) => a' = { a with astat := a'.astat } ∧ Sets a.astat a'.astat clip (bit a.astat clip || c)
     let odd := ty == 14 && st % 8 != 0
     let issues := fun (i : Instr) (own : Bool) (n : Nat) (rows : List Nat) (c : Bool) (h : MatOp) =>
       (checkRows s w k own ty st base n rows = none → room → Answers i s fun t => ∃ a', clips a' c ∧ Held s t a' q h) ∧
       (checkRows s w k own ty st base n rows = none → ¬ room → Answers i s fun t => HaltsAs s t q (.wait 0 0)) ∧
       ∀ x, checkRows s w k own ty st base n rows = some x → Answers i s fun t => HaltsAs s t q x
     (Answers (.mzero m) s fun t => ∃ a', StrandOnly s t ∧ t.strand = { s.strand with anvil := some a' } ∧
       a' = { a with acc := a'.acc } ∧ ∀ m' r c, r < 64 → c < 512 →
         tget 0 a'.acc (accKey m' r c) = if m' = m then 0 else tget 0 a.acc (accKey m' r c)) ∧
     (let nc := Nat.min (par3 p) (Nat.min 512 (a.grant * colsPerBand ty))
      let n := Nat.min (par0 p) (256 - k0)
      let short := nc < par3 p ∨ 256 < k0 + par0 p
      (nc = 0 ∨ par0 p = 0 ∨ 256 ≤ k0 → Answers (.mldb xa xp) s fun t => ∃ a', clips a' true ∧ StrandOnly s t ∧
        t.strand = { s.strand with anvil := some a' }) ∧
      (nc ≠ 0 → par0 p ≠ 0 → k0 < 256 → issues (.mldb xa xp) false nc (List.range n) (odd || decide short)
        { MatOp.zero with kind := 0x21, func := 16 * ty, xa := base, rows := List.range n })) ∧
     (let d := if 256 ≤ k0 then 0 else Nat.min (par0 p) (256 - k0)
      let rows := if d = 0 then [] else (List.range (Nat.min q.vl 64)).filter (s.strand.admits q.mode)
      let over64 := ((List.range q.vl).filter (s.strand.admits q.mode)).any (64 ≤ ·)
      issues (.mstep m xa xp) true d rows odd
        { MatOp.zero with
          kind := 0x20, func := m + 16 * ty, xa := base, rows := rows, words := [(d != par0 p || d == 0 || over64).toNat] })) ∧
  (∀ (s : State) (a : Anvil) (h : MatOp) (hs : List MatOp),
     let w := s.arg 0
     let k := s.arg 1
     let u := (s.ctx w k).strand
     let ty := h.etype
     let p := h.params
     let st := par2 p
     let k0 := par1 p
     u.anvil = some a → a.held = h :: hs → (s.ctx w k).state.live = true → h.live = true → h.kind = 0x21 ∨ h.words.length ≠ 8 →
     let nc := Nat.min (par3 p) (Nat.min 512 (a.grant * colsPerBand ty))
     let d := if 256 ≤ k0 then 0 else Nat.min (par0 p) (256 - k0)
     -- the Anvil of the strand after the step, without the records of its batches
     let leaves := fun (s0 : State) (b : Anvil) (held : List MatOp) (ops : List Op) => Answers .batchComplete s fun t =>
       (∃ x, (t.ctx w k).strand.anvil = some x ∧ x = { b with held := held, done := x.done }) ∧
       (t.ctx w k).strand.ops = ops ∧ (t.ctx w k).strand.x = u.x ∧ (t.ctx w k).strand.v = u.v ∧ t.mem = s0.mem ∧
       event .batchComplete [w, k] ∈ t.work
     let shows := fun (h' : MatOp) => u.ops.map fun (o : Op) => if o.id = h.op then { o with tag := h'.progress } else o
     let goes := fun (s0 : State) (b : Anvil) (h' : MatOp) => leaves s0 b (h' :: hs) (shows h')
     let ends := fun (b : Anvil) => leaves s b hs (u.ops.filter fun o => o.id != h.op)
     (h.loaded = false → h.kind = 0x21 →
       goes s (if a.fmt = some ty ∧ a.nc = nc then a else { a with b := [], fmt := some ty, nc := nc }) { h with loaded := true }) ∧
     (h.loaded = false → h.kind = 0x20 → (∃ f, a.fmt = some f ∧ pairs ty f = true) → ∃ b, b = { a with astat := b.astat } ∧
       Sets a.astat b.astat clip (bit a.astat clip || h.words != [0]) ∧ goes s b { h with loaded := true }) ∧
     (h.loaded = false → h.kind = 0x20 → (∀ f, a.fmt = some f → pairs ty f = false) →
       ends { a with astat := setBit a.astat fmtBad true }) ∧
     (h.loaded = true → h.rows = [] → h.kind = 0x20 ∨ h.kind = 0x21 → ends a) ∧
     ∀ r rs, h.loaded = true → h.rows = r :: rs → h.kind = 0x20 ∨ h.kind = 0x21 →
       let h' := { h with rows := rs, done := h.done + 1 }
       let n := if h.kind = 0x21 then nc else d
       let read := readRow s w k (h.kind == 0x20) ty st (rowBase ty st h.xa r) n
       (∀ s1 xs, read = .got s1 xs → h.kind = 0x21 → a.nc ≤ 512 →
         let at_ := fun j => if (k0 + r) * 512 ≤ j ∧ j < (k0 + r) * 512 + xs.length then nth 0 xs (j - (k0 + r) * 512)
           else tget 0 a.b j
         let aligns := rs = [] ∨ (k0 + r) % 8 = 7
         let lo := max k0 ((k0 + r) / 8 * 8)
         let column := fun c => alignBlock ty ((rangeFrom lo (k0 + r + 1)).map fun i => matVal ty (at_ (i * 512 + c)))
         ∃ b, b = { a with b := b.b } ∧ goes s1 b h' ∧ (¬ aligns → ∀ j, tget 0 b.b j = at_ j) ∧
           (aligns → ∀ i c, c < 512 → tget 0 b.b (i * 512 + c) =
             if lo ≤ i ∧ i ≤ k0 + r ∧ c < a.nc then alignedRaw ty (at_ (i * 512 + c)) (nth .nan (column c) (i - lo))
             else at_ (i * 512 + c))) ∧
       (∀ s1 xs f, read = .got s1 xs → h.kind = 0x20 → a.fmt = some f → a.nc ≤ 512 → r < 64 →
         let as := alignRow ty 33 k0 (xs.map (matVal ty))
         let cols := a.columns f k0 d
         ∃ b, b = { a with acc := b.acc, astat := b.astat } ∧
           Sets a.astat b.astat inv (bit a.astat inv || meetsInv as cols) ∧
           (∀ c, c < a.nc → (tget 0 b.acc (accKey h.acc r c)).toNat =
             (fAdd 10 0 false (tget 0 a.acc (accKey h.acc r c)).toNat (stepSum as (nth [] cols c))).1 % 2 ^ 32) ∧
           (∀ m' i c, c < 512 → i < 64 → (m' ≠ h.acc ∨ a.nc ≤ c ∨ i ≠ r) →
             tget 0 b.acc (accKey m' i c) = tget 0 a.acc (accKey m' i c)) ∧ goes s1 b h') ∧
       (read = .waits → Answers .batchComplete s (· = park s (event .batchComplete [w, k]))) ∧
       ∀ c va, read = .fault c va → Answers .batchComplete s
         (· = takeFault s w k { cause := c, fslot := h.slot, fpc := h.pc, felem := r, progress := h.progress, faddr := va })) ∧
  ∀ (s : State),
    let w := s.arg 0
    let k := s.arg 1
    let u := (s.ctx w k).strand
    (u.anvil = none → Answers .batchComplete s (· = s)) ∧
    ∀ a, u.anvil = some a → a.held = [] →
      ((∀ b ∈ a.done, b.closed = false ∨ b.complete = true) → Answers .batchComplete s (· = s)) ∧
      ((∃ b ∈ a.done, b.closed = true ∧ b.complete = false) → Answers .batchComplete s fun t =>
        event .waitSatisfied [w, k] ∈ t.work ∧ t.mem = s.mem ∧ (t.ctx w k).strand = { u with
          vaHold := false, vmHold := false
          anvil := some { a with done := a.done.map fun b => if b.closed = true ∧ b.complete = false then { b with complete := true } else b } })

/-- 22 R412 to R414: MSTEPR whose active records can all be read, whose rows of A pass their check and for which the record has
room issues one operation for each record, in ascending order, with RB from x[xp], or with all bands of the strand where
that is no count of them; an xa that is no multiple of 64 faults MISALIGN. `holdMatrix` issues an operation as `Held` says.
 When its turn comes at BATCH_COMPLETE, at a strand that runs, a record with a bad field or too few bands is refused with RSTAT 3,
one whose B fails the page check is denied with RSTAT 2 and the first failing page's DENY; both set RDENY and step nothing. An
accepted record loads its B, steps each of its rows into the accumulator, a row an event, and ends with RSTAT 1. The status
doubleword at 0x28 is all that is written, and A and D of its leaf; where it cannot be written now, or a table cannot be read, the
record waits. A record that has ended leaves the record of the strand and the Anvil. One row an event, the alignment of B and the
leaf's A and D are the model's choices (assumptions 11, 43 and 82). -/
def Obligations.OperandRecords : Prop :=
  (∀ (s : State) (q : Issue) (a : Anvil) (h : MatOp), s.strand.anvil = some a → Held s (holdMatrix s q h) a q h) ∧
  (∀ (m xa xp : Nat) (s : State) (q : Issue) (a : Anvil), s.issue = some q → s.strand.anvil = some a →
    q.cv.busy.contains q.slot = false → q.cv.prog = 0 →
    let base := (q.cap 0).toNat
    let rb0 := bits (q.cap 1).toNat 20 16
    let bad := rb0 = 0 ∨ a.grant < rb0
    let rb := if bad then a.grant else rb0
    let s0 := s.onStrand fun u => { u with anvil := some (if bad then { a with astat := setBit a.astat clip true } else a) }
    (base % 64 ≠ 0 → Answers (.mstepr m xa xp) s fun t => HaltsAs s t q (.fault .misalign 0 0 base)) ∧
    (base % 64 = 0 → ∀ t,
      inOrder (issuesRecord q m rb base) ((List.range q.vl).filter (s.strand.admits q.mode)) s0 = some t →
      Answers (.mstepr m xa xp) s (· = t))) ∧
  ∀ (s : State) (a : Anvil) (h : MatOp) (hs : List MatOp),
    let w := s.arg 0
    let k := s.arg 1
    let u := (s.ctx w k).strand
    let r : Record := { d := h.words }
    u.anvil = some a → a.held = h :: hs → (s.ctx w k).state.live = true → h.live = true → h.kind ≠ 0x21 → h.words.length = 8 →
    -- the strand after the event: what the Anvil holds, what the record shows, and no register changed
    let leaves := fun (t : State) (b : Anvil) (held : List MatOp) (ops : List Op) =>
      (∃ x, (t.ctx w k).strand.anvil = some x ∧ x = { b with held := held, done := x.done }) ∧
      (t.ctx w k).strand.ops = ops ∧ (t.ctx w k).strand.x = u.x ∧ (t.ctx w k).strand.v = u.v ∧
      event .batchComplete [w, k] ∈ t.work
    let goes := fun (s0 : State) (b : Anvil) (h' : MatOp) => Answers .batchComplete s fun t =>
      leaves t b (h' :: hs) (u.ops.map fun (o : Op) => if o.id = h.op then { o with tag := h'.progress } else o) ∧ t.mem = s0.mem
    let waits := Answers .batchComplete s (· = park s (event .batchComplete [w, k]))
    let faults := fun (c : Cause) (va : Nat) => Answers .batchComplete s
      (· = takeFault s w k { cause := c, fslot := h.slot, fpc := h.pc, felem := h.index, progress := h.progress, faddr := va })
    let begins := h.loaded = false ∧ r.bad h.bands = 0
    -- the record's line is the strand's own
    (∀ (pa n : Nat) (l : Option Leaf) (xs : List (Xlat × Nat)),
      checkRuns s w k true [((h.xa + 64 * h.index) % 2 ^ 64, 64)] = .parts (({ target := .mem pa, leaf := l }, n) :: xs) →
      let s1 := setAD s w { target := .mem pa, leaf := l } .store
      let busy := writeWaits s (pa + 0x28) 8 = true ∨ granuleHeld s w k (pa + 0x28) 8 = true
      let ends := fun (v : Nat) (P : Anvil → Prop) => (busy → waits) ∧ (¬ busy → Answers .batchComplete s fun t => ∃ b, P b ∧
        leaves t b hs (u.ops.filter fun o => o.id != h.op) ∧
        BytesWritten s1 t (keySlot s w) (pa + 0x28) (bytesOf 8 v) ∧ OtherLines s1 t (pa + 0x28) 8)
      (h.loaded = false → r.bad h.bands ≠ 0 →
        ends (3 + 256 * r.bad h.bands) (· = { a with astat := setBit a.astat rdeny true })) ∧
      (begins → (r.bruns.any fun x => xlatWaits s w k x.1 .load) = false → ∀ d, r.deny s w k = some (d + 1) →
        ends (2 + 256 * (d + 1)) fun b => b.acc = a.acc ∧ b.astat = setBit a.astat rdeny true) ∧
      (h.loaded = true → h.rows = [] → ends (1 + if h.rinv then 2 ^ 16 else 0) (· = a))) ∧
    (begins → (r.bruns.any fun x => xlatWaits s w k x.1 .load) = true → waits) ∧
    (begins → (r.bruns.any fun x => xlatWaits s w k x.1 .load) = false →
      (r.deny s w k = none → faults .tagfail r.bbase) ∧
      (r.deny s w k = some 0 →
        (∀ s2 B, readB w k r (List.range r.depth) s [] = .got s2 B → ∃ b,
          goes s2 b { h with loaded := true, b := B } ∧ b.acc = a.acc ∧ b.astat = a.astat) ∧
        (readB w k r (List.range r.depth) s [] = .waits → waits) ∧
        ∀ c va, readB w k r (List.range r.depth) s [] = .fault c va → faults c va)) ∧
    ∀ i rs, h.loaded = true → h.rows = i :: rs → r.ncol ≤ 512 → r.row0 + i < 64 →
      let read := readRow s w k true r.afmt r.astride (rowBase r.afmt r.astride r.abase i) r.depth
      (∀ s2 xs, read = .got s2 xs →
        let as := alignRow r.afmt 33 0 (xs.map fun v => underBand r.afmt r.ascale (matVal r.afmt v))
        let cols := r.columns ((List.range r.depth).map fun d => (List.range r.ncol).map fun c => tget 0 h.b (d * 512 + c))
        ∃ b, goes s2 b { h with rows := rs, done := h.done + 1, rinv := h.rinv || meetsInv as cols } ∧
          Sets a.astat b.astat inv (bit a.astat inv || meetsInv as cols) ∧
          (∀ c, c < r.ncol → (tget 0 b.acc (accKey h.acc (r.row0 + i) c)).toNat =
            (fAdd 10 0 false (tget 0 a.acc (accKey h.acc (r.row0 + i) c)).toNat (stepSum as (nth [] cols c))).1 % 2 ^ 32) ∧
          ∀ m' j c, c < 512 → j < 64 → (m' ≠ h.acc ∨ r.ncol ≤ c ∨ r.row0 + i ≠ j) →
            tget 0 b.acc (accKey m' j c) = tget 0 a.acc (accKey m' j c)) ∧
      (read = .waits → waits) ∧ ∀ c va, read = .fault c va → faults c va

/-! ## Copies and commands -/

/-- 21 R379, R380, R383: a copy word at a fresh issue whose chunks meet no lock and find room completes its issue: one
chunk for each active element in ascending order, with its source, its destination and its length, each to be completed
by a CHUNK_COMPLETE; COPYC clears each element's bit of pk first. A word with no active element writes 0 to x[xt] at
once. RROT sends one transfer for each active core of the gang's ring, to the next core of the ring. -/
def Obligations.CopyWords : Prop :=
  ∀ (xt xd xs xn : Nat) (s : State) (q : Issue), s.issue = some q → q.lo = 0 → q.hi = q.vl → q.halt = none →
    (∀ c ∈ s.strand.copies, c.id ≠ q.tok ∧ c.issued = true) →
    (∀ o ∈ s.strand.ops, o.group ≠ q.tok) →
    let begun := fun (op5 : Nat) => s.onStrand fun u => { u with
      copies := u.copies ++ [{ id := q.tok, op5 := op5, reg := xt, status := 0, sidx := 0, issued := false }] }
    let dst := (q.cap 0).toNat
    let src := (q.cap 1).toNat
    let n := (q.cap 2).toNat
    let goes := fun (i : Instr) (op5 len : Nat) (stride : Int) => 1 ≤ len → len ≤ 65536 → ∀ t,
      overCovered q (fun s e =>
        sendsChunk q 4 op5 xt q.tok (if op5 = 0x0A then s.onStrand fun u => u.setP xt e false else s) e
          (dword (src + e * stride)).toNat ((dst + e * len) % 2 ^ 64) len) (begun op5) = some t →
      Answers i s (· = t.onStrand fun u => u.issuedCopy q.tok)
    let empty := fun (i : Instr) => (∀ e, ¬ Covers s q e) → Answers i s fun t =>
      t.strand.ops = s.strand.ops ∧ t.strand.copies = s.strand.copies ∧ ∀ r, t.rx r =
        if r = xt ∧ r ≠ 0 ∧ (s.strand.pend.any fun x => x.reg == xt && x.tok == q.tok) = true then 0 else s.rx r
    goes (.copy xt xd xs xn) 0x09 n n ∧ goes (.copyc xt xd xs xn) 0x0A n n ∧
    goes (.copys xt xd xs xn) 0x0B (n % 2 ^ 32) (simm 32 (n / 2 ^ 32)) ∧
    empty (.copy xt xd xs xn) ∧ empty (.copys xt xd xs xn) ∧
    (1 ≤ n → n ≤ 65536 →
      let g := s.gangOf s.cur.1 s.cur.2
      let ring := (List.range 8).filter fun j => (g.allocAt (s.me.core 0 / 8 * 8 + j)).isSome
      let next := fun j => ((ring.find? (j < ·)).or ring.head?).getD j
      let at_ := fun (j off : Nat) => (0xFFFFF10000000000 + j * 0x400000 + off) % 2 ^ 64
      src + n ≤ g.size → dst + n ≤ g.size → ∀ t,
      overCovered q (fun s j => if ring.contains j then
        sendsChunk q 5 0x0C xt q.tok s j (at_ j src) (at_ (next j) dst) n else some s) (begun 0x0C) = some t →
      Answers (.rrot xt xd xs xn) s fun r => ∃ ev, r = { (t.onStrand fun u => u.issuedCopy q.tok) with work := t.work ++ ev } ∧
        ∀ e ∈ ev, e.what = .chunkComplete ∧ e.args.take 2 = [s.cur.1, s.cur.2])

/-- 21 R384 to R386: CMDB offers the command of each active element 8c in ascending order. A command that the engine
accepts takes a slot and sets bit c of pd; one that it refuses clears the bit. One command, of elements 0 to 7. -/
def Obligations.EngineCommands : Prop :=
  ∀ (pd vs : Nat) (s : State) (q : Issue), s.issue = some q → q.lo = 0 → q.hi = 8 → q.vl = 8 →
    let w := s.cur.1
    let k := s.cur.2
    let dw := fun j => s.strand.slot vs (2 * j) + s.strand.slot vs (2 * j + 1) * 2 ^ 32
    let c : Cmd := { w0 := dw 0, w1 := dw 1, w2 := dw 2, w3 := dw 3 }
    (s.strand.active q.mode q.vl 0 = false → Answers (.cmdb pd vs) s (· = s)) ∧
    (s.strand.active q.mode q.vl 0 = true → c.locked q.cv.locks = true →
      Answers (.cmdb pd vs) s fun t => HaltsAs s t q (.fault .opbusy 0 0 c.dst)) ∧
    (s.strand.active q.mode q.vl 0 = true → c.locked q.cv.locks = false →
      (∀ o ∈ s.strand.ops, o.kind = 0x15 → o.done = true) →
      (c.test s w k = .refuse → Answers (.cmdb pd vs) s fun t =>
        t.strand.pbit pd 0 = false ∧ t.strand.cmds = s.strand.cmds ∧ t.strand.ops = s.strand.ops ∧ t.mem = s.mem ∧
        (t.engine w (engineOf s w k)).refused = satInc 32 (s.engine w (engineOf s w k)).refused) ∧
      ∀ slot, c.test s w k = .accept → freeSlot s.strand = some slot → virgaRoom s w k 1 = true →
        Answers (.cmdb pd vs) s fun t =>
          t.strand.pbit pd 0 = true ∧ tget c t.strand.cmds slot = c ∧ t.mem = s.mem ∧ t.strand.v = s.strand.v ∧
          (∃ o, t.strand.ops = s.strand.ops ++ [o] ∧ o.kind = 6 ∧ o.reg = slot ∧ o.slot = q.slot ∧ o.pc = q.cv.addr) ∧
          event (if c.kind = 0x40 then .decryptCommand else .engineCopyCommand) [w, k, slot] ∈ t.work)

/-! ## The control instructions -/

/-- 16 R307, R308, 09 R164, R169: SETVL and SETVLI complete in every state with VL and x[xd] the smaller of the request
and MVL and a new strip open, and nothing else changes. SETVLQ puts one marker into both queues and retires, with x[xd] and VL
pending on it and a new strip open; it waits while its frame has no place for the marker in a queue (the model's choice, assumption
19). LENGTH_MARKER_TAKE at a queue's head takes the oldest entry of the length queue, at most
MVL: the convoys behind the marker in both queues, VL where it still waits for this marker, and x[xd] where its write
still stands, receive it, and the locked ranges that depend on it are those below it (22 R407). An empty length queue blocks it. -/
def Obligations.VectorLength : Prop :=
  (∀ (xd r : Nat) (s : State),
     let sets := fun (i : Instr) (req : Nat) => Answers i s fun t =>
       Retires (s.onStrand fun u => { u with vl := min req s.me.mvl, vlMark := none, strip := u.strip + 1 }) t xd (dword (min req s.me.mvl)) (s.pc + 4)
     sets (.setvl xd r) (s.rx r).toNat ∧ sets (.setvli xd r) r) ∧
  (∀ (xd n : Nat) (s : State),
    let u := s.strand
    let room := frameRoom s s.cur.1 s.cur.2 false = true ∧ frameRoom s s.cur.1 s.cur.2 true = true
    (room → Answers (.setvlq xd n) s fun t => Becomes s t { (u.past (s.pc + 4)) with
      va := u.va ++ [.mark u.seq false], vm := u.vm ++ [.mark u.seq false], seq := u.seq + 1, vlMark := some u.seq
      marks := u.marks ++ [{ id := u.seq, word := encodeWord (.setvlq xd n), val := none, vaPast := false, vmPast := false }]
      pend := if xd = 0 then u.pend else u.pend ++ [{ reg := xd, tok := 4 * u.seq + 2 }]
      unread := if xd = 0 then u.unread else (u.unread.filter fun p => p.1 != xd) ++ [(xd, true)]
      strip := u.strip + 1
      vaHold := false, vmHold := false }) ∧
    (¬ room → Answers (.setvlq xd n) s (· = s))) ∧
  ∀ (s : State) (m : Mark) (r : List QEntry),
    let w := s.arg 0
    let k := s.arg 1
    let c := s.ctx w k
    let u := c.strand
    let n := bits m.word 16 12 % 4
    (c.state = .running ∨ c.state = .waiting) →
    (if s.arg 2 = 0 then u.va else u.vm) = .mark m.id false :: r → (u.marks.find? fun x => x.id == m.id) = some m →
    m.val = none →
    (u.lqget n = [] → Answers .lengthMarkerTake s fun t => t.ctx w k = c) ∧
    ∀ v l, u.lqget n = v :: l → Answers .lengthMarkerTake s fun t =>
      let g := min v c.mvl
      let u' := (t.ctx w k).strand
      let given := fun (q : List QEntry) => q.map fun e => match e with
        | .convoy c => .convoy { c with
            vl := if c.vl = .mark m.id then .fixed g else c.vl
            locks := c.locks ++ hardened m.id g c.soft
            soft := c.soft.filter fun l => l.1 != m.id }
        | _ => e
      t = { s with ctxs := t.ctxs } ∧ (∀ w' k', ctxKey w' k' ≠ ctxKey w k → t.ctx w' k' = s.ctx w' k') ∧
      u'.lqget n = l ∧ u'.va = (if s.arg 2 = 0 then given r else given u.va) ∧
      u'.vm = (if s.arg 2 = 0 then given u.vm else given r) ∧
      (∀ a, u.anvil = some a → u'.anvil = some { a with opn := a.opn.harden m.id g, done := a.done.map (Batch.harden m.id g) }) ∧
      u'.vl = (if u.vlMark = some m.id then g else u.vl) ∧ u'.pc = u.pc ∧ u'.v = u.v ∧
      ∀ x, u'.rx x = if x = bits m.word 11 7 ∧ x ≠ 0 ∧
          (u.pend.any fun y => y.reg == x && y.tok == 4 * m.id + 2) = true then dword g else u.rx x

/-- 15 R300, R301, 16 R309, R312, R320, R321: the fences of the scalar stream complete once what they wait for has
performed, FSV and FVV once their markers stand in both queues, VSYNC and FFLAGS once both queues are empty, each counted in
RESYNC when it executes; until then each leaves the state as it is. FFLAGS reads the sticky flags and clears them. FENCE.TSO waits as
FENCE RW, RW (assumption 12), TSYNC and FENCE.I have no other effect (assumption 41), a marker waits for a place in its frame
(assumption 19), and VSYNC and FFLAGS spare what has been written its own count (assumption 86): the model's choices. -/
def Obligations.Fences : Prop :=
  ∀ s : State,
    let w := s.cur.1
    let k := s.cur.2
    let u := s.strand
    let done := s.strand.past (s.pc + 4)
    let when_ := fun (i : Instr) (b : Prop) (after : Strand) =>
      (b → Answers i s fun t => Becomes s t after) ∧ (¬ b → Answers i s (· = s))
    let room := frameRoom s w k false = true ∧ frameRoom s w k true = true
    let marked := fun (i : Instr) => { done with
      va := u.va ++ [.fence (encodeWord i) u.seq], vm := u.vm ++ [.fence (encodeWord i) u.seq], seq := u.seq + 1
      vaHold := false, vmHold := false }
    let drained := u.va = [] ∧ u.vm = []
    let counted := fun (f : Strand → Strand) => countResync (s.onStrand f) w k
    (∀ pred succ, when_ (.fence pred succ)
      (pred = 0 ∨ succ = 0 ∨ scalarDone s (bit pred 1) (bit pred 0) = true) done) ∧
    when_ .fenceTso (scalarDone s true true = true) done ∧ when_ .fenceI (storesLeft s w k = false) done ∧
    when_ .tsync (tableStoresHeld s w k = false) done ∧
    (∀ sc, when_ (.fsv sc) room (marked (.fsv sc)) ∧ when_ (.fvv sc) room (marked (.fvv sc)) ∧
      when_ (.fvs sc) (vectorDone s = true) done) ∧
    (∀ f, (counted f).me = { s.me with
      resync := s.me.resync + 1, strand := { f u with resv := (counted f).strand.resv, mon := (counted f).strand.mon } }) ∧
    (drained → Answers .vsync s fun t => Retires (counted Strand.forget) t 0 0 (s.pc + 4)) ∧
    (¬ drained → Answers .vsync s (· = s)) ∧
    ∀ xd, (drained → Answers (.fflags xd) s fun t =>
        Retires (counted fun u => { u.forget with fflags := 0 }) t xd (dword u.fflags) (s.pc + 4)) ∧
      (¬ drained → Answers (.fflags xd) s (· = s))

/-- 16 R310, R311, R318, 09 R158: QSEND to q0 to q3 appends x[xs] where there is room; QRECV from q4 or q5 removes the
oldest entry into x[xd] where there is one; both wait otherwise, and every other queue number is ILLEGAL. WID reads a
field of the work identifier, or all of it. XLTRAP faults XLATE with its number. -/
def Obligations.QueueTransfersAndNames : Prop :=
  ∀ s : State,
    let u := s.strand
    let done := u.past (s.pc + 4)
    (∀ n xs, n ≤ 3 → ((u.qget n).length < 16 → Answers (.qsend n xs) s fun t =>
        Becomes s t { done with q := t.strand.q, vaHold := false, vmHold := false } ∧
        ∀ m, t.strand.qget m = if m = n then u.qget n ++ [s.rx xs] else u.qget m) ∧
      (16 ≤ (u.qget n).length → Answers (.qsend n xs) s (· = s))) ∧
    (∀ xd n, n = 4 ∨ n = 5 → (u.qget n = [] → Answers (.qrecv xd n) s (· = s)) ∧
      ∀ v r, u.qget n = v :: r → Answers (.qrecv xd n) s fun t =>
        Becomes s t { done with q := t.strand.q, x := t.strand.x, vaHold := false, vmHold := false } ∧
        (∀ m, t.strand.qget m = if m = n then r else u.qget m) ∧ ∀ m, t.rx m = if m = xd ∧ m ≠ 0 then v else s.rx m) ∧
    (∀ xd f, f < 6 → Answers (.wid xd f) s fun t =>
      let ws := s.myLaunch.widths
      let lo := ((ws.take f).foldl (· + ·) 0)
      Retires s t xd (dword (s.me.widv.toNat / 2 ^ lo % 2 ^ nth 0 ws f)) (s.pc + 4)) ∧
    (∀ xd, Answers (.wid xd 6) s fun t => Retires s t xd s.me.widv (s.pc + 4)) ∧
    (s.me.state.live = true →
      (∀ n xs, 3 < n → Answers (.qsend n xs) s fun t => FaultsAtPc s t .illegal 0) ∧
      (∀ xd n, n ≠ 4 → n ≠ 5 → Answers (.qrecv xd n) s fun t => FaultsAtPc s t .illegal 0) ∧
      (∀ xd f, 6 < f → Answers (.wid xd f) s fun t => FaultsAtPc s t .illegal 0) ∧
      ∀ n, Answers (.xltrap n) s fun t => FaultsAtPc s t .xlate n)

/-- 16 R313 to R315, R317, 08 R154, 21 R392, 22 R406, 03 R57: MONARM reads its doubleword and arms the strand's monitor on
its line. MONWAIT, JOIN, MWAIT and BWAIT go on where what they wait for has come, and otherwise put the context in
WAITING with their wait. WAIT_SATISFIED ends such a wait once it is over. What JOIN returns for a token that names no
child has a value that the manual leaves open (assumption 6). -/
def Obligations.MonitorsAndWaits : Prop :=
  ∀ s : State,
    let w := s.cur.1
    let k := s.cur.2
    let u := s.strand
    let room := virgaRoom s w k 1 = true
    (∀ xd xa x, let va := (s.rx xa).toNat
      checkAccess s w k (s.me.core 0) (scalarAsk s w k va 8 .load none) = .ok x → walkBusy s w k va 8 .load = false →
      u.acquiring = false →
      let arms := fun (world line v : Nat) => Answers (.monarm xd xa) s fun t =>
        Retires ((setAD s w x .load).onStrand fun u => { u with
          mon := some { world := world, line := line, woken := false } }) t xd (dword v) (s.pc + 4)
      (∀ pa, x.target = .mem pa → scalarWaits s w k pa 8 = false → tagFails s (keySlot s w) pa 8 = false →
        arms 0 (pa / 64) (readNum s (keySlot s w) pa 8)) ∧
      ∀ kind idx off, x.target = .page kind idx off →
        arms (if instanced kind then w else 0) (pagePA kind idx off / 64) (readPage s w kind idx off 8)) ∧
    (u.mon = none → Answers .monwait s fun t => Becomes s t (u.past (s.pc + 4))) ∧
    (∀ m, u.mon = some m → (m.woken = true → Answers .monwait s fun t =>
        Becomes s t { (u.past (s.pc + 4)) with mon := none }) ∧
      (m.woken = false → room → Answers .monwait s fun t => Waits s t { kind := 0x31, operand := 0, reg := 0 })) ∧
    (∀ xd xt, let tok := (s.rx xt).toNat
      (u.child tok = none → Answers (.join xd xt) s fun t => t.pc = s.pc + 4 ∧ t.strand.kids = u.kids ∧
        ∀ n, t.rx n = if n = xd ∧ n ≠ 0 then badToken s else s.rx n) ∧
      ∀ c, u.child tok = some c →
        (∀ v, c.done = some v → Answers (.join xd xt) s fun t =>
          Becomes s t { (u.past (s.pc + 4)) with x := t.strand.x, kids := t.strand.kids } ∧ c ∉ t.strand.kids ∧
          ∀ n, t.rx n = if n = xd ∧ n ≠ 0 then dword v else s.rx n) ∧
        (c.done = none → room → Answers (.join xd xt) s fun t => Waits s t { kind := 0x32, operand := tok, reg := xd })) ∧
    (∀ xs, let id := (s.rx xs).toNat
      (u.batchesDone id = true → Answers (.mwait xs) s fun t =>
        Becomes s t { (u.past (s.pc + 4)) with anvil := t.strand.anvil } ∧
        ∀ a, u.anvil = some a → t.strand.anvil = some { a with
          done := a.done.filter fun b => !decide ((id % 2 ^ 32 + 2 ^ 32 - b.id) % 2 ^ 32 < 2 ^ 31) }) ∧
      (u.batchesDone id = false → room → Answers (.mwait xs) s fun t => Waits s t { kind := 0x33, operand := id, reg := 0 })) ∧
    (∀ xa x ph pa, let v := (s.rx xa).toNat
      barrierPhase s w k (v / 2 * 2) = .ok (x, ph) → x.target = .mem pa → walkBusy s w k (v / 2 * 2) 64 .load = false →
      scalarWaits s w k pa 24 = false →
      (ph % 2 ≠ v % 2 → Answers (.bwait xa) s fun t => Becomes (setAD s w x .load) t ((setAD s w x .load).strand.past (s.pc + 4))) ∧
      (ph % 2 = v % 2 → virgaRoom (setAD s w x .load) w k 1 = true →
        Answers (.bwait xa) s fun t => Waits (setAD s w x .load) t { kind := 0x30, operand := v, reg := 0 })) ∧
    ∀ wt, let v := s.arg 0
      let j := s.arg 1
      let parked := wt.kind = 0x30 ∧ barrierBusy s v j (wt.operand / 2 * 2) = true ∧
        s.parked.contains (event .waitSatisfied [v, j]) = false
      (s.ctx v j).state = .waiting → (s.ctx v j).wait = some wt →
      (parked → Answers .waitSatisfied s (· = park s (event .waitSatisfied [v, j]))) ∧
      (¬ parked → waitOver s v j wt = none → Answers .waitSatisfied s (· = s)) ∧
      ∀ f, waitOver s v j wt = some f → Answers .waitSatisfied s fun t =>
        (t.ctx v j).state = .running ∧ (t.ctx v j).wait = none ∧ (t.ctx v j).strand.x = (f (s.ctx v j).strand).x ∧
        (t.ctx v j).strand.pc = (f (s.ctx v j).strand).pc ∧ t.mem = s.mem

/-- 16 R316, R322, 08 R153: SPAWN whose packet reads and is not refused appends it to CHILDQ as an inline packet and
writes the child's token; a refused one writes 0 and appends nothing. REMST sends one remote store to its link (`sendPeer`,
see UnitsAndFlits) and retires; like every write it faults OPBUSY at a locked range (22 R407), and waits where a lock depends on a VL
that is still to come. A misaligned address faults MISALIGN for both. -/
def Obligations.SpawnAndRemoteStore : Prop :=
  ∀ (xd xa xs : Nat) (s : State),
    let w := s.cur.1
    let k := s.cur.2
    let va := (s.rx xa).toNat
    (s.me.state.live = true → va % 8 ≠ 0 → (Answers (.spawn xd xa) s fun t => FaultsAtPc s t .misalign va) ∧
      Answers (.remst xs xa) s fun t => FaultsAtPc s t .misalign va) ∧
    (∀ s1 dws, va % 8 = 0 → readPacket s w k va 8 0 [] = .words s1 dws → s1.cur = s.cur →
      (spawnRefused s1 dws = true → Answers (.spawn xd xa) s fun t => t.queues = s1.queues ∧
        t.pc = s1.pc + 4 ∧ ∀ n, t.rx n = if n = xd ∧ n ≠ 0 then 0 else s1.rx n) ∧
      (spawnRefused s1 dws = false →
        let c1 := (s1.queue s1.myLaunch.queue).childq
        let n : Nat := (s1.queue c1).appended % 2 ^ 32
        Answers (.spawn xd xa) s fun t => t.pc = s1.pc + 4 ∧ t.strand.kids = s1.strand.kids ++ [{ q := c1, count := n, done := none }] ∧
          (t.queue c1).appended = (s1.queue c1).appended + 1 ∧
          (((s1.queue c1).cur.isSome ∨ (s1.queue c1).order ≠ []) →
            (t.queue c1).order = (s1.queue c1).order ++ [.inl dws true (some n)]) ∧
          ∀ r, t.rx r = if r = xd ∧ r ≠ 0 then dword ((2 ^ 63 + c1 * 2 ^ 32 + n : Nat) : Int) else s1.rx r)) ∧
    (∀ x id off n, va % 8 = 0 → s.strand.acquiring = false → xlatWaits s w k va .store = false →
      resolve s w k (s.me.core 0) va .store = .ok x → x.target = .peer id off → route s id = .ok n →
      (meets va 8 s.strand.locked = true → s.me.state.live = true →
        Answers (.remst xs xa) s fun t => FaultsAtPc s t .opbusy va) ∧
      (meets va 8 s.strand.locked = false → s.strand.lockPending va 8 = true → Answers (.remst xs xa) s (· = s)) ∧
      (meets va 8 s.strand.locked = false → s.strand.lockPending va 8 = false →
      let sent := sendPeer s n (.store s.fresh off 8 (s.rx xs).toNat)
      Answers (.remst xs xa) s fun t =>
        t.remotes = s.remotes ++ [{ id := s.fresh, link := n, world := w, launch := s.me.launch }] ∧
        t.plinks = sent.plinks ∧ t.out = sent.out ∧ t.pc = s.pc + 4 ∧ t.strand.x = s.strand.x ∧
        (t.launch w s.me.launch).peerpend = (s.launch w s.me.launch).peerpend + 1))

/-- 21 R389 to R391, R393, 22 R398, R399: BINIT stores a fresh object; BARRIVE and PHEND arrive and BEXPECT expects at
the object once what they release has performed: ARRIVE goes down by one, or OVR is set where it is 0; PEND goes up by the
expected bytes, clamped with SAT set at 2^28 - 1; and where both are then 0 the phase ends, with PHASE one further and ARRIVE
again NARR. MATT attaches with the bands that are
there, or reads and clears ASTAT; MDET detaches. -/
def Obligations.BarriersAndAttachment : Prop :=
  ∀ s : State,
    let w := s.cur.1
    let k := s.cur.2
    let u := s.strand
    let free := fun (pa n : Nat) => granuleHeld s w k pa n = false ∧ u.acquiring = false ∧ u.updating pa n = false ∧
      convoyNames s w k pa n = false
    (∀ xa xp x pa, let va := (s.rx xa).toNat
      barrierTarget s w k va = .ok x → x.target = .mem pa → walkBusy s w k va 64 .amo = false → free pa 64 →
      u.lockPending va 64 = false → tagFails s (keySlot s w) pa 64 = false → writeWaits s pa 64 = false →
      let v := (s.rx xp).toNat
      let sc := bits v 34 32
      Answers (.binit xa xp) s fun t => Stored (setAD s w x .amo) t (s.pc + 4) ∧
        BytesWritten (setAD s w x .amo) t (keySlot s w) pa (bytesOf 64
          (bits v 31 0 + (bits v 31 0 + (if sc = 0 ∨ 6 ≤ sc then 4 else sc) * 2 ^ 32) * 2 ^ 64)) ∧
        OtherLines (setAD s w x .amo) t pa 64) ∧
    (∀ xa xn x pa, let va := (s.rx xa).toNat
      barrierTarget s w k va = .ok x → x.target = .mem pa → walkBusy s w k va 64 .amo = false → free pa 24 →
      virgaRoom s w k 1 = true → u.lockPending va 64 = false → portLater s pa 24 = false →
      writeTagFails (setAD s w x .amo) (keySlot s w) pa 24 = false →
      let word := fun (s : State) (o : Nat) => readNum s (keySlot s w) (pa + o) 8
      let old := word (setAD s w x .amo)
      let arrive := bits (old 0) 31 0
      let pend := simm 29 (old 16)
      let v : Nat := (s.rx xn).toNat
      -- the object after ARRIVE, PEND, OVR and SAT are set, and the phase has ended or not
      let updates := fun (i : Instr) (a : Nat) (p : Int) (ovr sat : Bool) => Answers i s fun t =>
        word t 0 = (if a = 0 ∧ p = 0 then (bits (old 0) 63 32 + 1) % 2 ^ 32 * 2 ^ 32 + bits (old 8) 31 0
          else bits (old 0) 63 32 * 2 ^ 32 + a) ∧
        word t 8 = old 8 ∧ simm 29 (word t 16) = p ∧ bit (word t 16) 31 = ovr ∧ bit (word t 16) 30 = sat ∧
        (∀ j, 29 ≤ j → j ≠ 30 → j ≠ 31 → bit (word t 16) j = bit (old 16) j) ∧ t.pc = s.pc + 4 ∧
        t.strand.x = s.strand.x ∧ OtherLines (setAD s w x .amo) t pa 24
      let arrives := fun (i : Instr) => updates i (arrive - 1) pend (bit (old 16) 31 || arrive == 0) (bit (old 16) 30)
      (scalarDone s true true = true → arrives (.barrive xa)) ∧
      (let beyond : Bool := decide (2 ^ 28 - 1 < pend + v)
       updates (.bexpect xa xn) arrive (if beyond then 2 ^ 28 - 1 else pend + v) (bit (old 16) 31) (bit (old 16) 30 || beyond)) ∧
      (u.convoysDone = true → vectorDone s = true → scalarDone s true true = true → arrives (.phend xa))) ∧
    (∀ xd xs, u.anvil = none →
      let g := min (min (s.rx xs).toNat 16) (min ((s.gangOf w k).bands - bandsGranted s w k) (bandClamp s.me.elat))
      let ok := g ≠ 0 ∧ bit s.ready.anvil (engineOf s w k) = true ∧ attachedHere s w k < 8
      (ok → Answers (.matt xd xs) s fun t =>
        Retires (s.onStrand fun u => { u with anvil := some { Anvil.zero with grant := g } }) t xd (dword g) (s.pc + 4)) ∧
      (¬ ok → Answers (.matt xd xs) s fun t => Retires s t xd 0 (s.pc + 4))) ∧
    (∀ xd xs a, u.anvil = some a → u.matrixDone = true → Answers (.matt xd xs) s fun t =>
      Retires (s.onStrand fun u => { u with anvil := some { a with astat := 0 } }) t xd (dword (a.grant + a.astat * 2 ^ 32))
        (s.pc + 4)) ∧
    (u.anvil = none ∨ u.matrixDone = true → Answers .mdet s fun t => Becomes s t { (u.past (s.pc + 4)) with anvil := none }) ∧
    (u.anvil.isSome = true → u.matrixDone = false → Answers .mdet s (· = s))

/-- 16 R305, R306, 13 R254 to R257, 09 R163, R166: a CVY whose body words fetch and form a legal convoy, with no captured
register pending and room in its queue, commits: the convoy stands last in VA or VM with its words, its captured
operands, its VL and its strip, the x registers that it will write are pending, and PC stands past its words; it is counted in
RESYNC where it captures a register that a convoy, a copy or a marker was to write and nothing has named since (09 R166; when it
counts is the model's reading, assumption 86). An illegal convoy faults ILLEGAL at the first illegal slot with nothing committed;
where a word's fetch faults, the words before it have been held against R256 first. A queue's room and the wait for the records of an
MSTEPR are the model's choices (assumptions 19 and 43). -/
def Obligations.ConvoyCommit : Prop :=
  ∀ (cnt guard gneg etype rm sat tb : Nat) (s s1 : State) (ws : List Nat),
    let w := s.cur.1
    let k := s.cur.2
    let i := Instr.cvy cnt guard gneg etype rm sat tb
    (∀ c slot, s.me.state.live = true → fetchBody s w k s.pc.toNat (cnt + 1) 1 [] = .fault c slot ws →
      Answers i s fun t => t.me.state = .stopping ∧ t.strand.va = s.strand.va ∧ t.strand.vm = s.strand.vm ∧
        t.me.fault = some (match prefixIllegal s.myLaunch.features etype ws with
          | some j => { cause := .illegal, fslot := j, fpc := s.pc.toNat, felem := 0, progress := 0, faddr := 0 }
          | none => { cause := c, fslot := slot, fpc := s.pc.toNat, felem := 0, progress := 0
                      faddr := (s.pc.toNat + 4 * slot) % 2 ^ 64 })) ∧
    (fetchBody s w k s.pc.toNat (cnt + 1) 1 [] = .words s1 ws →
    (∀ j, s1.me.state.live = true → s1.cur = s.cur → illegalSlot s.myLaunch.features etype ws = some j →
      Answers i s fun t => t.me.state = .stopping ∧ t.me.fault = some { cause := .illegal, fslot := j, fpc := s.pc.toNat, felem := 0, progress := 0, faddr := 0 } ∧
        t.strand.va = s1.strand.va ∧ t.strand.vm = s1.strand.vm ∧ t.strand.x = s1.strand.x ∧ t.pc = s1.pc) ∧
    (illegalSlot s.myLaunch.features etype ws = none → s1.cur = s.cur →
      (∀ b ∈ ws.filterMap wordOf, ∀ r ∈ captures b, s.strand.pending r = false) → roomIn s w k (isVmBody ws) = true →
      recordsWait s w k (s.strand.newConvoy (encodeWord i) s.pc.toNat ws) = false →
      Answers i s fun t => ∃ c : Convoy, c.addr = s.pc.toNat ∧ c.words = ws ∧ c.resk = 1 ∧ c.rese = 0 ∧ c.strip = s1.strand.strip ∧
        t.me.resync = s1.me.resync + (if s1.strand.resyncs ((ws.filterMap wordOf).flatMap captures) [] then 1 else 0) ∧
        c.caps = (ws.map fun x => match wordOf x with | some b => (captures b).map s1.strand.rx | none => []) ∧
        c.vl = (match s1.strand.vlMark with | some id => .mark id | none => .fixed s1.strand.vl) ∧
        t.strand.va = (if isVmBody ws then s1.strand.va else s1.strand.va ++ [.convoy c]) ∧
        t.strand.vm = (if isVmBody ws then s1.strand.vm ++ [.convoy c] else s1.strand.vm) ∧
        t.pc = s.pc + BitVec.ofNat 64 (4 * (cnt + 2)) ∧ t.strand.x = s1.strand.x ∧ t.strand.v = s1.strand.v ∧
        t.mem = s1.mem ∧ ∀ b ∈ ws.filterMap wordOf, ∀ xd, xDest b = some xd → xd ≠ 0 → t.strand.pending xd = true))

/-! ## Events

An event is an instruction without a word: its operands are those of the event under way (`State.arg`, `State.ev`). -/

/-- 01 R23 to R28, R453, 02 R32, R41, 05 R109: an event of a die, a cluster, an Anvil, a function or a link changes its bits of
the readiness page, with GEN advanced where a field changes; what failed its self-test stays not ready; the pages of a
cluster or an I/O die that becomes ready take their reset values; a memory group that becomes ready is sized with the first
and reads zero; a link that loses training, retrains or fails, and what is held at it; RETRAIN and the write-one-to-clear of
the FAIL words. A frozen peer link loses its training too, and a peer's write that waits at a memory link which fails is counted and
refused. Statements about a link that comes back or fails name what the held writes are. That world 0 becomes active with the first
group, which changes are one event and which two, and what the operands say (assumption 26), the credits of a memory link and the
numbers of held writes (assumption 77), and that a dropped write of a peer counts in LOSTW and in INDROP (assumption 85) are the
model's choices; so is the thermal limiter's reaction at a cluster that becomes ready hot (assumption 93). -/
def Obligations.ReadinessEvents : Prop :=
  ∀ s : State,
    let r := s.ready
    let n := s.arg 0
    let boots := fun (up : Bool) (mgrp : Bool) => up = true ∧ (s.world 0).wstate = 0 ∧ mgrp = true
    (bit r.iod n = true → Answers .iodReady s (· = s)) ∧
    (bit r.iod n = false → Answers .iodReady s fun t => Sets r.iod t.ready.iod n true ∧ t.ready.gen = r.gen + 1 ∧
      (∀ b, t.monit b = if 160 + 4 * n ≤ b ∧ b < 164 + 4 * n then Monit.zero else s.monit b) ∧
      (let up := n = 0 ∧ s.arg 1 = 0
       (up → t.core.up = true ∧ t.core.verified = true) ∧
       (¬ up → t.core = s.core) ∧
       (¬ (up ∧ (s.world 0).wstate = 0 ∧ bit r.mgrp 0 = true) →
         Woken { s.withReady { r with iod := t.ready.iod } with core := t.core, monits := t.monits } t) ∧
       (up → (s.world 0).wstate = 0 → bit r.mgrp 0 = true →
        (t.world 0).wstate = 2 ∧ (t.world 0).fmask = 0x1F ∧ (t.world 0).tregion = 0 ∧
        usedRanges (t.world 0) = if 6 * r.grpBytes / 2 ^ 30 - 1 = 0 then [] else [(0, 6 * r.grpBytes / 2 ^ 30 - 1)]))) ∧
    (Answers .fnReady s fun t => Sets r.fn t.ready.fn n true ∧ Woken (s.withReady { r with fn := t.ready.fn }) t) ∧
    (let ok := fun (c : Nat) => c / 10 = n ∧ bit (s.arg 1) (c % 10) = true
     let passed := fun (c : Nat) => ok c ∧ bit s.failClu c = false ∧ bit r.clu c = false
     (bit s.failDie n = true ∨ bit r.cdie n = true → Answers .cdieReady s (· = s)) ∧
     (bit s.failDie n = false → bit r.cdie n = false → bit (s.arg 1) 10 = false →
       Answers .cdieReady s fun t => t = { s with failDie := t.failDie } ∧ Sets s.failDie t.failDie n true) ∧
     (bit s.failDie n = false → bit r.cdie n = false → bit (s.arg 1) 10 = true → Answers .cdieReady s fun t =>
      Sets r.cdie t.ready.cdie n true ∧ Sets s.portCdie t.portCdie n true ∧
      ((∃ c, passed c) → t.ready.gen = r.gen + 2) ∧ ((∀ c, ¬ passed c) → t.ready.gen = r.gen + 1) ∧
      (∀ c, bit t.ready.clu c = true ↔ bit r.clu c = true ∨ passed c) ∧
      (∀ c, bit t.failClu c = true ↔ bit s.failClu c = true ∨ (c / 10 = n ∧ ¬ ok c)) ∧
      (∀ c, (passed c → t.pow c = s.freshPower c) ∧ (¬ passed c → t.pow c = s.pow c)) ∧
      (∀ b, (passed (b / 2) → t.monit b = Monit.zero) ∧ (¬ passed (b / 2) → t.monit b = s.monit b)) ∧
      event .dispatchDecision [] ∈ t.work ∧
      Woken { s with ready := { r with gen := t.ready.gen, cdie := t.ready.cdie, clu := t.ready.clu },
                     portCdie := t.portCdie, failClu := t.failClu, power := t.power, monits := t.monits } t)) ∧
    (bit r.clu n = false ∨ bit s.failAnvil n = true ∨ bit r.anvil n = true → Answers .anvilReady s (· = s)) ∧
    (bit r.clu n = true → bit s.failAnvil n = false → bit r.anvil n = false →
      (s.arg 1 ≠ 0 → Answers .anvilReady s fun t => t = { s with failAnvil := t.failAnvil } ∧ Sets s.failAnvil t.failAnvil n true) ∧
      (s.arg 1 = 0 → Answers .anvilReady s fun t => Sets r.anvil t.ready.anvil n true ∧
        Woken (s.withReady { r with anvil := t.ready.anvil }) t)) ∧
    (Answers .mlinkReady s fun t => Sets r.mlink t.ready.mlink n true ∧ Sets r.mlinkX4 t.ready.mlinkX4 n (s.arg 1 != 0) ∧
      OnlyAt s.mlink t.mlink n { (s.mlink n).fresh [256, 256, 128, 128] with mib := s.arg 2 } ∧
      Woken { s.withReady { r with mlink := t.ready.mlink, mlinkX4 := t.ready.mlinkX4 } with mlinks := t.mlinks } t) ∧
    (let linked := ∀ i, i < 4 → bit r.mlink (4 * n + i) = true
     (linked → bit r.mgrp n = false → Answers .mgrpReady s fun t =>
      Sets r.mgrp t.ready.mgrp n true ∧ Sets s.portMgrp t.portMgrp n true ∧
      t.ready.gen = r.gen + (if r.grpBytes = 0 ∧ groupBytes s ≠ 0 then 2 else 1) ∧
      t.ready.grpBytes = (if r.grpBytes = 0 then groupBytes s else r.grpBytes) ∧
      (¬ boots s.core.up (n == 0 || bit r.mgrp 0) →
        ∀ slot a, n * t.ready.grpBytes ≤ a → a < (n + 1) * t.ready.grpBytes → readByte t slot a = 0) ∧
      (boots s.core.up (n == 0 || bit r.mgrp 0) → (t.world 0).wstate = 2)) ∧
     (¬ linked ∨ bit r.mgrp n = true → ¬ boots s.core.up (bit r.mgrp 0) → Answers .mgrpReady s (· = s))) ∧
    (∀ x : State, groupBytes x = 4 * (((x.mlinks.map fun e => e.2.mib).filter (· != 0)).min?.getD 0) / 1024 * 2 ^ 30) ∧
    (Answers .plinkReady s fun t => Sets r.plink t.ready.plink n true ∧ Sets r.plinkX4 t.ready.plinkX4 n (s.arg 1 != 0) ∧
      Sets s.portPlink t.portPlink n true ∧
      OnlyAt s.peer t.peer n { s.peer n with faridv := true, farid := s.arg 2 % 64 } ∧
      OnlyAt s.plink t.plink n ((s.plink n).fresh [s.arg 3, s.arg 4, s.arg 5]) ∧
      Woken { s.withReady { r with plink := t.ready.plink, plinkX4 := t.ready.plinkX4 } with
        peers := t.peers, plinks := t.plinks, portPlink := t.portPlink } t) ∧
    (let m := s.arg 1
     let lost := fun (t : State) => t = { s with mlinks := t.mlinks, plinks := t.plinks }
     (n = 0 → bit r.mlink m = true → Answers .linkTrainingLoss s fun t => lost t ∧ t.plinks = s.plinks ∧
       OnlyAt s.mlink t.mlink m { s.mlink m with retraining := true }) ∧
     let trained := bit r.plink m = true ∨ ((s.peer m).pfrozen = true ∧ (s.plink m).failed = false)
     (n ≠ 0 → trained → Answers .linkTrainingLoss s fun t => lost t ∧ t.mlinks = s.mlinks ∧
       OnlyAt s.plink t.plink m { s.plink m with retraining := true }) ∧
     (n = 0 ∧ bit r.mlink m = false ∨ n ≠ 0 ∧ ¬ trained → Answers .linkTrainingLoss s (· = s)) ∧
     -- a link that had failed begins anew; another sends again what has not been acknowledged
     let back := fun (l : Link) (cs : List Nat) =>
       if l.failed then l.fresh cs else { l with retraining := false, asked := false, txSend := l.txRetry }
     (n = 0 → (s.mlink m).retraining = true → Answers .linkRetrainDone s fun t =>
       Sets r.mlink t.ready.mlink m true ∧ Sets r.mlinkX4 t.ready.mlinkX4 m (s.arg 2 != 0) ∧
       OnlyAt s.mlink t.mlink m ((back (s.mlink m) [256, 256, 128, 128]).pump false 64).1 ∧
       (∀ h, s.heldW = [h] → h.data ≠ [] → h.reserved s = false →
         (∀ p ∈ pagesOf h.pa h.data.length, (linkOf s p = m ∨ retrains s p = false) ∧ uncopied s p = false) →
         t.heldW = [] ∧ BytesWritten s t h.slot h.pa h.data) ∧
       (s.heldW = [] → Woken { s.withReady { r with mlink := t.ready.mlink, mlinkX4 := t.ready.mlinkX4 } with
         mlinks := t.mlinks, parked := [],
         out := s.out ++ ((back (s.mlink m) [256, 256, 128, 128]).pump false 64).2.map fun f => .flit m f } t)) ∧
     (n ≠ 0 → (s.plink m).retraining = true → s.heldW = [] → Answers .linkRetrainDone s fun t =>
       Sets r.plinkX4 t.ready.plinkX4 m (s.arg 2 != 0) ∧
       (if (s.peer m).pfrozen = true then t.ready.plink = r.plink ∧ t.portPlink = s.portPlink
        else Sets r.plink t.ready.plink m true ∧ Sets s.portPlink t.portPlink m true) ∧
       OnlyAt s.peer t.peer m { s.peer m with faridv := true, farid := s.arg 3 % 64 } ∧
       OnlyAt s.plink t.plink m ((back (s.plink m) [s.arg 4, s.arg 5, s.arg 6]).pump true 2048).1 ∧ t.mem = s.mem) ∧
     ((if n = 0 then s.mlink m else s.plink m).retraining = false →
       Answers .linkRetrainDone s (· = s) ∧ Answers .linkFailure s (· = s)) ∧
     (n = 0 → (s.mlink m).retraining = true → (∀ h ∈ s.heldW, heldAt s m h = true) → Answers .linkFailure s fun t =>
       Sets r.mlink t.ready.mlink m false ∧ Sets r.mlinkFail t.ready.mlinkFail m true ∧
       Sets r.mgrp t.ready.mgrp (m / 4) false ∧ Sets s.portMgrp t.portMgrp (m / 4) false ∧
       Sets r.mlinkX4 t.ready.mlinkX4 m false ∧
       t.ready.lostw = Nat.min (2 ^ 32 - 1) (r.lostw + s.heldW.length) ∧ t.heldW = [] ∧
       OnlyAt s.mlink t.mlink m { s.mlink m with retraining := false, asked := false, failed := true } ∧
       (∀ w k, ∀ o ∈ (s.ctx w k).strand.ops, k < 16384 → o.cls = 1 → o.done = false → o.queued = false → o.host = none →
         isMem o.pa = true → linkOf s o.pa = m → event .portFaultReport [w, k, o.id, 15] ∈ t.work) ∧
       (∀ h ∈ s.heldW, h.ctx < 16384 → event .contextSaved [h.world, h.ctx] ∈ t.work) ∧
       -- a peer's write that is dropped is counted and refused
       (∀ h c id, s.heldW = [h] → h.ack = some (c, id) →
         OnlyAt s.peer t.peer c { s.peer c with indrop := Nat.min (2 ^ 64 - 1) ((s.peer c).indrop + 1) } ∧
         t.plinks = (sendPeer s c (.refuse id)).plinks ∧ t.out = (sendPeer s c (.refuse id)).out) ∧
       ((∀ h ∈ s.heldW, h.ack = none) →
         Woken { s.withReady { r with mlink := t.ready.mlink, mlinkFail := t.ready.mlinkFail, mgrp := t.ready.mgrp,
                                      mlinkX4 := t.ready.mlinkX4, lostw := t.ready.lostw } with
               portMgrp := t.portMgrp, mlinks := t.mlinks, heldW := [], parked := [] } t)) ∧
     (n ≠ 0 → (s.plink m).retraining = true → s.heldW = [] → Answers .linkFailure s fun t =>
       Sets r.plink t.ready.plink m false ∧ Sets r.plinkFail t.ready.plinkFail m true ∧
       Sets r.plinkX4 t.ready.plinkX4 m false ∧ Sets s.portPlink t.portPlink m false ∧
       OnlyAt s.plink t.plink m { s.plink m with retraining := false, asked := false, failed := true } ∧
       (∀ x ∈ t.remotes, x.link ≠ m) ∧ t.mem = s.mem ∧
       ∀ e ∈ s.hreqs, e.2.link = some m → event .hostCompletion [e.1, 0] ∈ t.work)) ∧
    ((s.mlink n).failed = true → Answers .mlinkRetrain s fun t => t = { s with mlinks := t.mlinks } ∧
      OnlyAt s.mlink t.mlink n { s.mlink n with retraining := true, asked := true }) ∧
    ((s.mlink n).failed = false → Answers .mlinkRetrain s (· = s)) ∧
    ((s.plink n).failed = true → Answers .plinkRetrain s fun t => t = { s with plinks := t.plinks } ∧
      OnlyAt s.plink t.plink n { s.plink n with retraining := true, asked := true }) ∧
    ((s.plink n).failed = false → Answers .plinkRetrain s (· = s)) ∧
    (Nat.land r.mlinkFail n ≠ 0 → Answers .mlinkFailClear s fun t =>
      (∀ j, bit t.ready.mlinkFail j = (bit r.mlinkFail j && !bit n j)) ∧
      Woken (s.withReady { r with mlinkFail := t.ready.mlinkFail }) t) ∧
    (Nat.land r.mlinkFail n = 0 → Answers .mlinkFailClear s (· = s)) ∧
    (Nat.land r.plinkFail n ≠ 0 → Answers .plinkFailClear s fun t =>
      (∀ j, bit t.ready.plinkFail j = (bit r.plinkFail j && !bit n j)) ∧
      Woken (s.withReady { r with plinkFail := t.ready.plinkFail }) t) ∧
    (Nat.land r.plinkFail n = 0 → Answers .plinkFailClear s (· = s)) ∧
    ((s.mlink n).failed = true → Answers .postedStoreDropped s fun t =>
      t.ready.lostw = Nat.min (2 ^ 32 - 1) (r.lostw + max 1 (s.arg 1)) ∧
      Woken (s.withReady { r with lostw := t.ready.lostw }) t) ∧
    ((s.mlink n).failed = false → Answers .postedStoreDropped s (· = s))

/-- 01 R12 to R14: the 14 edges of the die grid; a way between compute dies follows the row and then the column and passes no
I/O die. A unit with at most one bit error leaves its sender's retry buffer: at the die it is for it is delivered and its
credit given back, and elsewhere it waits for the next edge of its way; a worse one is sent again. What waits goes on in order.
 01 R15, R16, R20: the next flit on the wire is accepted in order where its errors can be corrected: its number is the next
one, its lines and its messages are handed on and the credit of each of its slots is owed; otherwise a bad one is refused by its number,
and what is out of order is not accepted. A refusal sends that flit and every later one again, an acknowledgement frees
every flit up to its own, and a link that runs sends in order what is to be sent again and then what has credit and room; one that
retrains or has failed sends nothing. -/
def Obligations.UnitsAndFlits : Prop :=
  dieEdges.length = 14 ∧ (∀ e ∈ dieEdges, e.1 < 8 → e.2 < 8 →
    (dieRow e.1 = dieRow e.2 ∧ dieCol e.2 = dieCol e.1 + 1) ∨ (dieCol e.1 = dieCol e.2 ∧ dieRow e.2 = dieRow e.1 + 1)) ∧
  (∀ a b, a < 10 → b < 10 → a ≠ b → (dieRoute 9 a b).getLast? = some b ∧
    (∀ d ∈ (dieRoute 9 a b).dropLast, d < 8) ∧
    ∀ p ∈ ((a :: dieRoute 9 a b).zip (dieRoute 9 a b)), (edgePort p.1 p.2).isSome = true) ∧
  (∀ a b, a < 8 → b < 8 → dieCol a ≠ dieCol b → dieRow (nextDie a b) = dieRow a) ∧
  ∀ s : State,
    let n := s.arg 0
    let l := s.flitLink n
    (∀ u rest, (s.edge n).retry = u :: rest →
      let freed := s.modEdge n fun e => { e with retry := rest }
      (s.arg 1 ≤ 1 → edgeEnd n = u.dst →
        (Answers .edgeUnitReceive s
          (· = pumpEdge 70 (freed.modEdge n fun e => { e with used := e.used - 1, got := e.got ++ [u] }) n)) ∧
        ((s.edge n).wait = [] → Answers .edgeUnitReceive s fun t => t = { s with edges := t.edges } ∧
          OnlyAt s.edge t.edge n { s.edge n with retry := rest, used := (s.edge n).used - 1, got := (s.edge n).got ++ [u] })) ∧
      (s.arg 1 ≤ 1 → edgeEnd n ≠ u.dst → ∀ p, edgePort (edgeEnd n) (nextDie (edgeEnd n) u.dst) = some p →
        Answers .edgeUnitReceive s
          (· = pumpEdge 70 (pumpEdge 70 (freed.modEdge p fun e => { e with wait := e.wait ++ [{ u with via := some n }] }) p) n)) ∧
      (s.arg 1 ≤ 1 → edgeEnd n ≠ u.dst → edgePort (edgeEnd n) (nextDie (edgeEnd n) u.dst) = none →
        Answers .edgeUnitReceive s (· = pumpEdge 70 freed n)) ∧
      (1 < s.arg 1 → Answers .edgeUnitReceive s (· = s))) ∧
    ((s.edge n).retry = [] → Answers .edgeUnitReceive s (· = s)) ∧
    -- what waits for a direction goes in order and none of it is lost, until nothing waits or no room or credit is left
    (∀ (u : State) (p : Nat),
      let v := pumpEdge 70 u p
      let line := fun (e : Edge) => (e.retry ++ e.wait).map fun (x : EUnit) => (x.src, x.dst, x.payload)
      v = { u with edges := v.edges } ∧ (∀ q, line (v.edge q) = line (u.edge q) ∧ (v.edge q).got = (u.edge q).got) ∧
      ((v.edge p).wait = [] ∨ 64 ≤ (v.edge p).retry.length ∨ 64 ≤ (v.edge p).used)) ∧
    (∀ noise f rest, l.wire = (noise, f) :: rest →
      (f.seq = l.rxNext → noise ≤ 1 → Answers .flitReceive s fun t => ∃ l' : Link,
        l' = { (l.acked f.ack).gain f.credits with
          wire := rest, rxNext := l.rxNext + 1, refused := none
          rxGot := l.rxGot ++ f.slots.filterMap (fun x => match x.2 with | .line bs => some bs | .descs _ => none)
          owed := l'.owed, ackDue := l.ackDue || !f.slots.isEmpty } ∧
        (∀ c, tget 0 l'.owed c = tget 0 l.owed c + (f.slots.filter fun x => x.1 == c).length) ∧
        let u := s.modFlitLink n fun _ => l'
        t = pumpLink (if n < 24 then u else deliverRequests u (n - 24) (f.slots.flatMap fun x => match x.2 with
          | .descs ms => (ms.take 4).map (PeerMsg.step (n - 24))
          | .line _ => [])) n) ∧
      (f.seq = l.rxNext → 1 < noise → Answers .flitReceive s fun t => t = { s with mlinks := t.mlinks, plinks := t.plinks } ∧
        OnlyAt s.flitLink t.flitLink n { l with wire := rest, refused := some f.seq.toNat }) ∧
      (f.seq ≠ l.rxNext → Answers .flitReceive s fun t => t = { s with mlinks := t.mlinks, plinks := t.plinks } ∧
        OnlyAt s.flitLink t.flitLink n { l with wire := rest })) ∧
    (l.wire = [] → Answers .flitReceive s (· = s)) ∧
    -- messages become steps in the order in which they came: a request of the link behind those that wait
    (∀ (u : State) (p : Nat) (es : List Event),
      ((∀ e ∈ u.parked, requestLink e ≠ some p) → deliverRequests u p es = { u with work := u.work ++ es }) ∧
      ((∃ e ∈ u.parked, requestLink e = some p) → deliverRequests u p es = { u with
        work := u.work ++ es.filter fun e => requestLink e != some p
        parked := u.parked ++ es.filter fun e => requestLink e == some p })) ∧
    (∀ before f after, l.txRetry = before ++ f :: after → f.seq.toNat = s.arg 1 → (∀ g ∈ before, g.seq ≠ f.seq) →
      let left := if l.txSend.any fun g => g.seq == f.seq then (l.txSend.dropWhile fun g => g.seq != f.seq).drop 1 else l.txSend
      -- a link that retrains or has failed sends nothing; another sends again, in order, and then what is new
      let links := fun (i : Instr) (l' : Link) => l.retraining = true ∨ l.failed = true → Answers i s fun t =>
        t = { s with mlinks := t.mlinks, plinks := t.plinks } ∧ OnlyAt s.flitLink t.flitLink n l'
      let sends := fun (i : Instr) (retry again : List Flit) => l.retraining = false → l.failed = false →
        again.length ≤ (if n < 24 then 64 else 2048) → Answers i s fun t => ∃ new : List Flit,
          t = { s with mlinks := t.mlinks, plinks := t.plinks, out := s.out ++ (again ++ new).map (.flit n) } ∧
          (t.flitLink n).txRetry = retry ++ new ∧ (t.flitLink n).txSend = [] ∧ (t.flitLink n).wire = l.wire ∧
          (t.flitLink n).rxNext = l.rxNext ∧ ∀ m, m ≠ n → t.flitLink m = s.flitLink m
      links .flitRefusal { l with txSend := f :: after } ∧ sends .flitRefusal l.txRetry (f :: after) ∧
      links .flitAck { l with txRetry := after, txSend := left } ∧ sends .flitAck after left) ∧
    ((∀ f ∈ l.txRetry, f.seq.toNat ≠ s.arg 1 % 4096) →
      Answers .flitAck s (· = pumpLink (s.modFlitLink n fun _ => l) n)) ∧
    ((∀ f ∈ l.txRetry, f.seq.toNat ≠ s.arg 1) →
      Answers .flitRefusal s (· = pumpLink (s.modFlitLink n fun _ => { l with txSend := [] }) n)) ∧
    -- one message on an idle link with a credit of its channel
    ∀ m : PeerMsg, let p := s.plink n
      p.retraining = false → p.failed = false → p.txSend = [] → (∀ c, tget [] p.txQ c = []) → p.txRetry.length < 1137 →
      p.ackDue = false → m.slots = [.descs [m]] → m.channel < 3 → 0 < tget 0 p.credit m.channel →
      let f : Flit := { seq := p.txNext, ack := p.rxNext - 1, credits := (List.range 3).map (tget 0 p.owed), slots := [(m.channel, .descs [m])] }
      (sendPeer s n m).out = s.out ++ [.flit (24 + n) f] ∧ ((sendPeer s n m).plink n).txRetry = p.txRetry ++ [f] ∧
      ((sendPeer s n m).plink n).txNext = p.txNext + 1 ∧
      tget 0 ((sendPeer s n m).plink n).credit m.channel = tget 0 p.credit m.channel - 1

/-- 05 R108, R109, 01 R22, 10 R204, 08 R155: an inbound request inside the granted range of a ready world is performed and
then acknowledged, a write that waits at its port once it has performed, and a read returns its bytes; one that cannot go (a read
whose port is busy, a write whose queue is full or whose granule a strand's reservation holds) waits, and the later requests of its
link wait behind it; one outside freezes its link; one that meets memory not ready, or writes a table region, is dropped, counted and refused; a frozen link takes
none. UNFREEZE makes a link ready again, INWORLD refuses a confidential world, an answer to a remote store settles it, and a
violation of an IDE stream freezes its function and sends its interfaces to ERROR. What a message of the answer does to its
link is `sendPeer`'s (see UnitsAndFlits). A request that begins inside and ends outside is taken as unauthorised (assumption 63), a
FREE world's ranges are its MRANGE fields (assumption 64), and the violation of an IDE stream sends every interface of the function
to ERROR, unlocked ones too, and kills no launch (assumption 29): the model's choices. -/
def Obligations.PeerRequests : Prop :=
  ∀ s : State,
    let n := s.arg 0
    let o := s.arg 1
    let p := s.peer n
    let x := s.world p.inworld
    let slot := keySlot s p.inworld
    let pa := p.inbase * 4096 + o
    let up := p.pfrozen = false ∧ bit s.ready.plink n = true
    let inside := fun (len : Nat) => p.inen = true ∧ o + len ≤ p.insize * 4096 ∧ inRanges x pa = true ∧
      inRanges x (pa + len - 1) = true
    -- the request waits, and those of its link that came after it wait behind it
    let behind := fun (t : State) => t = { s with
      work := s.work.filter fun e => requestLink e != some n
      parked := s.parked ++ s.ev :: s.work.filter fun e => requestLink e == some n }
    -- instruction, length, whether it writes, the answer to a dropped one
    let forms : List (Instr × Nat × Bool × PeerMsg) := [(.inboundRemoteStore, s.arg 2, true, .refuse (s.arg 4)),
      (.inboundCopyWrite, s.ev.data.length, true, .drop (s.arg 2)), (.inboundCopyRead, s.arg 2, false, .drop (s.arg 3))]
    (∀ f ∈ forms, f.2.1 ≠ 0 → (¬ up → Answers f.1 s (· = s)) ∧
      (up → ¬ inside f.2.1 → s.heldW = [] → Answers f.1 s fun t =>
        OnlyAt s.peer t.peer n { p with pfrozen := true, violcnt := Nat.min (2 ^ 64 - 1) (p.violcnt + 1), violoff := o } ∧
        Sets s.ready.plink t.ready.plink n false ∧ Sets s.portPlink t.portPlink n false ∧
        (∀ r ∈ t.remotes, r.link ≠ n) ∧ t.mem = s.mem ∧ t.out = s.out) ∧
      let sent := sendPeer s n f.2.2.2
      (up → inside f.2.1 → memReady s pa = false → Answers f.1 s fun t =>
        OnlyAt s.peer t.peer n { p with indrop := Nat.min (2 ^ 64 - 1) (p.indrop + 1) } ∧
        Woken { s with peers := t.peers, plinks := sent.plinks, out := sent.out } t) ∧
      (up → inside f.2.1 → memReady s pa = true → f.2.2.1 = true → tableRange s pa f.2.1 = true → Answers f.1 s fun t =>
        OnlyAt s.peer t.peer n { p with tbldrop := Nat.min (2 ^ 64 - 1) (p.tbldrop + 1) } ∧
        Woken { s with peers := t.peers, plinks := sent.plinks, out := sent.out } t)) ∧
    (∀ f ∈ [(Instr.inboundRemoteStore, bytesOf (s.arg 2) (s.arg 3), s.arg 4),
        (Instr.inboundCopyWrite, s.ev.data.map (BitVec.ofNat 8), s.arg 2)], f.2.1 ≠ [] → up → inside f.2.1.length →
      pa + f.2.1.length ≤ 2 ^ 51 → memReady s pa = true → tableRange s pa f.2.1.length = false →
      writeTagFails s slot pa f.2.1.length = false →
      let h : HeldW := { world := p.inworld, ctx := 16384, slot := slot, pa := pa, data := f.2.1, ack := some (n, f.2.2) }
      let sent := sendPeer s n (.ack f.2.2)
      let keeps := queueFull s pa f.2.1.length = true ∨ unitHeld s pa f.2.1.length = true
      (keeps → Answers f.1 s behind) ∧
      (¬ keeps → writeWaits s pa f.2.1.length = false → Answers f.1 s fun t =>
        BytesWritten s t slot pa f.2.1 ∧ OtherLines s t pa f.2.1.length ∧ t.plinks = sent.plinks ∧ t.out = sent.out ∧
        t.peers = s.peers) ∧
      (¬ keeps → writeWaits s pa f.2.1.length = true → Answers f.1 s fun t =>
        t = { s with heldW := s.heldW ++ [h], work := t.work } ∧
        ∀ u : State, performHeld u h = sendPeer (performWrite u slot pa f.2.1) n (.ack f.2.2))) ∧
    (s.arg 2 ≠ 0 → up → inside (s.arg 2) → memReady s pa = true →
      (portBusy s pa (s.arg 2) = true → Answers .inboundCopyRead s behind) ∧
      (portBusy s pa (s.arg 2) = false → tagFails s slot pa (s.arg 2) = false →
        Answers .inboundCopyRead s
          (· = sendPeer s n (.data (s.arg 3) ((readBytes s slot pa (s.arg 2)).map (·.toNat)))))) ∧
    (p.pfrozen = false → Answers .plinkUnfreeze s (· = s)) ∧
    (p.pfrozen = true → (s.plink n).failed = true → Answers .plinkUnfreeze s fun t =>
      OnlyAt s.peer t.peer n { p with pfrozen := false } ∧ Woken { s with peers := t.peers } t) ∧
    (p.pfrozen = true → (s.plink n).failed = false → s.heldW = [] → Answers .plinkUnfreeze s fun t =>
      OnlyAt s.peer t.peer n { p with pfrozen := false } ∧ Sets s.ready.plink t.ready.plink n true ∧
      Sets s.portPlink t.portPlink n true ∧
      Woken { s.withReady { s.ready with plink := t.ready.plink } with
        peers := t.peers, portPlink := t.portPlink, parked := [] } t) ∧
    (let v := s.world (o % 256)
     Answers .inworldWrite s fun t => t = { s with peers := t.peers } ∧ OnlyAt s.peer t.peer n { p with
       inen := bit o 8, inworld := if v.conf = true ∧ v.wstate ≠ 0 then p.inworld else o % 256 }) ∧
    (∀ f ∈ [(Instr.remoteStoreAck, 0, 1), (Instr.remoteStoreRefusal, 1, 0)],
      ((∀ r ∈ s.remotes, r.id ≠ o ∨ r.link ≠ n) →
        ((∀ e ∈ s.hreqs, e.1 ≠ o) → Answers f.1 s (· = s)) ∧
        ((∃ e ∈ s.hreqs, e.1 = o) → Answers f.1 s (· = s.push .hostCompletion [o, f.2.2]))) ∧
      ∀ r, s.remotes.find? (fun r => r.id == o && r.link == n) = some r → Answers f.1 s fun t =>
        t.remotes = s.remotes.filter (fun x => x.id != o) ∧
        (∀ w l, t.launch w l = if launchKey w l = launchKey r.world r.launch then
          { s.launch r.world r.launch with peerpend := (s.launch r.world r.launch).peerpend - 1,
                                           lost := (s.launch r.world r.launch).lost + f.2.1 } else s.launch w l) ∧
        ((s.launch r.world r.launch).lstate = .ackwait → (s.launch r.world r.launch).peerpend ≤ 1 →
          event .launchDone [r.world, r.launch] ∈ t.work) ∧
        Woken { s with remotes := t.remotes, launches := t.launches } t) ∧
    Answers .ideIntegrityFailure s fun t =>
      (t.world n).fnFrozen = true ∧ (t.fn n).insecure = (s.fn n).insecure ++ [o] ∧
      (∀ q, q < 32768 → (s.queue q).owner = n → (t.queue q).istate = 3) ∧ t.launches = s.launches ∧
      ∀ w k, (t.ctx w k).state = (s.ctx w k).state

/-- 02 R30 to R40: a request for a voltage is counted, resolved to the lowest sufficient point and granted up to CAP and
LIMIT; CAP and the limiters bring TARGET down; a change ramps before the clock switches on the way up and after it on the
way down, and ICOUNT stands at the end of each when it is done; a stall window closes with its sample; the power limiter acts
on the clusters with the highest points (which clusters and values where R36 is silent: assumption 56); a sensor's reading moves
TEMP_C and, on a ready cluster, the thermal limiter; from 115 °C on, or at a trip, every regulator turns off. The rates of a
window that a clock switch closes are open (`Config.stallSample`). Ramps and locks that end before the tick which an event or the
passing of time reaches have ended by then, each at its own tick (`settleTo`). A bound that falls below TARGET during a change waits
for its end (assumption 55), what a tick of a counter and of time is (assumption 28), and that the thermal limiter acts on every
reading of 100 °C or more (assumption 93), are the model's choices.
 02 R41 to R43: CLEAR empties a block; a block that is enabled, not frozen and whose source is present captures a value
in MIN, MAX, COUNT, SUM and the bin of the lowest edge above it; a level sample is the next beat of 10 ticks of the cluster's
counter, for the level sources alone, and captures what they measure then. The values of latency sources come from outside (assumption
94). -/
def Obligations.PowerAndMonitors : Prop :=
  (∀ s : State,
     let c := s.arg 0
     let v := s.arg 1
     let p := s.pow c
     let sets := fun (i : Instr) (s0 : State) (x : Power) => Answers i s fun t =>
       OnlyAt s.pow t.pow c x ∧ Woken { s0 with power := t.power } t
     let asked := { p with reqMv := v % 1024, reqCnt := p.reqCnt + 1 }
     -- what the cluster's counter has become at a tick, and the rest of the device with it
     let ticked := fun (x : Power) (at' : Word) =>
       x = (if at' ≤ p.icount then p else { p with icount := at' }) ∨
       ∃ n, p.icount < at' ∧ 1000 < (at' - p.winStart).toNat ∧ x = { p.windows n at' with icount := at' }
     let timed := fun (t : State) (f : Power → Power → Prop) (at' : Word) =>
       (∃ x, ticked x at' ∧ f x (t.pow c)) ∧ (∀ d, d ≠ c → t.pow d = s.pow d) ∧
       (∀ b, b / 2 ≠ c → t.monit b = s.monit b) ∧
       Woken { s with power := t.power, monits := t.monits, fresh := t.fresh } t
     (v % 1024 < 600 → sets .reqMv s { asked with result := 1 }) ∧
     (∀ want, 600 ≤ v % 1024 → Nat.min (v % 1024) 950 ≤ 600 + 50 * want →
       (want = 0 ∨ 600 + 50 * (want - 1) < Nat.min (v % 1024) 950) →
       let grant := Nat.min want (Nat.min p.cap p.limit)
       sets .reqMv s (started { asked with target := grant, want := grant, result :=
         if grant < want then 2 else if 950 < v % 1024 then 3 else 0 })) ∧
     (s.arg 2 = 0 → Answers .capWrite s (· = s)) ∧
     (s.arg 2 ≠ 0 →
       let capped := if v % 8 < p.cap
         then started { p with cap := v % 8, target := Nat.min p.target (v % 8) } else { p with cap := v % 8 }
       (MustWait s → Deferred .capWrite s) ∧
       (∀ r, MayGo s r → sets .capWrite { s with deferred := r } capped)) ∧
     (let mv := 600 + 50 * p.goal
      let done := p.since + BitVec.ofNat 64 (4 * (if mv < p.voltMv then p.voltMv - mv else mv - p.voltMv))
      let ramped := fun (x : Power) => { x with voltMv := mv, since := x.icount }
      (p.phase = 1 → Answers .voltageRampDone s (timed · (fun x y => y = { ramped x with phase := 2 }) done)) ∧
      (p.phase = 3 → Answers .voltageRampDone s
        (timed · (fun x y => y = started { ramped x with phase := 0, changing := false }) done)) ∧
      (p.phase ≠ 1 → p.phase ≠ 3 → Answers .voltageRampDone s (· = s))) ∧
     (p.phase = 2 → Answers .clockLockDone s (timed · (fun x y => ∃ w : Word,
       let z := { x with cur := p.goal, stall := w, winSeq := x.winSeq + 1, winStart := x.icount, since := x.icount }
       bits w.toNat 63 52 = (x.winSeq + 1) % 4096 ∧ bit w.toNat 51 = true ∧
       bits w.toNat 9 0 = (x.icount - x.winStart).toNat % 1024 ∧
       y = if p.cur < p.goal then started { z with phase := 0, changing := false } else { z with phase := 3 }) (p.since + 100))) ∧
     (p.phase ≠ 2 → Answers .clockLockDone s (· = s)) ∧
     (p.phase = 1 ∨ p.phase = 3 → Answers .voltageRampDone s (· = endPhase s c)) ∧
     (p.phase = 2 → Answers .clockLockDone s (· = endPhase s c)) ∧
     (∀ (u : State) (d : Nat) (f : Power → Word) (n : Nat), let z := u.pow d
       let end_ := z.since + (if z.phase = 2 then 100 else
         BitVec.ofNat 64 (4 * (if 600 + 50 * z.goal < z.voltMv then z.voltMv - (600 + 50 * z.goal) else 600 + 50 * z.goal - z.voltMv)))
       (z.phase = 0 ∨ ¬ end_ ≤ f z → settleTo d f (n + 1) u = u) ∧
       (z.phase ≠ 0 → end_ ≤ f z → settleTo d f (n + 1) u = settleTo d f n (endPhase u d))) ∧
     (∀ s0, settleTo c (fun p => p.winStart + 1000) 8 s = s0 → s0 ≠ s → ∃ t, exec .stallWindowClose s = .next t ∧
       (t.pow c).winStart = (s0.pow c).winStart + 1000 ∧ (t.pow c).cur = (s0.pow c).cur ∧ (t.pow c).phase = (s0.pow c).phase) ∧
     (settleTo c (fun p => p.winStart + 1000) 8 s = s →
      let now := p.winStart + 1000
      Answers .stallWindowClose s (timed · (fun x y => ∃ w : Word,
       bits w.toNat 63 52 = (p.winSeq + 1) % 4096 ∧ bit w.toNat 51 = false ∧ bits w.toNat 39 30 = s.arg 1 % 1024 ∧
       bits w.toNat 29 20 = s.arg 2 % 1024 ∧ bits w.toNat 19 10 = s.arg 3 % 1024 ∧ bits w.toNat 9 0 = 1000 ∧
       y = { x with stall := w, winSeq := p.winSeq + 1, winStart := now }) now)) ∧
     (let acts := fun (on : Nat → Prop) (f : Power → Power) (low : Nat) => Answers .powerLimiterInterval s fun t =>
       (∀ d, (on d → t.pow d = f (s.pow d)) ∧ (¬ on d → t.pow d = s.pow d)) ∧
       t.iod0 = (s.iod0 / 100000 + 1) * 100000 ∧
       Woken { s with power := t.power, iod0 := t.iod0, lowIntervals := low, fns := t.fns, out := t.out } t
      (2800 < c → acts (· ∈ (byPoint s).take 10) (fun p => limited { p with plim := p.limit - 1, pwrlim := true }) 0) ∧
      (c < 2660 → 2 ≤ s.lowIntervals → acts (fun d => d < 80 ∧ bit s.ready.clu d = true ∧ (s.pow d).limit < 7)
        (fun p => limited { p with plim := Nat.min 7 (p.plim + 1) }) 0) ∧
      (c < 2660 → s.lowIntervals < 2 → acts (fun _ => False) id (s.lowIntervals + 1)) ∧
      (2660 ≤ c → c ≤ 2800 → acts (fun _ => False) id 0)) ∧
     (let reads := { p with tempC := v }
      (100 ≤ v → v < 256 → sets .thermalHot { s with tripped := s.tripped || decide (115 ≤ v) }
        (if bit s.ready.clu c = true then limited { reads with hot := true, thermal := true } else reads)) ∧
      (v < 100 → Answers .thermalHot s (· = s)) ∧
      (v < 95 → sets .thermalRelease s
        (if bit s.ready.clu c = true ∧ p.thermal = true then limited { reads with thermal := false } else reads)) ∧
      (95 ≤ v → Answers .thermalRelease s (· = s))) ∧
     Answers .thermalTrip s (· = { s with tripped := true }) ∧
     Answers .powerFlagsClear s fun t => t = { s with power := t.power } ∧
       OnlyAt s.pow t.pow c { p with hot := p.hot && !bit v 1, pwrlim := p.pwrlim && !bit v 0 }) ∧
  ∀ s : State,
    let b := s.arg 0
    let m := s.monit b
    let level := 5 ≤ m.src ∧ m.src ≤ 9
    let blocks := fun (i : Instr) (y : Monit) => Answers i s fun t => t = { s with monits := t.monits } ∧ OnlyAt s.monit t.monit b y
    let on := m.en = true ∧ m.freeze = false ∧ (if b < 160 then 1 ≤ m.src ∧ m.src ≤ 9 else 0x20 ≤ m.src ∧ m.src ≤ 0x22)
    let taken := fun (x i : Nat) => { m with
      min := Nat.min m.min x, max := Nat.max m.max x, count := Nat.min (2 ^ 64 - 1) (m.count + 1)
      sum := Nat.min (2 ^ 64 - 1) (m.sum + x), bins := tset i (Nat.min (2 ^ 32 - 1) (tget 0 m.bins i + 1)) m.bins }
    let bin := fun (x i : Nat) => i ≤ 15 ∧ (i < 15 → x < tget 0 m.edges i) ∧ ∀ j, j < i → tget 0 m.edges j ≤ x
    blocks .clear { m with min := 2 ^ 32 - 1, max := 0, count := 0, sum := 0, bins := [] } ∧
    (let x := s.arg 1 % 2 ^ 32
     (∀ i, on → ¬ level → bin x i → blocks .monitorCapture (taken x i)) ∧
     (¬ on ∨ level → blocks .monitorCapture m)) ∧
    (¬ (b < 160 ∧ level) → Answers .monitorLevelSample s (· = s)) ∧
    (let c := b / 2
     let p := s.pow c
     let beat := m.beat + 1
     let now := BitVec.ofNat 64 (10 * beat)
     let s0 := settleTo c (fun _ => BitVec.ofNat 64 (10 * beat - 1)) 8 s
     let p0 := s0.pow c
     let x := (match m.src with
       | 5 => occupancy s c false | 6 => occupancy s c true | 7 => s.arg 1
       | 8 => p0.voltAt now | _ => p0.tempC) % 2 ^ 32
     let samples := fun (y : Monit) => Answers .monitorLevelSample s fun t =>
       OnlyAt s.monit t.monit b { y with beat := beat } ∧ t = { s0 with monits := t.monits, power := t.power, fresh := t.fresh } ∧
       (t.pow c).icount = (if now ≤ p0.icount then p0.icount else now) ∧ ∀ d, d ≠ c → t.pow d = s.pow d
     b < 160 → level → p.icount.toNat / 10 ≤ beat → (∀ o, o / 2 = c → m.beat ≤ (s.monit o).beat) →
       (∀ i, on → bin x i → samples (taken x i)) ∧ (¬ on → samples m))

/-- 03 R55, R57, R59: a write of CMD is counted and its result shown. STOP halts a live context and its save is due; RUN
makes a saved or faulted one read RESUMING and loads what the page holds, at once where it has its slot and the fabric and
otherwise once it has both, and a STOP before that ends it (assumption 16); KILL ends a context, a frozen one with world-root
rights alone; anything else is ignored. The saved fields of the page are written only while the context reads SAVED or FAULTED.
 03 R61: on a launch whose number is bound, STOP_ALL holds dispatch and stops every live context; RUN_ALL releases dispatch and
runs every saved context; KILL_ALL discards the gangs still to place and ends every context but, without world-root rights,
the frozen ones. On any other launch they do nothing (03 R60). -/
def Obligations.ContextCommands : Prop :=
  (∀ s : State,
    let w := s.arg 0
    let k := s.arg 1
    let c := s.ctx w k
    let counted := fun (t : State) (r : Nat) => (t.ctx w k).cmdCnt = c.cmdCnt + 1 ∧ (t.ctx w k).cmdStat = r
    let ignored := fun (i : Instr) (r : Nat) => Answers i s fun t => counted t r ∧
      Woken (s.putCtx w k { c with cmdCnt := c.cmdCnt + 1, cmdStat := r }) t
    let kept := fun (t : State) => (t.ctx w k).strand.x = c.strand.x ∧ (t.ctx w k).strand.pc = c.strand.pc ∧
      (t.ctx w k).strand.v = c.strand.v ∧ (t.ctx w k).strand.va = c.strand.va ∧ (t.ctx w k).strand.vm = c.strand.vm ∧ t.mem = s.mem
    let done := c.state = .saved ∨ c.state = .faulted
    let placed := c.resident = true ∧ s.quantum.world = w ∧ s.quantum.switch = none ∧ (s.gangOf w k).state ≠ .rotating
    (c.state.live = true → c.due = false → Answers .stop s fun t => counted t 0 ∧
      (t.ctx w k).state = .stopping ∧ (t.ctx w k).heldState = 0 ∧ event .contextSaved [w, k] ∈ t.work ∧ (t.ctx w k).wait = none ∧
      (t.ctx w k).strand.resv = none ∧ (t.ctx w k).strand.mon = none ∧ kept t ∧ t.launches = s.launches) ∧
    (c.state.live = true → c.due = true → Answers .stop s fun t => counted t 0 ∧
      (t.ctx w k).state = .saved ∧ (t.ctx w k).heldState = 0 ∧ (t.ctx w k).due = false ∧ kept t ∧ (t.ctx w k).xS = c.xS ∧ (t.ctx w k).pcS = c.pcS) ∧
    (c.state.live = false → c.heldState ≠ 0 → Answers .stop s fun t => counted t 0 ∧ (t.ctx w k).state = c.state ∧ (t.ctx w k).heldState = 0 ∧
      (t.ctx w k).ranAtSwitch = false ∧ kept t) ∧
    (c.state.live = false → c.heldState = 0 → ignored .stop 1) ∧
    (done → c.heldState = 0 → placed → Answers .run s fun t => counted t 0 ∧
      (t.ctx w k).state = .resuming ∧ (t.ctx w k).due = false ∧ event .replayDone [w, k] ∈ t.work ∧
      (t.ctx w k).strand.x = c.xS ∧ (t.ctx w k).strand.pc = c.pcS ∧ (t.ctx w k).strand.vl = Nat.min c.vlS c.mvl ∧
      (t.ctx w k).strand.fflags = c.fflagsS ∧ t.mem = s.mem) ∧
    (done → c.heldState = 0 → ¬ placed → Answers .run s fun t => counted t 0 ∧
      (t.ctx w k).state = .resuming ∧ (t.ctx w k).due = true ∧ kept t ∧ (t.ctx w k).xS = c.xS ∧ (t.ctx w k).pcS = c.pcS) ∧
    (¬ done ∨ c.heldState ≠ 0 → ignored .run 1) ∧
    (c.state.killable = true ∨ (c.state = .frozen ∧ s.arg 2 ≠ 0) → Answers .kill s fun t => counted t 0 ∧
      ((t.ctx w k).state = .dead ∨ (t.ctx w k).state = .empty) ∧ (t.ctx w k).strand.ops = [] ∧
      (t.ctx w k).strand.va = [] ∧ (t.ctx w k).strand.vm = [] ∧ t.mem = s.mem) ∧
    (c.state = .frozen → s.arg 2 = 0 → ignored .kill 2) ∧
    (c.state = .empty ∨ c.state = .dead → ignored .kill 1) ∧
    ignored .cmdZero 1 ∧
    (let off := s.arg 2
     let v := s.arg 3
     let ctx := fun (x : Ctx) => Answers .ctxSavedFieldWrite s fun t =>
       t = { s with ctxs := t.ctxs } ∧ ∀ w' k', t.ctx w' k' = if ctxKey w' k' = ctxKey w k then x else s.ctx w' k'
     (done → c.heldState = 0 →
       (off = 0x80 → ctx { c with pcS := BitVec.ofNat 64 v }) ∧
       (off = 0x88 → ctx { c with vlS := bits v 47 32, fflagsS := bits v 4 0 }) ∧
       ∀ r, 1 ≤ r → r < 32 → off = 0x100 + 8 * r → ctx { c with xS := tput 0 r (BitVec.ofNat 64 v) c.xS }) ∧
     (¬ done ∨ c.heldState ≠ 0 ∨ (off < 0x100 ∧ off ≠ 0x80 ∧ off ≠ 0x88) ∨ off < 0x108 ∧ 0x100 ≤ off ∨ 0x200 ≤ off →
       Answers .ctxSavedFieldWrite s (· = s)))) ∧
  ∀ s : State,
    let w := s.arg 0
    let l := s.arg 1
    let mine := fun (k : Nat) => k < 16384 ∧ (s.ctx w k).launch = l ∧ (s.ctx w k).state ≠ .empty
    let x := s.launch w l
    let undone := x.lstate = .pending ∨ x.lstate = .active ∨ x.lstate = .ackwait
    let open' := undone ∨ (x.lstate = .done ∧ x.free = false)
    (¬ open' → ∀ i ∈ [Instr.stopAll, .runAll, .killAll], Answers i s (· = s)) ∧
    (open' →
      (Answers .stopAll s fun t => (t.launch w l).held = true ∧ t.mem = s.mem ∧
        ∀ k, mine k → let c := s.ctx w k
          (c.state.live = true → c.due = false → (t.ctx w k).state = .stopping ∧ event .contextSaved [w, k] ∈ t.work) ∧
          (c.state.live = true → c.due = true → (t.ctx w k).state = .saved ∧ (t.ctx w k).due = false) ∧
          (c.state.live = false → c.heldState = 0 → c.due = false → (t.ctx w k).state = c.state) ∧
          (c.state.live = false → c.heldState ≠ 0 → (t.ctx w k).state = c.state ∧ (t.ctx w k).heldState = 0)) ∧
      (Answers .runAll s fun t => (t.launch w l).held = false ∧ event .dispatchDecision [] ∈ t.work ∧ t.mem = s.mem ∧
        ∀ k, mine k → let c := s.ctx w k
          (c.state = .saved → c.heldState = 0 → (t.ctx w k).state = .resuming ∧
            (c.resident = true → s.quantum.world = w → s.quantum.switch = none → (s.gangOf w k).state ≠ .rotating →
              event .replayDone [w, k] ∈ t.work ∧ (t.ctx w k).strand.pc = c.pcS) ∧
            (¬ (c.resident = true ∧ s.quantum.world = w ∧ s.quantum.switch = none ∧ (s.gangOf w k).state ≠ .rotating) → (t.ctx w k).due = true)) ∧
          (c.state ≠ .saved ∨ c.heldState ≠ 0 → (t.ctx w k).state = c.state)) ∧
      Answers .killAll s fun t => (undone → (t.launch w l).killed = true) ∧ (¬ undone → (t.launch w l).killed = x.killed) ∧
        (t.launch w l).discarded = true ∧ (t.launch w l).held = false ∧ t.mem = s.mem ∧
        ∀ k, mine k → ((s.ctx w k).state = .frozen ∧ s.arg 2 = 0 → (t.ctx w k).state = .frozen) ∧
          ((s.ctx w k).state ≠ .frozen ∨ s.arg 2 ≠ 0 → (t.ctx w k).state = .dead ∨ (t.ctx w k).state = .empty))

/-- 03 R54, R56, R57, 11 R209, R222: once no retired store of a STOPPING context is outstanding, its page shows the saved
registers and it reads SAVED, or the record of its fault with FSEQ advanced: FROZEN for TAGFAIL, FAULTED with its handler
notified where it has one, and otherwise its launch ends with it. The stop waits for no update, load, chunk or wait; class T
requests that have left the core travel on (20 R374). A replay of an empty record lets the context run, a recorded wait makes it wait again, and neither happens before the registers have been
loaded. -/
def Obligations.SavingAndReplay : Prop :=
  ∀ s : State,
    let w := s.arg 0
    let k := s.arg 1
    let c := s.ctx w k
    (c.state ≠ .stopping ∨ storesHeld s w k = true → Answers .contextSaved s (· = s)) ∧
    (c.state = .stopping → storesHeld s w k = false →
      let page := fun (t : State) => (t.ctx w k).pcS = c.strand.pc ∧ (t.ctx w k).vlS = c.strand.vl ∧
        (t.ctx w k).fflagsS = c.strand.fflags ∧ (t.ctx w k).xS = c.strand.x ∧ (t.ctx w k).virga = (c.strand.outstand c.fault).record.length ∧
        (t.ctx w k).strand.ops = [] ∧
        (∀ o ∈ c.strand.ops, o.cls = 1 → o.kind ≠ 2 → o.kind ≠ 0x11 → o.done = false → o.queued = false → o.host = none →
          (w, k, o) ∈ t.flights) ∧
        (2 ^ 51 ≤ c.saveFrame → ∀ slot a, isMem a = true → readByte t slot a = readByte s slot a)
      let record := fun (t : State) (f : FaultRec) => (t.ctx w k).fseq = c.fseq + 1 ∧ (t.ctx w k).cause = f.cause.code ∧
        (t.ctx w k).fslot = f.fslot ∧ (t.ctx w k).fpc = f.fpc ∧ (t.ctx w k).felem = f.felem ∧
        (t.ctx w k).progress = f.progress ∧ (t.ctx w k).faddr = f.faddr ∧ (t.launch w c.launch).fvalid = true ∧
        ((s.launch w c.launch).fvalid = false → (t.launch w c.launch).firstFault = k)
      (c.fault = none → Answers .contextSaved s fun t => page t ∧ (t.ctx w k).state = .saved ∧
        (t.ctx w k).fseq = c.fseq) ∧
      ∀ f, c.fault = some f →
        (∀ h, handlerOf s w k = some h → ctxKey w h ≠ ctxKey w k → Answers .contextSaved s fun t => page t ∧ record t f ∧
          (t.ctx w k).state = (if f.cause = .tagfail then .frozen else .faulted) ∧
          (t.ctx w h).notify = (s.ctx w h).notify + 1 ∧ (t.ctx w h).lastFault = k) ∧
        (handlerOf s w k = none → f.cause = .tagfail → Answers .contextSaved s fun t => page t ∧ record t f ∧
          (t.ctx w k).state = .frozen) ∧
        (handlerOf s w k = none → f.cause ≠ .tagfail → k < 16384 → Answers .contextSaved s fun t => record t f ∧
          ((t.ctx w k).state = .dead ∨ (t.ctx w k).state = .empty) ∧ (t.launch w c.launch).faultEnd = true)) ∧
    (c.state ≠ .resuming ∨ c.due = true → Answers .replayDone s (· = s)) ∧
    (c.state = .resuming → c.due = false → c.strand.copies = [] → c.strand.va = [] → c.strand.vm = [] →
      (∀ x ∈ s.flights, ¬ (x.1 = w ∧ x.2.1 = k)) →
      ((∀ o ∈ c.strand.ops, o.queued = false) → c.wait = none →
        Answers .replayDone s fun t => (t.ctx w k).state = .running ∧ (t.ctx w k).heldState = 0 ∧ (t.ctx w k).strand.x = c.strand.x ∧
          (t.ctx w k).strand.pc = c.strand.pc ∧ (t.ctx w k).strand.v = c.strand.v ∧ (t.ctx w k).strand.ops = c.strand.ops ∧
          t.mem = s.mem) ∧
      ∀ o, c.strand.ops = [o] → o.queued = true → o.kind = 0x30 ∨ o.kind = 0x32 ∨ o.kind = 0x33 →
        Answers .replayDone s fun t => (t.ctx w k).state = .waiting ∧ (t.ctx w k).heldState = 0 ∧
          (t.ctx w k).wait = some { kind := o.kind, operand := o.tag, reg := o.reg } ∧ (t.ctx w k).strand.ops = [] ∧
          event .waitSatisfied [w, k] ∈ t.work ∧ (t.ctx w k).strand.pc = c.strand.pc ∧ t.mem = s.mem)

/-- 03 R52, 04 R81 to R83, R86 to R91, 05 R108: a host's aligned write of eight bytes of a page that is present for the function
is a control store, and waits where the store needs the policy core; any other write of BAR0 is dropped (assumption 74), and so
are those of a frozen function. A read is answered with a control load's bytes, or zeros. A whole aligned write of a launch register
of the function's own queue appends its packet, and any other is counted as malformed, and the page's lines wake (assumption 27:
how a write came, 0 to 2, is the event's last operand). A host request that is refused or times
out faults TRANS at its access; its data reach the register and end it; a translation that arrives is cached and the request goes
out with it, one that is refused asks for its page. Invalidations stand for the device in arrival order, and complete
once the requests that used an old translation have; a vector's message goes out when PEND passes CNT or HOLD runs out, and never
while it is masked. -/
def Obligations.HostEvents : Prop :=
  ∀ s : State,
    let n := s.arg 0
    let inputs := fun (i : Input) (P : State → State → Prop) => ∀ r rest, s.tripped = false → s.reads = [] →
      s.sched = .input :: r → s.inputs = i :: rest → ∃ t, step s = .next t ∧ P { s with sched := r, inputs := rest } t
    -- BAR0
    Answers .bar0UnbackedWrite s (· = s) ∧
    (let off := s.arg 1
     let v := s.arg 2 % 2 ^ 64
     let x := s.world n
     let own := fun (p : Nat) => off / 4096 = p
     let drops := Answers .controlWordWrite s (· = s)
     (x.fnFrozen = true ∨ off % 8 ≠ 0 ∨ 2 ^ 28 ≤ off → drops) ∧
     (∀ c, c < 80 → own (0x10 + c) → n ≠ 0 → bit x.pwrgnt c = false → drops) ∧
     (∀ b, b < 168 → own (0x60 + b) → n ≠ 0 → bit x.mongnt b = false → drops) ∧
     (∀ p, p < 16 → own (0x110 + p) → n ≠ 0 → bit x.plgnt p = false → drops) ∧
     (own 1 → n ≠ 0 → x.readygnt = false → drops) ∧
     (∀ p, p = 2 ∨ (0x201 ≤ p ∧ p ≤ 0x280) → own p → n ≠ 0 → drops) ∧
     (∀ q, q < 32768 → own (0x8000 + q) → (s.queue q).owner ≠ n → drops) ∧
     (x.fnFrozen = false → off % 8 = 0 → s.barWaits n = false →
       (∀ k, k < 16384 → own (0x4000 + k) → off % 4096 = 0x38 → Answers .controlWordWrite s fun t =>
         (t.ctx n k).hvalid = bit v 14 ∧ (t.ctx n k).handler = v % 2 ^ 14 ∧
         Woken (s.modCtx n k fun c => { c with hvalid := bit v 14, handler := v % 2 ^ 14 }) t) ∧
       (∀ b, b < 168 → own (0x60 + b) → off % 4096 = 0 → n = 0 ∨ bit x.mongnt b = true → Answers .controlWordWrite s fun t =>
         OnlyAt s.monit t.monit b (let m := { s.monit b with freeze := bit v 2, en := bit v 0 }
           if bit v 1 = true then m.clear else m) ∧ Woken { s with monits := t.monits } t)) ∧
     (x.fnFrozen = false → off = 8 → MustWait s →
       Deferred .controlWordWrite s)) ∧
    (∀ a data whole secure fn off, barOf s a = some (fn, 0, off) →
      inputs (.hostWrite a data whole secure) fun s0 t =>
        let v := natOf (data.map (BitVec.ofNat 8))
        let i := if (bar0Page s fn off).isSome = true then Instr.controlWordWrite else .bar0UnbackedWrite
        if data.length = 8 ∧ off % 8 = 0 ∧ whole = true
          then ∃ u, exec i { s0 with ev := event i [fn, off, v] } = .next u ∧ t = answerReads u
          else t = s0) ∧
    (∀ a m tag fn off b, barOf s a = some (fn, b, off) → s.barWaits fn = false →
      let gives := fun (v : Nat) => inputs (.hostRead a m tag) fun s0 t =>
        t = { s0 with out := s.out ++ [.hostData tag ((bytesOf m v).map (·.toNat))] }
      (b = 1 ∨ (s.world fn).fnFrozen = true ∨ (b = 0 ∧ (off % m ≠ 0 ∨ (m ≠ 4 ∧ m ≠ 8) ∨ bar0Page s fn off = none)) → gives 0) ∧
      (∀ k i, b = 0 → (s.world fn).fnFrozen = false → bar0Page s fn off = some (k, i) → m = 4 ∨ m = 8 → off % m = 0 →
        gives (readPage s fn k i (off % 4096) m)) ∧
      (∀ v, b = 2 → (s.world fn).fnFrozen = false → m = 4 → v < 2048 → let y := (s.fn fn).vec v
        (off = 16 * v + 8 → gives (0 + y.mdata % 2 ^ 32)) ∧ (off = 16 * v + 12 → gives y.masked.toNat) ∧
        (off = 0xC000 + 8 * v → gives (y.hold + y.cntm1 * 2 ^ 16)) ∧ (off = 0xC000 + 8 * v + 4 → gives y.pend))) ∧
    -- BAR2
    (let q := s.arg 1 / 64
     let x := s.queue q
     let runs := x.istate = 2 ∧ (s.world x.owner).conf = true
     let dws := s.ev.data.map (BitVec.ofNat 64)
     let queues := fun (y : Queue) => Answers .launchRegisterWrite s (Woken (s.modQueue q fun _ => y))
     let bad := { x with malformed := Nat.min (2 ^ 32 - 1) (x.malformed + 1) }
     let packet := QSrc.inl dws (s.arg 3 == 1) none
     let p := Packet.new dws true (s.arg 3 == 1) none
     let whole := s.arg 2 ≠ 0 ∧ s.arg 1 % 64 = 0 ∧ s.ev.data.length = 8
     (s.barWaits n = true → MustWait s → Deferred .launchRegisterWrite s) ∧
     (s.barWaits n = false →
      ((s.world n).fnFrozen = true ∨ 32768 ≤ q → Answers .launchRegisterWrite s (· = s)) ∧
      ((s.world n).fnFrozen = false → q < 32768 →
       (x.owner ≠ n → ¬ runs → queues bad) ∧
       (x.owner ≠ n → runs → Answers .launchRegisterWrite s fun t => (t.queue q).istate = 3 ∧
         (t.queue q).malformed = bad.malformed) ∧
       (x.owner = n → ¬ whole → queues bad) ∧
       (x.owner = n → whole → runs → s.arg 3 = 2 → Answers .launchRegisterWrite s fun t => (t.queue q).istate = 3) ∧
       (x.owner = n → whole → ¬ (runs ∧ s.arg 3 = 2) → 8 ≤ x.inlines →
         queues { x with overflow := Nat.min (2 ^ 32 - 1) (x.overflow + 1) }) ∧
       (x.owner = n → whole → ¬ (runs ∧ s.arg 3 = 2) → x.inlines < 8 →
         x.cur.isSome = true ∨ x.order ≠ [] ∨ x.ringerr = true →
         queues { x with order := x.order ++ [packet], appended := x.appended + 1 }) ∧
       (x.owner = n → whole → ¬ (runs ∧ s.arg 3 = 2) → x.inlines < 8 → x.cur = none → x.order = [] → x.ringerr = false →
         Answers .launchRegisterWrite s fun t => event (kindStep p) [q] ∈ t.work ∧ Woken (s.modQueue q fun _ =>
           { x with order := [], appended := x.appended + 1, cur := some { p with barred := p.behind s q } }) t)))) ∧
    -- requests to the host
    (∀ r, s.hreq n = some r → r.dropped = false →
      let c := s.ctx r.world r.ctx
      let asks := { fn := r.world, pasid := r.pasid, translated := false, addr := r.addr : Tlp }
      let puts := fun (t : State) (y : HReq) => t.hreq n = some y ∧ ∀ id, id ≠ n → t.hreq id = s.hreq id
      (r.asking = true → r.refused = false → r.retried = false → s.arg 1 ≠ 0 →
        (∀ e ∈ s.hreqs, e.2.asking = true → e.2.refused = false) → Answers .prgResponse s fun t =>
        t = { s with hreqs := t.hreqs, fns := t.fns, out := s.out ++ [.atsAsk asks n] } ∧
        puts t { r with retried := true, stale := false } ∧
        OnlyAt s.fn t.fn r.world { s.fn r.world with prgs := (s.fn r.world).prgs - 1 }) ∧
      (r.asking = true → r.posted = false → r.stale = false → r.tag = none → inputs (.translation n true) fun s0 t =>
        t = { s0 with hreqs := t.hreqs, fns := t.fns,
                      out := s.out ++ [.hostRead { asks with translated := true } r.len n] } ∧
        puts t { r with asking := false, translated := true } ∧ (r.pasid, r.addr / 4096) ∈ (t.fn r.world).atc) ∧
      (r.asking = true → r.stale = true → inputs (.translation n true) fun s0 t =>
        t = { s0 with hreqs := t.hreqs, out := s.out ++ [.atsAsk asks n] } ∧ puts t { r with stale := false, refused := false }) ∧
      (r.asking = true → r.retried = false → (s.fn r.world).priOn = true → pageRoom s r.world = true →
        inputs (.translation n false) fun s0 t =>
        t = { s0 with hreqs := t.hreqs, fns := t.fns, out := s.out ++ [.pageAsk asks n] } ∧ puts t { r with refused := false } ∧
        OnlyAt s.fn t.fn r.world { s.fn r.world with prgs := (s.fn r.world).prgs + 1 }) ∧
      ∀ o, r.posted = false → r.ctx < 16384 → opOfRequest s n r = some o →
        (c.state.live = true → s.heldW = [] → o.kind = 1 ∨ o.kind = 0x10 →
          ∀ i ∈ [Instr.prgResponse, .hostCompletion, .hostRequestTimeout],
            (i = .hostCompletion → s.arg 1 = 0 ∧ r.asking = false) → (i = .hostRequestTimeout → r.asking = false) →
            (i = .prgResponse → r.asking = true ∧ r.refused = false ∧ (s.arg 1 = 0 ∨ r.retried = true)) →
            Answers i s fun t => (t.ctx r.world r.ctx).state = .stopping ∧ (∀ e ∈ t.hreqs, e.1 ≠ n) ∧ t.mem = s.mem ∧
              ∃ f, (t.ctx r.world r.ctx).fault = some f ∧ f.cause = .trans ∧ f.faddr = o.addr) ∧
        (s.arg 1 ≠ 0 → r.asking = false → c.state.takes = true → s.heldW = [] → o.kind = 1 →
          c.strand.pend.any (fun p => p.reg == o.reg && p.tok == 4 * o.id + 1) = true → o.reg ≠ 0 →
          Answers .hostCompletion s fun t => (∀ e ∈ t.hreqs, e.1 ≠ n) ∧ t.mem = s.mem ∧
            (t.ctx r.world r.ctx).strand.ops = c.strand.ops.filter (fun x => x.id != o.id) ∧
            ∀ j, (t.ctx r.world r.ctx).strand.rx j = if j = o.reg then
              extend (o.func % 8) (natOf ((List.range r.len).map fun i => BitVec.ofNat 8 (nth 0 s.ev.data i)))
              else c.strand.rx j)) ∧
    (s.hreq n = none → ∀ i ∈ [Instr.prgResponse, .hostCompletion, .hostRequestTimeout], Answers i s (· = s)) ∧
    (Answers .hostWriteRefusal s fun t => t = { s with fns := t.fns } ∧
      OnlyAt s.fn t.fn n { s.fn n with aer := (s.fn n).aer ++ [s.arg 1] }) ∧
    -- invalidations
    (let lo := s.arg 1
     let hi := s.arg 2
     (32 ≤ s.invals.length → Answers .atsInvalidationRequest s (· = s)) ∧
     (s.invals.length < 32 → Answers .atsInvalidationRequest s fun t =>
       t = { s with fns := t.fns, invals := t.invals, hreqs := t.hreqs, work := s.work ++ [event .atsInvalidationCompletion []] } ∧
       OnlyAt s.fn t.fn n { s.fn n with atc := (t.fn n).atc } ∧
       (∀ p, p ∈ (t.fn n).atc ↔ p ∈ (s.fn n).atc ∧ (p.2 * 4096 + 4096 ≤ lo ∨ hi ≤ p.2 * 4096)) ∧
       (t.hreqs = s.hreqs.map fun (e : Nat × HReq) => (e.1,
         if e.2.world = n ∧ e.2.asking = true ∧ lo ≤ e.2.addr ∧ e.2.addr < hi then { e.2 with stale := true } else e.2)) ∧
       ∃ ids, t.invals = s.invals ++ [{ fn := n, lo := lo, hi := hi, reqs := ids }] ∧
         ∀ id, id ∈ ids ↔ ∃ r, (id, r) ∈ s.hreqs ∧ r.world = n ∧ r.translated = true ∧
           lo < r.addr + Nat.max 1 r.len ∧ r.addr < hi) ∧
     (s.invals = [] → Answers .atsInvalidationCompletion s (· = s)) ∧
     ∀ v rest, s.invals = v :: rest →
       ((∃ id ∈ v.reqs, ∃ e ∈ s.hreqs, e.1 = id) → Answers .atsInvalidationCompletion s (· = s)) ∧
       ((∀ id ∈ v.reqs, ∀ e ∈ s.hreqs, e.1 ≠ id) → Answers .atsInvalidationCompletion s fun t =>
         t = { s with invals := rest, out := s.out ++ [.inval v.fn v.lo v.hi], work := t.work } ∧
         (rest ≠ [] → event .atsInvalidationCompletion [] ∈ t.work))) ∧
    -- vectors
    (let v := s.arg 1
     let x := (s.fn n).vec v
     let vecs := fun (i : Instr) (out : List Out) (f : Bool) (y : Vec) => Answers i s fun t =>
       t = { s with fns := t.fns, out := s.out ++ out } ∧
       OnlyAt s.fn t.fn n { s.fn n with vecs := (t.fn n).vecs, fnMask := f } ∧ OnlyAt (s.fn n).vec (t.fn n).vec v y
     let msg := Out.msix n v x.maddr x.mdata
     let gone := fun (y : Vec) => { y with pend := 0, pba := false }
     let keep := (s.fn n).fnMask
     (s.arg 2 = 0 →
       (0 < x.pend → keep = false → vecs .msixUnmask [msg] keep (gone { x with masked := false })) ∧
       (x.pend = 0 ∨ keep = true → vecs .msixUnmask [] keep { x with masked := false }) ∧
       vecs .vectorMask [] keep { x with masked := true, pba := x.pba || decide (0 < x.pend) }) ∧
     (s.arg 2 ≠ 0 →
       (Answers .msixUnmask s fun t => (t.fn n).fnMask = false ∧ t.iod0 = s.iod0 ∧ t.mem = s.mem ∧
         ∀ j, let y := (s.fn n).vec j
           (t.fn n).vec j = if 0 < y.pend ∧ y.masked = false then gone y else y) ∧
       (Answers .vectorMask s fun t => (t.fn n).fnMask = true ∧ t.out = s.out ∧ t.mem = s.mem ∧
         ∀ j, let y := (s.fn n).vec j
           (t.fn n).vec j = { y with pba := y.pba || decide (0 < y.pend) })) ∧
     (let y := { x with cntm1 := bits (s.arg 2) 23 16, hold := Nat.min (bits (s.arg 2) 9 0) 1000 }
      let due := y.cntm1 + 1 ≤ x.pend ∨ 100 * y.hold ≤ s.iod0 - x.t0
      (x.pend = 0 ∨ (keep = false ∧ x.masked = false ∧ ¬ due) → vecs .coalesceWrite [] keep y) ∧
      (0 < x.pend → keep = true ∨ x.masked = true → vecs .coalesceWrite [] keep { y with pba := true }) ∧
      (0 < x.pend → keep = false → x.masked = false → due → vecs .coalesceWrite [msg] keep (gone y))) ∧
     (x.pend = 0 → Answers .holdExpiry s (· = s)) ∧
     (0 < x.pend → Answers .holdExpiry s fun t => let now := Nat.max s.iod0 (x.t0 + 100 * x.hold)
       t = { s with fns := t.fns, out := t.out, iod0 := now } ∧ (∃ sent, t.out = s.out ++ sent) ∧
       (keep = false → x.masked = false → (t.fn n).vec v = gone x ∧ msg ∈ t.out) ∧
       (keep = true ∨ x.masked = true → (t.fn n).vec v = { x with pba := true }) ∧
       ∀ m j, let y := (s.fn m).vec j
         0 < y.pend → (s.fn m).fnMask = false → y.masked = false → y.t0 + 100 * y.hold ≤ now → (t.fn m).vec j = gone y))

/-- 05 R96, R99, 06 R123, R125, 04 R92, R93, R95, 01 R23: a WCMD store of another mapping than world 0's, or to world 0's page, is
denied; CREATE of a FREE world with good ranges begins and, once complete, leaves it ACTIVE with its ranges zeroed and its
dirty bits clear; DESTROY and the resets kill every context of a world, and its page is reset once its host requests are
over, its context pages keeping their other fields; the reset of a FREE world's function resets its interfaces and vectors, and
one in a world switch waits for the saves; what a PF's reset takes of the configuration goes at once (assumption 5: the enables
and BARs); the transactions are logged; while the policy core restarts, or earlier stores wait, its part of the step waits.
An end of what is not under way changes nothing (assumption 2). World 0 becomes ACTIVE again once its reset frees it (assumption 26). Power-on reset leaves the reset state. -/
def Obligations.WorldEvents : Prop :=
  ∀ s : State,
    let w := s.arg 0
    let who := s.arg 1
    let x := s.world w
    let cmds := [Instr.create, .destroy, .unfreeze, .wcmdZero]
    let ending := fun (t : State) (v : Nat) => (t.world v).wstate = 3 ∧ event .destroyComplete [v] ∈ t.work ∧
      (∀ k, k < 16384 → (s.ctx v k).state ≠ .empty → (t.ctx v k).state = .dead ∨ (t.ctx v k).state = .empty) ∧
      (∀ l, l < 1024 → (t.launch v l).lstate = .never) ∧ (∀ r ∈ t.remotes, r.world ≠ v) ∧
      ∀ q, (s.queue q).owner = v → (t.queue q).order = [] ∧ (t.queue q).cur = none ∧ (t.queue q).head = (s.queue q).tail
    let unlocked := fun (t : State) (q : Nat) => (t.queue q).istate = 0 ∧ (t.queue q).nonce = none ∧ (t.queue q).order = [] ∧
      (t.queue q).cur = none ∧ (t.queue q).head = (s.queue q).tail
    let unbound := fun (c : Ctx) => { c with
      state := .empty, resident := false, fault := none, wait := none, ranAtSwitch := false, due := false, heldState := 0,
      strand := Strand.zero }
    (MustWait s → (∀ i ∈ cmds, Deferred i s) ∧ (w ≠ 0 → Deferred .vfFlr s)) ∧
    (∀ r, MayGo s r →
      let result := fun (i : Instr) (y : World) (n : Nat) (rs : List WalRec) => Answers i s fun t =>
        let z := { y with wcmdCnt := x.wcmdCnt + 1, wcmdStat := n }
        let id := if rs = [] then s.core.nextId else s.core.nextId + 1
        OnlyAt s.world t.world w z ∧
        Woken { s with deferred := r, worlds := t.worlds, wal := t.wal, core := { s.core with nextId := id + 1 } } t ∧
        Logged t (rs ++ [.begin_ id txWcmd w, .write id (pagePA 1 w 0x10) (x.wcmdCnt.toNat * 2 ^ 32 + x.wcmdStat % 8)
          (z.wcmdCnt.toNat * 2 ^ 32 + n), .commit id, .fin id])
      (w = 0 ∨ who ≠ 0 → ∀ i ∈ cmds, result i x 2 []) ∧
      (w ≠ 0 → who = 0 →
        (x.wstate = 1 ∨ x.wstate = 3 → ∀ i ∈ cmds, result i x 1 []) ∧
        (x.wstate = 2 → result .create x 1 []) ∧
        (x.wstate = 0 → createCheck s w ≠ 0 → result .create x (createCheck s w) []) ∧
        (x.wstate = 0 → createCheck s w = 0 → w < 129 → Answers .create s fun t =>
          OnlyAt s.world t.world w (t.world w) ∧ (t.world w).wstate = 1 ∧ (t.world w).conf = x.confreq ∧
          (t.world w).streams = [] ∧ (t.world w).manifest = none ∧ (t.world w).ranges = x.ranges ∧
          (t.world w).wcmdCnt = x.wcmdCnt + 1 ∧ event .createComplete [w] ∈ t.work ∧
          .begin_ s.core.nextId txCreate w ∈ t.wal ∧
          (∀ k, k < 16384 → t.ctx w k = unbound (s.ctx w k)) ∧ (∀ l, l < 1024 → t.launch w l = Launch.zero) ∧
          (∀ c, c < 80 → t.engine w c = Engine.zero) ∧ t.mem = s.mem) ∧
        (x.wstate = 0 → result .destroy x 1 []) ∧
        (x.wstate = 2 → w < 129 → Answers .destroy s fun t => ending t w ∧ (t.world w).wcmdCnt = x.wcmdCnt + 1) ∧
        (x.wstate = 0 ∨ x.wstate = 2 →
          (x.fnFrozen = true → let id := s.core.nextId
            result .unfreeze { x with fnFrozen := false } 0 [.begin_ id txUnfreeze w,
              .write id (pagePA 1 w 0) (x.stateWord + 2 ^ 10) x.stateWord, .commit id, .fin id]) ∧
          (x.fnFrozen = false → result .unfreeze x 1 []) ∧ result .wcmdZero x 1 [])) ∧
      (w ≠ 0 → inSwitch s w = true → Answers .vfFlr s fun t =>
        t = { s with deferred := r, work := t.work, quantum := { s.quantum with flrs := s.quantum.flrs ++ [w] } }) ∧
      (w ≠ 0 → inSwitch s w = false → Answers .vfFlr s fun t =>
        (t.fn w).sessions = (s.fn w).sessions ∧ (t.fn w).spdm = (s.fn w).spdm ∧
        (x.wstate = 1 ∨ x.wstate = 2 → w < 129 → ending t w) ∧
        (x.wstate = 0 → (∀ q, (s.queue q).owner = w → unlocked t q) ∧
          (t.fn w).vecs = [] ∧ (t.fn w).fnMask = false ∧ (t.fn w).atc = []) ∧
        (x.wstate = 3 → t = { s with deferred := r, work := t.work }))) ∧
    (∀ i ∈ [Instr.pfFlr, .hotReset, .linkDown],
      let rest := event s.ev.what [1]
      let s1 := { s with ev := rest }
      (s.arg 0 = 0 → Answers i s fun t =>
        t.vfEnable = false ∧ t.numVfs = 0 ∧ t.memOn = false ∧ t.pfBars = [0, 0, 0] ∧ t.vfBars = [0, 0, 0] ∧
        t.ideLink = (if i = .pfFlr then s.ideLink else false) ∧ t.quantum.flrs = [] ∧
        (∀ v, (t.fn v).sessions = [] ∧ (t.fn v).spdm = 0 ∧ (t.fn v).insecure = [] ∧ (t.fn v).selective = [] ∧
          (t.fn v).vecs = [] ∧ (t.fn v).atc = [] ∧ (t.fn v).master = false ∧ (t.fn v).atomics = false ∧
          (t.fn v).pasidOn = false ∧ (t.fn v).atsOn = false ∧ (t.fn v).priOn = false ∧ (t.fn v).aer = []) ∧
        (i = .linkDown → (∀ e ∈ s.hreqs, e.2.link = none → e.2.posted = false → event .hostRequestTimeout [e.1] ∈ t.work) ∧
          (s.heldW = [] → ∀ e ∈ t.hreqs, e.2.link = none → e.2.asking = false ∧ e.2.refused = e.2.posted))) ∧
      ((i = .linkDown → s.arg 0 = 0 → s.heldW = []) →
        (MustWait s1 → Answers i s fun t => t.deferred = s.deferred ++ [.ev rest] ∧ t.mem = s.mem ∧
          (∀ v, t.world v = s.world v) ∧ (∀ v k, (t.ctx v k).state = (s.ctx v k).state) ∧
          (s.arg 0 ≠ 0 → t = { s1 with deferred := t.deferred })) ∧
        ∀ r, MayGo s1 r → Answers i s fun t =>
          (∀ v, v < 129 → (s.world v).wstate = 1 ∨ (s.world v).wstate = 2 → (t.world v).wstate = 3 ∧
            ∀ k, k < 16384 → (s.ctx v k).state ≠ .empty → (t.ctx v k).state = .dead ∨ (t.ctx v k).state = .empty) ∧
          (∀ q, (∀ e ∈ s.worlds, e.1 = (s.queue q).owner → e.2.wstate = 0) → unlocked t q) ∧
          (s.arg 0 ≠ 0 → t.memOn = s.memOn ∧ t.pfBars = s.pfBars ∧ t.vfBars = s.vfBars ∧ t.numVfs = s.numVfs ∧
            ∀ v, (t.fn v).sessions = (s.fn v).sessions ∧ (t.fn v).master = (s.fn v).master))) ∧
    (w = 0 → Answers .vfFlr s (· = s)) ∧
    (x.wstate ≠ 1 ∨ s.core.up = false → Answers .createComplete s (· = s)) ∧
    (x.wstate = 1 → s.core.up = true → w < 129 → Answers .createComplete s fun t =>
      OnlyAt s.world t.world w { x with wstate := 2, wcmdStat := 0 } ∧
      (∀ id, LogRoom s → s.openTxn txCreate w = some id → .commit id ∈ t.wal ∧ .fin id ∈ t.wal) ∧
      (∀ r ∈ usedRanges x, ∀ p, r.1 * 2 ^ 18 ≤ p → p < (r.1 + r.2) * 2 ^ 18 → p / 256 ≠ x.tregion * 2 →
        tget false t.dirty p = false) ∧
      (x.conf = true ∨ x.zeroFill = true → ∀ r ∈ usedRanges x, ∀ slot a, r.1 * 2 ^ 30 ≤ a → a < (r.1 + r.2) * 2 ^ 30 →
        a / 2 ^ 20 ≠ x.tregion * 2 → readByte t slot a = 0)) ∧
    (let waits := ∃ e ∈ s.hreqs, e.2.world = w ∧ e.2.link = none
     (x.wstate ≠ 3 ∨ (s.core.up = false ∧ s.core.recovering = false) ∨ waits → Answers .destroyComplete s (· = s)) ∧
     (x.wstate = 3 → s.core.up = true ∨ s.core.recovering = true → ¬ waits →
      let stat := if (s.openTxn txDestroy w).isSome = true then 0 else x.wcmdStat
      (w ≠ 0 → Answers .destroyComplete s fun t =>
        OnlyAt s.world t.world w { World.zero with wcmdCnt := x.wcmdCnt, wcmdStat := stat } ∧
        (∀ id, s.wal.length + s.queues.length + 8 ≤ walRing → s.openTxn txDestroy w = some id → .fin id ∈ t.wal) ∧
        (∀ k, k < 16384 → t.ctx w k = unbound (s.ctx w k)) ∧ (∀ l, l < 1024 → t.launch w l = Launch.zero) ∧
        (∀ q, (s.queue q).owner = w → unlocked t q) ∧
        (t.fn w).vecs = [] ∧ (t.fn w).fnMask = false ∧ (t.fn w).atc = [] ∧
        ∀ a, isMem a = true → tget 0 t.mem a = tget 0 s.mem a) ∧
      (w = 0 → Answers .destroyComplete s fun t => (t.world 0).wcmdCnt = x.wcmdCnt ∧ (t.world 0).wcmdStat = stat ∧
        (∀ k, k < 16384 → t.ctx 0 k = unbound (s.ctx 0 k)) ∧
        (t.world 0).wstate = if s.core.up = true ∧ bit s.ready.mgrp 0 = true then 2 else 0))) ∧
    Answers .powerOnReset s (· = { State.reset with
      inputs := s.inputs, sched := s.sched, out := s.out, fresh := s.fresh, deferPorts := s.deferPorts })

/-- 05 R100, R101, R103, R106, 08 R141, 06 R123, R125: while the policy core runs, the responder answers on the mailbox that asked, in
the order version, capabilities, algorithms, and sends the error answer (code 0) otherwise; a session is secured by FINISH;
the interface moves by LOCK with a nonce, where its context may be assigned (which PASIDs: assumption 62), by START with that
nonce, and by STOP from any state; in a secured session a
stream receives its key with a floor of 0 (of an ACTIVE world: assumption 66), and the PF's mailbox alone sets and reads the quantum table; what changes state
is a logged transaction (the core's own state stands where assumption 69 puts it). The codes of the replies, and that a message
while the core restarts is not answered, are assumption 46's. Keys, nonces, signatures, digests and measurements are open
(`Config`). -/
def Obligations.DeviceSecurityMessages : Prop :=
  ∀ s : State,
    let mb := s.arg 0
    let f := s.fn mb
    let i := s.arg 1
    let q := s.arg 2
    let replies := fun (s0 : State) (code : Nat) (data : List Nat) => { s0 with out := s0.out ++ [.reply mb code data] }
    let id := s.core.nextId
    let core := { s.core with nextId := id + 1 }
    let no := fun (e : Instr) => Answers e s (· = replies s 0 [])
    let fns := fun (e : Instr) (g : Fn) (code : Nat) (data : List Nat) => Answers e s fun t =>
      t = replies { s with fns := t.fns } code data ∧ OnlyAt s.fn t.fn mb g
    let steps : List (Instr × Nat) := [(.getVersion, 0), (.getCapabilities, 1), (.negotiateAlgorithms, 2), (.getDigests, 3),
      (.getCertificate, 3), (.challenge, 3), (.getMeasurements, 3), (.keyExchange, 3)]
    let open_ := f.sessions.any (fun x => x.id == i && !x.secured) = true
    let safe := f.sessions.any (fun x => x.id == i && x.secured) = true
    let inSession := [Instr.keyUpdate, .endSession, .setStreamKey, .setQuantumTable, .getQuantumTable]
    let tdisp := [Instr.lockInterfaceRequest, .startInterfaceRequest, .stopInterfaceRequest, .getDeviceInterfaceReport,
      .getDeviceInterfaceState]
    (s.core.up = false → ∀ e ∈ steps.map (·.1) ++ .finish :: inSession ++ tdisp, Answers e s (· = s)) ∧
    (s.core.up = true →
      (∀ e ∈ steps, f.spdm < e.2 → no e.1) ∧
      fns .getVersion { f with spdm := 1 } 1 [0x12, 0x13] ∧
      (1 ≤ f.spdm → fns .getCapabilities { f with spdm := Nat.max f.spdm 2 } 2 [0, 0]) ∧
      (2 ≤ f.spdm → s.arg 1 = 1 ∧ s.arg 2 = 1 ∧ s.arg 3 = 1 ∧ s.arg 4 = 1 →
        fns .negotiateAlgorithms { f with spdm := 3 } 3 [1, 1, 1, 1]) ∧
      (2 ≤ f.spdm → ¬ (s.arg 1 = 1 ∧ s.arg 2 = 1 ∧ s.arg 3 = 1 ∧ s.arg 4 = 1) → no .negotiateAlgorithms) ∧
      (3 ≤ f.spdm →
        Answers .getDigests s (· = replies s 4 [Config.sha256 Config.certificate]) ∧
        (i = 0 → Answers .getCertificate s (· = replies s 5 Config.certificate) ∧
          Answers .challenge s (· = replies s 6 (Config.signature [q]))) ∧
        (i ≠ 0 → no .getCertificate ∧ no .challenge) ∧
        (i = 4 → Answers .getMeasurements s (· = replies s 7 (measure4 (s.world mb)))) ∧
        (1 ≤ i → i ≤ 3 → Answers .getMeasurements s (· = replies s 7 (Config.measurement i))) ∧
        (i = 0 ∨ 4 < i → no .getMeasurements) ∧
        (∀ n, n < 4 → (∀ m, m < n → ∃ x ∈ f.sessions, x.id = m) → (∀ x ∈ f.sessions, x.id ≠ n) →
          Answers .keyExchange s fun t =>
            t = replies { s with fns := t.fns, fresh := s.fresh + 1 } 8 [n, Config.keyShare s.fresh] ∧
            OnlyAt s.fn t.fn mb { f with sessions := f.sessions ++ [{ id := n, secured := false, keys := 0 }] }) ∧
        ((∀ m, m < 4 → ∃ x ∈ f.sessions, x.id = m) → no .keyExchange)) ∧
      (¬ open_ → no .finish) ∧
      (open_ → (q = 0 → fns .finish { f with sessions := f.sessions.filter fun x => x.id != i } 0 []) ∧
        (q ≠ 0 → fns .finish { f with sessions := f.sessions.map fun x =>
          if x.id = i then { x with secured := true } else x } 9 [i])) ∧
      (¬ safe → ∀ e ∈ inSession ++ tdisp, no e) ∧
      (safe →
        fns .keyUpdate { f with sessions := f.sessions.map fun x => if x.id = i then { x with keys := x.keys + 1 } else x } 10 [i] ∧
        fns .endSession { f with sessions := f.sessions.filter fun x => x.id != i } 11 [i] ∧
        (q < 256 → (s.world mb).wstate = 2 → Answers .setStreamKey s fun t =>
          t = replies { s with worlds := t.worlds, wal := t.wal, core := core } 17 [] ∧
          Logged t [.begin_ id txKeys mb,
            .write id (corePA s (keyAt mb q)) (tget (0, 0) (s.world mb).streams q).1 (s.arg 3), .commit id, .fin id] ∧
          OnlyAt s.world t.world mb { s.world mb with streams := tset q (s.arg 3, 0) (s.world mb).streams }) ∧
        (256 ≤ q ∨ (s.world mb).wstate ≠ 2 → no .setStreamKey) ∧
        (let good := fun (e : Nat) => e % 256 ≤ 128 ∧ 1000 ≤ bits e 63 32 ∧ bits e 31 8 = 0
         let table := mb = 0 ∧ 1 ≤ q ∧ q ≤ 256 ∧ s.ev.data.length = q ∧ ∀ e ∈ s.ev.data, good e
         (table → Answers .setQuantumTable s fun t =>
           (let next := { s.quantum with next := some (s.ev.data.map fun e => (e % 256, bits e 63 32)) }
            t = replies { s with wal := t.wal, core := core, quantum := next } 18 []) ∧
           (let old := fun (j : Nat) => nth (0, 0) (s.quantum.next.getD s.quantum.table) j
            Logged t (.begin_ id txTable 0 :: ((List.range q).map fun j =>
              .write id (corePA s (entryAt j)) ((old j).1 + (old j).2 * 2 ^ 32) (nth 0 s.ev.data j)) ++ [.commit id, .fin id]))) ∧
         (¬ table → no .setQuantumTable)) ∧
        (mb = 0 → Answers .getQuantumTable s (· = replies s 19 (s.quantum.table.map fun e => e.1 + e.2 * 2 ^ 32))) ∧
        (mb ≠ 0 → no .getQuantumTable) ∧
        (let x := s.queue q
         let queues := fun (e : Instr) (y : Queue) (code : Nat) (data : List Nat) (n : Nat) => Answers e s fun t =>
           Woken (replies { s.modQueue q fun _ => y with fresh := n, wal := t.wal, core := core } code data) t ∧
           Logged t [.begin_ id txTdisp q, .write id (pagePA 2 q 0) x.istate y.istate, .commit id, .fin id]
         let may := inRegion s x.owner x.root = true ∧ x.vector < 2048 ∧ (x.pasidv = true → (s.fn x.owner).pasidOn = true)
         (mb ≠ 0 → mb ≠ x.owner → ∀ e ∈ tdisp, no e) ∧
         (mb = 0 ∨ mb = x.owner →
           (x.istate = 0 → may → queues .lockInterfaceRequest { x with istate := 1, nonce := some (Config.startNonce s.fresh) } 12
             [Config.startNonce s.fresh] (s.fresh + 1)) ∧
           (x.istate ≠ 0 ∨ ¬ may → no .lockInterfaceRequest) ∧
           (x.istate = 1 → x.nonce = some (s.arg 3) →
             queues .startInterfaceRequest { x with istate := 2, nonce := none } 13 [] s.fresh) ∧
           (x.istate ≠ 1 ∨ x.nonce ≠ some (s.arg 3) → no .startInterfaceRequest) ∧
           (Answers .stopInterfaceRequest s fun t => (t.queue q).istate = 0 ∧ (t.queue q).nonce = none ∧
             (t.queue q).order = [] ∧ (t.queue q).cur = none ∧ (t.queue q).head = (t.queue q).tail ∧
             .reply mb 14 [] ∈ t.out ∧ ∀ l ∈ openLaunches s q, (s.launch x.owner l).open = true → l < 1024 →
               (t.launch x.owner l).killed = true ∧ (t.launch x.owner l).discarded = true) ∧
           (x.istate = 3 → no .getDeviceInterfaceReport ∧ no .getDeviceInterfaceState) ∧
           (x.istate ≠ 3 → Answers .getDeviceInterfaceReport s (· = replies s 15 [x.owner, pagePA 2 q 0, q * 64,
               (s.world x.owner).conf.toNat, (s.world x.owner).fmask]) ∧
             Answers .getDeviceInterfaceState s (· = replies s 16 [x.istate]))))))

/-- 06 R110 to R115, R123, R125, 03 R51, R52, 04 R81: OWNER moves only while the interface is unlocked; a store to the owner's fields takes
effect while it is unlocked, has no effect where it changes nothing or in ERROR, and otherwise sends the interface to
ERROR; QCMD answers DONE, IGNORED or DENIED and is counted; TAIL adds ring packets within the ring and is malformed
beyond it (RLOG2 = 0 is no ring: assumption 58); RINGERR is cleared by its owner. A host's aligned control store of a page that is
present for its function does what a store to that page does, with world-root rights (assumption 34); QCMD and CAP wait for the
policy core. START asks nothing of a PASID (R113), where a LOCK does (assumption 62). -/
def Obligations.QueuePages : Prop :=
  ∀ s : State,
    let q := s.arg 0
    let x := s.queue q
    let queues := fun (i : Instr) (y : Queue) => Answers i s fun t => t = { s with queues := t.queues } ∧
      OnlyAt s.queue t.queue q y
    (let v := s.arg 1
     let ok := s.arg 2 = 0 ∧ x.istate = 0 ∧ v < 129 ∧ (v = 0 ∨ (s.world v).wstate = 0)
     (ok → queues .ownerWrite { x with owner := v }) ∧ (¬ ok → Answers .ownerWrite s (· = s))) ∧
    (let off := s.arg 1
     let v := s.arg 2
     let who := s.arg 3
     let may := who = 0 ∨ who = x.owner
     let y : Queue := if off = 0x18 then { x with root := v }
       else if off = 0x20 then { x with pasid := bits v 19 0, pasidv := bit v 20 } else { x with vector := bits v 26 16 }
     let free := fun (z : Queue) =>
       if off = 0x28 ∧ who = 0 then { z with preempt := bit v 11, priocap := bits v 10 8 } else z
     (¬ may → Answers .queueLockedFieldWrite s (· = s)) ∧
     (may → x.istate = 0 → queues .queueLockedFieldWrite (free y)) ∧
     (may → x.istate ≠ 0 → y = x ∨ x.istate = 3 → queues .queueLockedFieldWrite (free x)) ∧
     (may → x.istate ≠ 0 → y ≠ x → x.istate ≠ 3 → Answers .queueLockedFieldWrite s fun t =>
       (t.queue q).istate = 3 ∧ (t.queue q).root = x.root ∧ (t.queue q).pasid = x.pasid ∧ (t.queue q).vector = x.vector)) ∧
    (let conf := (s.world x.owner).conf
     let who := fun (i : Instr) => if i = .qcmdIgnored then s.arg 2 else s.arg 1
     let cmds := [Instr.start, .unlock, .qcmdIgnored]
     let id := s.core.nextId
     (MustWait s → ∀ i ∈ cmds, Deferred i s) ∧
     ∀ r, MayGo s r →
      let result := fun (i : Instr) (y : Queue) (n : Nat) (rs : List WalRec) => Answers i s fun t =>
        Woken { s.modQueue q (fun _ => { y with qcmdCnt := x.qcmdCnt + 1, qcmdStat := n }) with
          deferred := r, wal := t.wal, core := t.core } t ∧
        (rs = [] → t.wal = s.wal ∧ t.core = s.core) ∧ Logged t rs
      (∀ i ∈ cmds, (who i ≠ 0 → Answers i s fun t => t = { s with deferred := r, work := t.work }) ∧
        (who i = 0 → conf = true → result i x 2 [])) ∧
      (conf = false →
       (let good := (s.world x.owner).wstate = 2 ∧ inRegion s x.owner x.root = true ∧ x.vector < 2048
        s.arg 1 = 0 → (x.istate ≠ 0 → result .start x 1 []) ∧
          (x.istate = 0 → good → result .start { x with istate := 2 } 0
            [.begin_ id txQcmd q, .write id (pagePA 2 q 0) 0 2, .commit id, .fin id]) ∧
          (x.istate = 0 → ¬ good → result .start x 2 [])) ∧
       (s.arg 1 = 0 → Answers .unlock s fun t => (t.queue q).istate = 0 ∧ (t.queue q).nonce = none ∧
         (t.queue q).order = [] ∧ (t.queue q).cur = none ∧ (t.queue q).head = (t.queue q).tail ∧
         (t.queue q).qcmdCnt = x.qcmdCnt + 1 ∧ (t.queue q).qcmdStat = 0 ∧
         Logged t [.begin_ id txQcmd q, .write id (pagePA 2 q 0) x.istate 0, .commit id, .fin id]) ∧
       (s.arg 2 = 0 → result .qcmdIgnored x 1 []))) ∧
    (let v := s.arg 1 % 2 ^ 32
     let may := s.arg 2 = 0 ∨ s.arg 2 = x.owner
     let n := (v + 2 ^ 32 - x.head.toNat) % 2 ^ 32
     let m := (x.tail - x.head).toNat
     let room := if x.rlog2 = 0 then 0 else 2 ^ x.rlog2
     let grown := { x with tail := BitVec.ofNat 32 v, order := x.order ++ List.replicate (n - m) .ring,
                           appended := x.appended + (n - m) }
     (¬ may → Answers .tailStore s (· = s)) ∧
     (may → room < n ∨ n < m → Answers .tailStore s (Woken (s.modQueue q fun x =>
       { x with malformed := Nat.min (2 ^ 32 - 1) (x.malformed + 1) }))) ∧
     (may → n ≤ room → n = m → Answers .tailStore s (· = s)) ∧
     (may → n ≤ room → m < n → x.cur.isSome = true ∨ x.order ≠ [] ∨ x.ringerr = true → queues .tailStore grown) ∧
     (may → n ≤ room → m < n → x.cur = none → x.order = [] → x.ringerr = false → Answers .tailStore s fun t =>
       t = { s with queues := t.queues, work := s.work ++ [event .ringPacketRead [q]] } ∧
       OnlyAt s.queue t.queue q grown)) ∧
    (let may := s.arg 1 = 0 ∨ s.arg 1 = x.owner
     (¬ may ∨ x.ringerr = false → Answers .ringerrClear s (· = s)) ∧
     (may → x.ringerr = true → x.cur = none → ∀ r, x.order = .ring :: r → Answers .ringerrClear s fun t =>
       t = { s with queues := t.queues, work := s.work ++ [event .ringPacketRead [q]] } ∧
       OnlyAt s.queue t.queue q { x with ringerr := false })) ∧
    (let fn := s.arg 0
     let off := s.arg 1
     let at' := off % 4096
     let v := s.arg 2 % 2 ^ 64
     (bar0Page s fn off = none → Answers .controlWordWrite s (· = s)) ∧
     ∀ kind idx, bar0Page s fn off = some (kind, idx) → (s.world fn).fnFrozen = false → off % 8 = 0 →
      (needsCore kind at' = false → s.barWaits fn = false →
        Answers .controlWordWrite s (· = writePage s fn true kind idx at' v)) ∧
      (needsCore kind at' = true ∨ s.barWaits fn = true → MustWait s → Deferred .controlWordWrite s) ∧
      (kind = 5 → at' = 0x10 → ∀ r, MayGo s r → Answers .controlWordWrite s fun t => (t.pow idx).cap = v % 8) ∧
      (s.barWaits fn = false → kind = 1 →
        (fn = 0 → (s.world idx).wstate = 0 → at' = 0x20 → Answers .controlWordWrite s fun t =>
          (t.world idx).tregion = bits v 51 21) ∧
        (at' ≠ 8 → fn ≠ 0 ∨ (s.world idx).wstate ≠ 0 → Answers .controlWordWrite s fun t => Woken s t)))

/-- 06 R102, R114 to R121, 04 R85: the parser reads the next ring slot and takes it, or sets RINGERR; a slot in the host window
is read by a request to the host; a packet that its interface does not accept is refused, one that fails a check ends FAULTED
with that check's number, and one with BARRIER, once checked (assumption 27), waits for the launches before it; a LAUNCH binds the lowest free number with the
packet's fields; WAITVALUE ends when its test holds, or when a store has made it hold, and otherwise stands armed; WRITEVALUE
stores and then ends; NOP ends; a completion word is written before anything that follows it. A launch that has settled is DONE
with its status, and its number is free once its completion word has performed, which waits while stores of its world are
held (assumption 36). A CHECKPOINT packet waits for its world's quantum and for the core (assumptions 32, 73; which packets count
as waiting: assumption 60). What waits at a port, or for a granule that a reservation holds (15 R299), is tried again. -/
def Obligations.PacketParser : Prop :=
  ∀ s : State,
    let q := s.arg 0
    let x := s.queue q
    let w := x.owner
    let slot := keySlot s w
    let steps := [Instr.launch, .waitvalue, .writevalue, .checkpoint, .nop]
    let walks := fun (va : Nat) (a : Acc) => walkWaits s w x.root va a
    let parks := fun (i e : Instr) => Answers i s (· = { s with parked := s.parked ++ [event e [q]] })
    -- an aligned access of the parser reaches the doubleword at a physical address, now
    let reaches := fun (va : Nat) (a : Acc) (y : Xlat) (pa : Nat) => walks va a = false ∧ checkIn s w x.root va a = .ok y ∧
      (∃ b, y.target = .mem b ∧ pa = unitPA s w b) ∧ memReady s pa = true
    (x.cur.isSome = true ∨ x.ringerr = true ∨ x.fetch.isSome = true ∨ (∀ r, x.order ≠ .ring :: r) →
      Answers .ringPacketRead s (· = s)) ∧
    (∀ r, x.cur = none → x.order = .ring :: r → x.ringerr = false → x.fetch = none →
      let va := ((sext 48 (x.rbase * 4096)).toNat + 64 * (x.head.toNat % 2 ^ x.rlog2))
      (walks va .load = true → parks .ringPacketRead .ringPacketRead) ∧
      (∀ c, walks va .load = false → checkIn s w x.root va .load = .error c → Answers .ringPacketRead s
        (Woken (s.modQueue q fun x => { x with ringerr := true }))) ∧
      (∀ y a, walks va .load = false → checkIn s w x.root va .load = .ok y → y.target = .host a → hostRoom s = true →
        asksFirst s w x.pasidOf a = false → Answers .ringPacketRead s fun t =>
          let id := nextId s
          t = { s with queues := t.queues, hreqs := t.hreqs, fresh := id + 1,
                       out := s.out ++ [.hostRead (tlp s w x.pasidOf a) 64 id] } ∧
          OnlyAt s.queue t.queue q { x with fetch := some id } ∧
          ∃ h : HReq, t.hreq id = some h ∧ h.world = w ∧ h.ctx = 16384 ∧ h.op = q ∧ h.len = 64) ∧
      ∀ pa, (∀ i, i < 8 → ∃ y, reaches (va + 8 * i) .load y (pa + 8 * i) ∧ setAD s w y .load = s ∧
          tagFails s slot (pa + 8 * i) 8 = false ∧ portBusy s (pa + 8 * i) 8 = false) →
        let p := Packet.new ((List.range 8).map fun i => BitVec.ofNat 64 (readNum s slot (pa + 8 * i) 8)) false true none
        Answers .ringPacketRead s fun t => event (kindStep p) [q] ∈ t.work ∧
          Woken (s.modQueue q fun x => { x with cur := some p, order := r, head := x.head + 1 }) t) ∧
    (∀ h, s.hreq q = some h → h.ctx = 16384 → h.len = 64 → h.posted = false → h.asking = false → h.dropped = false →
      s.arg 1 ≠ 0 → s.heldW = [] → (s.queue h.op).fetch = some q →
      let y := s.queue h.op
      let bytes := (List.range 64).map fun i => BitVec.ofNat 8 (nth 0 s.ev.data i)
      let p := Packet.new ((List.range 8).map fun i => BitVec.ofNat 64 (natOf ((bytes.drop (8 * i)).take 8))) false true none
      Answers .hostCompletion s fun t => event (kindStep p) [h.op] ∈ t.work ∧ t.hreq q = none ∧
        SameQueue { y with cur := some p, order := y.order.tail, head := y.head + 1, fetch := none } (t.queue h.op) ∧
        ∀ j, j ≠ h.op → SameQueue (s.queue j) (t.queue j)) ∧
    (x.cur = none → ∀ i ∈ steps ++ [.waitvalueRetest, .writevaluePerformed], Answers i s (· = s)) ∧
    (∀ p, x.cur = some p → p.armed = false → p.ending = none →
      let e := perrOf s q p
      let taken := accepts s q p = true ∧ e = 0 ∧ (bit (p.dw 0) 19 = false ∨ openLaunches s q = [])
      let p0 := { p with barred := false }
      let last := p.spawn = none ∧ x.order = []
      let past := fun (t : State) (y : Queue) => t.queue q = { y with cur := none, waiting := false } ∧
        ∀ j, j ≠ q → SameQueue (s.queue j) (t.queue j)
      (∀ i ∈ steps, (accepts s q p = false → last → Answers i s fun t =>
          past t { x with refused := Nat.min (2 ^ 32 - 1) (x.refused + 1) } ∧ t.mem = s.mem) ∧
        (accepts s q p = true → e ≠ 0 → last → p.dw 5 = 0 ∨ e = 3 → bit (p.dw 0) 18 = false → Answers i s fun t =>
          past t { x with badpkt := Nat.min (2 ^ 32 - 1) (x.badpkt + 1) } ∧ t.mem = s.mem) ∧
        (accepts s q p = true → e = 0 → bit (p.dw 0) 19 = true → openLaunches s q ≠ [] → Answers i s fun t =>
          t = { s with queues := t.queues } ∧
          OnlyAt s.queue t.queue q { x with waiting := true, cur := some { p with barred := true } })) ∧
      (taken → p.kind = 5 →
        (last → p.dw 5 = 0 → bit (p.dw 0) 18 = false → Answers .nop s fun t => past t x ∧ t.mem = s.mem) ∧
        (∀ y pa, last → p.dw 5 ≠ 0 → bit (p.dw 0) 18 = false → reaches (p.dw 5) .store y pa → pa + 8 ≤ 2 ^ 51 →
          writeTagFails s slot pa 8 = false → writeWaits s pa 8 = false → unitHeld s pa 8 = false → Answers .nop s fun t =>
          BytesWritten (setAD s w y .store) t slot pa (bytesOf 8 (p.dw 6 % 2 ^ 32)) ∧ (t.queue q).cur = none) ∧
        (p.dw 5 ≠ 0 → walks (p.dw 5) .store = true → Answers .nop s fun t =>
          t = { s with queues := t.queues, parked := s.parked ++ [event .nop [q]] } ∧
          OnlyAt s.queue t.queue q { x with cur := some { p0 with ending := some (0, 0) } })) ∧
      (taken → p.kind = 3 → Answers .writevalue s fun t =>
        t = { s with queues := t.queues, work := s.work ++ [event .writevaluePerformed [q]] } ∧
        OnlyAt s.queue t.queue q { x with cur := some { p0 with armed := true } }) ∧
      (let free := fun (l : Nat) => (s.launch w l).lstate = .never ∨ (s.launch w l).free = true
       (taken → p.kind = 1 → ∀ l, l < 1024 → (∀ j, j < l → ¬ free j) → free l →
        Answers .launch s fun t => (t.queue q).accepted = x.accepted + 1 ∧ event .dispatchDecision [] ∈ t.work ∧
          let n := t.launch w l
          n.lstate = .pending ∧ n.held = false ∧ n.free = false ∧ n.root = x.root ∧ n.queue = q ∧ n.entry = p.dw 3 ∧
          n.arg = p.dw 4 ∧ n.glvl = Nat.min (bits (p.dw 0) 13 11) 6 ∧ n.span = bits (p.dw 0) 15 14 ∧
          n.prio = Nat.min (bits (p.dw 0) 10 8) x.priocap ∧ n.preempt = x.preempt ∧ n.rlat = bits (p.dw 0) 17 16 ∧
          n.vkib = bits (p.dw 0) 63 32 ∧ n.bands = bits (p.dw 1) 40 36 ∧ n.gangs = [] ∧ n.doneg = 0) ∧
       (taken → p.kind = 1 → (∀ l, l < 1024 → ¬ free l) →
        Answers .launch s fun t => t = { s with queues := t.queues } ∧
          OnlyAt s.queue t.queue q { x with waiting := true, cur := some p0 })) ∧
      (taken → p.kind = 4 →
        let busy := s.ckpt.estate ≠ 0 ∨ s.quantum.world ≠ w ∨ s.quantum.switch.isSome = true
        (busy → Answers .checkpoint s fun t => t = { s with queues := t.queues } ∧
          OnlyAt s.queue t.queue q { x with waiting := true }) ∧
        (¬ busy → MustWait s → Deferred .checkpoint s) ∧
        (∀ r, ¬ busy → MayGo s r → Answers .checkpoint s fun t => t.ckpt.estate = 1 ∧ t.ckpt.world = w ∧ t.mem = s.mem ∧
          event .ckptStopped [] ∈ t.work ∧ (∃ b, (t.queue q).cur = some { p0 with armed := true, hit := b }) ∧
          ∀ l, l < 1024 → (s.launch w l).open = true → (t.launch w l).held = true))) ∧
    (∀ p xl pa, x.cur = some p → p.kind = 2 → p.ending = none → p.hit = false → reaches (p.dw 1) .load xl pa →
      tagFails s slot pa 8 = false → portBusy s pa 8 = false →
      let v := Nat.land (readNum s slot pa 8) (p.dw 3)
      let cond := bits (p.dw 0) 10 8
      let holds := if cond = 0 then v = p.dw 2 else if cond = 1 then v ≠ p.dw 2 else if cond = 2 then p.dw 2 ≤ v
        else v < p.dw 2
      let tests := fun (i : Instr) (p0 : Packet) =>
        (holds → p.spawn = none → x.order = [] → p.dw 5 = 0 → bit (p.dw 0) 18 = false → Answers i s fun t =>
          t.queue q = { x with cur := none, waiting := false } ∧ ∀ j, j ≠ q → SameQueue (s.queue j) (t.queue j)) ∧
        (¬ holds → ∀ b, xl.target = .mem b → Answers i s fun t =>
          t.queue q = { x with waiting := true, cur := some { p0 with armed := true, line := b / 64, pa := b } } ∧
          ∀ j, j ≠ q → SameQueue (s.queue j) (t.queue j))
      (p.armed = true → tests .waitvalueRetest p ∧ tests .waitvalue p) ∧
      (p.armed = false → accepts s q p = true → perrOf s q p = 0 → bit (p.dw 0) 19 = false →
        tests .waitvalue { p with barred := false })) ∧
    (∀ p, x.cur = some p → p.kind = 2 → p.armed = true → p.ending = none →
      (p.hit = true → p.spawn = none → x.order = [] → p.dw 5 = 0 → bit (p.dw 0) 18 = false →
        Answers .waitvalueRetest s fun t => OnlyAt s.queue t.queue q { x with cur := none, waiting := false } ∧ t.mem = s.mem) ∧
      (p.hit = false → walks (p.dw 1) .load = true → parks .waitvalueRetest .waitvalueRetest)) ∧
    (∀ p, x.cur = some p → p.kind = 3 → p.armed = true → p.ending = none →
      (∀ xl pa, reaches (p.dw 1) .store xl pa → pa + 8 ≤ 2 ^ 51 → writeTagFails s slot pa 8 = false →
        (writeWaits s pa 8 = true ∨ unitHeld s pa 8 = true → parks .writevaluePerformed .writevaluePerformed) ∧
        (writeWaits s pa 8 = false → unitHeld s pa 8 = false → p.spawn = none → p.dw 5 = 0 → bit (p.dw 0) 18 = false →
          Answers .writevaluePerformed s fun t =>
            BytesWritten (setAD s w xl .store) t slot pa (bytesOf 8 (p.dw 2)) ∧
            OtherLines (setAD s w xl .store) t pa 8 ∧ (x.order = [] → (t.queue q).cur = none)))) ∧
    (let l := s.arg 1
     let y := s.launch q l
     let settled := (y.lstate = .ackwait ∧ y.peerpend = 0) ∨ (y.lstate = .done ∧ y.free = false)
     let done := fun (t : State) => (t.launch q l).lstate = .done ∧
       (y.lstate = .ackwait → (t.launch q l).lstatus = (if y.worldLost = true then 5 else if y.stalled = true then 4
         else if y.killed = true then 2 else if y.faultEnd = true then 1 else if 0 < y.lost then 3 else 0))
     (¬ settled → Answers .launchDone s (· = s)) ∧
     (settled → y.caddr ≠ 0 → worldStoresHeld s q = true → Answers .launchDone s fun t => done t ∧
       (t.launch q l).free = y.free ∧ t.mem = s.mem ∧ event .launchDone [q, l] ∈ t.parked) ∧
     (settled → y.caddr = 0 ∨ worldStoresHeld s q = false → Answers .launchDone s fun t => done t ∧
       (y.caddr = 0 → t.mem = s.mem ∧ (t.launch q l).free = true) ∧
       (y.caddr ≠ 0 → y.spawn = none → walkWaits s (s.queue y.queue).owner (s.queue y.queue).root y.caddr .store = true →
         (t.launch q l).free = y.free ∧ event .launchDone [q, l] ∈ t.parked)))

/-- 06 R122 to R125: a watchdog expiry resets the policy core, whose memory stays, and nothing else; after its reboot its
recovery undoes what its log has not committed and redoes what it has, and service resumes once nothing is open but a paused
checkpoint or restore (assumption 67; what is undone and redone: 33): PCGEN advances, the end of a quantum and the checkpoint
go on, world 0 is made again where it was FREE (26), and the oldest of the stores that waited is tried. Firmware that fails its verification leaves the core out of service (assumption 65). -/
def Obligations.PolicyCore : Prop :=
  ∀ s : State,
    let c := s.core
    let paused := ∀ x ∈ s.openTxns, x.2.1 = txCkpt ∨ x.2.1 = txRestore
    let remade := (s.world 0).wstate = 0 ∧ bit s.ready.mgrp 0 = true
    let resumes := fun (t : State) => t.core.up = true ∧ t.core.recovering = false ∧ t.pcgen = s.pcgen + 1 ∧
      t.deferred = s.deferred ∧ (∃ es, t.work = s.work ++ es) ∧ (∀ e r, s.waiting = .ev e :: r → e ∈ t.work)
    Answers .watchdogExpiry s (· = { s with core :=
      { c with up := false, recovering := false, verified := false, regs := [], pc := 0 } }) ∧
    (c.up = true ∨ bit s.ready.iod 0 = false → Answers .policyCoreRecovery s (· = s)) ∧
    (c.up = false → bit s.ready.iod 0 = true →
      (c.recovering = true → ¬ paused → Answers .policyCoreRecovery s (· = s)) ∧
      (c.recovering = false → s.arg 0 ≠ 0 →
        Answers .policyCoreRecovery s (· = { s with core := { c with verified := false } })) ∧
      (c.recovering = true ∨ s.arg 0 = 0 → paused → Answers .policyCoreRecovery s fun t => resumes t ∧
        t.ckpt = s.ckpt ∧ t.quantum = { s.quantum with deferred := false } ∧ (∀ q, SameQueue (s.queue q) (t.queue q)) ∧
        (s.quantum.deferred = true → event .quantumEnd [] ∈ t.work) ∧
        (s.ckpt.estate = 1 → event .ckptStopped [] ∈ t.work) ∧
        (s.ckpt.estate = 2 → event .ckptDieshardsDone [] ∈ t.work) ∧
        (∀ o, s.ckpt.estate = 3 → s.ckpt.op = some o → event .ckptMemshardsDone [] ∈ t.work ∧
          ∀ p ∈ o.left, event .ckptPageCopied [p] ∈ t.work) ∧
        (s.ckpt.estate = 4 → event .ckptManifestDone [] ∈ t.work) ∧
        (s.ckpt.estate = 5 → event .restoreDone [] ∈ t.work) ∧
        (¬ remade → t.mem = s.mem ∧ t.worlds = s.worlds ∧ t.wal = s.wal) ∧
        (remade → (t.world 0).wstate = 2 ∧ (t.world 0).wcmdCnt = (s.world 0).wcmdCnt)) ∧
      ∀ id w old new, w < 129 → c.recovering = false → s.arg 0 = 0 → (s.world 0).wstate ≠ 0 →
        (w ≠ 0 → s.wal = [.begin_ id txCreate w, .write id (pagePA 1 w 0) old new, .step id 1] →
          Answers .policyCoreRecovery s fun t => resumes t ∧ t.wal = s.wal ++ [.fin id] ∧
          OnlyAt s.world t.world w
            { s.world w with wstate := old % 8, conf := bit old 8, scrambler := 0, streams := [] }) ∧
        ∀ n, s.wal = [.begin_ id txDestroy w, .write id (pagePA 1 w 0) old new, .commit id, .step id n] →
          Answers .policyCoreRecovery s fun t => t.core.up = false ∧ t.core.recovering = true ∧
          event .destroyComplete [w] ∈ t.work ∧ t.pcgen = s.pcgen ∧ t.wal = s.wal ∧
          OnlyAt s.world t.world w { s.world w with wstate := new % 8, conf := bit new 8 })

/-- 07 R126 to R139, 06 R125: a checkpoint's phases follow in order while the policy core runs and the world holds its quantum,
and stop nothing in between but for a quantum that has ended, which gives way between two phases (assumption 32); the first captures the page set, the granules and the die shards; a page of the set is copied to its
place in its shard before a write that waits for it performs, also while the world is switched out; the last phase names the new manifest; ABORT and a failed check end
with LASTERR and set the captured dirty bits again, in phase 4 those of the pages not yet copied; a line that fails ends with TAG
and compromises the world (granules: assumptions 70, 72); RESTORE checks the chain and begins, or answers the first failed check,
and once done leaves no page of the world dirty. What waits at a port, or for the policy core (ECMD: assumption 73), is tried
again. -/
def Obligations.CheckpointEngine : Prop :=
  ∀ s : State,
    let e := s.ckpt
    let w := e.world
    let slot := keySlot s w
    let phases : List (Instr × Nat) := [(.ckptStopped, 1), (.ckptDieshardsDone, 2), (.ckptPageCopied, 3),
      (.ckptMemshardsDone, 3), (.ckptManifestDone, 4)]
    let goes := s.core.up = true ∧ s.quantum.world = w ∧ s.quantum.switch = none
    let parks := fun (i : Instr) => Answers i s (· = { s with parked := s.parked ++ [s.ev] })
    let fails := fun (i : Instr) (err : Nat) => Answers i s fun t => t.ckpt.estate = 0 ∧ t.ckpt.lasterr = err ∧ t.ckpt.op = none ∧
      (err = 10 → (t.world w).compromised = true)
    -- a page is copied in its phase, or because a held write or a switch's save waits for it
    let copies := goes ∨ (s.core.up = true ∧ ((∃ h ∈ s.heldW, s.arg 0 * 4096 ∈ pagesOf h.pa h.data.length) ∨
      ((∃ v, s.quantum.switch = some (v, 1)) ∧ s.arg 0 ∈ savedPages s s.quantum.world)))
    let breaks := fun (i : Instr) (P : State → Prop) => s.quantum.deferred = true → Answers i s fun t => P t ∧
      t.quantum.deferred = false ∧ t.mem = s.mem ∧ (t.quantum.switch.isSome = true ∨ event i [] ∈ t.work)
    (∀ i ∈ phases, e.op = none ∨ e.estate ≠ i.2 ∨ (if i.1 = .ckptPageCopied then ¬ copies else ¬ goes) →
      Answers i.1 s (· = s)) ∧
    (∀ o, e.op = some o → goes →
      (e.estate = 1 →
        let more := unstopped s w ++ (worldLaunches s w).filter (runsAny s w)
        (more ≠ [] → Answers .ckptStopped s fun t => t.ckpt.estate = 1 ∧ event .ckptStopped [] ∈ t.work ∧
          ∀ l ∈ unstopped s w, (t.launch w l).held = true) ∧
        (more = [] → (∃ k, k < 16384 ∧ (s.ctx w k).state = .stopping) → Answers .ckptStopped s (· = s)) ∧
        (more = [] → (∀ k, k < 16384 → (s.ctx w k).state ≠ .stopping) → (∃ x ∈ s.flights, x.1 = w) →
          Answers .ckptStopped s fun t => t = { s with work := t.work, parked := s.parked ++ [s.ev] } ∧
            ∀ x ∈ s.flights, x.1 = w → event .writeQueueUpdate [w, x.2.1, x.2.2.id] ∈ t.work) ∧
        (more = [] → (∀ k, k < 16384 → (s.ctx w k).state ≠ .stopping) → (∀ x ∈ s.flights, x.1 ≠ w) →
          breaks .ckptStopped fun t => t.ckpt = e) ∧
        (more = [] → (∀ k, k < 16384 → (s.ctx w k).state ≠ .stopping) → (∀ x ∈ s.flights, x.1 ≠ w) →
          s.quantum.deferred = false →
          (areaWaits s o w = true → Answers .ckptStopped s fun t =>
            t = { s with wal := t.wal, parked := s.parked ++ [s.ev] }) ∧
          (areaWaits s o w = false →
            (areaPA s o w = .bad → fails .ckptStopped 2) ∧ (areaPA s o w = .tag → fails .ckptStopped 10) ∧
            ∀ pa, areaPA s o w = .pa pa →
              (baseOk s o w = .bad → fails .ckptStopped 3) ∧ (baseOk s o w = .tag → fails .ckptStopped 10) ∧
              ∀ b, baseOk s o w = .pa b → (∀ d ∈ s.sundogs, d.tag / 2 ^ 32 ≠ w) →
                let pages := dirtyPages s w pa o.asize
                let grans := dirtyGranules s w
                let dies := diesOf s w
                let image := dies.map fun d => dieShard s w grans d (some d == dies.head?)
                let plan := planShards s w pa dies image pages grans
                (o.asize < plan.2 → fails .ckptStopped 1) ∧
                (plan.2 ≤ o.asize → Answers .ckptStopped s fun t => t.ckpt.estate = 2 ∧ t.ckpt.totaln = plan.1.length ∧
                  t.mem = s.mem ∧ event .ckptDieshardsDone [] ∈ t.work ∧ (∀ p ∈ pages, tget false t.dirty p = false) ∧
                  ∃ o', t.ckpt.op = some o' ∧ o'.pages = pages ∧ o'.left = pages ∧ o'.grans = grans ∧ o'.dies = dies ∧
                    o'.clus = clustersOf s w ∧ o'.shards = plan.1 ∧ o'.image = image.map fun x => x.2)))) ∧
      (e.estate = 2 →
        let waits := ∃ x ∈ o.shards, portBusy s x.2.2.1 (if x.1 = 1 then x.2.2.2.1 else 32768) = true
        let phase3 := fun (t : State) => t.ckpt.estate = 3 ∧ t.ckpt.pause = s.iod0 - o.start ∧
          event .ckptMemshardsDone [] ∈ t.work ∧ (∀ p ∈ o.left, event .ckptPageCopied [p] ∈ t.work) ∧
          ∀ l ∈ o.stopped, (s.launch w l).open = true → (t.launch w l).held = false
        (e.donen = 0 → waits → parks .ckptDieshardsDone) ∧
        (e.donen = 0 → ¬ waits → s.quantum.deferred = false → Answers .ckptDieshardsDone s fun t => phase3 t ∧
          t.ckpt.donen = o.dies.length ∧ ∀ g ∈ o.grans, tget false t.dirtyV g = false) ∧
        (e.donen = 0 → ¬ waits → s.quantum.deferred = true → Answers .ckptDieshardsDone s fun t => t.ckpt.estate = 2 ∧
          t.ckpt.donen = o.dies.length ∧ (t.quantum.switch.isSome = true ∨ event .ckptDieshardsDone [] ∈ t.work)) ∧
        (e.donen ≠ 0 → breaks .ckptDieshardsDone fun t => t.ckpt = e) ∧
        (e.donen ≠ 0 → s.quantum.deferred = false → Answers .ckptDieshardsDone s fun t => phase3 t ∧ t.mem = s.mem)) ∧
      (e.estate = 3 →
        (o.left ≠ [] → Answers .ckptMemshardsDone s (· = s)) ∧
        (o.left = [] → s.quantum.deferred = false → Answers .ckptMemshardsDone s fun t => t.ckpt.estate = 4 ∧
          t.ckpt.donen = e.donen ∧ event .ckptManifestDone [] ∈ t.work ∧ t.mem = s.mem)) ∧
      (e.estate = 4 →
        let reads := manifestReads s w o
        let len := pageUp (manifestLen o.shards.length (signs (s.world w)))
        let waits := portBusy s o.area len = true ∨ ∃ r ∈ reads, portBusy s r.1 r.2 = true
        let bad := ∃ r ∈ reads, tagFails s slot r.1 r.2 = true
        (waits → parks .ckptManifestDone) ∧
        (¬ waits → bad → fails .ckptManifestDone 10) ∧
        (¬ waits → ¬ bad → s.quantum.deferred = false → (s.queue o.q).cur = none → Answers .ckptManifestDone s fun t =>
          let last := (s.world w).manifest.getD (0, 0)
          let seq := last.2 + 1
          t.ckpt.estate = 0 ∧ t.ckpt.lasterr = 0 ∧ t.ckpt.op = none ∧ t.ckpt.lastman = o.area ∧
          t.ckpt.lastseq = seq ∧ (t.world w).manifest = some (o.area, seq) ∧
          ∀ id, LogRoom s → s.openTxn txCkpt w = some id → .write id (corePA s (manifestAt w 0)) last.1 o.area ∈ t.wal ∧
            .write id (corePA s (manifestAt w 1)) last.2 seq ∈ t.wal ∧ .commit id ∈ t.wal ∧ .fin id ∈ t.wal))) ∧
    (∀ o, e.op = some o → copies →
      (e.estate = 3 →
        let page := s.arg 0
        let waits := retrains s (page * 4096) = true ∨ portBusy s (pageSpot o page) 4096 = true
        (page ∉ o.left → Answers .ckptPageCopied s (· = s)) ∧
        (page ∈ o.left → waits → parks .ckptPageCopied) ∧
        (page ∈ o.left → ¬ waits → tagFails s slot (page * 4096) 4096 = true → fails .ckptPageCopied 10 ∧
          Answers .ckptPageCopied s fun t => ∀ p ∈ o.left, tget false t.dirty p = true) ∧
        (page ∈ o.left → ¬ waits → tagFails s slot (page * 4096) 4096 = false → Answers .ckptPageCopied s fun t =>
          ∃ o', t.ckpt.op = some o' ∧ o'.left = o.left.filter (· != page)) ∧
        (page ∈ o.left → ¬ waits → tagFails s slot (page * 4096) 4096 = false → s.heldW = [] →
          memReady s (pageSpot o page) = true → pageSpot o page + 4096 ≤ 2 ^ 51 → Memory.wf s.mem = true →
          Answers .ckptPageCopied s fun t =>
            BytesWritten s t slot (pageSpot o page) (readBytes s slot (page * 4096) 4096) ∧
            (∃ o', t.ckpt.op = some o' ∧ o'.left = o.left.filter (· != page) ∧ o'.pages = o.pages) ∧ t.dirty = s.dirty ∧
            ((∀ p ∈ o.left, p = page ∨ p / 2 ^ 18 ≠ page / 2 ^ 18) → t.ckpt.donen = e.donen + 1) ∧
            ((∀ p ∈ o.left, p = page) → event .ckptMemshardsDone [] ∈ t.work)))) ∧
    (let who := s.arg 0
     let waits := e.estate = 0 ∧ who = 0 ∧ s.core.up = true ∧ restoreWaits s e.rworld e.rmanpa = true
     (waits → parks .restore) ∧
     (MustWait s → Deferred .abort s ∧ Deferred .ecmdIgnored s ∧ (¬ waits → Deferred .restore s)) ∧
     ∀ r, MayGo s r →
      let none_ := fun (i : Instr) => Answers i s fun t => t = { s with deferred := r, work := t.work }
      let counts := fun (i : Instr) (err : Nat) => Answers i s fun t =>
        t.ckpt = { e with ecmdCnt := e.ecmdCnt + 1, lasterr := err } ∧ Woken { s with deferred := r, ckpt := t.ckpt } t
      (who ≠ 0 → none_ .restore ∧ none_ .abort) ∧
      (s.arg 1 ≠ 0 → none_ .ecmdIgnored) ∧
      (s.arg 1 = 0 → counts .ecmdIgnored 11) ∧
      (who = 0 → e.estate = 0 ∨ 4 ≤ e.estate → counts .abort 11) ∧
      (∀ o, who = 0 → 1 ≤ e.estate → e.estate ≤ 3 → e.op = some o → Answers .abort s fun t =>
        t.ckpt.estate = 0 ∧ t.ckpt.lasterr = 8 ∧ t.ckpt.op = none ∧ t.ckpt.ecmdCnt = e.ecmdCnt + 1 ∧
        (∀ p ∈ (if e.estate < 3 then o.pages else o.left), tget false t.dirty p = true) ∧
        (onFabric s w = true → ∀ g ∈ o.grans, tget false t.dirtyV g = true) ∧
        (onFabric s w = false → ∀ g ∈ o.grans, g ∈ (t.world w).imageV)) ∧
      (let c := restoreCheck { s with ckpt := { e with ecmdCnt := e.ecmdCnt + 1 } }
       (who = 0 → e.estate ≠ 0 → counts .restore 11) ∧
       (who = 0 → e.estate = 0 → ¬ waits → c ≠ 0 →
         (c ≠ 10 → counts .restore c) ∧
         (c = 10 → Answers .restore s fun t => t.ckpt = { e with ecmdCnt := e.ecmdCnt + 1, lasterr := 10 } ∧
           (t.world e.rworld).compromised = true)) ∧
       (who = 0 → e.estate = 0 → ¬ waits → c = 0 → Answers .restore s fun t => t.ckpt.estate = 5 ∧ t.ckpt.world = e.rworld ∧
         t.ckpt.lasterr = 0 ∧ event .restoreDone [] ∈ t.work ∧ t.mem = s.mem))) ∧
    (e.estate ≠ 5 ∨ s.core.up = false ∨ e.op = none → Answers .restoreDone s (· = s)) ∧
    (∀ o, e.estate = 5 → s.core.up = true → e.op = some o →
      let waits := ∃ h ∈ o.shards, portBusy s h.2.2.1 h.2.2.2.1 = true
      (waits → parks .restoreDone) ∧
      (¬ waits → Answers .restoreDone s fun t =>
        t.ckpt.estate = 0 ∧ t.ckpt.lasterr = 0 ∧ t.ckpt.op = none ∧ t.ckpt.donen = e.totaln ∧
        (t.world w).manifest = some (o.area, o.seq) ∧ ∀ p, pageOf s w p = true → tget false t.dirty p = false))

/-- 08 R141 to R152, 06 R125, 04 R95: the end of a quantum resolves the next entry, waits for the policy core and for a checkpoint
phase, and begins a switch where another world follows; a switch stops the outgoing contexts, writes their state to the world's
switch area, gives the incoming world a fresh scrambler key and its state back from its own area, or loses the launch whose
state fails (assumption 30), and lets its contexts run, their pages showing the state that they had (assumption 16); a decision places the first gang of the first candidate, binding its contexts; a rotated
gang's image leaves the fabric, and it gives up its slots, once its contexts have stopped and their class T requests have reached
their ports. The lowest free numbers and slots are bound (assumption 31); where an image stands in the area is the model's choice
(assumption 61). -/
def Obligations.QuantaAndDispatch : Prop :=
  ∀ s : State,
    let z := s.quantum
    let o := z.world
    let c := s.core
    let works := c.up = true ∨ c.recovering = true
    let parks := fun (i : Instr) (e : Event) => Answers i s (· = { s with parked := s.parked ++ [e] })
    let away := fun (ps : List Part) (a : Nat) => ∀ p ∈ ps, a / 64 < p.pa / 64 ∨ (p.pa + p.n - 1) / 64 < a / 64
    let unspilled := fun (w : Nat) => ∀ d ∈ s.sundogs, d.tag / 2 ^ 32 ≠ w
    (z.switch.isSome = true → Answers .quantumEnd s (· = s)) ∧
    (z.switch = none → c.up = false ∨ phaseUnderWay s = true →
      Answers .quantumEnd s (· = { s with quantum := { z with deferred := true } })) ∧
    (z.switch = none → c.up = true → phaseUnderWay s = false →
      let table := z.next.getD z.table
      let i := if z.next.isSome = true then 0 else z.idx
      let switches := fun (w len idx : Nat) => Answers .quantumEnd s fun t =>
        t.quantum = { z with table := table, next := none, deferred := false, idx := idx, switch := some (w, 1), len := len } ∧
        event .switchStopsDone [] ∈ t.work ∧ t.mem = s.mem ∧ .begin_ c.nextId txSwitch w ∈ t.wal ∧
        (s.openTxn txSwitch w = none → .fin c.nextId ∉ s.wal → Logged t [.begin_ c.nextId txSwitch w,
          .write c.nextId (corePA s 0) o w, .commit c.nextId, .write c.nextId (corePA s 1) z.idx idx, .step c.nextId 1]) ∧
        ∀ k, k < 16384 → (s.ctx o k).state.live = true →
          ((s.ctx o k).due = false → (t.ctx o k).state = .stopping ∧ (t.ctx o k).ranAtSwitch = true ∧
            (t.ctx o k).heldState = (if (s.ctx o k).heldState = 0 then (s.ctx o k).state.code else (s.ctx o k).heldState) ∧
            event .contextSaved [o, k] ∈ t.work) ∧
          ((s.ctx o k).due = true → (t.ctx o k).state = (s.ctx o k).state ∧ (t.ctx o k).due = true)
      let stays := fun (len idx : Nat) => Answers .quantumEnd s fun t =>
        t = { s with wal := t.wal, core := t.core, quantum := { z with
          table := table, next := none, deferred := false, idx := idx, len := len } } ∧
        (z.idx = idx → t.wal = s.wal ∧ t.core = c) ∧
        (z.idx ≠ idx → t.core = { c with nextId := c.nextId + 1 } ∧ Logged t [.begin_ c.nextId txTable 0,
          .write c.nextId (corePA s 1) z.idx idx, .commit c.nextId, .fin c.nextId])
      (∀ j w len, nextEntry s table i = some (j, w, len) → w = o → stays (z.len + len) ((j + 1) % table.length)) ∧
      (∀ j w len, nextEntry s table i = some (j, w, len) → w ≠ o → switches w len ((j + 1) % table.length)) ∧
      (nextEntry s table i = none → o = 0 → stays 10000 i) ∧
      (nextEntry s table i = none → o ≠ 0 → switches 0 10000 i)) ∧
    ((s.world o).conf = true ∨ worldIdle s o = false → Answers .quantumIdleEnd s (· = s)) ∧
    ((s.world o).conf = false → worldIdle s o = true → z.switch = none → c.up = true → phaseUnderWay s = false →
      z.next = none → nextEntry s z.table z.idx = none → o = 0 → Answers .quantumIdleEnd s
        (· = { s with quantum := { z with deferred := false, len := 10000 } })) ∧
    (let busy := ∃ k, k < 16384 ∧ (s.ctx o k).busy = true
     let flies := ∃ x ∈ s.flights, x.1 = o
     let goes := fun (w : Nat) => z.switch = some (w, 1) ∧ works ∧ ¬ busy
     (∀ w, z.switch = some (w, 1) → works → busy → Answers .switchStopsDone s (· = s)) ∧
     (∀ w, goes w → flies → Answers .switchStopsDone s fun t =>
       t = { s with work := t.work, parked := s.parked ++ [s.ev] } ∧
       ∀ x ∈ s.flights, x.1 = o → event .writeQueueUpdate [o, x.2.1, x.2.2.id] ∈ t.work) ∧
     (∀ w, goes w → ¬ flies → saveWaits s o = true → Answers .switchStopsDone s fun t =>
       t = { s with work := t.work, parked := s.parked ++ [s.ev] } ∧
       ∀ p ∈ savedPages s o, uncopied s (p * 4096) = true → event .ckptPageCopied [p] ∈ t.work) ∧
     (∀ w, goes w → ¬ flies → saveWaits s o = false → Answers .switchStopsDone s fun t =>
       t.quantum.switch = some (w, 2) ∧ t.quantum.flrs = [] ∧
       ∀ v ∈ z.flrs, v < 129 → (s.world v).wstate = 1 ∨ (s.world v).wstate = 2 → (t.world v).wstate = 3) ∧
     (∀ w, goes w → ¬ flies → saveWaits s o = false → z.flrs = [] →
       Answers .switchStopsDone s fun t => t.quantum = { z with switch := some (w, 2) } ∧ event .switchSaveDone [] ∈ t.work ∧
         (∀ d ∈ t.sundogs, d.tag / 2 ^ 32 ≠ o) ∧ (unspilled o → (t.world o).anvils = anvilsOn s o) ∧
         let ps := (launchImages s o (anvilsOn s o)).flatMap (·.2)
         (unspilled o → ∀ a, isMem a = true → away ps a → tget 0 t.mem a = tget 0 s.mem a) ∧
         ∀ p pa, unspilled o → ps = [p] → p.what = .vault pa → p.ready s = true → p.pa + p.n ≤ 2 ^ 51 → 2 ^ 51 ≤ pa →
           Memory.wf s.mem = true → ∀ i, i < p.n → readByte t (keySlot s o) (p.pa + i) = tget 0 s.mem (pa + i) ∧
             tget 0 t.mem (pa + i) = 0) ∧
     (∀ w, z.switch = some (w, 2) → works → imageReadWaits s w = true → parks .switchSaveDone s.ev) ∧
     (∀ w, z.switch = some (w, 2) → works → imageReadWaits s w = false →
       Answers .switchSaveDone s fun t => t.quantum = { z with switch := some (w, 3), world := w } ∧
         (t.world w).scrambler = Config.scramblerKey s.fresh ∧ (t.world w).imageV = [] ∧ (t.world w).anvils = [] ∧
         event .switchRestoreDone [] ∈ t.work ∧ (∀ a, isMem a = true → tget 0 t.mem a = tget 0 s.mem a) ∧
         ∀ l p pa, launchImages s w (s.world w).anvils = [(l, [p])] → p.what = .vault pa → 2 ^ 51 ≤ pa → Memory.wf s.mem = true → l < 1024 →
           (p.fails s w = true → (t.launch w l).worldLost = true ∧ (t.world w).compromised = true) ∧
           (p.fails s w = false → p.ready s = false → (t.launch w l).worldLost = true) ∧
           (p.fails s w = false → p.ready s = true → ∀ i, i < p.n →
             tget 0 t.mem (pa + i) = readByte s (keySlot s w) (p.pa + i))) ∧
     (∀ w, z.switch = some (w, 3) → works → Answers .switchRestoreDone s fun t =>
       t.quantum = { z with switch := none } ∧ event .dispatchDecision [] ∈ t.work ∧
       ((s.world w).wstate ≠ 2 → event .quantumEnd [] ∈ t.work) ∧
       ∀ k, k < 16384 → o = w → (s.ctx w k).resident = true →
         ((s.gangOf w k).state = .rotating → (t.ctx w k).state = (s.ctx w k).state ∧ (t.ctx w k).due = (s.ctx w k).due) ∧
         ((s.gangOf w k).state ≠ .rotating → ((s.ctx w k).due = false ∧ (s.ctx w k).ranAtSwitch = true ∧ (s.ctx w k).state = .saved) ∨
           ((s.ctx w k).due = true ∧ (s.ctx w k).state = .resuming) → (t.ctx w k).state = .resuming ∧
           (t.ctx w k).ranAtSwitch = false ∧ (t.ctx w k).due = false ∧ (t.ctx w k).heldState = (s.ctx w k).heldState ∧
           event .replayDone [w, k] ∈ t.work)) ∧
     (¬ works ∨ z.switch = none → ∀ i ∈ [Instr.switchStopsDone, .switchSaveDone, .switchRestoreDone],
       Answers i s (· = s))) ∧
    (z.switch.isSome = true ∨ (s.world o).wstate ≠ 2 ∨ ckptStops s o = true → Answers .dispatchDecision s (· = s)) ∧
    (z.switch = none → (s.world o).wstate = 2 → ckptStops s o = false →
      (rotationWaits s o = true → parks .dispatchDecision (event .dispatchDecision [])) ∧
      ∀ p q l u, rotationWaits s o = false → (s.world o).reserve = none → (s.world o).claims = [] →
      tset o (s.world o) s.worlds = s.worlds →
      (candidates s o).head? = some (p, q, l) → (s.launch o l).first = some .fresh → tryPlace s o l .fresh = some u →
      l < 1024 → Answers .dispatchDecision s fun t =>
        (t.launch o l).lstate = .active ∧ (t.launch o l).nextGang = (s.launch o l).nextGang + 1 ∧
        (t.launch o l).dispatched = (s.launch o l).dispatched + 1 ∧
        (t.launch o l).residentg = (s.launch o l).residentg + 1 ∧ tget 0 (t.world o).served p = q ∧
        ∀ k ∈ freeNumbers s o (s.launch o l).strands, (t.ctx o k).state = .running ∧ (t.ctx o k).launch = l ∧
          (t.ctx o k).resident = true ∧ (t.ctx o k).root = (s.launch o l).root ∧
          (t.ctx o k).strand.pc = BitVec.ofNat 64 (s.launch o l).entry ∧ (t.ctx o k).strand.vl = 0 ∧
          ∀ r, (t.ctx o k).strand.rx r = if r = 10 then BitVec.ofNat 64 (s.launch o l).arg else 0) ∧
    (let w := s.arg 0
     let l := s.arg 1 % 1024
     let g := s.arg 1 / 1024
     let gg := tget Gang.zero (s.launch w l).gangs g
     let ps := rotParts s w gg gg.allocs
     let ready := gg.state = .rotating ∧ o = w ∧ z.switch = none ∧ ∀ k ∈ gg.ctxs, (s.ctx w k).busy = false
     let waits := ∃ p ∈ ps, p.writeWaits s = true
     let flies := ∃ x ∈ s.flights, x.1 = w ∧ x.2.1 ∈ gg.ctxs
     (¬ ready → Answers .rotationSaveDone s (· = s)) ∧
     (ready → flies → Answers .rotationSaveDone s fun t =>
       t = { s with work := t.work, parked := s.parked ++ [event .rotationSaveDone [w, l + 1024 * g]] } ∧
       ∀ x ∈ s.flights, x.1 = w → x.2.1 ∈ gg.ctxs → event .writeQueueUpdate [w, x.2.1, x.2.2.id] ∈ t.work) ∧
     (ready → ¬ flies → waits → parks .rotationSaveDone (event .rotationSaveDone [w, l + 1024 * g])) ∧
     (ready → ¬ flies → ¬ waits → Answers .rotationSaveDone s fun t => event .dispatchDecision [] ∈ t.work ∧
       (t.launch w l).residentg = (s.launch w l).residentg - 1 ∧ (∀ k ∈ gg.ctxs, (t.ctx w k).resident = false) ∧
       (let g' := tget Gang.zero (t.launch w l).gangs g
        g'.state = .rotated ∧ g'.allocs = [] ∧ g'.bands = 0 ∧ g'.image = gg.image) ∧
       (unspilled w → ∀ a, isMem a = true → away ps a → tget 0 t.mem a = tget 0 s.mem a)))

/-- 10 R189, 11 R220, R221, 09 R456, 15 R293, R299, 13 R265: an update applies once at its port, which keeps its old value until
the strand has acknowledged the response, and waits where the port cannot take it; a table that is more than three quarters full
gives up the entries of contexts whose frames stand in their vaults; so does a request that its strand's save has left on its way.
The response writes the register. A fault that a port reports stops the strand at that
operation; an element ahead of its convoy's resume point is only performed again there; TAGFAIL stops a context that is STOPPING
too. A stopped strand's entry is spilled to its record in its vault; a reservation's hold ends; a word that decodes as nothing,
and a fetch that faults, fault at PC. -/
def Obligations.PortsAndReports : Prop :=
  ∀ s : State,
    let w := s.arg 0
    let k := s.arg 1
    let id := s.arg 2
    let c := s.ctx w k
    let u := c.strand
    let u' := fun (t : State) => (t.ctx w k).strand
    let stops := fun (t : State) (o : Op) (cause : Cause) => (t.ctx w k).state = .stopping ∧
      event .contextSaved [w, k] ∈ t.work ∧ t.mem = s.mem ∧
      ∃ f, (t.ctx w k).fault = some f ∧ f.cause = cause ∧ f.fpc = o.pc ∧ (o.replayed = false → f.fslot = o.slot) ∧
        f.faddr = (if o.kind = 2 ∧ o.func / 16 = 1 ∧ o.len = 1 then o.opnd else o.addr) ∧
        f.felem = (if o.slot = 0 ∧ o.kind = 2 ∧ o.group ≠ 0 then 0 else o.elem)
    -- the read of a convoy's element, whose failure is found where the element issues again
    let asks := fun (o : Op) => o.kind = 2 ∧ o.group ≠ 0 ∧ o.slot ≠ 0
    let stopped := fun (d : Sundog) =>
      let x := d.tag / 2 ^ 32
      let j := d.tag / 2 ^ 18 % 16384
      ¬ ((s.ctx x j).state.live = true ∨ (s.ctx x j).state = .stopping ∨ onFabric s x = false ∨ (s.gangOf x j).state = .rotated)
    let crowd := fun (port n : Nat) => 3 * sundogLimit port < 4 * ((s.sundogs.filter fun d => d.port == port).length + n)
    let freezes := fun (i : Instr) (o : Op) => Answers i s fun t =>
      stops t o .tagfail ∧ (t.world w).compromised = true ∧ (u' t).ops = []
    let freed := fun (t : State) => { s with sundogs := t.sundogs, parked := [] }
    (u.findOp id = none → (∀ i ∈ [Instr.operationResponse, .portFaultReport], Answers i s (· = s)) ∧
      let here := fun (x : Nat × Nat × Op) => x.1 == w && x.2.1 == k && x.2.2.id == id
      (s.flights.any here = false → Answers .writeQueueUpdate s (· = s)) ∧
      -- a request of before a save (20 R374)
      ∀ o, s.flights.find? here = some (w, k, o) →
        let port := portOf s o.pa
        let busy := writeWaits s o.pa o.bytes = true ∨ granuleHeld s w k o.pa o.bytes = true ∨ portFull s port = true ∨
          ∃ x ∈ s.flights.takeWhile (fun x => !here x), x.1 = w ∧ x.2.1 = k ∧ x.2.2.meets o.pa o.bytes = true
        (memReady s o.pa = false → Answers .writeQueueUpdate s fun t => t.flights = s.flights.filter (fun x => !here x) ∧
          t.mem = s.mem ∧ (u' t).ops = u.ops) ∧
        (memReady s o.pa = true → busy → Answers .writeQueueUpdate s (· = s)) ∧
        (memReady s o.pa = true → ¬ busy → writeTagFails s (keySlot s w) o.pa o.bytes = false → o.kind = 0x10 →
          o.pa + 2 ^ o.wlog ≤ 2 ^ 51 → ¬ crowd port 1 → Answers .writeQueueUpdate s fun t =>
            let old := readNum s (keySlot s w) o.pa (2 ^ o.wlog)
            BytesWritten s t (keySlot s w) o.pa (bytesOf (2 ^ o.wlog) (amoNew o.func (2 ^ o.wlog) old o.opnd)) ∧
            t.flights = s.flights.filter (fun x => !here x) ∧ (u' t).ops = u.ops ∧ (u' t).x = u.x ∧
            t.sundogs = s.sundogs ++ [{ tag := o.tag, port := port, loc := o.pa, old := old }])) ∧
    (∀ o, u.findOp id = some o →
      let port := portOf s o.pa
      let earlier := { u with ops := u.ops.takeWhile fun x => x.id != id }
      let busy := writeWaits s o.pa o.bytes = true ∨ granuleHeld s w k o.pa o.bytes = true ∨ portFull s port = true ∨
        earlier.updating o.pa o.bytes = true
      (crowd port 0 → (∀ d ∈ s.sundogs, d.tag ≠ o.tag) → Answers .writeQueueUpdate s fun t =>
        ∀ d ∈ t.sundogs, d ∈ s.sundogs → d.port = port → ¬ stopped d) ∧
      (o.cls ≠ 1 ∨ o.done = true ∨ o.queued = true ∨ o.host.isSome = true → ¬ crowd port 0 →
        Answers .writeQueueUpdate s (· = s)) ∧
      (o.cls = 1 → o.kind ≠ 2 → o.done = false → o.queued = false → o.host = none → ¬ crowd port 0 →
        (memReady s o.pa = false → c.state.live = true → u.ahead o = false →
          Answers .writeQueueUpdate s fun t => stops t o .memnr) ∧
        (memReady s o.pa = true → busy → Answers .writeQueueUpdate s (· = s)) ∧
        (memReady s o.pa = true → ¬ busy → writeTagFails s (keySlot s w) o.pa o.bytes = true →
          c.state.live = true ∨ c.state = .stopping → freezes .writeQueueUpdate o) ∧
        (memReady s o.pa = true → ¬ busy → writeTagFails s (keySlot s w) o.pa o.bytes = false → o.kind = 0x10 →
          o.pa + 2 ^ o.wlog ≤ 2 ^ 51 → Answers .writeQueueUpdate s fun t =>
            let old := readNum s (keySlot s w) o.pa (2 ^ o.wlog)
            (u' t).ops = u.ops.map (fun x => if x.id = id then { x with done := true, old := old } else x) ∧
            event .operationResponse [w, k, id] ∈ t.work ∧ (u' t).x = u.x ∧
            (¬ crowd port 1 →
              BytesWritten s t (keySlot s w) o.pa (bytesOf (2 ^ o.wlog) (amoNew o.func (2 ^ o.wlog) old o.opnd)) ∧
              OtherLines s t o.pa (2 ^ o.wlog) ∧
              t.sundogs = s.sundogs ++ [{ tag := o.tag, port := port, loc := o.pa, old := old }]) ∧
            (crowd port 1 → ∀ d ∈ t.sundogs, d.port = port → ¬ stopped d))) ∧
      (o.cls ≠ 1 ∨ o.done = false → Answers .operationResponse s (· = s)) ∧
      (o.cls = 1 → o.done = true → o.kind = 0x10 → Answers .operationResponse s fun t =>
        (u' t).ops = u.ops.filter (fun x => x.id != o.id) ∧ event .sundogAck [o.tag] ∈ t.work ∧ t.mem = s.mem ∧
        ∀ r, (u' t).rx r = if r = o.reg ∧ r ≠ 0 ∧ u.pend.any (fun p => p.reg == o.reg && p.tok == 4 * o.id + 1) = true then
          (if o.wlog = 2 then sextBytes 4 o.old else dword o.old) else u.rx r) ∧
      (let cause := causeOf (s.arg 3)
       (o.done = true ∨ o.queued = true → Answers .portFaultReport s (· = s)) ∧
       (o.done = false → o.queued = false → cause ≠ .tagfail →
         (c.state.live = false → Answers .portFaultReport s (· = s)) ∧
         (c.state.live = true → u.ahead o = true → Answers .portFaultReport s
           (· = s.modStrand w k fun v => (v.unsend o).unhold)) ∧
         (c.state.live = true → u.ahead o = false → ¬ asks o → Answers .portFaultReport s fun t => stops t o cause)) ∧
       (o.done = false → o.queued = false → c.state.live = true → asks o → Answers .portFaultReport s fun t =>
         (t.ctx w k).state = c.state ∧ t.mem = s.mem ∧ (u' t).x = u.x ∧
         (u' t).ops = u.ops.map fun x => if x.id = o.id then { x with done := true, part := cause.code } else x) ∧
       (o.done = false → o.queued = false → cause = .tagfail → (c.state.live = true ∧ ¬ asks o) ∨ c.state = .stopping →
         freezes .portFaultReport o))) ∧
    (Answers .sundogAck s fun t => t.sundogs = s.sundogs.filter (fun d => d.tag != w) ∧ Woken (freed t) t ∧
      ∀ e ∈ s.parked, e ∈ t.work) ∧
    ((∀ d ∈ s.sundogs, d.tag ≠ w) → Answers .sundogSpill s (· = s)) ∧
    (∀ d, s.sundogs.find? (fun d => d.tag == w) = some d →
      let x := d.tag / 2 ^ 32
      let j := d.tag / 2 ^ 18 % 16384
      let e := s.ctx x j
      (¬ stopped d → Answers .sundogSpill s (· = s)) ∧
      (stopped d →
        (entryOfTag s e d.tag = none → Answers .sundogSpill s fun t =>
          t.sundogs = s.sundogs.filter (fun x => x.tag != d.tag) ∧ Woken (freed t) t ∧ ∀ e ∈ s.parked, e ∈ t.work) ∧
        ∀ a, entryOfTag s e d.tag = some a → 2 ^ 51 ≤ a → Answers .sundogSpill s fun t =>
          t.sundogs = s.sundogs.filter (fun x => x.tag != d.tag) ∧ bit (vaultDword t a) 16 = true ∧
          vaultDword t (a + 24) = d.old % 2 ^ 64 ∧ OtherLines s t a 32)) ∧
    (s.heldW = [] → Answers .reservationHoldExpiry s fun t =>
      (u' t).resv = u.resv.map (fun r => if s.arg 2 = 0 then { r with hold := false } else r) ∧
      (u' t).mon = u.mon ∧ Woken { s with parked := [] } t ∧ ∀ e ∈ s.parked, e ∈ t.work) ∧
    (s.me.state.live = true → (Answers .illegal s fun t => FaultsAtPc s t .illegal 0) ∧
      (causeOf (s.arg 0) ≠ .tagfail → Answers .instructionFetchFault s fun t => FaultsAtPc s t (causeOf (s.arg 0)) (s.arg 1)) ∧
      (causeOf (s.arg 0) = .tagfail → Answers .instructionFetchFault s fun t => t.me.state = .stopping ∧
        (t.world s.cur.1).compromised = true ∧ t.strand.ops = [] ∧ t.mem = s.mem))

/-- 21 R378, R380, R384 to R387, 10 R198, 04 R86, 05 R107: a chunk, a copy command or a decrypt command whose source and destination
pass their checks reads its source whole and writes its destination whole, and ends with status 0, its bit and its status
doubleword; one that fails a check, or whose tag does not verify, ends with that status and writes no byte of its destination.
It waits where a part of either side waits at its port, and for the stores and updates of its strand (R198); a posted write to the
host is split at 512 bytes (04 R79); what is checked again and when is assumption 22's, engine commands are assumption 23's; parts of a source at the host or a peer are asked for one after another,
and a chunk whose parts at a peer have gone out ends with what the peer answers. The engine page counts each. The plaintext of a
decrypt command is open (`Config.gcmOpen`). -/
def Obligations.CopyCompletions : Prop :=
  ∀ s : State,
    let w := s.arg 0
    let k := s.arg 1
    let n := s.arg 2
    let c := s.ctx w k
    let u := c.strand
    let core := c.core 0
    let g := engineOf s w k
    let e := s.engine w g
    let counts := fun (t : State) (bytes status : Nat) => t.engine w g = { e with
      chunks := e.chunks + 1, bytes := e.bytes + BitVec.ofNat 64 bytes
      failed := if status = 0 then e.failed else Nat.min (2 ^ 32 - 1) (e.failed + 1)
      lastst := if status = 0 then e.lastst else status }
    let here := fun (z : State) (ps : List Piece) (wr : Bool) => ∀ p ∈ ps, p.waits z w k wr = false ∧ ∃ pa, p.x.target = .mem pa
    let walks := fun (src dst n : Nat) => sideWalks s w k .load src n = true ∨ sideWalks s w k .store dst n = true
    let moved := fun (op : Nat) (sp dp : List Piece) (data : List Byte) =>
      writePieces (touchPieces (touchPieces s w .load sp) w .store dp) w k op dp data
    -- no store and no update of the strand has still to perform
    let quiet := storesAhead s w k = false
    let ready := fun (src dst len : Nat) (sp dp : List Piece) (data : List Byte) =>
      quiet ∧ checkSide s w k core .load src len = .ok sp ∧ checkSide s w k core .store dst len = .ok dp ∧ here s sp false ∧
      here s dp true ∧ here (touchPieces s w .load sp) dp true ∧ readPieces s w sp [] = .ok data ∧
      piecesTagFail (touchPieces s w .load sp) w dp = false
    (u.findOp n = none → Answers .chunkComplete s (· = s)) ∧
    (∀ o, u.findOp n = some o →
      let ends := fun (t : State) => (t.ctx w k).strand.ops = u.ops.filter fun x => x.id != o.id
      let fails := fun (status : Nat) => Answers .chunkComplete s fun t => ends t ∧ counts t 0 status ∧ t.mem = s.mem
      (o.kind ≠ 4 → o.kind ≠ 5 → Answers .chunkComplete s (· = s)) ∧
      (o.kind = 5 → u.copies.any (fun x => x.id == o.group && !x.issued) = true → Answers .chunkComplete s (· = s)) ∧
      (o.kind = 4 → o.applied = true →
        (outstanding s w k o.id = true → Answers .chunkComplete s (· = s)) ∧
        (outstanding s w k o.id = false → Answers .chunkComplete s fun t =>
          ends t ∧ counts t (if o.part = 0 then o.len else 0) o.part ∧ t.mem = s.mem)) ∧
      (o.kind = 4 → o.applied = false → e.efrozen = true → fails 16) ∧
      (o.kind = 4 → o.applied = false → e.efrozen = false → o.len = 0 ∨ 65536 < o.len → fails 1) ∧
      (o.kind = 4 → o.applied = false → e.efrozen = false → 1 ≤ o.len → o.len ≤ 65536 →
        let from_ := checkSide s w k core .load o.addr o.len
        let into := checkSide s w k core .store o.opnd o.len
        (walks o.addr o.opnd o.len → Answers .chunkComplete s (· = s)) ∧
        (¬ walks o.addr o.opnd o.len →
          (∀ x, from_ = .error x → fails x.code) ∧
          (∀ sp x, from_ = .ok sp → into = .error x → fails x.code) ∧
          (∀ sp dp, from_ = .ok sp → into = .ok dp →
            ((∃ p ∈ dp, p.waits s w k true = true) → Answers .chunkComplete s (· = s)) ∧
            (¬ quiet → Answers .chunkComplete s (· = s)) ∧
            (quiet → (∀ p ∈ dp, p.waits s w k true = false) → o.buf.length < foreignOf sp →
              (outstanding s w k o.id = true → Answers .chunkComplete s (· = s)) ∧
              (∀ p, outstanding s w k o.id = false → nextForeign o.buf.length sp = some p →
                Answers .chunkComplete s (· = askPiece s w k o.id p))) ∧
            (∀ p a data, quiet → dp = [p] → p.x.target = .host a → here s sp false → readPieces s w sp [] = .ok data →
              hostGate (touchPieces s w .load sp) w k (pasidOf s w k) a = .go → Answers .chunkComplete s fun t =>
                ends t ∧ counts t o.len 0 ∧ ∃ h : Tlp, h.addr = a ∧
                  let d := (data.take p.n).map (·.toNat)
                  t.out = s.out ++ (List.range ((d.length + 511) / 512)).map fun i =>
                    .hostWrite { h with addr := a + 512 * i } ((d.drop (512 * i)).take 512)) ∧
            (∀ x, quiet → here s sp false → (∀ p ∈ dp, p.waits s w k true = false) → readPieces s w sp [] = .error x →
              Answers .chunkComplete s fun t => ends t ∧ (t.engine w g).efrozen = true ∧ (t.engine w g).lastst = 16 ∧
                (t.world w).compromised = true ∧ t.mem = s.mem)) ∧
          ∀ sp dp data, ready o.addr o.opnd o.len sp dp data → Answers .chunkComplete s fun t =>
            ends t ∧ counts t o.len 0 ∧ t.mem = (moved o.id sp dp data).mem ∧
            (o.func = 0x0A → (t.ctx w k).strand.pbit o.reg o.idx = true)))) ∧
    (findCmd s w k n = none → Answers .engineCopyCommand s (· = s) ∧ Answers .decryptCommand s (· = s)) ∧
    (∀ o x, findCmd s w k n = some (o, x) → o.applied = false →
      let ends := fun (t : State) (status bytes : Nat) => counts t bytes status ∧
        (t.ctx w k).strand.ops = u.ops.filter (fun y => y.id != o.id) ∧ (t.ctx w k).strand.cmds = terase o.reg 1 u.cmds ∧
        (x.pred ≠ 31 → status = 0 → (t.ctx w k).strand.pbit x.pred x.bitIndex = true)
      (x.kind = 0x40 → Answers .engineCopyCommand s (· = s)) ∧
      (x.kind ≠ 0x40 → Answers .decryptCommand s (· = s)) ∧
      (x.kind ≠ 0x40 → chargeWaits s w k x = true → Answers .engineCopyCommand s (· = s)) ∧
      (x.kind ≠ 0x40 → x.bar = 0 →
        (e.efrozen = true → Answers .engineCopyCommand s fun t => ends t 16 0 ∧ t.mem = (putStatus s w k x 16).mem) ∧
        (e.efrozen = false → 1 ≤ x.len → x.len ≤ 65536 → ¬ walks x.src x.dst x.len →
          (∀ y, checkSide s w k core .load x.src x.len = .error y → Answers .engineCopyCommand s fun t =>
            ends t y.code 0 ∧ t.mem = (putStatus s w k x y.code).mem) ∧
          ∀ sp dp data, ready x.src x.dst x.len sp dp data → Answers .engineCopyCommand s fun t =>
            ends t 0 x.len ∧ t.mem = (putStatus (moved o.id sp dp data) w k x 0).mem)) ∧
      (x.kind = 0x40 → e.efrozen = false → sideWalks s w k .load x.src (x.len + 16) = false → plainWaits s w k core x = false →
        ∀ sp data, quiet → checkSide s w k core .load x.src (x.len + 16) = .ok sp → here s sp false → readPieces s w sp [] = .ok data →
        let s1 := touchPieces s w .load sp
        let plain := Config.gcmOpen (tget (0, 0) (s.world w).streams x.stream).1 x.stream x.w1
          ((data.map (·.toNat)).take x.len) ((data.map (·.toNat)).drop x.len)
        (plain = none → Answers .decryptCommand s fun t => ends t 0x20 0 ∧ t.mem = (putStatus s1 w k x 0x20).mem) ∧
        (∀ pt y, plain = some pt → checkSide s1 w k core .store x.dst x.len = .error y →
          Answers .decryptCommand s fun t => ends t y.code 0 ∧ t.mem = (putStatus s1 w k x y.code).mem) ∧
        ∀ pt dp, plain = some pt → checkSide s1 w k core .store x.dst x.len = .ok dp → here s1 dp true →
          piecesTagFail s1 w dp = false → Answers .decryptCommand s fun t => ends t 0 x.len ∧
            t.mem = (putStatus (writePieces (touchPieces s1 w .store dp) w k o.id dp (plainBytes x.len pt)) w k x 0).mem))

/-- 26 R430 to R435, R443: a call of a portable function begins with i0 to i7 and no shape, and an unwritten register reads as its
native register or as its spill slot; SHAPE grants rows and length apart, each no more than asked and R × L no more than MVL; the
scalar words and the words on tiles have the effects of R433, with RNE and wrapping, on the elements of the shape alone; YRSUM sums
each row in ascending column order; a word that no row accepts is ILLEGAL when it is reached; RET goes to x1 with i0 in x10, and
leaves every register but those that a translation may write, and all memory outside the strand's private slice. The elements of
YLD and YST are accessed in ascending order, and what the registers that a translation may write hold is open, which is the
model's choice (R433 asks for no order, assumption 84). -/
def Obligations.PortableForm : Prop :=
  (∀ (s : State) (f : List Nat),
    let s' := (enterPortable f s).1
    let t := (enterPortable f s).2
    s' = { s with fresh := s.fresh + 1 } ∧ t.i.length = 16 ∧ t.rows = 0 ∧ t.len = 0 ∧ t.pc = 0 ∧ t.elem = 0 ∧
    (∀ n, n < 8 → t.ix n = s.rx (10 + n)) ∧ (∀ n r, 8 ≤ n → n < 16 → nativeI f n = some r → t.ix n = s.rx r) ∧
    ∀ n h e v, n < 16 → h < 2 → e < 4096 → nth none t.bind n = some v →
      nativeY f n = some v ∧ t.half n h e = s.strand.slot (v + h) e % 2 ^ 32) ∧
  ∀ (s : State) (t : Portable) (f : List Nat), t.i.length = 16 →
    let mvl := s.me.mvl
    let x := t.ix
    let num := fun n => (x n).toNat
    let signed := fun n => (x n).toInt
    let size := t.rows * t.len
    let w := s.cur.1
    let k := s.cur.2
    let word := portableWord t s
    let gives := fun (i : PInstr) (s' : State) (d : Nat) (v : Word) => ∃ t', word i = .next s' t' ∧
      t' = { t with i := t'.i, pc := t.pc + 1, elem := 0 } ∧ ∀ n, t'.ix n = if n = d then v else x n
    let tiles := fun (i : PInstr) (ty d : Nat) (on : Nat → Prop) (val fl : Nat → Nat) => ∃ s' t', word i = .next s' t' ∧
      StrandOnly s s' ∧ s'.strand = { s.strand with fflags := s'.strand.fflags } ∧ Raises s s' (· < size) fl ∧
      t' = { t with y := t'.y, pc := t.pc + 1, elem := 0 } ∧ (∀ e, e < size → on e → t'.yx ty d e = val e % 2 ^ tyWidth ty) ∧
      (∀ e h, e < 4096 → size ≤ e → t'.half d h e = t.half d h e) ∧
      ∀ n h e, e < 4096 → h < 2 → n ≠ d → t'.half n h e = t.half n h e
    (∀ d a b imm, d < 16 →
      gives (.iadd d a b) s d (dword (num a + num b)) ∧ gives (.isub d a b) s d (dword (signed a - signed b)) ∧
      gives (.imul d a b) s d (dword (num a * num b)) ∧ gives (.iaddi d a imm) s d (dword (signed a + simm 18 imm)) ∧
      gives (.ili d imm) s d (dword (simm 22 imm)) ∧ gives (.islli d a imm) s d (dword (num a * 2 ^ imm)) ∧
      (∀ ty, ty < 14 → gives (.yext ty d a b) s d (if mvl ≤ num b then 0 else extOf ty (t.yx ty a (num b)))) ∧
      ∀ s' v, loadAt s w k (dword (signed a + simm 10 imm)).toNat 8 = .value s' v → gives (.ild d a imm) s' d (dword v)) ∧
    (∀ a b imm z pa,
      let va := (dword (signed a + simm 10 imm)).toNat
      let v := num b
      s.me.state.live = true → checkAccess s w k (s.me.core 0) (scalarAsk s w k va 8 .store (some v)) = .ok z →
      walkBusy s w k va 8 .store = false → z.target = .mem pa → granuleHeld s w k pa 8 = false → s.strand.acquiring = false →
      s.strand.updating pa 8 = false → convoyNames s w k pa 8 = false → writeTagFails s (keySlot s w) pa 8 = false →
      s.strand.lockPending va 8 = false → writeWaits s pa 8 = false → ∃ s', word (.ist b a imm) = .next s' t.next ∧ s'.strand.x = s.strand.x ∧ s'.pc = s.pc ∧
        BytesWritten (setAD s w z .store) s' (keySlot s w) pa (bytesOf 8 v) ∧ OtherLines (setAD s w z .store) s' pa 8) ∧
    (∀ a b imm, imm < 1024 →
      let goes := fun (i : PInstr) (taken : Prop) => (¬ taken → word i = .next s t.next) ∧
        (taken → 0 ≤ (t.pc : Int) + simm 10 imm →
          word i = .next s { t with pc := ((t.pc : Int) + simm 10 imm).toNat, elem := 0 })
      goes (.iblt a b imm) (signed a < signed b) ∧ goes (.ibne a b imm) (x a ≠ x b)) ∧
    (let ra := s.rx 1 &&& ~~~1#64
     let n := sliceSize s.myLaunch.vkib
     (ra.toNat % 4 ≠ 0 → word .ret = .fault s t .misalign ra.toNat) ∧
     (ra.toNat % 4 = 0 → ∃ s', word .ret = .ret s' ∧ s'.pc = ra ∧ s'.rx 10 = x 0 ∧
       (∀ r, r < 32 → r ≠ 10 → r ∉ [5, 6, 7, 11, 12, 13, 14, 15, 16, 17, 28, 29, 30, 31] → s'.rx r = s.rx r) ∧
       (∀ v e, v < 48 → e < 4096 → s'.strand.slot v e = s.strand.slot v e) ∧
       (∀ p e, p < 20 → e < 4096 → s'.strand.pbit p e = s.strand.pbit p e) ∧
       s'.strand.q = s.strand.q ∧ s'.strand.ops = s.strand.ops ∧ s'.strand.fflags = s.strand.fflags ∧
       (∀ w' k', ctxKey w' k' ≠ ctxKey w k → SameCtx (s.ctx w' k') (s'.ctx w' k')) ∧
       (∀ z pa, resolve s w k (s.me.core 0) 0xFFFFF00080000000 .store = .ok z → z.target = .mem pa →
         pa + n ≤ 2 ^ 51 ∨ 2 ^ 51 ≤ pa → OtherLines s s' pa n))) ∧
    (∀ a b, a < 16 → b < 16 → ∃ t', word (.shape a b) = .next s t' ∧ t'.len = Nat.min (num b) mvl ∧
      t'.rows = (if t'.len = 0 then 0 else Nat.min (num a) (mvl / t'.len)) ∧ t'.rows * t'.len ≤ mvl ∧ t'.pc = t.pc + 1 ∧
      t'.y = t.y ∧ ∀ n, t'.ix n = if n = b then dword t'.len else if n = a then dword t'.rows else x n) ∧
    (size ≤ 4096 → ∀ ty d a b, ty < 14 →
      let int := tyInt ty = true
      let ya := t.yx ty a
      let yb := t.yx ty b
      let sum := fun p q => if int then intBits ty false (numOf ty p + numOf ty q) else (fAdd ty 0 false p q).1
      let row := fun r n => (List.range n).foldl (fun z c => sum z (ya (r * t.len + c))) (if int then 0 else 2 ^ (tyWidth ty - 1))
      (ty < 12 → tiles (.yadd ty d a b) ty d (fun _ => True) (fun e => sum (ya e) (yb e))
        fun e => if int then 0 else (fAdd ty 0 false (ya e) (yb e)).2) ∧
      (ty < 12 → tiles (.ymul ty d a b) ty d (fun _ => True)
        (fun e => if int then intBits ty false (numOf ty (ya e) * numOf ty (yb e)) else (fMul ty 0 false (ya e) (yb e)).1)
        fun e => if int then 0 else (fMul ty 0 false (ya e) (yb e)).2) ∧
      (8 ≤ ty → ty < 12 → tiles (.yfma ty d a b) ty d (fun _ => True)
        (fun e => (fFma ty 0 false false false (ya e) (yb e) (t.yx ty d e)).1)
        fun e => (fFma ty 0 false false false (ya e) (yb e) (t.yx ty d e)).2) ∧
      tiles (.ysplat ty d a) ty d (fun _ => True) (fun _ => num a) (fun _ => 0) ∧
      (∀ src, src < 14 → tiles (.ycvt ty src d a) ty d (fun _ => True)
        (fun e => (convert src (portableMode ty) (t.yx src a e)).1) fun e => (convert src (portableMode ty) (t.yx src a e)).2) ∧
      (ty < 12 → tiles (.yrsum ty d a) ty d (fun _ => True) (fun e => if e % t.len = 0 then row (e / t.len) t.len else 0)
        fun e => if e % t.len = 0 ∧ ¬ int then
          (List.range t.len).foldl (fun z c => Nat.lor z (fAdd ty 0 false (row (e / t.len) c) (ya (e / t.len * t.len + c))).2) 0 else 0) ∧
      (let va := (dword (signed a + (t.elem / t.len : Nat) * signed b + (t.elem % t.len * (tyWidth ty / 8) : Nat))).toNat
       (size ≤ t.elem → word (.yld ty d a b) = .next s t.next ∧ word (.yst ty d a b) = .next s t.next) ∧
       (t.elem < size → tileWaits s t.elem va (tyWidth ty / 8) false = false →
         (∀ s' v, loadsAt s t.elem va (tyWidth ty / 8) = some (s', v) → word (.yld ty d a b) =
           portableWord { t.setY ty d t.elem v with elem := t.elem + 1 } s' (.yld ty d a b)) ∧
         (∀ c, elementLoad s w k (s.me.core (t.elem / 512)) va (tyWidth ty / 8) = .fault c →
           word (.yld ty d a b) = .fault s t c va)) ∧
       (t.elem < size → tileWaits s t.elem va (tyWidth ty / 8) true = false →
         ∀ s', elementStore s w k (s.me.core (t.elem / 512)) va (tyWidth ty / 8) (t.yx ty d t.elem) s.strand.locked = .next s' →
           word (.yst ty d a b) = portableWord { t with elem := t.elem + 1 } s' (.yst ty d a b)))) ∧
    (∀ n, f[t.pc]? = some n → decodePortable n = none → portableStep f s t = .fault s t .illegal 0) ∧
    ∀ n i, f[t.pc]? = some n → decodePortable n = some i → portableStep f s t = word i

/-! ## The whole machine -/

/-- 13 R249 to R251, R265, 15 R293: a word that is fetched is the four little-endian bytes at its address, read with X
rights; the scalar stream's turn runs the instruction that the word decodes to, where it is in its operands' ranges, its
profile is launched and no register of it is pending; one that stalls at a pending register leaves PC and the registers; a word
with no instruction, or out of those ranges, is ILLEGAL at PC, a fetch that fails faults there, and one that waits leaves the strand
as it was. A body word of a convoy runs in the latch, and an event with its operands, inputs first and then the device's own
follow-up steps where the schedule is silent (the model's choice, assumption 3), but a peer's request behind earlier ones of its
link (01 R22); after each, the host's reads that wait no longer are answered (`answering`). What a turn adds around an instruction
is `overtake` (16 R308), `named` (09 R166, assumption 86) and `pace`. -/
def Obligations.StepRunsDecoded : Prop :=
  (∀ (s : State) (w k va pa : Nat) (x : Xlat), walkBusy s w k va 4 .fetch = false →
    checkAccess s w k ((s.ctx w k).core 0) (scalarAsk s w k va 4 .fetch none) = .ok x → x.target = .mem pa →
    portBusy s pa 4 = false → tagFails s (keySlot s w) pa 4 = false →
    fetchWord s w k va = .word (setAD s w x .fetch) (natOf (readBytes s (keySlot s w) pa 4))) ∧
  (∀ (s : State) (w k : Nat) (rest : List Turn),
    s.tripped = false → s.sched = .scalar w k :: rest → (s.ctx w k).state = .running →
    let s0 := { s with sched := rest, cur := (w, k) }
    let pc := (s.ctx w k).strand.pc
    let fetched := fetchWord s0 w k pc.toNat
    (fetched = .waits → step s = .next (pace w k pc s0)) ∧
    (∀ c, fetched = .fault c → step s = .next (pace w k pc (scalarFault s0 c pc.toNat))) ∧
    ∀ s1 v, fetched = .word s1 v →
      (∀ i r, decodeWord v = .ok i → i.inRange = true → admitted s1.myLaunch.features i = true →
        stalls s1.strand i = false → exec i s1 = .next r →
        step s = .next (pace w k pc (named s1 w k s1.pc i (overtake s1 w k s1.pc i r)))) ∧
      (∀ i, decodeWord v = .ok i → i.inRange = true → admitted s1.myLaunch.features i = true →
        stalls s1.strand i = true → ∃ r, step s = .next r ∧ (r.ctx w k).strand.pc = pc ∧
          (r.ctx w k).strand.x = (s1.ctx w k).strand.x ∧ (r.ctx w k).state = .running ∧ r.mem = s1.mem) ∧
      ((∀ i, decodeWord v = .ok i → i.inRange = false ∨ admitted s1.myLaunch.features i = false) →
        step s = .next (pace w k pc (scalarFault s1 .illegal 0)))) ∧
  (∀ (s r : State) (vm : Bool) (c : Convoy) (vl slot lo hi : Nat) (i : Instr), c.word slot = some i →
    exec i { s with issue := some { vm := vm, cv := c, vl := vl, slot := slot, lo := lo, hi := hi, halt := none } } = .next r →
    runWord (after exec) s vm c vl slot lo hi = ({ r with issue := none }, r.issue.bind (·.halt))) ∧
  ∀ (s : State), s.tripped = false → s.sched = [] →
    (∀ i rest, s.inputs = i :: rest →
      let s0 := { s with inputs := rest }
      (∀ e, inputStep s0 i = some e → heldRequest s0 e = none → step s = answering (exec e.what { s0 with ev := e })) ∧
      (∀ e n, inputStep s0 i = some e → heldRequest s0 e = some n → step s = answering (.next (deliverRequests s0 n [e]))) ∧
      (∀ e, i = .ev e → inputStep s0 i = some e) ∧
      (inputStep s0 i = none → step s = .next (answerReads (takeInput s0 i)))) ∧
    ∀ e rest, s.inputs = [] → s.work = e :: rest → step s = answering (exec e.what { s with work := rest, ev := e })

/-- 13 R249 to R264, 15 R286 to R292, 26 R432 to R435: words written out from the encoding tables decode to the instruction they stand
for, words of thirteen of the eighteen majors; and so do the words of the portable form that R435 writes out. -/
def Obligations.WordsDecode : Prop :=
  (∀ e ∈
    [ -- 15 R288: imm[11:0] rs1 funct3 rd 0000011, and imm[11:5] rs2 rs1 funct3 imm[4:0] 0100011
      (0b111111111000_00010_011_00001_0000011, Instr.ld 1 2 0xFF8), (0b0000000_00011_00100_010_01100_0100011, .sw 3 4 12),
      -- 15 R289: imm[11:0] rs1 000 rd 0010011, and 010000 shamt[5:0] rs1 101 rd 0010011
      (0b111111111111_00110_000_00101_0010011, .addi 5 6 0xFFF), (0b010000_111111_00110_101_00101_0010011, .srai 5 6 63),
      -- 15 R290: 0000001 rs2 rs1 011 rd 0110011, and 0100000 rs2 rs1 000 rd 0111011
      (0b0000001_01001_01000_011_00111_0110011, .mulhu 7 8 9), (0b0100000_01001_01000_000_00111_0111011, .subw 7 8 9),
      -- 15 R287: imm[31:12] rd 0110111; imm[20|10:1|11|19:12] rd 1101111; imm[12|10:5] rs2 rs1 001 imm[4:1|11] 1100011
      (0b10000000000000000001_01010_0110111, .lui 10 0x80001), (0b1_1111111110_1_11111111_00001_1101111, .jal 1 0x1FFFFC),
      (0b0_000000_00011_00010_001_0100_0_1100011, .bne 2 3 8),
      -- 15 R292: 00000 aq rl rs2 rs1 011 rd 0101111
      (0b00000_1_0_00011_00010_011_00001_0101111, .amoaddD 1 2 3 1 0),
      -- 13 R258: func[31:26] sx[25] va[24:19] vb[18:13] vd[12:7] 0001011
      (0b000001_0_000010_000011_000001_0001011, .vsub 1 2 3 0), (0b000000_1_000010_011111_111111_0001011, .vadd 63 2 31 1),
      -- 13 R259, layout Memory: func[31:27] vd[26:21] xs or vi[20:15] xb[14:10] 000 0101011
      (0b00000_111111_000000_01010_000_0101011, .vld 63 10), (0b00101_000001_000010_00011_000_0101011, .vstx 1 3 2),
      -- 13 R259, layout M: func[31:27] m[26:25] xa[24:20] xp[19:15] 00000000 1011011
      (0b01110_11_01010_01011_00000000_1011011, .mstep 3 10 11),
      -- the words that 13, 14 and 16 write out: CVY t=u32, SETVLI x5,64, FSV.DEV, QSEND q2,x9, JOIN
      (0x01F2807B, .cvy 0 31 0 5 0 0 0), (0x100402FB, .setvli 5 64), (0x2400007B, .fsv 4), (0x3800917B, .qsend 2 9) ],
    decodeWord e.1 = .ok e.2) ∧
  ∀ e ∈
    [ -- 26 R435: shape i3,i2; yld.fp16 y0,(i0),i4; ycvt.fp32.fp16 y2,y0; ymul.fp32 y4,y2,y3; yrsum.fp32 y5,y4; ret
      (0x2C0C8000, PInstr.shape 3 2), (0x40012000, .yld 8 0 0 4), (0x54802808, .ycvt 10 8 2 0), (0x4D08E800, .ymul 10 4 2 3),
      (0x5D502800, .yrsum 10 5 4), (0x28000000, .ret),
      -- 26 R432, layouts I and L: op d a imm18, op d imm22
      (0b000011_0011_0100_111111111111111111, .iaddi 3 4 0x3FFFF), (0b000100_0010_1000000000000000000001, .ili 2 0x200001) ],
    decodePortable e.1 = some e.2

/-- 13 R249 to R266, 26 R432, R433, R435: encoding is exact both ways. Every encoded instruction whose operands fit their fields
encodes to a 32-bit word that decodes to it, so no bit of an operand is dropped; and a 32-bit word that decodes to an
instruction is the encoding of that instruction alone, so no reserved bit is ignored (R7, R265). The words of the portable form
likewise. -/
def Obligations.EncodeAndDecode : Prop :=
  (∀ i : Instr, i.encoded = true → i.fits = true → encodeWord i < 2 ^ 32 ∧ decodeWord (encodeWord i) = .ok i) ∧
  (∀ (v : Nat) (i : Instr), v < 2 ^ 32 → decodeWord v = .ok i → i.encoded = true ∧ i.fits = true ∧ encodeWord i = v) ∧
  (∀ i : PInstr, i.inRange = true → encodePortable i < 2 ^ 32 ∧ decodePortable (encodePortable i) = some i) ∧
  ∀ (v : Nat) (i : PInstr), v < 2 ^ 32 → decodePortable v = some i → i.inRange = true ∧ encodePortable i = v

/-- Every step keeps memory in its canonical form, whatever moves: a strand, a convoy, a table walk, the device, a
restore. Equal memories are then equal data. -/
def Obligations.MemoryStaysCanonical : Prop :=
  ∀ s t : State, Memory.wf s.mem = true → step s = .next t → Memory.wf t.mem = true

/-- 01 R23, 02 R32, 05 R96, R109, 06 R111, 07 R136, 08 R141: after reset the control pages read as their Reset columns
say (a power page's temperature has no reset value, and is left out), the quantum table holds world 0 with 10,000 µs,
memory and vaults read zero (assumption 1) and stand in canonical form, and no context and no launch is bound. -/
def Obligations.ResetState : Prop :=
  let r := State.reset
  (∀ w off, readWord r w 0 0 off = 0) ∧
  (∀ w idx off, readWord r w 1 idx off = 0) ∧
  (∀ w idx off, readWord r w 2 idx off = if off = 0x28 then 7 * 2 ^ 8 else 0) ∧
  (∀ w idx, readWord r w 5 idx 0x00 = 800 ∧ readWord r w 5 idx 0x08 = 4 * 2 ^ 4 + 4 ∧ readWord r w 5 idx 0x10 = 7 ∧
    readWord r w 5 idx 0x18 = 7 ∧ readWord r w 5 idx 0x30 / 2 ^ 8 = 800 * 2 ^ 8 ∧
    ∀ off, off ≠ 0x00 → off ≠ 0x08 → off ≠ 0x10 → off ≠ 0x18 → off ≠ 0x30 → readWord r w 5 idx off = 0) ∧
  (∀ w idx off, readWord r w 8 idx off = 0) ∧
  (∀ w idx off, readWord r w 9 idx off = 0) ∧
  r.quantum.table = [(0, 10000)] ∧ Memory.wf r.mem = true ∧ (∀ slot a, readByte r slot a = 0) ∧
  ∀ w k, (r.ctx w k).state = .empty ∧ (r.launch w k).lstate = .never

/-- 02 R37, R38: every instruction and every event, in every state and whatever its operands, answers a next state; a
step answers one too, but where the package has tripped and no power-on reset stands among its inputs, which is the one
stop of this machine. -/
def Obligations.OneStop : Prop :=
  (∀ (i : Instr) (s : State), ∃ t, exec i s = .next t) ∧
  ∀ s : State,
    (s.tripped = true → (∀ e, Input.ev e ∈ s.inputs → e.what ≠ .powerOnReset) → step s = .fault .poweredOff) ∧
    (s.tripped = false ∨ (∃ e, Input.ev e ∈ s.inputs ∧ e.what = .powerOnReset) → ∃ t, step s = .next t)
end

