-- ==== Sys2Proof/Laws/Tables.lean ====
section
/-!
SUPPORT. Sparse tables: reading after writing, and the canonical form. None of the reading laws needs the form.
-/

namespace Sys2Proof.Machine

variable {α : Type}

/-! ## Reading after writing -/

@[simp] theorem tget_nil (d : α) (k : Nat) : tget d [] k = d := rfl

@[simp] theorem tget_tset (d : α) (k : Nat) (v : α) (t : Tbl α) (j : Nat) :
    tget d (tset k v t) j = if j = k then v else tget d t j := by
  induction t with
  | nil =>
    by_cases h : j = k
    · simp [tset, tget, h]
    · simp [tset, tget, h, Ne.symm h]
  | cons e t ih =>
    obtain ⟨i, w⟩ := e
    simp only [tset]
    split
    · by_cases h : j = k
      · simp [tget, h]
      · simp [tget, h, Ne.symm h]
    · split
      · rename_i hk; subst hk
        by_cases h : j = k
        · simp [tget, h]
        · simp [tget, h, Ne.symm h]
      · simp only [tget, ih]
        by_cases h : i = j
        · subst h; simp; intro h; omega
        · simp [h]

theorem tget_filter (d : α) (p : Nat → Bool) (t : Tbl α) (j : Nat) :
    tget d (t.filter fun e => p e.1) j = if p j then tget d t j else d := by
  induction t with
  | nil => simp
  | cons e t ih =>
    obtain ⟨i, w⟩ := e
    by_cases hp : p i <;> by_cases hj : i = j <;> simp_all [tget]

@[simp] theorem tget_tput [DecidableEq α] (d : α) (k : Nat) (v : α) (t : Tbl α) (j : Nat) :
    tget d (tput d k v t) j = if j = k then v else tget d t j := by
  unfold tput
  split
  · rename_i h
    rw [tget_filter d (fun i => decide (i ≠ k))]
    by_cases hj : j = k <;> simp [hj, h]
  · simp

theorem tget_append (d : α) (a b : Tbl α) (j : Nat) :
    tget d (a ++ b) j = if (a.any fun e => e.1 == j) then tget d a j else tget d b j := by
  induction a with
  | nil => simp
  | cons e a ih =>
    obtain ⟨i, w⟩ := e
    by_cases hj : i = j
    · simp [tget, hj]
    · simp only [List.cons_append, tget, if_neg hj, ih, List.any_cons, beq_eq_false_iff_ne.mpr hj, Bool.false_or]

@[simp] theorem tget_map (d : α) (f : α → α) (h : f d = d) (t : Tbl α) (j : Nat) :
    tget d (t.map fun e => (e.1, f e.2)) j = f (tget d t j) := by
  induction t with
  | nil => simp [h]
  | cons e t ih => simp only [List.map_cons, tget]; split <;> simp [ih]

theorem tget_terase (d : α) (lo n : Nat) (t : Tbl α) (j : Nat) :
    tget d (terase lo n t) j = if lo ≤ j ∧ j < lo + n then d else tget d t j := by
  unfold terase
  rw [tget_filter d fun i => decide (i < lo) || decide (lo + n ≤ i)]
  by_cases h : lo ≤ j ∧ j < lo + n
  · rw [if_pos h, if_neg (by simp only [Bool.or_eq_true, decide_eq_true_eq]; omega)]
  · rw [if_neg h, if_pos (by simp only [Bool.or_eq_true, decide_eq_true_eq]; omega)]

end Sys2Proof.Machine
end

