-- ==== Sys2Proof/Laws/Canonical.lean ====
section
/-!
SUPPORT. The canonical form of a table (`twf`): keys strictly rising and no entry equal to the default. Every way in
which the model writes a table keeps it, and tables in this form that read alike are equal.
-/

namespace Sys2Proof.Machine

variable {α : Type} [DecidableEq α]

/-- The canonical form as a statement about all pairs of entries. -/
theorem twf_iff (d : α) (t : Tbl α) :
    twf d t = true ↔ t.Pairwise (fun a b => a.1 < b.1) ∧ ∀ e ∈ t, e.2 ≠ d := by
  induction t with
  | nil => simp [twf]
  | cons e t ih =>
    obtain ⟨j, v⟩ := e
    cases t with
    | nil => simp [twf]
    | cons f t =>
      obtain ⟨k, w⟩ := f
      simp only [twf, Bool.and_eq_true, decide_eq_true_eq, ih, List.pairwise_cons, List.mem_cons]
      constructor
      · rintro ⟨⟨hv, hjk⟩, ⟨hk, hp⟩, hm⟩
        refine ⟨⟨?_, hk, hp⟩, ?_⟩
        · rintro a (rfl | ha)
          · exact hjk
          · exact Nat.lt_trans hjk (hk a ha)
        · rintro a (rfl | ha)
          · exact hv
          · exact hm a ha
      · rintro ⟨⟨hj, hk, hp⟩, hm⟩
        exact ⟨⟨hm _ (.inl rfl), hj _ (.inl rfl)⟩, ⟨hk, hp⟩, fun e he => hm e (.inr he)⟩

theorem twf_filter (d : α) (p : Nat × α → Bool) (t : Tbl α) (h : twf d t = true) : twf d (t.filter p) = true := by
  rw [twf_iff] at *
  exact ⟨h.1.filter p, fun e he => h.2 e (List.mem_filter.mp he).1⟩

omit [DecidableEq α] in
theorem mem_tset (k : Nat) (v : α) (t : Tbl α) (e : Nat × α) (h : e ∈ tset k v t) : e = (k, v) ∨ e ∈ t := by
  induction t with
  | nil => simpa [tset] using h
  | cons f t ih =>
    obtain ⟨j, w⟩ := f
    simp only [tset] at h
    split at h
    · simpa using h
    · split at h
      · rcases List.mem_cons.mp h with h | h
        · exact .inl h
        · exact .inr (List.mem_cons_of_mem _ h)
      · rcases List.mem_cons.mp h with h | h
        · exact .inr (h ▸ List.mem_cons_self)
        · exact (ih h).imp id fun h => List.mem_cons_of_mem _ h

omit [DecidableEq α] in
theorem pairwise_tset (k : Nat) (v : α) (t : Tbl α) (h : t.Pairwise (fun a b => a.1 < b.1)) :
    (tset k v t).Pairwise (fun a b => a.1 < b.1) := by
  induction t with
  | nil => simp [tset]
  | cons f t ih =>
    obtain ⟨j, w⟩ := f
    rw [List.pairwise_cons] at h
    simp only [tset]
    split
    · rename_i hk
      refine List.pairwise_cons.mpr ⟨?_, List.pairwise_cons.mpr h⟩
      rintro e he
      rcases List.mem_cons.mp he with rfl | he
      · exact hk
      · exact Nat.lt_trans hk (h.1 e he)
    · split
      · rename_i hk
        exact List.pairwise_cons.mpr ⟨fun e he => hk ▸ h.1 e he, h.2⟩
      · refine List.pairwise_cons.mpr ⟨?_, ih h.2⟩
        intro e he
        rcases mem_tset k v t e he with rfl | he
        · simp only; omega
        · exact h.1 e he

theorem twf_tset (d : α) (k : Nat) (v : α) (t : Tbl α) (hv : v ≠ d) (h : twf d t = true) :
    twf d (tset k v t) = true := by
  rw [twf_iff] at *
  refine ⟨pairwise_tset k v t h.1, fun e he => ?_⟩
  rcases mem_tset k v t e he with rfl | he
  · exact hv
  · exact h.2 e he

theorem twf_tput (d : α) (k : Nat) (v : α) (t : Tbl α) (h : twf d t = true) : twf d (tput d k v t) = true := by
  unfold tput
  split
  · exact twf_filter d _ t h
  · rename_i hv; exact twf_tset d k v t hv h

theorem twf_terase (d : α) (lo n : Nat) (t : Tbl α) (h : twf d t = true) : twf d (terase lo n t) = true :=
  twf_filter d _ t h

theorem twf_tslice (d : α) (lo n : Nat) (t : Tbl α) (h : twf d t = true) : twf d (tslice lo n t) = true :=
  twf_filter d _ t h

theorem twf_append (d : α) (a b : Tbl α) (ha : twf d a = true) (hb : twf d b = true)
    (h : ∀ x ∈ a, ∀ y ∈ b, x.1 < y.1) : twf d (a ++ b) = true := by
  rw [twf_iff] at *
  refine ⟨List.pairwise_append.mpr ⟨ha.1, hb.1, h⟩, fun e he => ?_⟩
  rcases List.mem_append.mp he with he | he
  · exact ha.2 e he
  · exact hb.2 e he

theorem mem_trun (d : α) (k : Nat) (vs : List α) (e : Nat × α) (h : e ∈ trun d k vs) :
    k ≤ e.1 ∧ e.1 < k + vs.length ∧ e.2 ≠ d := by
  induction vs generalizing k with
  | nil => simp [trun] at h
  | cons v vs ih =>
    simp only [trun] at h
    split at h
    · have := ih (k + 1) h
      simp only [List.length_cons]; exact ⟨by omega, by omega, this.2.2⟩
    · rename_i hv
      rcases List.mem_cons.mp h with rfl | h
      · simp only [List.length_cons]; exact ⟨Nat.le_refl _, by omega, hv⟩
      · have := ih (k + 1) h
        simp only [List.length_cons]; exact ⟨by omega, by omega, this.2.2⟩

theorem twf_trun (d : α) (k : Nat) (vs : List α) : twf d (trun d k vs) = true := by
  rw [twf_iff]
  refine ⟨?_, fun e he => (mem_trun d k vs e he).2.2⟩
  induction vs generalizing k with
  | nil => simp [trun]
  | cons v vs ih =>
    simp only [trun]
    split
    · exact ih (k + 1)
    · exact List.pairwise_cons.mpr ⟨fun e he => by have := mem_trun d (k + 1) vs e he; simp only; omega, ih (k + 1)⟩

@[simp] theorem tget_trun (d : α) (k : Nat) (vs : List α) (j : Nat) :
    tget d (trun d k vs) j = if k ≤ j then (vs[j - k]?).getD d else d := by
  induction vs generalizing k with
  | nil => simp [trun]
  | cons v vs ih =>
    simp only [trun]
    by_cases hj : j = k
    · subst hj
      split
      · rename_i hv; rw [ih, if_neg (by omega)]; simp [hv]
      · simp [tget]
    · split
      · rw [ih]
        by_cases h : k ≤ j
        · rw [if_pos (by omega), if_pos h, show j - k = (j - (k + 1)) + 1 by omega]; simp
        · rw [if_neg (by omega), if_neg h]
      · simp only [tget, if_neg (Ne.symm hj), ih]
        by_cases h : k ≤ j
        · rw [if_pos (by omega), if_pos h, show j - k = (j - (k + 1)) + 1 by omega]; simp
        · rw [if_neg (by omega), if_neg h]

omit [DecidableEq α] in
theorem tget_of_all_gt (d : α) (k : Nat) (t : Tbl α) (h : ∀ e ∈ t, k < e.1) : tget d t k = d := by
  induction t with
  | nil => rfl
  | cons e t ih =>
    obtain ⟨j, v⟩ := e
    have := h (j, v) List.mem_cons_self
    simp only [tget]
    rw [if_neg (by simp only at this; omega), ih fun e he => h e (List.mem_cons_of_mem _ he)]

/-- Tables in canonical form that read alike at every key are equal. -/
theorem tbl_ext (d : α) (a b : Tbl α) (ha : twf d a = true) (hb : twf d b = true)
    (h : ∀ k, tget d a k = tget d b k) : a = b := by
  rw [twf_iff] at ha hb
  induction a generalizing b with
  | nil =>
    cases b with
    | nil => rfl
    | cons f b =>
      have := h f.1
      simp only [tget] at this
      exact absurd this.symm (by simpa using hb.2 f List.mem_cons_self)
  | cons e a ih =>
    cases b with
    | nil =>
      have := h e.1
      simp only [tget] at this
      exact absurd this (by simpa using ha.2 e List.mem_cons_self)
    | cons f b =>
      obtain ⟨i, v⟩ := e
      obtain ⟨j, w⟩ := f
      have ha1 := List.pairwise_cons.mp ha.1
      have hb1 := List.pairwise_cons.mp hb.1
      have hij : i = j := by
        rcases Nat.lt_trichotomy i j with hlt | heq | hgt
        · have := h i
          rw [tget, if_pos rfl, tget_of_all_gt d i ((j, w) :: b) (by
            intro e he
            rcases List.mem_cons.mp he with rfl | he
            · exact hlt
            · exact Nat.lt_trans hlt (hb1.1 e he))] at this
          exact absurd this (ha.2 _ List.mem_cons_self)
        · exact heq
        · have := h j
          rw [tget_of_all_gt d j ((i, v) :: a) (by
            intro e he
            rcases List.mem_cons.mp he with rfl | he
            · exact hgt
            · exact Nat.lt_trans hgt (ha1.1 e he)), tget, if_pos rfl] at this
          exact absurd this.symm (hb.2 _ List.mem_cons_self)
      subst hij
      have hvw : v = w := by simpa [tget] using h i
      subst hvw
      congr 1
      refine ih b ⟨ha1.2, fun e he => ha.2 e (List.mem_cons_of_mem _ he)⟩
        ⟨hb1.2, fun e he => hb.2 e (List.mem_cons_of_mem _ he)⟩ fun k => ?_
      have := h k
      by_cases hk : i = k
      · subst hk
        rw [tget_of_all_gt d i a ha1.1, tget_of_all_gt d i b hb1.1]
      · simpa [tget, hk] using this

/-! ## Memory -/

theorem twf_putCells (d : α) (lo n : Nat) (cells m : Tbl α) (hm : twf d m = true) (hc : twf d cells = true)
    (hn : ∀ e ∈ cells, e.1 < n) : twf d (m.filter (fun e => decide (e.1 < lo)) ++ cells.map (fun e => (lo + e.1, e.2)) ++
      m.filter (fun e => decide (lo + n ≤ e.1))) = true := by
  have hshift : twf d (cells.map fun e => (lo + e.1, e.2)) = true := by
    rw [twf_iff] at *
    refine ⟨?_, ?_⟩
    · rw [List.pairwise_map]
      exact hc.1.imp fun h => Nat.add_lt_add_left h lo
    · intro e he
      obtain ⟨f, hf, rfl⟩ := List.mem_map.mp he
      exact hc.2 f hf
  refine twf_append d _ _ (twf_append d _ _ (twf_filter d _ m hm) hshift ?_) (twf_filter d _ m hm) ?_
  · intro x hx y hy
    obtain ⟨f, hf, rfl⟩ := List.mem_map.mp hy
    have := (List.mem_filter.mp hx).2
    simp only [decide_eq_true_eq] at this
    simp only; omega
  · intro x hx y hy
    have h2 := (List.mem_filter.mp hy).2
    simp only [decide_eq_true_eq] at h2
    rcases List.mem_append.mp hx with hx | hx
    · have := (List.mem_filter.mp hx).2
      simp only [decide_eq_true_eq] at this; omega
    · obtain ⟨f, hf, rfl⟩ := List.mem_map.mp hx
      have := hn f hf
      simp only; omega

theorem twf_layCells (m cells : Tbl Byte) (hm : twf 0 m = true) : twf 0 (layCells m cells) = true := by
  unfold layCells
  induction cells generalizing m with
  | nil => exact hm
  | cons e cells ih => exact ih _ (twf_tput 0 _ _ _ hm)

theorem mem_tput (d : α) (k : Nat) (v : α) (t : Tbl α) (e : Nat × α) (h : e ∈ tput d k v t) : e = (k, v) ∨ e ∈ t := by
  unfold tput at h
  split at h
  · exact .inr (List.mem_filter.mp h).1
  · exact mem_tset k v t e h

theorem mem_layCells (m cells : Tbl Byte) (e : Nat × Byte) (h : e ∈ layCells m cells) : e ∈ m ∨ e ∈ cells := by
  unfold layCells at h
  induction cells generalizing m with
  | nil => exact .inl h
  | cons f cells ih =>
    rcases ih _ h with h | h
    · rcases mem_tput 0 _ _ _ _ h with rfl | h
      · exact .inr List.mem_cons_self
      · exact .inl h
    · exact .inr (List.mem_cons_of_mem _ h)

/-- Cells in order are canonical, and stand in their run. -/
theorem canonCells_spec (n : Nat) (cells : Tbl Byte) :
    twf 0 (canonCells n cells) = true ∧ ∀ e ∈ canonCells n cells, e.1 < n := by
  unfold canonCells
  split
  · rename_i h
    simp only [Bool.and_eq_true, List.all_eq_true, decide_eq_true_eq] at h
    exact h
  · refine ⟨twf_layCells _ _ rfl, fun e he => ?_⟩
    rcases mem_layCells _ _ _ he with he | he
    · simp at he
    · simpa using (List.mem_filter.mp he).2

/-- A run of bytes listed by offset is in order already. -/
@[simp] theorem canonCells_trun (bs : List Byte) : canonCells bs.length (trun 0 0 bs) = trun 0 0 bs := by
  unfold canonCells
  rw [if_pos]
  simp only [twf_trun, List.all_eq_true, decide_eq_true_eq, Bool.true_and]
  intro e he
  have := mem_trun 0 0 bs e he
  omega

/-- Replacing a run keeps the canonical form of memory. -/
theorem wf_putCells (lo n : Nat) (cells m : Tbl Byte) (hm : Memory.wf m = true) : Memory.wf (putCells lo n cells m) = true :=
  twf_putCells 0 lo n _ m hm (canonCells_spec n cells).1 (canonCells_spec n cells).2

theorem wf_layCells (m cells : Tbl Byte) (hm : Memory.wf m = true) : Memory.wf (layCells m cells) = true :=
  twf_layCells m cells hm

theorem wf_terase (lo n : Nat) (m : Tbl Byte) (hm : Memory.wf m = true) : Memory.wf (terase lo n m) = true :=
  twf_terase 0 lo n m hm

theorem wf_clearForeign (s : State) (slot pa n : Nat) (hm : Memory.wf s.mem = true) :
    Memory.wf (clearForeign s slot pa n) = true := by
  unfold clearForeign
  generalize foreignLines s slot pa n = ls
  generalize s.mem = m at hm
  induction ls generalizing m with
  | nil => exact hm
  | cons l ls ih => exact ih _ (wf_terase _ _ _ hm)

/-- What a long write leaves in memory. -/
theorem performCells_mem (s : State) (slot pa n : Nat) (cells : Tbl Byte) (hn : n ≠ 0) :
    (performCells s slot pa n cells).mem = putCells pa n cells (clearForeign s slot pa n) := by
  simp only [performCells, if_neg hn, touchLines, markDirty, retag]
  split <;> split <;> rfl

/-- Every write that the machine performs keeps memory in its canonical form. -/
theorem wf_performCells (s : State) (slot pa n : Nat) (cells : Tbl Byte) (hm : Memory.wf s.mem = true) :
    Memory.wf (performCells s slot pa n cells).mem = true := by
  by_cases hn : n = 0
  · simpa [performCells, hn] using hm
  · rw [performCells_mem s slot pa n cells hn]
    exact wf_putCells _ _ _ _ (wf_clearForeign s slot pa n hm)

theorem wf_performWrite (s : State) (slot pa : Nat) (bs : List Byte) (hm : Memory.wf s.mem = true) :
    Memory.wf (performWrite s slot pa bs).mem = true := wf_performCells _ _ _ _ _ hm

/-- Memory at reset is in its canonical form. -/
theorem wf_reset : Memory.wf State.reset.mem = true := rfl

end Sys2Proof.Machine
end

