-- ==== Sys2Proof/Laws/State.lean ====
section
/-!
SUPPORT. The accessors of State over its updates: what an update of one record leaves alone (true by `rfl`), and what
reading a record gives after it was written.
-/

namespace Sys2Proof.Machine

/-! ## Fields of State over the updates of contexts and launches -/

@[simp] theorem State.putCtx_mem (s : State) (w k : Nat) (c : Ctx) : (s.putCtx w k c).mem = s.mem := rfl
@[simp] theorem State.putCtx_lineSlot (s : State) (w k : Nat) (c : Ctx) : (s.putCtx w k c).lineSlot = s.lineSlot := rfl
@[simp] theorem State.putCtx_lineBad (s : State) (w k : Nat) (c : Ctx) : (s.putCtx w k c).lineBad = s.lineBad := rfl
@[simp] theorem State.putCtx_ready (s : State) (w k : Nat) (c : Ctx) : (s.putCtx w k c).ready = s.ready := rfl
@[simp] theorem State.putCtx_portMgrp (s : State) (w k : Nat) (c : Ctx) : (s.putCtx w k c).portMgrp = s.portMgrp := rfl
@[simp] theorem State.putCtx_portCdie (s : State) (w k : Nat) (c : Ctx) : (s.putCtx w k c).portCdie = s.portCdie := rfl
@[simp] theorem State.putCtx_portPlink (s : State) (w k : Nat) (c : Ctx) : (s.putCtx w k c).portPlink = s.portPlink := rfl
@[simp] theorem State.putCtx_mlinks (s : State) (w k : Nat) (c : Ctx) : (s.putCtx w k c).mlinks = s.mlinks := rfl
@[simp] theorem State.putCtx_plinks (s : State) (w k : Nat) (c : Ctx) : (s.putCtx w k c).plinks = s.plinks := rfl
@[simp] theorem State.putCtx_edges (s : State) (w k : Nat) (c : Ctx) : (s.putCtx w k c).edges = s.edges := rfl
@[simp] theorem State.putCtx_failDie (s : State) (w k : Nat) (c : Ctx) : (s.putCtx w k c).failDie = s.failDie := rfl
@[simp] theorem State.putCtx_failClu (s : State) (w k : Nat) (c : Ctx) : (s.putCtx w k c).failClu = s.failClu := rfl
@[simp] theorem State.putCtx_failAnvil (s : State) (w k : Nat) (c : Ctx) : (s.putCtx w k c).failAnvil = s.failAnvil := rfl
@[simp] theorem State.putCtx_heldW (s : State) (w k : Nat) (c : Ctx) : (s.putCtx w k c).heldW = s.heldW := rfl
@[simp] theorem State.putCtx_power (s : State) (w k : Nat) (c : Ctx) : (s.putCtx w k c).power = s.power := rfl
@[simp] theorem State.putCtx_tripped (s : State) (w k : Nat) (c : Ctx) : (s.putCtx w k c).tripped = s.tripped := rfl
@[simp] theorem State.putCtx_lowIntervals (s : State) (w k : Nat) (c : Ctx) : (s.putCtx w k c).lowIntervals = s.lowIntervals := rfl
@[simp] theorem State.putCtx_monits (s : State) (w k : Nat) (c : Ctx) : (s.putCtx w k c).monits = s.monits := rfl
@[simp] theorem State.putCtx_iod0 (s : State) (w k : Nat) (c : Ctx) : (s.putCtx w k c).iod0 = s.iod0 := rfl
@[simp] theorem State.putCtx_iod1 (s : State) (w k : Nat) (c : Ctx) : (s.putCtx w k c).iod1 = s.iod1 := rfl
@[simp] theorem State.putCtx_peers (s : State) (w k : Nat) (c : Ctx) : (s.putCtx w k c).peers = s.peers := rfl
@[simp] theorem State.putCtx_remotes (s : State) (w k : Nat) (c : Ctx) : (s.putCtx w k c).remotes = s.remotes := rfl
@[simp] theorem State.putCtx_worlds (s : State) (w k : Nat) (c : Ctx) : (s.putCtx w k c).worlds = s.worlds := rfl
@[simp] theorem State.putCtx_queues (s : State) (w k : Nat) (c : Ctx) : (s.putCtx w k c).queues = s.queues := rfl
@[simp] theorem State.putCtx_launches (s : State) (w k : Nat) (c : Ctx) : (s.putCtx w k c).launches = s.launches := rfl
@[simp] theorem State.putCtx_engines (s : State) (w k : Nat) (c : Ctx) : (s.putCtx w k c).engines = s.engines := rfl
@[simp] theorem State.putCtx_sundogs (s : State) (w k : Nat) (c : Ctx) : (s.putCtx w k c).sundogs = s.sundogs := rfl
@[simp] theorem State.putCtx_fns (s : State) (w k : Nat) (c : Ctx) : (s.putCtx w k c).fns = s.fns := rfl
@[simp] theorem State.putCtx_hreqs (s : State) (w k : Nat) (c : Ctx) : (s.putCtx w k c).hreqs = s.hreqs := rfl
@[simp] theorem State.putCtx_invals (s : State) (w k : Nat) (c : Ctx) : (s.putCtx w k c).invals = s.invals := rfl
@[simp] theorem State.putCtx_ideLink (s : State) (w k : Nat) (c : Ctx) : (s.putCtx w k c).ideLink = s.ideLink := rfl
@[simp] theorem State.putCtx_vfEnable (s : State) (w k : Nat) (c : Ctx) : (s.putCtx w k c).vfEnable = s.vfEnable := rfl
@[simp] theorem State.putCtx_numVfs (s : State) (w k : Nat) (c : Ctx) : (s.putCtx w k c).numVfs = s.numVfs := rfl
@[simp] theorem State.putCtx_pfBars (s : State) (w k : Nat) (c : Ctx) : (s.putCtx w k c).pfBars = s.pfBars := rfl
@[simp] theorem State.putCtx_vfBars (s : State) (w k : Nat) (c : Ctx) : (s.putCtx w k c).vfBars = s.vfBars := rfl
@[simp] theorem State.putCtx_memOn (s : State) (w k : Nat) (c : Ctx) : (s.putCtx w k c).memOn = s.memOn := rfl
@[simp] theorem State.putCtx_quantum (s : State) (w k : Nat) (c : Ctx) : (s.putCtx w k c).quantum = s.quantum := rfl
@[simp] theorem State.putCtx_ckpt (s : State) (w k : Nat) (c : Ctx) : (s.putCtx w k c).ckpt = s.ckpt := rfl
@[simp] theorem State.putCtx_dirty (s : State) (w k : Nat) (c : Ctx) : (s.putCtx w k c).dirty = s.dirty := rfl
@[simp] theorem State.putCtx_dirtyV (s : State) (w k : Nat) (c : Ctx) : (s.putCtx w k c).dirtyV = s.dirtyV := rfl
@[simp] theorem State.putCtx_core (s : State) (w k : Nat) (c : Ctx) : (s.putCtx w k c).core = s.core := rfl
@[simp] theorem State.putCtx_pcgen (s : State) (w k : Nat) (c : Ctx) : (s.putCtx w k c).pcgen = s.pcgen := rfl
@[simp] theorem State.putCtx_wal (s : State) (w k : Nat) (c : Ctx) : (s.putCtx w k c).wal = s.wal := rfl
@[simp] theorem State.putCtx_deferred (s : State) (w k : Nat) (c : Ctx) : (s.putCtx w k c).deferred = s.deferred := rfl
@[simp] theorem State.putCtx_reads (s : State) (w k : Nat) (c : Ctx) : (s.putCtx w k c).reads = s.reads := rfl
@[simp] theorem State.putCtx_deferPorts (s : State) (w k : Nat) (c : Ctx) : (s.putCtx w k c).deferPorts = s.deferPorts := rfl
@[simp] theorem State.putCtx_fresh (s : State) (w k : Nat) (c : Ctx) : (s.putCtx w k c).fresh = s.fresh := rfl
@[simp] theorem State.putCtx_out (s : State) (w k : Nat) (c : Ctx) : (s.putCtx w k c).out = s.out := rfl
@[simp] theorem State.putCtx_inputs (s : State) (w k : Nat) (c : Ctx) : (s.putCtx w k c).inputs = s.inputs := rfl
@[simp] theorem State.putCtx_work (s : State) (w k : Nat) (c : Ctx) : (s.putCtx w k c).work = s.work := rfl
@[simp] theorem State.putCtx_parked (s : State) (w k : Nat) (c : Ctx) : (s.putCtx w k c).parked = s.parked := rfl
@[simp] theorem State.putCtx_ev (s : State) (w k : Nat) (c : Ctx) : (s.putCtx w k c).ev = s.ev := rfl
@[simp] theorem State.putCtx_sched (s : State) (w k : Nat) (c : Ctx) : (s.putCtx w k c).sched = s.sched := rfl
@[simp] theorem State.putCtx_cur (s : State) (w k : Nat) (c : Ctx) : (s.putCtx w k c).cur = s.cur := rfl
@[simp] theorem State.putCtx_issue (s : State) (w k : Nat) (c : Ctx) : (s.putCtx w k c).issue = s.issue := rfl
@[simp] theorem State.modLaunch_mem (s : State) (w l : Nat) (f : Launch → Launch) : (s.modLaunch w l f).mem = s.mem := rfl
@[simp] theorem State.modLaunch_lineSlot (s : State) (w l : Nat) (f : Launch → Launch) : (s.modLaunch w l f).lineSlot = s.lineSlot := rfl
@[simp] theorem State.modLaunch_lineBad (s : State) (w l : Nat) (f : Launch → Launch) : (s.modLaunch w l f).lineBad = s.lineBad := rfl
@[simp] theorem State.modLaunch_ready (s : State) (w l : Nat) (f : Launch → Launch) : (s.modLaunch w l f).ready = s.ready := rfl
@[simp] theorem State.modLaunch_portMgrp (s : State) (w l : Nat) (f : Launch → Launch) : (s.modLaunch w l f).portMgrp = s.portMgrp := rfl
@[simp] theorem State.modLaunch_portCdie (s : State) (w l : Nat) (f : Launch → Launch) : (s.modLaunch w l f).portCdie = s.portCdie := rfl
@[simp] theorem State.modLaunch_portPlink (s : State) (w l : Nat) (f : Launch → Launch) : (s.modLaunch w l f).portPlink = s.portPlink := rfl
@[simp] theorem State.modLaunch_mlinks (s : State) (w l : Nat) (f : Launch → Launch) : (s.modLaunch w l f).mlinks = s.mlinks := rfl
@[simp] theorem State.modLaunch_plinks (s : State) (w l : Nat) (f : Launch → Launch) : (s.modLaunch w l f).plinks = s.plinks := rfl
@[simp] theorem State.modLaunch_edges (s : State) (w l : Nat) (f : Launch → Launch) : (s.modLaunch w l f).edges = s.edges := rfl
@[simp] theorem State.modLaunch_failDie (s : State) (w l : Nat) (f : Launch → Launch) : (s.modLaunch w l f).failDie = s.failDie := rfl
@[simp] theorem State.modLaunch_failClu (s : State) (w l : Nat) (f : Launch → Launch) : (s.modLaunch w l f).failClu = s.failClu := rfl
@[simp] theorem State.modLaunch_failAnvil (s : State) (w l : Nat) (f : Launch → Launch) : (s.modLaunch w l f).failAnvil = s.failAnvil := rfl
@[simp] theorem State.modLaunch_heldW (s : State) (w l : Nat) (f : Launch → Launch) : (s.modLaunch w l f).heldW = s.heldW := rfl
@[simp] theorem State.modLaunch_power (s : State) (w l : Nat) (f : Launch → Launch) : (s.modLaunch w l f).power = s.power := rfl
@[simp] theorem State.modLaunch_tripped (s : State) (w l : Nat) (f : Launch → Launch) : (s.modLaunch w l f).tripped = s.tripped := rfl
@[simp] theorem State.modLaunch_lowIntervals (s : State) (w l : Nat) (f : Launch → Launch) : (s.modLaunch w l f).lowIntervals = s.lowIntervals := rfl
@[simp] theorem State.modLaunch_monits (s : State) (w l : Nat) (f : Launch → Launch) : (s.modLaunch w l f).monits = s.monits := rfl
@[simp] theorem State.modLaunch_iod0 (s : State) (w l : Nat) (f : Launch → Launch) : (s.modLaunch w l f).iod0 = s.iod0 := rfl
@[simp] theorem State.modLaunch_iod1 (s : State) (w l : Nat) (f : Launch → Launch) : (s.modLaunch w l f).iod1 = s.iod1 := rfl
@[simp] theorem State.modLaunch_peers (s : State) (w l : Nat) (f : Launch → Launch) : (s.modLaunch w l f).peers = s.peers := rfl
@[simp] theorem State.modLaunch_remotes (s : State) (w l : Nat) (f : Launch → Launch) : (s.modLaunch w l f).remotes = s.remotes := rfl
@[simp] theorem State.modLaunch_worlds (s : State) (w l : Nat) (f : Launch → Launch) : (s.modLaunch w l f).worlds = s.worlds := rfl
@[simp] theorem State.modLaunch_queues (s : State) (w l : Nat) (f : Launch → Launch) : (s.modLaunch w l f).queues = s.queues := rfl
@[simp] theorem State.modLaunch_ctxs (s : State) (w l : Nat) (f : Launch → Launch) : (s.modLaunch w l f).ctxs = s.ctxs := rfl
@[simp] theorem State.modLaunch_engines (s : State) (w l : Nat) (f : Launch → Launch) : (s.modLaunch w l f).engines = s.engines := rfl
@[simp] theorem State.modLaunch_sundogs (s : State) (w l : Nat) (f : Launch → Launch) : (s.modLaunch w l f).sundogs = s.sundogs := rfl
@[simp] theorem State.modLaunch_fns (s : State) (w l : Nat) (f : Launch → Launch) : (s.modLaunch w l f).fns = s.fns := rfl
@[simp] theorem State.modLaunch_hreqs (s : State) (w l : Nat) (f : Launch → Launch) : (s.modLaunch w l f).hreqs = s.hreqs := rfl
@[simp] theorem State.modLaunch_invals (s : State) (w l : Nat) (f : Launch → Launch) : (s.modLaunch w l f).invals = s.invals := rfl
@[simp] theorem State.modLaunch_ideLink (s : State) (w l : Nat) (f : Launch → Launch) : (s.modLaunch w l f).ideLink = s.ideLink := rfl
@[simp] theorem State.modLaunch_vfEnable (s : State) (w l : Nat) (f : Launch → Launch) : (s.modLaunch w l f).vfEnable = s.vfEnable := rfl
@[simp] theorem State.modLaunch_numVfs (s : State) (w l : Nat) (f : Launch → Launch) : (s.modLaunch w l f).numVfs = s.numVfs := rfl
@[simp] theorem State.modLaunch_pfBars (s : State) (w l : Nat) (f : Launch → Launch) : (s.modLaunch w l f).pfBars = s.pfBars := rfl
@[simp] theorem State.modLaunch_vfBars (s : State) (w l : Nat) (f : Launch → Launch) : (s.modLaunch w l f).vfBars = s.vfBars := rfl
@[simp] theorem State.modLaunch_memOn (s : State) (w l : Nat) (f : Launch → Launch) : (s.modLaunch w l f).memOn = s.memOn := rfl
@[simp] theorem State.modLaunch_quantum (s : State) (w l : Nat) (f : Launch → Launch) : (s.modLaunch w l f).quantum = s.quantum := rfl
@[simp] theorem State.modLaunch_ckpt (s : State) (w l : Nat) (f : Launch → Launch) : (s.modLaunch w l f).ckpt = s.ckpt := rfl
@[simp] theorem State.modLaunch_dirty (s : State) (w l : Nat) (f : Launch → Launch) : (s.modLaunch w l f).dirty = s.dirty := rfl
@[simp] theorem State.modLaunch_dirtyV (s : State) (w l : Nat) (f : Launch → Launch) : (s.modLaunch w l f).dirtyV = s.dirtyV := rfl
@[simp] theorem State.modLaunch_core (s : State) (w l : Nat) (f : Launch → Launch) : (s.modLaunch w l f).core = s.core := rfl
@[simp] theorem State.modLaunch_pcgen (s : State) (w l : Nat) (f : Launch → Launch) : (s.modLaunch w l f).pcgen = s.pcgen := rfl
@[simp] theorem State.modLaunch_wal (s : State) (w l : Nat) (f : Launch → Launch) : (s.modLaunch w l f).wal = s.wal := rfl
@[simp] theorem State.modLaunch_deferred (s : State) (w l : Nat) (f : Launch → Launch) : (s.modLaunch w l f).deferred = s.deferred := rfl
@[simp] theorem State.modLaunch_reads (s : State) (w l : Nat) (f : Launch → Launch) : (s.modLaunch w l f).reads = s.reads := rfl
@[simp] theorem State.modLaunch_deferPorts (s : State) (w l : Nat) (f : Launch → Launch) : (s.modLaunch w l f).deferPorts = s.deferPorts := rfl
@[simp] theorem State.modLaunch_fresh (s : State) (w l : Nat) (f : Launch → Launch) : (s.modLaunch w l f).fresh = s.fresh := rfl
@[simp] theorem State.modLaunch_out (s : State) (w l : Nat) (f : Launch → Launch) : (s.modLaunch w l f).out = s.out := rfl
@[simp] theorem State.modLaunch_inputs (s : State) (w l : Nat) (f : Launch → Launch) : (s.modLaunch w l f).inputs = s.inputs := rfl
@[simp] theorem State.modLaunch_work (s : State) (w l : Nat) (f : Launch → Launch) : (s.modLaunch w l f).work = s.work := rfl
@[simp] theorem State.modLaunch_parked (s : State) (w l : Nat) (f : Launch → Launch) : (s.modLaunch w l f).parked = s.parked := rfl
@[simp] theorem State.modLaunch_ev (s : State) (w l : Nat) (f : Launch → Launch) : (s.modLaunch w l f).ev = s.ev := rfl
@[simp] theorem State.modLaunch_sched (s : State) (w l : Nat) (f : Launch → Launch) : (s.modLaunch w l f).sched = s.sched := rfl
@[simp] theorem State.modLaunch_cur (s : State) (w l : Nat) (f : Launch → Launch) : (s.modLaunch w l f).cur = s.cur := rfl
@[simp] theorem State.modLaunch_issue (s : State) (w l : Nat) (f : Launch → Launch) : (s.modLaunch w l f).issue = s.issue := rfl
@[simp] theorem State.modWorld_mem (s : State) (w : Nat) (f : World → World) : (s.modWorld w f).mem = s.mem := rfl
@[simp] theorem State.modWorld_lineSlot (s : State) (w : Nat) (f : World → World) : (s.modWorld w f).lineSlot = s.lineSlot := rfl
@[simp] theorem State.modWorld_lineBad (s : State) (w : Nat) (f : World → World) : (s.modWorld w f).lineBad = s.lineBad := rfl
@[simp] theorem State.modWorld_ready (s : State) (w : Nat) (f : World → World) : (s.modWorld w f).ready = s.ready := rfl
@[simp] theorem State.modWorld_portMgrp (s : State) (w : Nat) (f : World → World) : (s.modWorld w f).portMgrp = s.portMgrp := rfl
@[simp] theorem State.modWorld_portCdie (s : State) (w : Nat) (f : World → World) : (s.modWorld w f).portCdie = s.portCdie := rfl
@[simp] theorem State.modWorld_portPlink (s : State) (w : Nat) (f : World → World) : (s.modWorld w f).portPlink = s.portPlink := rfl
@[simp] theorem State.modWorld_mlinks (s : State) (w : Nat) (f : World → World) : (s.modWorld w f).mlinks = s.mlinks := rfl
@[simp] theorem State.modWorld_plinks (s : State) (w : Nat) (f : World → World) : (s.modWorld w f).plinks = s.plinks := rfl
@[simp] theorem State.modWorld_edges (s : State) (w : Nat) (f : World → World) : (s.modWorld w f).edges = s.edges := rfl
@[simp] theorem State.modWorld_failDie (s : State) (w : Nat) (f : World → World) : (s.modWorld w f).failDie = s.failDie := rfl
@[simp] theorem State.modWorld_failClu (s : State) (w : Nat) (f : World → World) : (s.modWorld w f).failClu = s.failClu := rfl
@[simp] theorem State.modWorld_failAnvil (s : State) (w : Nat) (f : World → World) : (s.modWorld w f).failAnvil = s.failAnvil := rfl
@[simp] theorem State.modWorld_heldW (s : State) (w : Nat) (f : World → World) : (s.modWorld w f).heldW = s.heldW := rfl
@[simp] theorem State.modWorld_power (s : State) (w : Nat) (f : World → World) : (s.modWorld w f).power = s.power := rfl
@[simp] theorem State.modWorld_tripped (s : State) (w : Nat) (f : World → World) : (s.modWorld w f).tripped = s.tripped := rfl
@[simp] theorem State.modWorld_lowIntervals (s : State) (w : Nat) (f : World → World) : (s.modWorld w f).lowIntervals = s.lowIntervals := rfl
@[simp] theorem State.modWorld_monits (s : State) (w : Nat) (f : World → World) : (s.modWorld w f).monits = s.monits := rfl
@[simp] theorem State.modWorld_iod0 (s : State) (w : Nat) (f : World → World) : (s.modWorld w f).iod0 = s.iod0 := rfl
@[simp] theorem State.modWorld_iod1 (s : State) (w : Nat) (f : World → World) : (s.modWorld w f).iod1 = s.iod1 := rfl
@[simp] theorem State.modWorld_peers (s : State) (w : Nat) (f : World → World) : (s.modWorld w f).peers = s.peers := rfl
@[simp] theorem State.modWorld_remotes (s : State) (w : Nat) (f : World → World) : (s.modWorld w f).remotes = s.remotes := rfl
@[simp] theorem State.modWorld_queues (s : State) (w : Nat) (f : World → World) : (s.modWorld w f).queues = s.queues := rfl
@[simp] theorem State.modWorld_launches (s : State) (w : Nat) (f : World → World) : (s.modWorld w f).launches = s.launches := rfl
@[simp] theorem State.modWorld_ctxs (s : State) (w : Nat) (f : World → World) : (s.modWorld w f).ctxs = s.ctxs := rfl
@[simp] theorem State.modWorld_engines (s : State) (w : Nat) (f : World → World) : (s.modWorld w f).engines = s.engines := rfl
@[simp] theorem State.modWorld_sundogs (s : State) (w : Nat) (f : World → World) : (s.modWorld w f).sundogs = s.sundogs := rfl
@[simp] theorem State.modWorld_fns (s : State) (w : Nat) (f : World → World) : (s.modWorld w f).fns = s.fns := rfl
@[simp] theorem State.modWorld_hreqs (s : State) (w : Nat) (f : World → World) : (s.modWorld w f).hreqs = s.hreqs := rfl
@[simp] theorem State.modWorld_invals (s : State) (w : Nat) (f : World → World) : (s.modWorld w f).invals = s.invals := rfl
@[simp] theorem State.modWorld_ideLink (s : State) (w : Nat) (f : World → World) : (s.modWorld w f).ideLink = s.ideLink := rfl
@[simp] theorem State.modWorld_vfEnable (s : State) (w : Nat) (f : World → World) : (s.modWorld w f).vfEnable = s.vfEnable := rfl
@[simp] theorem State.modWorld_numVfs (s : State) (w : Nat) (f : World → World) : (s.modWorld w f).numVfs = s.numVfs := rfl
@[simp] theorem State.modWorld_pfBars (s : State) (w : Nat) (f : World → World) : (s.modWorld w f).pfBars = s.pfBars := rfl
@[simp] theorem State.modWorld_vfBars (s : State) (w : Nat) (f : World → World) : (s.modWorld w f).vfBars = s.vfBars := rfl
@[simp] theorem State.modWorld_memOn (s : State) (w : Nat) (f : World → World) : (s.modWorld w f).memOn = s.memOn := rfl
@[simp] theorem State.modWorld_quantum (s : State) (w : Nat) (f : World → World) : (s.modWorld w f).quantum = s.quantum := rfl
@[simp] theorem State.modWorld_ckpt (s : State) (w : Nat) (f : World → World) : (s.modWorld w f).ckpt = s.ckpt := rfl
@[simp] theorem State.modWorld_dirty (s : State) (w : Nat) (f : World → World) : (s.modWorld w f).dirty = s.dirty := rfl
@[simp] theorem State.modWorld_dirtyV (s : State) (w : Nat) (f : World → World) : (s.modWorld w f).dirtyV = s.dirtyV := rfl
@[simp] theorem State.modWorld_core (s : State) (w : Nat) (f : World → World) : (s.modWorld w f).core = s.core := rfl
@[simp] theorem State.modWorld_pcgen (s : State) (w : Nat) (f : World → World) : (s.modWorld w f).pcgen = s.pcgen := rfl
@[simp] theorem State.modWorld_wal (s : State) (w : Nat) (f : World → World) : (s.modWorld w f).wal = s.wal := rfl
@[simp] theorem State.modWorld_deferred (s : State) (w : Nat) (f : World → World) : (s.modWorld w f).deferred = s.deferred := rfl
@[simp] theorem State.modWorld_reads (s : State) (w : Nat) (f : World → World) : (s.modWorld w f).reads = s.reads := rfl
@[simp] theorem State.modWorld_deferPorts (s : State) (w : Nat) (f : World → World) : (s.modWorld w f).deferPorts = s.deferPorts := rfl
@[simp] theorem State.modWorld_fresh (s : State) (w : Nat) (f : World → World) : (s.modWorld w f).fresh = s.fresh := rfl
@[simp] theorem State.modWorld_out (s : State) (w : Nat) (f : World → World) : (s.modWorld w f).out = s.out := rfl
@[simp] theorem State.modWorld_inputs (s : State) (w : Nat) (f : World → World) : (s.modWorld w f).inputs = s.inputs := rfl
@[simp] theorem State.modWorld_work (s : State) (w : Nat) (f : World → World) : (s.modWorld w f).work = s.work := rfl
@[simp] theorem State.modWorld_parked (s : State) (w : Nat) (f : World → World) : (s.modWorld w f).parked = s.parked := rfl
@[simp] theorem State.modWorld_ev (s : State) (w : Nat) (f : World → World) : (s.modWorld w f).ev = s.ev := rfl
@[simp] theorem State.modWorld_sched (s : State) (w : Nat) (f : World → World) : (s.modWorld w f).sched = s.sched := rfl
@[simp] theorem State.modWorld_cur (s : State) (w : Nat) (f : World → World) : (s.modWorld w f).cur = s.cur := rfl
@[simp] theorem State.modWorld_issue (s : State) (w : Nat) (f : World → World) : (s.modWorld w f).issue = s.issue := rfl
@[simp] theorem State.modQueue_mem (s : State) (q : Nat) (f : Queue → Queue) : (s.modQueue q f).mem = s.mem := rfl
@[simp] theorem State.modQueue_lineSlot (s : State) (q : Nat) (f : Queue → Queue) : (s.modQueue q f).lineSlot = s.lineSlot := rfl
@[simp] theorem State.modQueue_lineBad (s : State) (q : Nat) (f : Queue → Queue) : (s.modQueue q f).lineBad = s.lineBad := rfl
@[simp] theorem State.modQueue_ready (s : State) (q : Nat) (f : Queue → Queue) : (s.modQueue q f).ready = s.ready := rfl
@[simp] theorem State.modQueue_portMgrp (s : State) (q : Nat) (f : Queue → Queue) : (s.modQueue q f).portMgrp = s.portMgrp := rfl
@[simp] theorem State.modQueue_portCdie (s : State) (q : Nat) (f : Queue → Queue) : (s.modQueue q f).portCdie = s.portCdie := rfl
@[simp] theorem State.modQueue_portPlink (s : State) (q : Nat) (f : Queue → Queue) : (s.modQueue q f).portPlink = s.portPlink := rfl
@[simp] theorem State.modQueue_mlinks (s : State) (q : Nat) (f : Queue → Queue) : (s.modQueue q f).mlinks = s.mlinks := rfl
@[simp] theorem State.modQueue_plinks (s : State) (q : Nat) (f : Queue → Queue) : (s.modQueue q f).plinks = s.plinks := rfl
@[simp] theorem State.modQueue_edges (s : State) (q : Nat) (f : Queue → Queue) : (s.modQueue q f).edges = s.edges := rfl
@[simp] theorem State.modQueue_failDie (s : State) (q : Nat) (f : Queue → Queue) : (s.modQueue q f).failDie = s.failDie := rfl
@[simp] theorem State.modQueue_failClu (s : State) (q : Nat) (f : Queue → Queue) : (s.modQueue q f).failClu = s.failClu := rfl
@[simp] theorem State.modQueue_failAnvil (s : State) (q : Nat) (f : Queue → Queue) : (s.modQueue q f).failAnvil = s.failAnvil := rfl
@[simp] theorem State.modQueue_heldW (s : State) (q : Nat) (f : Queue → Queue) : (s.modQueue q f).heldW = s.heldW := rfl
@[simp] theorem State.modQueue_power (s : State) (q : Nat) (f : Queue → Queue) : (s.modQueue q f).power = s.power := rfl
@[simp] theorem State.modQueue_tripped (s : State) (q : Nat) (f : Queue → Queue) : (s.modQueue q f).tripped = s.tripped := rfl
@[simp] theorem State.modQueue_lowIntervals (s : State) (q : Nat) (f : Queue → Queue) : (s.modQueue q f).lowIntervals = s.lowIntervals := rfl
@[simp] theorem State.modQueue_monits (s : State) (q : Nat) (f : Queue → Queue) : (s.modQueue q f).monits = s.monits := rfl
@[simp] theorem State.modQueue_iod0 (s : State) (q : Nat) (f : Queue → Queue) : (s.modQueue q f).iod0 = s.iod0 := rfl
@[simp] theorem State.modQueue_iod1 (s : State) (q : Nat) (f : Queue → Queue) : (s.modQueue q f).iod1 = s.iod1 := rfl
@[simp] theorem State.modQueue_peers (s : State) (q : Nat) (f : Queue → Queue) : (s.modQueue q f).peers = s.peers := rfl
@[simp] theorem State.modQueue_remotes (s : State) (q : Nat) (f : Queue → Queue) : (s.modQueue q f).remotes = s.remotes := rfl
@[simp] theorem State.modQueue_worlds (s : State) (q : Nat) (f : Queue → Queue) : (s.modQueue q f).worlds = s.worlds := rfl
@[simp] theorem State.modQueue_launches (s : State) (q : Nat) (f : Queue → Queue) : (s.modQueue q f).launches = s.launches := rfl
@[simp] theorem State.modQueue_ctxs (s : State) (q : Nat) (f : Queue → Queue) : (s.modQueue q f).ctxs = s.ctxs := rfl
@[simp] theorem State.modQueue_engines (s : State) (q : Nat) (f : Queue → Queue) : (s.modQueue q f).engines = s.engines := rfl
@[simp] theorem State.modQueue_sundogs (s : State) (q : Nat) (f : Queue → Queue) : (s.modQueue q f).sundogs = s.sundogs := rfl
@[simp] theorem State.modQueue_fns (s : State) (q : Nat) (f : Queue → Queue) : (s.modQueue q f).fns = s.fns := rfl
@[simp] theorem State.modQueue_hreqs (s : State) (q : Nat) (f : Queue → Queue) : (s.modQueue q f).hreqs = s.hreqs := rfl
@[simp] theorem State.modQueue_invals (s : State) (q : Nat) (f : Queue → Queue) : (s.modQueue q f).invals = s.invals := rfl
@[simp] theorem State.modQueue_ideLink (s : State) (q : Nat) (f : Queue → Queue) : (s.modQueue q f).ideLink = s.ideLink := rfl
@[simp] theorem State.modQueue_vfEnable (s : State) (q : Nat) (f : Queue → Queue) : (s.modQueue q f).vfEnable = s.vfEnable := rfl
@[simp] theorem State.modQueue_numVfs (s : State) (q : Nat) (f : Queue → Queue) : (s.modQueue q f).numVfs = s.numVfs := rfl
@[simp] theorem State.modQueue_pfBars (s : State) (q : Nat) (f : Queue → Queue) : (s.modQueue q f).pfBars = s.pfBars := rfl
@[simp] theorem State.modQueue_vfBars (s : State) (q : Nat) (f : Queue → Queue) : (s.modQueue q f).vfBars = s.vfBars := rfl
@[simp] theorem State.modQueue_memOn (s : State) (q : Nat) (f : Queue → Queue) : (s.modQueue q f).memOn = s.memOn := rfl
@[simp] theorem State.modQueue_quantum (s : State) (q : Nat) (f : Queue → Queue) : (s.modQueue q f).quantum = s.quantum := rfl
@[simp] theorem State.modQueue_ckpt (s : State) (q : Nat) (f : Queue → Queue) : (s.modQueue q f).ckpt = s.ckpt := rfl
@[simp] theorem State.modQueue_dirty (s : State) (q : Nat) (f : Queue → Queue) : (s.modQueue q f).dirty = s.dirty := rfl
@[simp] theorem State.modQueue_dirtyV (s : State) (q : Nat) (f : Queue → Queue) : (s.modQueue q f).dirtyV = s.dirtyV := rfl
@[simp] theorem State.modQueue_core (s : State) (q : Nat) (f : Queue → Queue) : (s.modQueue q f).core = s.core := rfl
@[simp] theorem State.modQueue_pcgen (s : State) (q : Nat) (f : Queue → Queue) : (s.modQueue q f).pcgen = s.pcgen := rfl
@[simp] theorem State.modQueue_wal (s : State) (q : Nat) (f : Queue → Queue) : (s.modQueue q f).wal = s.wal := rfl
@[simp] theorem State.modQueue_deferred (s : State) (q : Nat) (f : Queue → Queue) : (s.modQueue q f).deferred = s.deferred := rfl
@[simp] theorem State.modQueue_reads (s : State) (q : Nat) (f : Queue → Queue) : (s.modQueue q f).reads = s.reads := rfl
@[simp] theorem State.modQueue_deferPorts (s : State) (q : Nat) (f : Queue → Queue) : (s.modQueue q f).deferPorts = s.deferPorts := rfl
@[simp] theorem State.modQueue_fresh (s : State) (q : Nat) (f : Queue → Queue) : (s.modQueue q f).fresh = s.fresh := rfl
@[simp] theorem State.modQueue_out (s : State) (q : Nat) (f : Queue → Queue) : (s.modQueue q f).out = s.out := rfl
@[simp] theorem State.modQueue_inputs (s : State) (q : Nat) (f : Queue → Queue) : (s.modQueue q f).inputs = s.inputs := rfl
@[simp] theorem State.modQueue_work (s : State) (q : Nat) (f : Queue → Queue) : (s.modQueue q f).work = s.work := rfl
@[simp] theorem State.modQueue_parked (s : State) (q : Nat) (f : Queue → Queue) : (s.modQueue q f).parked = s.parked := rfl
@[simp] theorem State.modQueue_ev (s : State) (q : Nat) (f : Queue → Queue) : (s.modQueue q f).ev = s.ev := rfl
@[simp] theorem State.modQueue_sched (s : State) (q : Nat) (f : Queue → Queue) : (s.modQueue q f).sched = s.sched := rfl
@[simp] theorem State.modQueue_cur (s : State) (q : Nat) (f : Queue → Queue) : (s.modQueue q f).cur = s.cur := rfl
@[simp] theorem State.modQueue_issue (s : State) (q : Nat) (f : Queue → Queue) : (s.modQueue q f).issue = s.issue := rfl

/-! ## Records after writes -/

@[simp] theorem State.ctx_putCtx (s : State) (w k : Nat) (c : Ctx) (w' k' : Nat) :
    (s.putCtx w k c).ctx w' k' = if ctxKey w' k' = ctxKey w k then c else s.ctx w' k' := by
  simp [State.ctx, State.putCtx]

theorem State.ctx_putCtx_same (s : State) (w k : Nat) (c : Ctx) : (s.putCtx w k c).ctx w k = c := by simp

@[simp] theorem State.launch_putCtx (s : State) (w k : Nat) (c : Ctx) (w' l : Nat) :
    (s.putCtx w k c).launch w' l = s.launch w' l := rfl

@[simp] theorem State.launch_modLaunch (s : State) (w l : Nat) (f : Launch → Launch) (w' l' : Nat) :
    (s.modLaunch w l f).launch w' l' =
      if launchKey w' l' = launchKey w l then f (s.launch w l) else s.launch w' l' := by
  simp [State.launch, State.modLaunch]

@[simp] theorem State.ctx_modLaunch (s : State) (w l : Nat) (f : Launch → Launch) (w' k : Nat) :
    (s.modLaunch w l f).ctx w' k = s.ctx w' k := rfl

@[simp] theorem State.world_modWorld (s : State) (w : Nat) (f : World → World) (w' : Nat) :
    (s.modWorld w f).world w' = if w' = w then f (s.world w) else s.world w' := by
  simp [State.world, State.modWorld]

@[simp] theorem State.world_putCtx (s : State) (w k : Nat) (c : Ctx) (w' : Nat) :
    (s.putCtx w k c).world w' = s.world w' := rfl

@[simp] theorem State.queue_modQueue (s : State) (q : Nat) (f : Queue → Queue) (q' : Nat) :
    (s.modQueue q f).queue q' = if q' = q then f (s.queue q) else s.queue q' := by
  simp [State.queue, State.modQueue]

@[simp] theorem State.engine_modEngine (s : State) (w c : Nat) (f : Engine → Engine) (w' c' : Nat) :
    (s.modEngine w c f).engine w' c' =
      if engineKey w' c' = engineKey w c then f (s.engine w c) else s.engine w' c' := by
  simp [State.engine, State.modEngine]

@[simp] theorem State.fn_modFn (s : State) (n : Nat) (f : Fn → Fn) (m : Nat) :
    (s.modFn n f).fn m = if m = n then f (s.fn n) else s.fn m := by
  simp [State.fn, State.modFn]

@[simp] theorem State.pow_modPow (s : State) (n : Nat) (f : Power → Power) (m : Nat) :
    (s.modPow n f).pow m = if m = n then f (s.pow n) else s.pow m := by
  simp [State.pow, State.modPow]

@[simp] theorem State.monit_modMonit (s : State) (n : Nat) (f : Monit → Monit) (m : Nat) :
    (s.modMonit n f).monit m = if m = n then f (s.monit n) else s.monit m := by
  simp [State.monit, State.modMonit]

@[simp] theorem State.peer_modPeer (s : State) (n : Nat) (f : Peer → Peer) (m : Nat) :
    (s.modPeer n f).peer m = if m = n then f (s.peer n) else s.peer m := by
  simp [State.peer, State.modPeer]

@[simp] theorem State.mlink_modMlink (s : State) (n : Nat) (f : Link → Link) (m : Nat) :
    (s.modMlink n f).mlink m = if m = n then f (s.mlink n) else s.mlink m := by
  simp [State.mlink, State.modMlink]

@[simp] theorem State.plink_modPlink (s : State) (n : Nat) (f : Link → Link) (m : Nat) :
    (s.modPlink n f).plink m = if m = n then f (s.plink n) else s.plink m := by
  simp [State.plink, State.modPlink]

/-! ## The strand in turn -/

@[simp] theorem State.me_putCtx_cur (s : State) (c : Ctx) : (s.putCtx s.cur.1 s.cur.2 c).me = c := by
  simp [State.me]

@[simp] theorem State.me_modLaunch (s : State) (w l : Nat) (f : Launch → Launch) : (s.modLaunch w l f).me = s.me := rfl

@[simp] theorem State.onStrand_cur (s : State) (f : Strand → Strand) : (s.onStrand f).cur = s.cur := rfl

@[simp] theorem State.strand_onStrand (s : State) (f : Strand → Strand) : (s.onStrand f).strand = f s.strand := by
  simp [State.strand, State.onStrand, State.modStrand, State.modCtx, State.me]

@[simp] theorem State.me_onStrand (s : State) (f : Strand → Strand) :
    (s.onStrand f).me = { s.me with strand := f s.strand } := by
  simp [State.strand, State.onStrand, State.modStrand, State.modCtx, State.me]

/-- x0 reads zero (09 R160). -/
@[simp] theorem Strand.rx_zero (t : Strand) : t.rx 0 = 0 := rfl

/-- A register that has been written reads as written; x0 discards the write (13 R252). -/
@[simp] theorem Strand.rx_wx (t : Strand) (n : Nat) (v : Word) (m : Nat) :
    (t.wx n v).rx m = if m = n ∧ m ≠ 0 then v else t.rx m := by
  unfold Strand.wx Strand.rx
  by_cases hn : n = 0
  · subst hn
    by_cases hm : m = 0 <;> simp [hm]
  · by_cases hm : m = 0
    · simp [hm, Ne.symm hn]
    · simp [hn, hm]

/-- A register write changes the x registers alone. -/
theorem Strand.wx_frame (t : Strand) (n : Nat) (v : Word) : t.wx n v = { t with x := (t.wx n v).x } := by
  unfold Strand.wx; split <;> rfl

/-- A launch's visit set is all that a strand's progress changes (08 R152). -/
theorem State.progress_frame (s : State) (w l : Nat) :
    s.progress w l = { s with launches := (s.progress w l).launches } ∧
      ∀ w' l', (s.progress w l).launch w' l' = { s.launch w' l' with visited := ((s.progress w l).launch w' l').visited } := by
  unfold State.progress
  split
  · exact ⟨rfl, fun _ _ => rfl⟩
  · refine ⟨rfl, fun w' l' => ?_⟩
    rw [State.launch_modLaunch]
    split
    · rename_i h
      have : s.launch w' l' = s.launch w l := by simp [State.launch, h]
      rw [this]
    · rfl

end Sys2Proof.Machine
end

