-- ==== Sys2Proof/Laws/Ops.lean ====
section
/-!
SUPPORT. What the shared operations of the machine do, each said once: retiring with a register result, waking lines,
changing STATE, and taking a fault.
-/

namespace Sys2Proof.Machine

/-! ## Waking -/

@[simp] theorem Strand.touch_zero (l0 l1 w : Nat) : Strand.zero.touch l0 l1 w = Strand.zero := rfl

/-- A touched strand differs in its reservation and its monitor alone. -/
theorem Strand.touch_frame (l0 l1 w : Nat) (t : Strand) :
    t.touch l0 l1 w = { t with resv := (t.touch l0 l1 w).resv, mon := (t.touch l0 l1 w).mon } := rfl

@[simp] theorem ctx_touchLines (s : State) (l0 l1 v w k : Nat) :
    (touchLines s l0 l1 v).ctx w k = { s.ctx w k with strand := (s.ctx w k).strand.touch l0 l1 v } := by
  simp only [touchLines, State.ctx]
  rw [tget_map Ctx.zero (fun c : Ctx => { c with strand := c.strand.touch l0 l1 v }) rfl]

/-- A queue that a write's line may concern is as before but for whether its WAITVALUE has found its test true. -/
theorem Queue.retest_same (s : State) (l0 l1 : Nat) (x : Queue) : SameQueue x (x.retest s l0 l1) := by
  unfold Queue.retest
  split
  · rename_i p hp
    split
    · exact ⟨_, rfl, .inr ⟨p, _, hp, rfl⟩⟩
    · exact ⟨x.cur, rfl, .inl rfl⟩
  · exact ⟨x.cur, rfl, .inl rfl⟩

theorem SameQueue.refl (x : Queue) : SameQueue x x := ⟨x.cur, rfl, .inl rfl⟩

theorem SameQueue.trans {x y z : Queue} (h : SameQueue x y) (g : SameQueue y z) : SameQueue x z := by
  obtain ⟨c, rfl, hc⟩ := h
  obtain ⟨d, rfl, hd⟩ := g
  refine ⟨d, rfl, ?_⟩
  rcases hd with rfl | ⟨p, b, hp, rfl⟩
  · exact hc
  · obtain rfl | ⟨p', b', hp', rfl⟩ := hc
    · exact .inr ⟨p, b, hp, rfl⟩
    · cases hp
      exact .inr ⟨p', b, hp', rfl⟩

@[simp] theorem queue_touchLines (s : State) (l0 l1 v q : Nat) :
    (touchLines s l0 l1 v).queue q = (s.queue q).retest s l0 l1 := by
  simp only [touchLines, State.queue]
  rw [tget_map Queue.zero (fun x : Queue => x.retest s l0 l1) rfl]

/-- Waking lines changes contexts' reservations and monitors and the tests of WAITVALUEs, and adds follow-up steps. -/
theorem touchLines_frame (s : State) (l0 l1 v : Nat) :
    touchLines s l0 l1 v =
      { s with ctxs := (touchLines s l0 l1 v).ctxs, queues := (touchLines s l0 l1 v).queues
               work := s.work ++ wakes s l0 l1 v } := rfl

/-- Trying the oldest step that waits for the policy core adds it to the work, at most. -/
theorem drain_frame (s : State) : ∃ ev, s.drain = { s with work := s.work ++ ev } := by
  unfold State.drain
  split
  · split
    · exact ⟨_, rfl⟩
    · exact ⟨[], by simp⟩
  · exact ⟨[], by simp⟩

@[simp] theorem ctx_drain (s : State) (w k : Nat) : s.drain.ctx w k = s.ctx w k := by
  obtain ⟨ev, h⟩ := drain_frame s; rw [h]; rfl
@[simp] theorem queue_drain (s : State) (q : Nat) : s.drain.queue q = s.queue q := by
  obtain ⟨ev, h⟩ := drain_frame s; rw [h]; rfl

@[simp] theorem launch_touchLines (s : State) (l0 l1 v w l : Nat) :
    (touchLines s l0 l1 v).launch w l = s.launch w l := rfl

/-- What a change of STATE does to a context. -/
theorem ctx_setCtxState (s : State) (w k : Nat) (st : CtxState) (w' k' : Nat) :
    (s.setCtxState w k st).ctx w' k' =
      (let c := if ctxKey w' k' = ctxKey w k then { s.ctx w k with state := st } else s.ctx w' k'
       { c with strand := c.strand.touch (pagePA 4 k 0 / 64) (pagePA 4 k 0 / 64) (if instanced 4 then w else 0) }) := by
  simp only [State.setCtxState, ctx_drain, wakePage, ctx_touchLines, State.modCtx, State.ctx_putCtx]

/-- A change of STATE changes the contexts and the tests of WAITVALUEs and adds follow-up steps, and nothing else. -/
theorem setCtxState_frame (s : State) (w k : Nat) (st : CtxState) :
    (∃ ev, s.setCtxState w k st = { s with
      ctxs := (s.setCtxState w k st).ctxs, queues := (s.setCtxState w k st).queues, work := s.work ++ ev }) ∧
    ∀ q, SameQueue (s.queue q) ((s.setCtxState w k st).queue q) := by
  simp only [State.setCtxState]
  obtain ⟨ev, h⟩ := drain_frame (wakePage (s.modCtx w k fun c => { c with state := st }) w 4 k 0)
  refine ⟨?_, fun q => ?_⟩
  · rw [h]
    refine ⟨wakes (s.modCtx w k fun c => { c with state := st }) (pagePA 4 k 0 / 64) (pagePA 4 k 0 / 64)
      (if instanced 4 then w else 0) ++ ev, ?_⟩
    rw [← List.append_assoc]
    rfl
  · rw [queue_drain, wakePage, queue_touchLines]
    exact Queue.retest_same _ _ _ _

/-! ## The policy core's work (06 R125) -/

/-- A step that needs the policy core and must wait joins those that wait. -/
theorem serve_mustWait (s : State) (f : State → State) (h : MustWait s) :
    s.serve f = { s with deferred := s.deferred ++ [.ev s.ev] } := by
  rcases h with h | ⟨x, r, h, hx⟩
  · simp [State.serve, h]
  · simp [State.serve, h, hx]

/-- A step that may go goes; those that wait after it follow. -/
theorem serve_mayGo (s : State) (f : State → State) (r : List Waiter) (h : MayGo s r) :
    s.serve f = if s.waiting = [] then f { s with deferred := [] } else (f { s with deferred := r }).drain := by
  obtain ⟨hu, ⟨hw, -⟩ | hw⟩ := h <;> simp [State.serve, hu, hw]

/-! ## Retiring -/

/-- A register result retires: everything that `setReg` does. -/
theorem setReg_spec (s : State) (rd : Nat) (v : Word) :
    ∃ t, setReg s rd v = .next t ∧ t.cur = s.cur ∧
      t = { s with ctxs := t.ctxs, launches := t.launches } ∧
      (∀ w k, ctxKey w k ≠ ctxKey s.cur.1 s.cur.2 → t.ctx w k = s.ctx w k) ∧
      t.me = { s.me with strand := { (s.strand.wx rd v) with pc := s.pc + 4 } } ∧
      ∀ w l, t.launch w l = { s.launch w l with visited := (t.launch w l).visited } := by
  refine ⟨_, rfl, ?_⟩
  have hp := State.progress_frame
  simp only [State.advance, State.retire, State.wx]
  refine ⟨?_, ?_, ?_, ?_, ?_⟩
  · rw [(hp _ _ _).1]; rfl
  · rw [(hp _ _ _).1]; rfl
  · intro w k hk
    rw [(hp _ _ _).1]
    simp [State.onStrand, State.modStrand, State.modCtx, State.ctx, State.putCtx, hk]
  · rw [(hp _ _ _).1]
    simp [State.onStrand, State.modStrand, State.modCtx, State.ctx, State.putCtx, State.me, State.strand, State.pc,
      Strand.wx]
    split <;> simp
  · intro w l
    rw [(hp _ _ _).2]
    rfl

/-! ## Faults -/

/-- A context that can take faults halts, reads STOPPING and keeps the record to come, and its save is due. -/
theorem takeFault_live (s : State) (w k : Nat) (f : FaultRec) (hf : f.cause ≠ .tagfail)
    (hl : (s.ctx w k).state.live = true) :
    (∃ ev, takeFault s w k f = { s with
        ctxs := (takeFault s w k f).ctxs, queues := (takeFault s w k f).queues
        work := s.work ++ ev ++ event .contextSaved [w, k] :: (s.ctx w k).freed (ctxKey w k) }) ∧
      (∀ q, SameQueue (s.queue q) ((takeFault s w k f).queue q)) ∧
      ∀ w' k', (takeFault s w k f).ctx w' k' =
        (let c := if ctxKey w' k' = ctxKey w k then { (s.ctx w k).halt with fault := some f, state := .stopping }
                  else s.ctx w' k'
         { c with strand := c.strand.touch (pagePA 4 k 0 / 64) (pagePA 4 k 0 / 64) (if instanced 4 then w else 0) }) := by
  have e : takeFault s w k f =
      (let s1 := (s.putCtx w k { (s.ctx w k).halt with fault := some f }).setCtxState w k .stopping
       { s1 with work := s1.work ++ event .contextSaved [w, k] :: (s.ctx w k).freed (ctxKey w k) }) := by
    simp [takeFault, hf, hl]
  rw [e]
  obtain ⟨⟨ev, h⟩, hq⟩ := setCtxState_frame (s.putCtx w k { (s.ctx w k).halt with fault := some f }) w k .stopping
  refine ⟨⟨ev, ?_⟩, hq, fun w' k' => ?_⟩
  · simp only []
    rw [h]; rfl
  · show ((s.putCtx w k { (s.ctx w k).halt with fault := some f }).setCtxState w k .stopping).ctx w' k' = _
    rw [ctx_setCtxState]
    simp only [State.ctx_putCtx, if_true]
    split <;> rfl

/-- A context that takes no fault is left as it is. -/
theorem takeFault_not_live (s : State) (w k : Nat) (f : FaultRec) (hf : f.cause ≠ .tagfail)
    (hl : (s.ctx w k).state.live = false) : takeFault s w k f = s := by
  simp [takeFault, hf, hl]

end Sys2Proof.Machine
end

