-- ==== Sys2Proof/Laws/Memory.lean ====
section
/-!
SUPPORT. What a write leaves in memory: every byte, as any party reads it, and the rest of the machine.
-/

namespace Sys2Proof.Machine

variable {α : Type}

/-! ## Tables laid side by side -/

theorem tget_not_listed (d : α) (t : Tbl α) (j : Nat) (h : ∀ e ∈ t, e.1 ≠ j) : tget d t j = d := by
  induction t with
  | nil => rfl
  | cons e t ih =>
    obtain ⟨i, w⟩ := e
    have hi : i ≠ j := h (i, w) List.mem_cons_self
    simp only [tget, if_neg hi]
    exact ih fun e he => h e (List.mem_cons_of_mem _ he)

theorem tget_append_right (d : α) (a b : Tbl α) (j : Nat) (h : ∀ e ∈ a, e.1 ≠ j) :
    tget d (a ++ b) j = tget d b j := by
  induction a with
  | nil => rfl
  | cons e a ih =>
    obtain ⟨i, w⟩ := e
    have hi : i ≠ j := h (i, w) List.mem_cons_self
    simp only [List.cons_append, tget, if_neg hi]
    exact ih fun e he => h e (List.mem_cons_of_mem _ he)

theorem tget_append_left (d : α) (a b : Tbl α) (j : Nat) (h : ∀ e ∈ b, e.1 ≠ j) :
    tget d (a ++ b) j = tget d a j := by
  induction a with
  | nil => exact tget_not_listed d b j h
  | cons e a ih =>
    obtain ⟨i, w⟩ := e
    simp only [List.cons_append, tget, ih]

theorem tget_shift (d : α) (lo : Nat) (t : Tbl α) (j : Nat) (h : lo ≤ j) :
    tget d (t.map fun e => (lo + e.1, e.2)) j = tget d t (j - lo) := by
  induction t with
  | nil => rfl
  | cons e t ih =>
    obtain ⟨i, w⟩ := e
    simp only [List.map_cons, tget, ih]
    by_cases hj : lo + i = j
    · rw [if_pos hj, if_pos (by omega)]
    · rw [if_neg hj, if_neg (by omega)]

/-- A byte of a memory of which one run has been replaced. -/
theorem tget_putCells (lo : Nat) (bs : List Byte) (m : Tbl Byte) (a : Nat) :
    tget 0 (putCells lo bs.length (trun 0 0 bs) m) a =
      if lo ≤ a ∧ a < lo + bs.length then nth 0 bs (a - lo) else tget 0 m a := by
  have keys : ∀ e ∈ (trun 0 0 bs).map (fun e => (lo + e.1, e.2)), lo ≤ e.1 ∧ e.1 < lo + bs.length := by
    intro e he
    obtain ⟨f, hf, rfl⟩ := List.mem_map.mp he
    have := mem_trun 0 0 bs f hf
    simp only; omega
  simp only [putCells, canonCells_trun]
  rcases Nat.lt_or_ge a lo with h | h
  · rw [if_neg (by omega), tget_append_left, tget_append_left, tget_filter 0 (fun i => decide (i < lo)), if_pos (by simpa)]
    · intro e he hea; have := keys e he; omega
    · intro e he hea
      have := (List.mem_filter.mp he).2
      simp only [decide_eq_true_eq] at this; omega
  · have below : ∀ e ∈ m.filter (fun e => decide (e.1 < lo)), e.1 ≠ a := by
      intro e he hea
      have := (List.mem_filter.mp he).2
      simp only [decide_eq_true_eq] at this; omega
    rw [List.append_assoc, tget_append_right _ _ _ _ below]
    rcases Nat.lt_or_ge a (lo + bs.length) with h' | h'
    · rw [if_pos ⟨h, h'⟩, tget_append_left, tget_shift _ _ _ _ h, tget_trun]
      · simp only [Nat.zero_le, if_true, Nat.sub_zero, nth]
      intro e he hea
      have := (List.mem_filter.mp he).2
      simp only [decide_eq_true_eq] at this; omega
    · rw [if_neg (by omega), tget_append_right, tget_filter 0 (fun i => decide (lo + bs.length ≤ i)), if_pos (by simpa)]
      intro e he hea; have := keys e he; omega

/-! ## What a write leaves -/

/-- The key slot of a line after a write. -/
theorem slotOf_retag (s : State) (slot pa n l : Nat) (hm : isMem pa = true) :
    slotOf (retag s slot pa n).lineSlot l =
      if pa / 64 ≤ l ∧ l < (pa + n + 63) / 64 then slot else slotOf s.lineSlot l := by
  have foreign : (foreignLines s slot pa n).isEmpty = true →
      ∀ l, pa / 64 ≤ l → l < (pa + n + 63) / 64 → slotOf s.lineSlot l = slot := by
    intro h l h1 h2
    simp only [foreignLines, hm, if_true, List.isEmpty_iff, List.filter_eq_nil_iff, bne_iff_ne, ne_eq, Decidable.not_not] at h
    exact h l (List.mem_map.mpr ⟨l - pa / 64, List.mem_range.mpr (by omega), by omega⟩)
  simp only [retag, hm, if_true]
  split
  · rename_i h
    split
    · rename_i hl; exact foreign h l hl.1 hl.2
    · rfl
  · rw [slotOf]
    by_cases hl : pa / 64 ≤ l ∧ l < (pa + n + 63) / 64
    · rw [if_pos hl, if_pos (by omega)]
    · rw [if_neg hl, if_neg (by omega)]

theorem tget_clearForeign (s : State) (slot pa n a : Nat) :
    tget 0 (clearForeign s slot pa n) a = if a / 64 ∈ foreignLines s slot pa n then 0 else tget 0 s.mem a := by
  unfold clearForeign
  generalize foreignLines s slot pa n = ls
  generalize s.mem = m
  induction ls generalizing m with
  | nil => simp
  | cons l ls ih =>
    simp only [List.foldl_cons, ih, tget_terase, List.mem_cons]
    by_cases h : a / 64 ∈ ls
    · simp [h]
    · by_cases hl : a / 64 = l
      · rw [if_neg h, if_pos (by omega), if_pos (.inl hl)]
      · rw [if_neg h, if_neg (by omega), if_neg (by simp [h, hl])]

theorem mem_foreignLines (s : State) (slot pa n l : Nat) (hm : isMem pa = true) :
    l ∈ foreignLines s slot pa n ↔ (pa / 64 ≤ l ∧ l < (pa + n + 63) / 64) ∧ slotOf s.lineSlot l ≠ slot := by
  simp only [foreignLines, hm, if_true, List.mem_filter, bne_iff_ne, ne_eq, linesOf, rangeFrom, List.mem_map,
    List.mem_range]
  constructor
  · rintro ⟨⟨i, hi, rfl⟩, h⟩; exact ⟨by omega, h⟩
  · rintro ⟨h, h'⟩; exact ⟨⟨l - pa / 64, by omega, by omega⟩, h'⟩

theorem performCells_lineSlot (s : State) (slot pa n : Nat) (cells : Tbl Byte) (hn : n ≠ 0) :
    (performCells s slot pa n cells).lineSlot = (retag s slot pa n).lineSlot := by
  simp only [performCells, if_neg hn, touchLines, markDirty, retag]
  split <;> split <;> rfl

/-- A byte after a write to memory, as any party reads it: the bytes written, for a party of the writer's key slot; zero,
for any other party on the lines written; in those lines, what the writer read there before; elsewhere, what it was. -/
theorem readByte_performWrite (s : State) (slot pa : Nat) (bs : List Byte) (hn : bs ≠ []) (hm : pa + bs.length ≤ 2 ^ 51)
    (slot' a : Nat) :
    readByte (performWrite s slot pa bs) slot' a =
      if pa / 64 ≤ a / 64 ∧ a / 64 < (pa + bs.length + 63) / 64 then
        (if slot = slot' then (if pa ≤ a ∧ a < pa + bs.length then nth 0 bs (a - pa) else readByte s slot a) else 0)
      else readByte s slot' a := by
  have hl : bs.length ≠ 0 := by simpa using hn
  have hp : isMem pa = true := by simp only [isMem, decide_eq_true_eq]; omega
  have hcl : tget 0 (clearForeign s slot pa bs.length) a =
      if (pa / 64 ≤ a / 64 ∧ a / 64 < (pa + bs.length + 63) / 64) ∧ slotOf s.lineSlot (a / 64) ≠ slot then 0
      else tget 0 s.mem a := by
    rw [tget_clearForeign]; simp only [mem_foreignLines s slot pa bs.length _ hp]
  simp only [readByte, performWrite, performCells_mem _ _ _ _ _ hl, performCells_lineSlot _ _ _ _ _ hl, tget_putCells,
    slotOf_retag _ _ _ _ _ hp, hcl]
  by_cases h : pa / 64 ≤ a / 64 ∧ a / 64 < (pa + bs.length + 63) / 64
  · have ha : isMem a = true := by simp only [isMem, decide_eq_true_eq]; omega
    simp only [h, ha, and_self, if_true, Bool.true_and, true_and, bne_iff_ne, ne_eq, ite_not]
  · have hw : ¬ (pa ≤ a ∧ a < pa + bs.length) := by omega
    simp only [h, hw, if_false, false_and]

/-- A byte after a write outside the memory region, which has no line tags. -/
theorem readByte_performWrite_off (s : State) (slot pa : Nat) (bs : List Byte) (hm : 2 ^ 51 ≤ pa) (slot' a : Nat) :
    readByte (performWrite s slot pa bs) slot' a =
      if pa ≤ a ∧ a < pa + bs.length then nth 0 bs (a - pa) else readByte s slot' a := by
  by_cases hn : bs = []
  · subst hn; simp only [List.length_nil, Nat.add_zero]; rw [if_neg (by omega)]; rfl
  · have hl : bs.length ≠ 0 := by simpa using hn
    have hp : isMem pa = false := by simp only [isMem, decide_eq_false_iff_not]; omega
    have h1 : (performCells s slot pa bs.length (trun 0 0 bs)).lineSlot = s.lineSlot := by
      simp only [performCells_lineSlot _ _ _ _ _ hl, retag, hp]; rfl
    have h2 : clearForeign s slot pa bs.length = s.mem := by simp [clearForeign, foreignLines, hp]
    simp only [readByte, performWrite, h1, performCells_mem _ _ _ _ _ hl, h2, tget_putCells]
    by_cases h : pa ≤ a ∧ a < pa + bs.length
    · have : isMem a = false := by simp only [isMem, decide_eq_false_iff_not]; omega
      simp [h, this]
    · simp only [if_neg h]

/-- A write that does not cross the end of memory leaves the bytes written and no other change (05 R105). -/
theorem performWrite_bytesWritten (s : State) (slot pa : Nat) (bs : List Byte)
    (hm : pa + bs.length ≤ 2 ^ 51 ∨ 2 ^ 51 ≤ pa) : BytesWritten s (performWrite s slot pa bs) slot pa bs := by
  intro a
  rcases hm with hm | hm
  · by_cases hn : bs = []
    · subst hn
      simp only [List.length_nil, Nat.add_zero]
      rw [if_neg (by omega)]
      rfl
    · rw [readByte_performWrite s slot pa bs hn hm, if_pos rfl]
      have hl : bs.length ≠ 0 := by simpa using hn
      by_cases h : pa / 64 ≤ a / 64 ∧ a / 64 < (pa + bs.length + 63) / 64
      · rw [if_pos h]
      · rw [if_neg h, if_neg (by omega)]
  · exact readByte_performWrite_off s slot pa bs hm slot a

/-- No party reads a change outside the lines of a write. -/
theorem performWrite_otherLines (s : State) (slot pa : Nat) (bs : List Byte)
    (hm : pa + bs.length ≤ 2 ^ 51 ∨ 2 ^ 51 ≤ pa) : OtherLines s (performWrite s slot pa bs) pa bs.length := by
  intro slot' a ha
  by_cases hn : bs = []
  · subst hn; rfl
  · have hl : bs.length ≠ 0 := by simpa using hn
    rcases hm with hm | hm
    · rw [readByte_performWrite s slot pa bs hn hm, if_neg (by omega)]
    · rw [readByte_performWrite_off s slot pa bs hm, if_neg (by omega)]

/-! ## Numbers in memory -/

@[simp] theorem bytesOf_length (n v : Nat) : (bytesOf n v).length = n := by
  induction n generalizing v with
  | zero => rfl
  | succ n ih => simp [bytesOf, ih]

theorem natOf_bytesOf (n v : Nat) : natOf (bytesOf n v) = v % 2 ^ (8 * n) := by
  induction n generalizing v with
  | zero => simp [bytesOf, natOf, Nat.mod_one]
  | succ n ih =>
    have e : 2 ^ (8 * (n + 1)) = 256 * 2 ^ (8 * n) := by rw [Nat.mul_add, Nat.pow_add]; omega
    rw [bytesOf, natOf, ih, e, Nat.mod_mul, BitVec.toNat_ofNat]

theorem natOf_lt (bs : List Byte) : natOf bs < 2 ^ (8 * bs.length) := by
  induction bs with
  | nil => simp [natOf]
  | cons b bs ih =>
    have := b.isLt
    have e : 2 ^ (8 * (bs.length + 1)) = 256 * 2 ^ (8 * bs.length) := by rw [Nat.mul_add, Nat.pow_add]; omega
    simp only [natOf, List.length_cons, e]; omega

theorem readNum_lt (s : State) (slot pa n : Nat) : readNum s slot pa n < 2 ^ (8 * n) := by
  have := natOf_lt (readBytes s slot pa n)
  simpa [readBytes, readNum] using this

theorem map_nth (bs : List Byte) : (List.range bs.length).map (fun i => nth 0 bs i) = bs := by
  apply List.ext_getElem
  · simp
  · intro i h1 h2
    simp [nth, List.getElem?_eq_getElem h2]

/-- A number written reads back. -/
theorem readNum_writeNum (s : State) (slot pa n v : Nat) (hm : pa + n ≤ 2 ^ 51 ∨ 2 ^ 51 ≤ pa) :
    readNum (writeNum s slot pa n v) slot pa n = v % 2 ^ (8 * n) := by
  have h := performWrite_bytesWritten s slot pa (bytesOf n v) (by simpa using hm)
  rw [← natOf_bytesOf n v]
  unfold readNum readBytes writeNum
  congr 1
  conv => rhs; rw [← map_nth (bytesOf n v)]
  rw [bytesOf_length]
  apply List.map_congr_left
  intro i hi
  have := List.mem_range.mp hi
  rw [h (pa + i), if_pos (by simp; omega)]
  congr 1; omega

/-! ## Writes and the rest of the machine -/

/-- From s to t writes have performed and nothing else has happened: memory, its tags and its dirty bits, reservations and
monitors, and follow-up steps added to the work. -/
structure Performed (s t : State) : Prop where
  device : t = { s with mem := t.mem, lineSlot := t.lineSlot, lineBad := t.lineBad, dirty := t.dirty, dirtyV := t.dirtyV,
                        ctxs := t.ctxs, queues := t.queues, work := t.work }
  queues : ∀ q, SameQueue (s.queue q) (t.queue q)
  ctxs   : ∀ w k, SameCtx (s.ctx w k) (t.ctx w k)
  work   : ∃ es, t.work = s.work ++ es

theorem performed_refl (s : State) : Performed s s :=
  ⟨rfl, fun _ => SameQueue.refl _, fun _ _ => rfl, ⟨[], by simp⟩⟩

theorem performed_trans {a b c : State} (h : Performed a b) (g : Performed b c) : Performed a c where
  device := by rw [g.device, h.device]
  queues := fun q => (h.queues q).trans (g.queues q)
  ctxs := fun w k => by
    have h1 := h.ctxs w k
    have h2 := g.ctxs w k
    unfold SameCtx at *
    rw [h2, h1]
  work := by
    obtain ⟨e1, h1⟩ := h.work
    obtain ⟨e2, h2⟩ := g.work
    exact ⟨e1 ++ e2, by rw [h2, h1, List.append_assoc]⟩

theorem markDirty_frame (s : State) (pa n : Nat) : ∃ d v, markDirty s pa n = { s with dirty := d, dirtyV := v } := by
  unfold markDirty
  split <;> exact ⟨_, _, rfl⟩

theorem retag_frame (s : State) (slot pa n : Nat) : ∃ l b, retag s slot pa n = { s with lineSlot := l, lineBad := b } := by
  unfold retag
  split <;> exact ⟨_, _, rfl⟩

theorem performed_performCells (s : State) (slot pa n : Nat) (cells : Tbl Byte) :
    Performed s (performCells s slot pa n cells) := by
  by_cases hn : n = 0
  · simp only [performCells, if_pos hn]; exact performed_refl s
  · simp only [performCells, if_neg hn]
    obtain ⟨l, b, hr⟩ := retag_frame { s with mem := putCells pa n cells (clearForeign s slot pa n) } slot pa n
    rw [hr]
    obtain ⟨d, v, hd⟩ := markDirty_frame { s with
      mem := putCells pa n cells (clearForeign s slot pa n), lineSlot := l, lineBad := b } pa n
    rw [hd]
    refine ⟨?_, fun q => ?_, fun w k => ?_, ⟨_, rfl⟩⟩
    · exact touchLines_frame _ _ _ _
    · rw [queue_touchLines]
      exact Queue.retest_same _ _ _ _
    · rw [ctx_touchLines]
      rfl

theorem performed_performWrite (s : State) (slot pa : Nat) (bs : List Byte) : Performed s (performWrite s slot pa bs) :=
  performed_performCells _ _ _ _ _

theorem performed_writeNum (s : State) (slot pa n v : Nat) : Performed s (writeNum s slot pa n v) :=
  performed_performCells _ _ _ _ _

section
variable {s t : State}

theorem Performed.cur (h : Performed s t) : t.cur = s.cur := by rw [h.device]
theorem Performed.worlds (h : Performed s t) : t.worlds = s.worlds := by rw [h.device]
theorem Performed.launches (h : Performed s t) : t.launches = s.launches := by rw [h.device]
theorem Performed.keySlot (h : Performed s t) (w : Nat) : keySlot t w = keySlot s w := by
  rw [h.device]; rfl
theorem Performed.writeWaits (h : Performed s t) (pa n : Nat) : writeWaits t pa n = writeWaits s pa n := by
  rw [h.device]; rfl
theorem Performed.me (h : Performed s t) : SameCtx s.me t.me := by
  simp only [State.me, h.cur]; exact h.ctxs _ _
theorem Performed.strand (h : Performed s t) :
    t.strand = { s.strand with resv := t.strand.resv, mon := t.strand.mon } := by
  have := congrArg Ctx.strand h.me
  exact this
theorem Performed.pc (h : Performed s t) : t.pc = s.pc := by simp only [State.pc]; rw [h.strand]
theorem Performed.rx (h : Performed s t) (r : Nat) : t.rx r = s.rx r := by
  simp only [State.rx]; rw [h.strand]; rfl

end

end Sys2Proof.Machine
end

