-- ==== Sys2Proof/Laws/Access.lean ====
section
/-!
SUPPORT. What a check that an access passes says of it, and what setting A and D of its leaf does.
-/

namespace Sys2Proof.Machine

/-! ## The address that an access goes to -/

theorem vaultPA_ge (core off : Nat) : 2 ^ 51 ≤ vaultPA core off := by unfold vaultPA; omega

/-- A window gives a vault byte, which is outside the memory region. -/
theorem window_off {s : State} {w k core va pa : Nat} (h : window s w k core va = some pa) : 2 ^ 51 ≤ pa := by
  unfold window at h
  dsimp only at h
  repeat' split at h
  all_goals first
    | cases h
    | (simp only [Option.map_eq_some_iff] at h; obtain ⟨b, -, rfl⟩ := h; exact vaultPA_ge _ _)

theorem targetOf_mem {s : State} {w pa p : Nat} (h : targetOf s w pa = some (.mem p)) : p = pa := by
  unfold targetOf at h
  split at h <;> (try split at h) <;> simp_all

/-- A leaf keeps the place of an address in its page. -/
theorem Leaf.pa_mod (l : Leaf) (va n : Nat) (hn : n ∣ 4096) : l.pa va % n = va % n := by
  obtain ⟨c, hc⟩ := hn
  have e : leafPages l.level * 4096 = n * (leafPages l.level * c) := by rw [hc, Nat.mul_left_comm]
  have e' : l.ppn * 4096 = n * (l.ppn * c) := by rw [hc, Nat.mul_left_comm]
  unfold Leaf.pa
  rw [e, e', Nat.mul_add_mod, Nat.mod_mul_right_mod]

/-- An address translated into the memory region stands in its page where the virtual address does. -/
theorem resolve_mod {s : State} {w k core va : Nat} {a : Acc} {x : Xlat} {pa : Nat}
    (h : resolve s w k core va a = .ok x) (ht : x.target = .mem pa) (n : Nat) (hn : n ∣ 4096) (hm : pa < 2 ^ 51) :
    pa % n = va % n := by
  unfold resolve at h
  split at h
  · split at h
    · cases h
    · split at h
      · rename_i p hw
        cases h; cases ht
        have := window_off hw
        omega
      · cases h
  · unfold resolveIn at h
    split at h
    · cases h
    split at h
    · cases h
    split at h
    · cases h
    · rename_i l hl
      split at h
      · cases h
      split at h
      · rename_i t hto
        cases h
        simp only at ht
        subst ht
        rw [targetOf_mem hto]
        exact l.pa_mod va n hn
      · cases h

/-- An access that passes its checks is aligned, has been translated, and its target has passed. -/
theorem checkAccess_ok {s : State} {w k core : Nat} {a : Ask} {x : Xlat} (h : checkAccess s w k core a = .ok x) :
    a.va % a.width = 0 ∧ resolve s w k core a.va a.acc = .ok x ∧ checkTarget s w (s.ctx w k).root a x = .ok x := by
  have hct : ∀ y, checkTarget s w (s.ctx w k).root a y = .ok x → y = x := by
    intro y hy
    unfold checkTarget at hy
    repeat' split at hy
    all_goals first | exact Except.ok.inj hy | cases hy
  unfold checkAccess at h
  by_cases hm : a.va % a.width ≠ 0
  · rw [if_pos hm] at h; cases h
  · rw [if_neg hm] at h
    refine ⟨by omega, ?_⟩
    cases hr : resolve s w k core a.va a.acc with
    | error c => rw [hr] at h; cases h
    | ok y => rw [hr] at h; cases hct y h; exact ⟨rfl, h⟩

/-- The bytes of an access that passes its checks are aligned and do not cross the end of memory. -/
theorem checkAccess_mem {s : State} {w k core : Nat} {a : Ask} {x : Xlat} {pa : Nat} (h : checkAccess s w k core a = .ok x)
    (ht : x.target = .mem pa) (hn : a.width ∣ 4096) : (pa + a.width ≤ 2 ^ 51 ∧ pa % a.width = 0) ∨ 2 ^ 51 ≤ pa := by
  obtain ⟨hva, hr, -⟩ := checkAccess_ok h
  rcases Nat.lt_or_ge pa (2 ^ 51) with hm | hm
  · have h0 : pa % a.width = 0 := by rw [resolve_mod hr ht a.width hn hm, hva]
    obtain ⟨c, hc⟩ := Nat.dvd_trans hn (by decide : 4096 ∣ 2 ^ 51)
    obtain ⟨d, rfl⟩ := Nat.dvd_of_mod_eq_zero h0
    refine .inl ⟨?_, h0⟩
    rw [hc] at hm ⊢
    exact Nat.mul_le_mul_left a.width (Nat.lt_of_mul_lt_mul_left hm)
  · exact .inr hm

/-! ## A and D of a leaf -/

/-- Setting A and D writes memory and nothing else (03 R69). -/
theorem performed_setAD (s : State) (w : Nat) (x : Xlat) (a : Acc) : Performed s (setAD s w x a) := by
  unfold setAD
  cases x.leaf with
  | none => exact performed_refl s
  | some l =>
    simp only
    generalize setBit (if a.writes = true then setBit l.entry 5 true else l.entry) 4 true = e
    split
    · exact performed_refl s
    · exact performed_writeNum _ _ _ _ _

@[simp] theorem setAD_cur (s : State) (w : Nat) (x : Xlat) (a : Acc) : (setAD s w x a).cur = s.cur :=
  (performed_setAD s w x a).cur
@[simp] theorem setAD_pc (s : State) (w : Nat) (x : Xlat) (a : Acc) : (setAD s w x a).pc = s.pc :=
  (performed_setAD s w x a).pc
@[simp] theorem setAD_rx (s : State) (w : Nat) (x : Xlat) (a : Acc) (r : Nat) : (setAD s w x a).rx r = s.rx r :=
  (performed_setAD s w x a).rx r
@[simp] theorem keySlot_setAD (s : State) (w : Nat) (x : Xlat) (a : Acc) (w' : Nat) :
    keySlot (setAD s w x a) w' = keySlot s w' := (performed_setAD s w x a).keySlot w'

/-! ## Posted writes -/

/-- A write that does not wait performs. -/
theorem postWrite_performs (s : State) (w k pa : Nat) (bs : List Byte) (h : writeWaits s pa bs.length = false) :
    postWrite s w k pa bs = performWrite s (keySlot s w) pa bs := by
  simp [postWrite, postHeld, h]

/-- A write that waits joins those that wait, and calls for the copies of its pages; no byte changes. -/
theorem postWrite_waits (s : State) (w k pa : Nat) (bs : List Byte) (h : writeWaits s pa bs.length = true) :
    ∃ ev, postWrite s w k pa bs = { s with
      heldW := s.heldW ++ [{ world := w, ctx := k, slot := keySlot s w, pa := pa, data := bs, ack := none }]
      work := ev ++ s.work } := by
  simp only [postWrite, postHeld, h, if_true]
  exact ⟨_, rfl⟩

end Sys2Proof.Machine
end

