-- ==== Sys2Proof/Laws/Ikiyth.lean ====
section
/-!
SUPPORT. The registers of the portable form after writes (26 R430, R431).
-/

namespace Sys2Proof.Machine

@[simp] theorem Portable.setI_rows (t : Portable) (n : Nat) (v : Word) : (t.setI n v).rows = t.rows := rfl
@[simp] theorem Portable.setI_len (t : Portable) (n : Nat) (v : Word) : (t.setI n v).len = t.len := rfl
@[simp] theorem Portable.setI_y (t : Portable) (n : Nat) (v : Word) : (t.setI n v).y = t.y := rfl
@[simp] theorem Portable.setI_pc (t : Portable) (n : Nat) (v : Word) : (t.setI n v).pc = t.pc := rfl
@[simp] theorem Portable.setI_elem (t : Portable) (n : Nat) (v : Word) : (t.setI n v).elem = t.elem := rfl
@[simp] theorem Portable.next_i (t : Portable) : t.next.i = t.i := rfl
@[simp] theorem Portable.next_y (t : Portable) : t.next.y = t.y := rfl
@[simp] theorem Portable.next_rows (t : Portable) : t.next.rows = t.rows := rfl
@[simp] theorem Portable.next_len (t : Portable) : t.next.len = t.len := rfl
@[simp] theorem Portable.next_pc (t : Portable) : t.next.pc = t.pc + 1 := rfl
@[simp] theorem Portable.next_elem (t : Portable) : t.next.elem = 0 := rfl

/-- A scalar register that there is reads as written. -/
theorem Portable.ix_setI (t : Portable) (n : Nat) (v : Word) (m : Nat) (h : n < t.i.length) :
    (t.setI n v).ix m = if m = n then v else t.ix m := by
  simp only [Portable.ix, Portable.setI, nth, List.getElem?_set]
  by_cases e : n = m
  · subst e; simp [h]
  · simp [e, Ne.symm e]

/-- A half of an element reads as written; every other one stays (R430). -/
theorem Portable.half_setHalf (t : Portable) (n h e v n' h' e' : Nat) (he : e < 4096) (he' : e' < 4096) (hh : h < 2)
    (hh' : h' < 2) : (t.setHalf n h e v).half n' h' e' =
      if n' = n ∧ h' = h ∧ e' = e then v % 2 ^ 32 else t.half n' h' e' := by
  have key : portableHalf n' h' e' = portableHalf n h e ↔ n' = n ∧ h' = h ∧ e' = e := by
    unfold portableHalf; omega
  simp only [Portable.half, Portable.setHalf, tget_tset, key]
  split
  · exact Nat.mod_mod _ _
  · rfl

/-- The grant of SHAPE: no more than asked, and no more than a register holds (R431). -/
theorem grantShape_le (mvl rows len : Nat) :
    (grantShape mvl rows len).1 ≤ rows ∧ (grantShape mvl rows len).2 ≤ len ∧
      (grantShape mvl rows len).1 * (grantShape mvl rows len).2 ≤ mvl := by
  simp only [grantShape]
  split
  · rename_i h
    exact ⟨Nat.zero_le _, Nat.min_le_left _ _, by omega⟩
  · exact ⟨Nat.min_le_left _ _, Nat.min_le_left _ _,
      Nat.le_trans (Nat.mul_le_mul_right _ (Nat.min_le_right _ _)) (Nat.div_mul_le_self _ _)⟩

end Sys2Proof.Machine
end

