-- ==== Sys2Proof/Laws/Scalar.lean ====
section
/-!
SUPPORT. The shared operations of the scalar stream: how an instruction retires, jumps, branches, loads, stores and
faults.
-/

namespace Sys2Proof.Machine

/-! ## Operands -/

theorem imm12_eq (imm : Nat) : imm12 imm = dword (simm 12 imm) := rfl
theorem imm13_eq (off : Nat) : imm13 off = dword (simm 13 off) := rfl
theorem imm21_eq (off : Nat) : imm21 off = dword (simm 21 off) := rfl

theorem memAddr_eq (s : State) (rs1 imm : Nat) : memAddr s rs1 imm = accessVa s rs1 imm := by
  unfold memAddr accessVa dword
  congr 1
  rw [BitVec.ofInt_add, BitVec.ofInt_toInt]
  rfl

/-! ## Retiring -/

/-- An instruction retires: PC moves, and nothing else of the strand changes. -/
theorem retire_spec (s : State) (pc : Word) :
    OwnStrand s (s.retire pc) ∧ (s.retire pc).strand = { s.strand with pc := pc } := by
  have hp := State.progress_frame
  simp only [State.retire]
  refine ⟨⟨?_, ?_, ?_, ?_⟩, ?_⟩
  · rw [(hp _ _ _).1]; rfl
  · intro w k hk
    rw [(hp _ _ _).1]
    simp [State.onStrand, State.modStrand, State.modCtx, State.ctx, State.putCtx, hk]
  · rw [(hp _ _ _).1]
    simp [State.onStrand, State.modStrand, State.modCtx, State.ctx, State.putCtx, State.me, State.strand]
  · intro w l
    rw [(hp _ _ _).2]
    rfl
  · rw [(hp _ _ _).1]
    simp [State.onStrand, State.modStrand, State.modCtx, State.ctx, State.putCtx, State.me, State.strand]

/-- A register is written and the instruction retires. -/
theorem wx_retire_spec (s : State) (rd : Nat) (v pc : Word) : Retires s ((s.wx rd v).retire pc) rd v pc := by
  obtain ⟨⟨h1, h2, h3, h4⟩, h5⟩ := retire_spec (s.wx rd v) pc
  have hcur : (s.wx rd v).cur = s.cur := rfl
  have hme : (s.wx rd v).me = { s.me with strand := s.strand.wx rd v } := by
    simp [State.wx, State.me, State.onStrand, State.modStrand, State.modCtx, State.strand]
  have hst : (s.wx rd v).strand = s.strand.wx rd v := by simp only [State.strand, hme]
  refine ⟨⟨?_, ?_, ?_, ?_⟩, ?_, ?_⟩
  · rw [h1]; rfl
  · intro w k hk
    rw [h2 w k (by rw [hcur]; exact hk)]
    simp [State.wx, State.onStrand, State.modStrand, State.modCtx, State.ctx, State.putCtx, hk]
  · rw [h3, hme]
  · intro w l; rw [h4]; rfl
  · rw [h5, hst, Strand.wx_frame]
  · intro n
    have := Strand.rx_wx s.strand rd v n
    simp only [State.rx, h5, hst]
    rw [← this]; rfl

@[simp] theorem wx_pc (s : State) (rd : Nat) (v : Word) : (s.wx rd v).pc = s.pc := by
  have hst : (s.wx rd v).strand = s.strand.wx rd v := by
    simp [State.wx, State.me, State.onStrand, State.modStrand, State.modCtx, State.strand]
  simp only [State.pc, hst]
  rw [Strand.wx_frame]

/-- A register is written and the instruction retires at the next one. -/
theorem wx_advance_spec (s : State) (rd : Nat) (v : Word) : Retires s ((s.wx rd v).advance) rd v (s.pc + 4) := by
  have := wx_retire_spec s rd v (s.pc + 4)
  simpa [State.advance] using this

/-- An instruction retires without a register result. -/
theorem retire_plain (s : State) (pc : Word) : Retires s (s.retire pc) 0 0 pc := by
  obtain ⟨h, h5⟩ := retire_spec s pc
  refine ⟨h, by rw [h5], fun n => ?_⟩
  simp only [State.rx, h5]
  split
  · omega
  · rfl

/-! ## Faults -/

/-- A live context faults at its PC. -/
theorem scalarFault_spec (s : State) (c : Cause) (fa : Nat) (hc : c ≠ .tagfail) (h : s.me.state.live = true) :
    FaultsAtPc s (scalarFault s c fa) c fa := by
  obtain ⟨⟨ev, hfr⟩, hq, hctx⟩ := takeFault_live s s.cur.1 s.cur.2
    { cause := c, fslot := 0, fpc := s.pc.toNat, felem := 0, progress := 0, faddr := fa } hc h
  have hcur : (scalarFault s c fa).cur = s.cur := by unfold scalarFault; rw [hfr]
  have hme : (scalarFault s c fa).me = (scalarFault s c fa).ctx s.cur.1 s.cur.2 := by unfold State.me; rw [hcur]
  rw [show (scalarFault s c fa).ctx s.cur.1 s.cur.2 = _ from hctx _ _] at hme
  simp only [if_true] at hme
  have hstr := congrArg Ctx.strand hme
  rw [show (scalarFault s c fa).me.strand = (scalarFault s c fa).strand from rfl] at hstr
  constructor
  · rw [hme]
  · rw [hme]
  · unfold scalarFault; rw [hfr]; simp
  · rw [hstr, hme]; simp [Ctx.halt, Strand.touch]
  · simp only [State.pc]; rw [hstr]; simp [Ctx.halt, Strand.touch, State.strand, State.me]
  · unfold scalarFault; rw [hfr]
  · intro w k hk
    unfold scalarFault; rw [hctx, if_neg hk]; rfl
  · exact hq

/-! ## Control transfer (15 R293) -/

theorem jumpTo_spec (s : State) (rd : Nat) (t : Word) (h : t.toNat % 4 = 0) :
    ∃ u, jumpTo s rd t = .next u ∧ Retires s u rd (s.pc + 4) t :=
  ⟨_, by simp only [jumpTo, h, ne_eq, not_true, if_false], wx_retire_spec s rd (s.pc + 4) t⟩

theorem jumpTo_misaligned (s : State) (rd : Nat) (t : Word) (h : t.toNat % 4 ≠ 0) :
    jumpTo s rd t = .next (scalarFault s .misalign t.toNat) := by
  simp only [jumpTo, if_pos h]

theorem branchIf_spec (s : State) (b : Bool) (off : Nat) (h : b = true → (s.pc + imm13 off).toNat % 4 = 0) :
    ∃ u, branchIf s b off = .next u ∧ Retires s u 0 0 (if b then s.pc + imm13 off else s.pc + 4) := by
  refine ⟨_, ?_, retire_plain s _⟩
  cases b
  · simp [branchIf, State.advance]
  · simp only [branchIf, h rfl, ne_eq, not_true, if_false, if_true]

theorem branchIf_misaligned (s : State) (off : Nat) (h : (s.pc + imm13 off).toNat % 4 ≠ 0) :
    branchIf s true off = .next (scalarFault s .misalign (s.pc + imm13 off).toNat) := by
  simp only [branchIf, if_pos h, if_true]

/-! ## Loads and stores (15 R288) -/

/-- A load from memory that does not wait. -/
theorem loadReg_spec (s : State) (f3 rd va pa : Nat) (x : Xlat)
    (hb : walkBusy s s.cur.1 s.cur.2 va (2 ^ (f3 % 4)) .load = false)
    (hc : checkAccess s s.cur.1 s.cur.2 (s.me.core 0) (scalarAsk s s.cur.1 s.cur.2 va (2 ^ (f3 % 4)) .load none) = .ok x)
    (ht : x.target = .mem pa) (hw : scalarWaits s s.cur.1 s.cur.2 pa (2 ^ (f3 % 4)) = false)
    (htag : tagFails s (keySlot s s.cur.1) pa (2 ^ (f3 % 4)) = false) :
    ∃ t, loadReg s f3 rd va = .next t ∧ Retires (setAD s s.cur.1 x .load) t rd
      (extend f3 (readNum s (keySlot s s.cur.1) pa (2 ^ (f3 % 4)))) (s.pc + 4) := by
  have hl : loadAt s s.cur.1 s.cur.2 va (2 ^ (f3 % 4)) =
      .value (setAD s s.cur.1 x .load) (readNum s (keySlot s s.cur.1) pa (2 ^ (f3 % 4))) := by
    unfold loadAt
    rw [show checkAccess s s.cur.1 s.cur.2 ((s.ctx s.cur.1 s.cur.2).core 0) _ = _ from hc]
    simp only [hb, ht, hw, loadNum, htag, if_false, Bool.false_eq_true]
  refine ⟨_, by unfold loadReg; rw [hl], ?_⟩
  have := wx_advance_spec (setAD s s.cur.1 x .load) rd (extend f3 (readNum s (keySlot s s.cur.1) pa (2 ^ (f3 % 4))))
  rwa [setAD_pc] at this

/-- A store to memory that does not wait: the write performs, and the instruction retires. -/
theorem storeAt_spec (s : State) (x : Xlat) (a : Ask) (v pa : Nat) (ht : x.target = .mem pa)
    (hg : granuleHeld s s.cur.1 s.cur.2 pa a.width = false) (ha : s.strand.acquiring = false)
    (hu : s.strand.updating pa a.width = false) (hn : convoyNames s s.cur.1 s.cur.2 pa a.width = false)
    (hl : s.strand.lockPending a.va a.width = false)
    (hw : writeTagFails s (keySlot s s.cur.1) pa a.width = false) (hh : writeWaits s pa a.width = false) :
    storeAt s s.cur.1 s.cur.2 x a v =
      .next (performWrite (setAD s s.cur.1 x a.acc) (keySlot s s.cur.1) pa (bytesOf a.width v)) := by
  have hs : (s.ctx s.cur.1 s.cur.2).strand = s.strand := rfl
  have hp := postWrite_performs (setAD s s.cur.1 x a.acc) s.cur.1 s.cur.2 pa (bytesOf a.width v)
    (by rw [(performed_setAD _ _ _ _).writeWaits, bytesOf_length]; exact hh)
  rw [keySlot_setAD] at hp
  have hq : queueFull s pa a.width = false := by simp only [queueFull, hh, Bool.false_and]
  simp only [storeAt, storeDid, ht, hs, hg, ha, hu, hn, hl, storeNum, hw, hh, hq, Bool.or_self, Bool.and_false, if_false,
    Bool.false_eq_true, hp]

/-- An instruction retires after writes of its strand. -/
theorem stored_advance (s t : State) (h : Performed s t) : Stored s t.advance (s.pc + 4) := by
  obtain ⟨⟨h1, h2, h3, h4⟩, h5⟩ := retire_spec t (t.pc + 4)
  unfold State.advance
  rw [h.pc] at h1 h2 h3 h4 h5 ⊢
  constructor
  · rw [h1, h.device]
  · intro q
    have : (t.retire (s.pc + 4)).queue q = t.queue q := by rw [h1]; rfl
    rw [this]; exact h.queues q
  · intro w k hne
    rw [h2 w k (by rw [h.cur]; exact hne)]
    exact h.ctxs w k
  · rw [h3, h.me]
  · rw [h5, h.strand]
  · intro w l; rw [h4]; simp only [State.launch, h.launches]

/-- Retiring changes no byte. -/
theorem readByte_advance (s : State) (slot a : Nat) : readByte s.advance slot a = readByte s slot a := by
  obtain ⟨⟨h, -, -, -⟩, -⟩ := retire_spec s (s.pc + 4)
  unfold State.advance readByte
  rw [h]

end Sys2Proof.Machine
end

