-- ==== Sys2Proof/Laws/Waking.lean ====
section
/-!
SUPPORT. One bit of a number, and what a change of a control word wakes.
-/

namespace Sys2Proof.Machine

/-! ## One bit of a number -/

theorem bit_eq_testBit (v i : Nat) : bit v i = v.testBit i := by
  simp only [bit, Nat.testBit, Nat.shiftRight_eq_div_pow, Nat.one_and_eq_mod_two]
  rcases Nat.mod_two_eq_zero_or_one (v / 2 ^ i) with h | h <;> simp [h]

/-- setBit sets its bit and no other. -/
theorem setBit_sets (v i : Nat) (b : Bool) : Sets v (setBit v i b) i b := by
  intro j
  have hb : b.toNat < 2 := by cases b <;> decide
  have hr : v % 2 ^ i < 2 ^ i := Nat.mod_lt _ (Nat.pow_pos (by decide))
  have hv : v = 2 ^ i * (2 * (v / 2 ^ i / 2) + v / 2 ^ i % 2) + v % 2 ^ i := by
    rw [Nat.div_add_mod, Nat.div_add_mod]
  have e : setBit v i b = 2 ^ i * (2 * (v / 2 ^ i / 2) + b.toNat) + v % 2 ^ i := by
    have e1 : i + 1 - i = 1 := by omega
    simp only [setBit, setBits, bits, e1, Nat.pow_one, Nat.mod_eq_of_lt hb]
    have h1 : 2 ^ i * (2 * (v / 2 ^ i / 2) + v / 2 ^ i % 2) = 2 ^ i * (2 * (v / 2 ^ i / 2)) + v / 2 ^ i % 2 * 2 ^ i := by
      rw [Nat.mul_add, Nat.mul_comm (2 ^ i) (v / 2 ^ i % 2)]
    rw [h1] at hv
    rw [Nat.mul_add, Nat.mul_comm (2 ^ i) b.toNat]
    omega
  have low : ∀ q c : Nat, c < 2 → ∀ k, (2 * q + c).testBit k = if k = 0 then decide (c = 1) else q.testBit (k - 1) := by
    intro q c hc k
    cases k with
    | zero => simp only [Nat.testBit_zero, if_true]; congr 1; exact propext (by omega)
    | succ k =>
      rw [Nat.testBit_succ, if_neg (by omega)]
      have : (2 * q + c) / 2 = q := by omega
      rw [this, Nat.add_sub_cancel]
  rw [bit_eq_testBit, bit_eq_testBit, e]
  conv => rhs; rw [hv]
  rw [Nat.testBit_two_pow_mul_add _ hr, Nat.testBit_two_pow_mul_add _ hr, low _ _ hb, low _ _ (Nat.mod_lt _ (by decide))]
  rcases Nat.lt_trichotomy j i with h | rfl | h
  · rw [if_pos h, if_neg (by omega), if_pos h]
  · cases b <;> simp
  · rw [if_neg (by omega), if_neg (by omega), if_neg (by omega), if_neg (by omega), if_neg (by omega)]

/-! ## What a change of a control word wakes -/

theorem woken_refl (s : State) : Woken s s := ⟨rfl, fun _ => SameQueue.refl _, fun _ _ => rfl, ⟨[], by simp⟩⟩

theorem woken_trans {a b c : State} (h : Woken a b) (g : Woken b c) : Woken a c where
  device := by rw [g.device, h.device]
  queues := fun q => (h.queues q).trans (g.queues q)
  ctxs := by intro w k; rw [g.ctxs w k, h.ctxs w k]
  work := by
    obtain ⟨e1, h1⟩ := h.work
    obtain ⟨e2, h2⟩ := g.work
    exact ⟨e1 ++ e2, by rw [h2, h1, List.append_assoc]⟩

theorem woken_touchLines (s : State) (l0 l1 v : Nat) : Woken s (touchLines s l0 l1 v) where
  device := rfl
  queues := by intro q; rw [queue_touchLines]; exact Queue.retest_same _ _ _ _
  ctxs := by intro w k; rw [ctx_touchLines]; rfl
  work := ⟨_, rfl⟩

theorem woken_wakePage (s : State) (w kind idx off : Nat) : Woken s (wakePage s w kind idx off) :=
  woken_touchLines _ _ _ _

/-- Follow-up steps come after the work there is. -/
theorem woken_push (s : State) (es : List Event) : Woken s { s with work := s.work ++ es } where
  device := rfl
  queues := fun _ => SameQueue.refl _
  ctxs := fun _ _ => rfl
  work := ⟨es, rfl⟩

/-- Every stream tries again, and so does what waits at the ports. -/
theorem woken_wakeAll (s : State) : Woken { s with parked := [] } (wakeAll s) ∧ ∀ e ∈ s.parked, e ∈ (wakeAll s).work := by
  refine ⟨⟨rfl, fun _ => SameQueue.refl _, ?_, s.parked ++ retryCopies s, ?_⟩, ?_⟩
  · intro w k
    simp only [wakeAll, State.ctx]
    rw [tget_map Ctx.zero (fun c : Ctx => { c with strand := c.strand.unhold }) rfl]
    rfl
  · exact List.append_assoc _ _ _
  · intro e he
    simp only [wakeAll, List.mem_append]
    exact .inl (.inr he)

/-- Where no write waits, a port that opens releases none. -/
theorem unholdAll_eq (s : State) (h : s.heldW = []) : unholdAll s = wakeAll s := by
  simp [unholdAll, releaseWrites, h]

/-- One readiness event: the word changed, GEN advanced by one, and the line woken (01 R453); a change of nothing is none. -/
theorem readyEvent_spec (s : State) (f : Ready → Ready) : Woken (s.withReady (f s.ready)) (s.readyEvent f) := by
  unfold State.withReady State.readyEvent
  split
  · exact woken_refl s
  · exact woken_touchLines _ _ _ _

end Sys2Proof.Machine
end

