-- ==== Sys2Proof/Tests/Slice0.lean ====
section
/-!
SUPPORT. Tests: ill-formed terms are refused; words of the spec decode; instructions give the values of the spec's tables
and worked examples; and for every statement with hypotheses, concrete states and operands that meet them. Expected values
are the spec's own, or arithmetic by hand.
-/

namespace Sys2Proof.Tests

open Sys2Proof Sys2Proof.Machine

/-! ## Well-formedness -/

/-- 15 R286, 13 R258 to R260: an operand that does not fit its field. -/
theorem test_operand_does_not_fit :
    [Instr.add 32 0 0, .add 0 32 0, .add 0 0 32, .addi 0 0 4096, .slli 0 0 64, .slliw 0 0 32, .lui 0 (2 ^ 20),
      .jal 0 3, .jal 0 (2 ^ 21), .beq 0 0 1, .beq 0 0 8192, .sb 0 0 4096, .fence 16 0, .fence 0 16, .lrW 0 0 2 0,
      .amoaddW 0 0 0 0 2, .vadd 64 0 0 0, .vadd 0 64 0 0, .vadd 0 0 64 0, .vadd 0 0 0 2, .vcvt 0 0 16, .vmvX 0 32,
      .pand 32 0 0, .vpopcLq 4 0, .mstep 4 0 0, .vld 64 0, .vld 0 32, .vlds 0 0 32, .vldx 0 0 64, .vamo 0 0 0 8,
      .copy 32 0 0 0, .cvy 4 0 0 0 0 0 0, .cvy 0 32 0 0 0 0 0, .cvy 0 0 2 0 0 0 0, .cvy 0 0 0 16 0 0 0,
      .cvy 0 0 0 0 8 0 0, .setvli 0 32768, .setvlq 0 4, .fsv 8, .qsend 8 0, .qrecv 0 8, .xltrap 32768].all
      (fun i => !i.fits && !i.wellFormed) = true := by decide

/-- 13 R252, R253, R261 to R264: an operand that fits its field and lies outside its range. -/
theorem test_operand_out_of_range :
    [Instr.vadd 0 0 32 1, .vcmpeq 24 0 0 0, .vcvt 0 0 14, .viota 0 24, .vqrecv 0 4, .vqsend 3 0, .pand 24 0 0, .pand 0 24 0,
      .pand 0 0 24, .vpopcX 0 24, .pmovv 0 24, .vmovp 24 0, .copyc 24 0 0 0, .cmdb 24 0, .cvy 0 24 0 0 0 0 0,
      .cvy 0 0 0 15 0 0 0, .cvy 0 0 0 0 5 0 0, .fsv 0, .fsv 6, .fvs 7, .fvv 0, .qsend 4 0, .qrecv 0 3, .qrecv 0 6,
      .wid 0 7].all (fun i => i.fits && !i.inRange && !i.wellFormed) = true := by decide

/-- The last value in range, beside the first that is not. -/
theorem test_operand_in_range :
    [Instr.vadd 63 63 31 1, .vadd 63 63 63 0, .vcmpeq 23 0 0 0, .vcvt 0 0 13, .vqrecv 0 7, .vqsend 7 0, .pand 23 23 23,
      .copyc 23 31 31 31, .cvy 3 31 1 14 4 1 1, .fsv 1, .fvv 5, .qsend 3 31, .qrecv 31 5, .wid 31 6, .xltrap 32767,
      .jal 31 0x1FFFFE, .addi 31 31 4095].all (·.wellFormed) = true := by decide

/-- 00 R11: an event that names a unit the part does not have. -/
theorem test_event_of_no_unit :
    [event .flitReceive [40], event .iodReady [2], event .fnReady [129], event .cdieReady [8], event .anvilReady [80],
      event .mlinkReady [24], event .mgrpReady [6], event .plinkReady [16], event .linkFailure [1, 16], event .reqMv [80],
      event .monitorCapture [168], event .stop [129, 0], event .stop [0, 16384], event .stopAll [0, 1024],
      event .msixUnmask [0, 2048], event .create [129, 0], event .start [32768, 0], event (.add 1 2 3) []].all
      (fun e => !e.fits) = true := by decide

/-! ## Decoding -/

/-- The word decodes to the instruction. -/
def reads (w : Nat) (i : Instr) : Bool := match decodeWord w with | .ok j => j == i | .error _ => false

/-- The word is no instruction, for the reason given. -/
def rejects (w : Nat) (r : Reject) : Bool := match decodeWord w with | .ok _ => false | .error e => e == r

/-- 15 R290: funct7 rs2 rs1 funct3 rd major. -/
theorem test_decode_register_register :
    List.all [
      (0b0000000_00011_00010_000_00001_0110011, Instr.add 1 2 3),
      (0b0000000_00011_00010_001_00001_0110011, .sll 1 2 3),
      (0b0000000_00011_00010_010_00001_0110011, .slt 1 2 3),
      (0b0000000_00011_00010_011_00001_0110011, .sltu 1 2 3),
      (0b0000000_00011_00010_100_00001_0110011, .xor 1 2 3),
      (0b0000000_00011_00010_101_00001_0110011, .srl 1 2 3),
      (0b0000000_00011_00010_110_00001_0110011, .or 1 2 3),
      (0b0000000_00011_00010_111_00001_0110011, .and 1 2 3),
      (0b0100000_00011_00010_000_00001_0110011, .sub 1 2 3),
      (0b0100000_00011_00010_101_00001_0110011, .sra 1 2 3),
      (0b0000001_00011_00010_000_00001_0110011, .mul 1 2 3),
      (0b0000001_00011_00010_001_00001_0110011, .mulh 1 2 3),
      (0b0000001_00011_00010_010_00001_0110011, .mulhsu 1 2 3),
      (0b0000001_00011_00010_011_00001_0110011, .mulhu 1 2 3),
      (0b0000001_00011_00010_100_00001_0110011, .div 1 2 3),
      (0b0000001_00011_00010_101_00001_0110011, .divu 1 2 3),
      (0b0000001_00011_00010_110_00001_0110011, .rem 1 2 3),
      (0b0000001_00011_00010_111_00001_0110011, .remu 1 2 3),
      (0b0000000_00011_00010_000_00001_0111011, .addw 1 2 3),
      (0b0000000_00011_00010_001_00001_0111011, .sllw 1 2 3),
      (0b0000000_00011_00010_101_00001_0111011, .srlw 1 2 3),
      (0b0100000_00011_00010_000_00001_0111011, .subw 1 2 3),
      (0b0100000_00011_00010_101_00001_0111011, .sraw 1 2 3),
      (0b0000001_00011_00010_000_00001_0111011, .mulw 1 2 3),
      (0b0000001_00011_00010_100_00001_0111011, .divw 1 2 3),
      (0b0000001_00011_00010_101_00001_0111011, .divuw 1 2 3),
      (0b0000001_00011_00010_110_00001_0111011, .remw 1 2 3),
      (0b0000001_00011_00010_111_00001_0111011, .remuw 1 2 3)] (fun e => reads e.1 e.2) = true := by decide

/-- 15 R289: imm or funct and shamt, rs1 funct3 rd major. -/
theorem test_decode_register_immediate :
    List.all [
      (0b111111111011_00010_000_00001_0010011, Instr.addi 1 2 0xFFB),
      (0b111111111011_00010_010_00001_0010011, .slti 1 2 0xFFB),
      (0b111111111011_00010_011_00001_0010011, .sltiu 1 2 0xFFB),
      (0b111111111011_00010_100_00001_0010011, .xori 1 2 0xFFB),
      (0b111111111011_00010_110_00001_0010011, .ori 1 2 0xFFB),
      (0b111111111011_00010_111_00001_0010011, .andi 1 2 0xFFB),
      (0b111111111011_00010_000_00001_0011011, .addiw 1 2 0xFFB),
      (0b000000_100001_00010_001_00001_0010011, .slli 1 2 33),
      (0b000000_100001_00010_101_00001_0010011, .srli 1 2 33),
      (0b010000_100001_00010_101_00001_0010011, .srai 1 2 33),
      (0b0000000_10001_00010_001_00001_0011011, .slliw 1 2 17),
      (0b0000000_10001_00010_101_00001_0011011, .srliw 1 2 17),
      (0b0100000_10001_00010_101_00001_0011011, .sraiw 1 2 17)] (fun e => reads e.1 e.2) = true := by decide

/-- 15 R287: U, J, I and B layouts of R286. -/
theorem test_decode_control :
    List.all [
      (0b10000000000000000001_00001_0110111, Instr.lui 1 0x80001),
      (0b01111111111111111111_00001_0010111, .auipc 1 0x7FFFF),
      (0b0_1010101010_0_10100101_00001_1101111, .jal 1 0xA5554),
      (0b011111111100_00010_000_00001_1100111, .jalr 1 2 0x7FC),
      (0b1_010101_00011_00010_000_0100_0_1100011, .beq 2 3 0x12A8),
      (0b1_010101_00011_00010_001_0100_0_1100011, .bne 2 3 0x12A8),
      (0b1_010101_00011_00010_100_0100_0_1100011, .blt 2 3 0x12A8),
      (0b1_010101_00011_00010_101_0100_0_1100011, .bge 2 3 0x12A8),
      (0b1_010101_00011_00010_110_0100_0_1100011, .bltu 2 3 0x12A8),
      (0b1_010101_00011_00010_111_0100_0_1100011, .bgeu 2 3 0x12A8)] (fun e => reads e.1 e.2) = true := by decide

/-- 15 R288: I and S layouts. -/
theorem test_decode_load_store :
    List.all [
      (0b111111111000_00010_000_00001_0000011, Instr.lb 1 2 0xFF8),
      (0b111111111000_00010_001_00001_0000011, .lh 1 2 0xFF8),
      (0b111111111000_00010_010_00001_0000011, .lw 1 2 0xFF8),
      (0b111111111000_00010_011_00001_0000011, .ld 1 2 0xFF8),
      (0b111111111000_00010_100_00001_0000011, .lbu 1 2 0xFF8),
      (0b111111111000_00010_101_00001_0000011, .lhu 1 2 0xFF8),
      (0b111111111000_00010_110_00001_0000011, .lwu 1 2 0xFF8),
      (0b1111111_00011_00010_000_11000_0100011, .sb 3 2 0xFF8),
      (0b1111111_00011_00010_001_11000_0100011, .sh 3 2 0xFF8),
      (0b1111111_00011_00010_010_11000_0100011, .sw 3 2 0xFF8),
      (0b1111111_00011_00010_011_11000_0100011, .sd 3 2 0xFF8)] (fun e => reads e.1 e.2) = true := by decide

/-- 15 R291. -/
theorem test_decode_fences :
    List.all [
      (0b0000_1100_0011_00000_000_00000_0001111, Instr.fence 12 3),
      (0x8330000F, .fenceTso),
      (0b000000000000_00000_001_00000_0001111, .fenceI),
      (0x0100000F, .fence 1 0),
      (0x00000073, .ecall),
      (0x00100073, .ebreak)] (fun e => reads e.1 e.2) = true := by decide

/-- 15 R292: funct5 aq rl rs2 rs1 funct3 rd 0101111. -/
theorem test_decode_atomics :
    List.all [
      (0b00001_1_0_00011_00010_010_00001_0101111, Instr.amoswapW 1 2 3 1 0),
      (0b00001_0_1_00011_00010_011_00001_0101111, .amoswapD 1 2 3 0 1),
      (0b00000_1_0_00011_00010_010_00001_0101111, .amoaddW 1 2 3 1 0),
      (0b00000_0_1_00011_00010_011_00001_0101111, .amoaddD 1 2 3 0 1),
      (0b00100_1_0_00011_00010_010_00001_0101111, .amoxorW 1 2 3 1 0),
      (0b00100_0_1_00011_00010_011_00001_0101111, .amoxorD 1 2 3 0 1),
      (0b01100_1_0_00011_00010_010_00001_0101111, .amoandW 1 2 3 1 0),
      (0b01100_0_1_00011_00010_011_00001_0101111, .amoandD 1 2 3 0 1),
      (0b01000_1_0_00011_00010_010_00001_0101111, .amoorW 1 2 3 1 0),
      (0b01000_0_1_00011_00010_011_00001_0101111, .amoorD 1 2 3 0 1),
      (0b10000_1_0_00011_00010_010_00001_0101111, .amominW 1 2 3 1 0),
      (0b10000_0_1_00011_00010_011_00001_0101111, .amominD 1 2 3 0 1),
      (0b10100_1_0_00011_00010_010_00001_0101111, .amomaxW 1 2 3 1 0),
      (0b10100_0_1_00011_00010_011_00001_0101111, .amomaxD 1 2 3 0 1),
      (0b11000_1_0_00011_00010_010_00001_0101111, .amominuW 1 2 3 1 0),
      (0b11000_0_1_00011_00010_011_00001_0101111, .amominuD 1 2 3 0 1),
      (0b11100_1_0_00011_00010_010_00001_0101111, .amomaxuW 1 2 3 1 0),
      (0b11100_0_1_00011_00010_011_00001_0101111, .amomaxuD 1 2 3 0 1),
      (0b00011_1_0_00011_00010_010_00001_0101111, .scW 1 2 3 1 0),
      (0b00011_0_1_00011_00010_011_00001_0101111, .scD 1 2 3 0 1),
      (0b00010_1_1_00000_00010_010_00001_0101111, .lrW 1 2 1 1),
      (0b00010_1_1_00000_00010_011_00001_0101111, .lrD 1 2 1 1)] (fun e => reads e.1 e.2) = true := by decide

/-- 18: the words that R333 to R349 write out. -/
theorem test_decode_vector :
    List.all [
      (0x0008418B, Instr.vadd 3 1 2 0),
      (0x0209818B, .vadd 3 1 12 1),
      (0x0408418B, .vsub 3 1 2 0),
      (0x0808418B, .vrsub 3 1 2 0),
      (0x0C08418B, .vmul 3 1 2 0),
      (0x1008418B, .vmulh 3 1 2 0),
      (0x1408418B, .vdiv 3 1 2 0),
      (0x1808418B, .vrem 3 1 2 0),
      (0x1C08418B, .vmin 3 1 2 0),
      (0x2008418B, .vmax 3 1 2 0),
      (0x2408418B, .vand 3 1 2 0),
      (0x2808418B, .vor 3 1 2 0),
      (0x2C08418B, .vxor 3 1 2 0),
      (0x3008418B, .vsll 3 1 2 0),
      (0x3408418B, .vsrl 3 1 2 0),
      (0x3808418B, .vsra 3 1 2 0),
      (0x5808418B, .vsgnj 3 1 2 0),
      (0x5C08418B, .vscale 3 1 2 0),
      (0x4008418B, .vfma 3 1 2 0),
      (0x4010830B, .vfma 6 2 4 0),
      (0x4408418B, .vfms 3 1 2 0),
      (0x4808418B, .vfnma 3 1 2 0),
      (0x4C08418B, .vfnms 3 1 2 0),
      (0x3C08018B, .vabs 3 1),
      (0x5408018B, .vneg 3 1),
      (0x5008018B, .vsqrt 3 1),
      (0x7C08018B, .vclass 3 1),
      (0xCC08018B, .vclz 3 1),
      (0xD008018B, .vpopcnt 3 1),
      (0x6008428B, .vcmpeq 5 1 2 0),
      (0x6408428B, .vcmpne 5 1 2 0),
      (0x6808428B, .vcmplt 5 1 2 0),
      (0x6C08428B, .vcmple 5 1 2 0),
      (0x7008428B, .vcmpgt 5 1 2 0),
      (0x7408428B, .vcmpge 5 1 2 0),
      (0x7808428B, .vcmpuo 5 1 2 0),
      (0x8011420B, .vcvt 4 2 10),
      (0x8408018B, .vmvV 3 1),
      (0x8601818B, .vmvX 3 12),
      (0x8808418B, .vmerge 3 1 2 0),
      (0x8C00018B, .vid 3),
      (0x9020018B, .viota 3 4),
      (0x9408018B, .vcompress 3 1),
      (0x9A09818B, .vslideup 3 1 12),
      (0x9E09818B, .vslidedn 3 1 12),
      (0xA808418B, .vredsum 3 1 2 0),
      (0xAA09818B, .vredsum 3 1 12 1),
      (0xAC08418B, .vredmax 3 1 2 0),
      (0xB008418B, .vredmin 3 1 2 0),
      (0xB408418B, .vredand 3 1 2 0),
      (0xB808418B, .vredor 3 1 2 0),
      (0xBC08418B, .vredxor 3 1 2 0),
      (0xC008418B, .vfredosum 3 1 2 0),
      (0xC609828B, .vext 5 1 12),
      (0xA008418B, .vperm 3 1 2),
      (0xA609818B, .vxchg 3 1 12),
      (0xCA59818B, .vins 3 11 12),
      (0xD400218B, .vqrecv 3 1),
      (0xD808020B, .vqsend 4 1)] (fun e => reads e.1 e.2) = true := by decide

/-- 18 R351 to R356, 22 R395, 24 R419: the words that these rules write out. -/
theorem test_decode_predicate_matrix :
    List.all [
      (0x00C2205B, Instr.pand 3 1 2),
      (0x08C2205B, .por 3 1 2),
      (0x10C2205B, .pxor 3 1 2),
      (0x18C2205B, .pandn 3 1 2),
      (0x20C2005B, .pnot 3 1),
      (0x28C0005B, .pset 3),
      (0x30C0005B, .pclr 3),
      (0x38C2005B, .pfirst 3 1),
      (0x4862005B, .pmovv 3 4),
      (0x50A0805B, .vmovp 5 1),
      (0x400802DB, .vpopcX 5 4),
      (0x4402005B, .vpopcLq 0 1),
      (0x4448005B, .vpopcLq 1 4),
      (0x5844005B, .vqnt4 2 8),
      (0x6201005B, .vdq4 16 2),
      (0x68A5805B, .mldb 10 11),
      (0x72C6805B, .mstep 1 12 13),
      (0x72A5805B, .mstep 1 10 11),
      (0x7CC6805B, .mstepr 2 12 13),
      (0x8200005B, .mzero 1),
      (0x8AE7805B, .mrd 1 14 15),
      (0x92C6805B, .mwr 1 12 13),
      (0x9880005B, .mcommit 8),
      (0xA108005B, .gor2 8 16),
      (0xA908005B, .gor3 8 16),
      (0xB108005B, .ginc 8 16),
      (0xB908005B, .gins 8 16),
      (0xC108005B, .gsegx 8 16)] (fun e => reads e.1 e.2) = true := by decide

/-- 13 R260, 19 R358, 21 R378: the words that these chapters write out. -/
theorem test_decode_vector_memory :
    List.all [
      (0x0080282B, Instr.vld 4 10),
      (0x0885A82B, .vlds 4 10 11),
      (0x1083282B, .vldx 4 10 6),
      (0x1880282B, .vst 4 10),
      (0x2085A82B, .vsts 4 10 11),
      (0x2883282B, .vstx 4 10 6),
      (0x3083282B, .vamo 4 10 6 0),
      (0x30A22BAB, .vamo 5 10 4 7),
      (0x7083282B, .vamor 4 10 6 0),
      (0x3885A82B, .vldb4 4 10 11),
      (0x4085A82B, .vstb4 4 10 11),
      (0x4A0E62AB, .copy 5 6 7 8),
      (0x520E622B, .copyc 4 6 7 8),
      (0x5A4E62AB, .copys 5 6 7 9),
      (0x620E62AB, .rrot 5 6 7 8),
      (0x6864002B, .cmdb 3 8)] (fun e => reads e.1 e.2) = true := by decide

/-- 13, 16, 21 and 22: the words that these chapters write out. -/
theorem test_decode_control_words :
    List.all [
      (0x002D007B, Instr.cvy 0 2 1 10 0 0 0),
      (0x0075947B, .cvy 0 7 0 11 1 0 1),
      (0x0259087B, .cvy 1 5 1 2 0 1 0),
      (0x080062FB, .setvl 5 6),
      (0x100402FB, .setvli 5 64),
      (0x180012FB, .setvlq 5 1),
      (0x2400007B, .fsv 4),
      (0x2D00007B, .fvs 5),
      (0x3200007B, .fvv 2),
      (0x3800917B, .qsend 2 9),
      (0x400042FB, .qrecv 5 4),
      (0x4800137B, .wid 6 1),
      (0x500062FB, .matt 5 6),
      (0x5800007B, .mdet),
      (0x6000047B, .mwait 8),
      (0x6800007B, .tsync),
      (0x7000B57B, .binit 10 11),
      (0x7800057B, .barrive 10),
      (0x8000C57B, .bexpect 10 12),
      (0x8800057B, .bwait 10),
      (0x9000057B, .phend 10),
      (0x9800A2FB, .monarm 5 10),
      (0xA000007B, .monwait),
      (0xA800B2FB, .spawn 5 11),
      (0xB000537B, .join 6 5),
      (0xB800507B, .xltrap 5),
      (0xBFFFF07B, .xltrap 32767),
      (0xC000007B, .vsync),
      (0xC800A37B, .remst 6 10),
      (0xD00002FB, .fflags 5)] (fun e => reads e.1 e.2) = true := by decide

/-- 13 R250, R251, R265: no 16-bit and no long encoding, no major without an instruction, no function code without a row,
no reserved field that is not zero. -/
theorem test_rejects :
    [(0x00000000, Reject.narrow), (0x00008001, .narrow), (0x0000001F, .longPrefix), (0xFFFFFFFF, .longPrefix),
      (0x00000007, .noMajor), (0x00000027, .noMajor), (0x00007003, .unallocated), (0x00002063, .unallocated),
      (0xD800007B, .unallocated), (0x3E08018B, .reserved), (0x2400107B, .reserved)].all
      (fun e => rejects e.1 e.2) = true ∧
    [0x80000033, 0x00001067, 0x00200073, 0x2400407B, 0x5800107B, 0x00042C2B].all
      (fun w => match decodeWord w with | .ok _ => false | .error _ => true) = true := by decide

/-- 16 R310 writes these two out as ILLEGAL: they decode, and lie out of range. -/
theorem test_queue_words_out_of_range :
    reads 0x3800927B (.qsend 4 9) = true ∧ reads 0x400062FB (.qrecv 5 6) = true ∧
    (Instr.qsend 4 9).inRange = false ∧ (Instr.qrecv 5 6).inRange = false := by decide

/-- Bytes little-endian (13 R249), the rest given back. -/
theorem test_decode_bytes :
    (match decode [0x93, 0x02, 0x10, 0x00, 0xAA] with
      | .ok (i, r) => i == .addi 5 0 1 && r == [0xAA]
      | .error _ => false) = true ∧
    (match decode [0x93, 0x02, 0x10] with | .error e => e == .truncated | .ok _ => false) = true ∧
    decodeTableWord 32 0x00100293 = some (.addi 5 0 1) := by decide

/-! ## Small states -/

/-- A strand ready to run: what a load, a launch and a dispatch leave (notes/assumptions/3.md). Virtual address a of its
first GiB is memory byte a, with all rights. -/
def st : State := placeStrand (placeWorld State.reset) placedStrand

def xs (l : List (Nat × Nat)) (s : State) : State :=
  s.onStrand fun u => { u with x := l.foldl (fun x e => tput 0 e.1 (BitVec.ofNat 64 e.2) x) u.x }

def mem (a n v : Nat) (s : State) : State := layBytes s 0 a (bytesOf n v)

/-- Elements 0 and up of vector register n, as values of type ty. -/
def vec (ty n : Nat) (l : List Nat) (s : State) : State :=
  s.onStrand fun u => (l.zip (List.range l.length)).foldl (fun u e => u.setElem ty n e.2 e.1) u

def preds (n : Nat) (l : List Bool) (s : State) : State :=
  s.onStrand fun u => (l.zip (List.range l.length)).foldl (fun u e => u.setP n e.2 e.1) u

/-- A word of a convoy under way: its type, its VL, and what it captured. -/
def issueOf (ty vl : Nat) (caps : List Nat) (i : Instr) : Issue :=
  { vm := isVmBody [encodeWord i]
    cv := { placedConvoy (encodeWord i) with
      head := encodeWord (.cvy 0 31 0 ty 0 0 0), caps := [caps.map (BitVec.ofNat 64)] }
    vl := vl, slot := 1, lo := 0, hi := vl, halt := none }

/-- As `issueOf`, with the head word of the CVY given. -/
def issueIn (head vl : Nat) (i : Instr) : Issue := let q := issueOf 0 vl [] i; { q with cv := { q.cv with head := head } }

def under (q : Issue) (s : State) : State := { s with issue := some q }

/-- The instruction answers a next state, and p holds of it. -/
def ok (i : Instr) (s : State) (p : State → Bool) : Bool := match exec i s with | .next t => p t | _ => false

/-- The values of elements 0 to n - 1 of a register. -/
def elems (ty r n : Nat) (t : State) : List Nat := (List.range n).map (t.strand.elem ty r)

/-- x1 after an instruction. -/
def gives (i : Instr) (s : State) (v : Word) : Bool := ok i s fun t => t.rx 1 == v && t.pc == s.pc + 4

def neg (n : Nat) : Nat := 2 ^ 64 - n

/-! ## The scalar base -/

/-- 15 R290 with x2 = -7 and x3 = 3. -/
theorem test_register_register : let s := xs [(2, neg 7), (3, 3)] st
    gives (.add 1 2 3) s (-4) ∧ gives (.sub 1 2 3) s (-10) ∧ gives (.sll 1 2 3) s (-56) ∧ gives (.slt 1 2 3) s 1 ∧
    gives (.sltu 1 2 3) s 0 ∧ gives (.xor 1 2 3) s (-6) ∧ gives (.srl 1 2 3) s 0x1FFFFFFFFFFFFFFF ∧
    gives (.sra 1 2 3) s (-1) ∧ gives (.or 1 2 3) s (-5) ∧ gives (.and 1 2 3) s 1 ∧ gives (.mul 1 2 3) s (-21) ∧
    gives (.mulh 1 2 3) s (-1) ∧ gives (.mulhsu 1 2 3) s (-1) ∧ gives (.mulhu 1 2 3) s 2 ∧ gives (.div 1 2 3) s (-2) ∧
    gives (.divu 1 2 3) s 6148914691236517203 ∧ gives (.rem 1 2 3) s (-1) ∧ gives (.remu 1 2 3) s 0 ∧
    gives (.addw 1 2 3) s (-4) ∧ gives (.subw 1 2 3) s (-10) ∧ gives (.sllw 1 2 3) s (-56) ∧
    gives (.srlw 1 2 3) s 0x1FFFFFFF ∧ gives (.sraw 1 2 3) s (-1) ∧ gives (.mulw 1 2 3) s (-21) ∧
    gives (.divw 1 2 3) s (-2) ∧ gives (.divuw 1 2 3) s 1431655763 ∧ gives (.remw 1 2 3) s (-1) ∧
    gives (.remuw 1 2 3) s 0 := by decide

/-- 12 R241: division by 0, and MIN by -1. -/
theorem test_division_corners : let z := xs [(2, 5)] st; let m := xs [(2, 2 ^ 63), (3, neg 1)] st
    gives (.div 1 2 3) z (-1) ∧ gives (.divu 1 2 3) z (-1) ∧ gives (.rem 1 2 3) z 5 ∧ gives (.remu 1 2 3) z 5 ∧
    gives (.div 1 2 3) m 0x8000000000000000 ∧ gives (.rem 1 2 3) m 0 := by decide

/-- 15 R289 with x2 = -7, and the immediate -5. -/
theorem test_register_immediate : let s := xs [(2, neg 7)] st
    gives (.addi 1 2 0xFFB) s (-12) ∧ gives (.slti 1 2 0xFFB) s 1 ∧ gives (.sltiu 1 2 0xFFB) s 1 ∧
    gives (.xori 1 2 0xFFB) s 2 ∧ gives (.ori 1 2 0xFFB) s (-5) ∧ gives (.andi 1 2 0xFFB) s (-7) ∧
    gives (.slli 1 2 33) s (-0xE00000000) ∧ gives (.srli 1 2 33) s 0x7FFFFFFF ∧ gives (.srai 1 2 33) s (-1) ∧
    gives (.addiw 1 2 0xFFB) s (-12) ∧ gives (.slliw 1 2 17) s (-917504) ∧ gives (.srliw 1 2 17) s 0x7FFF ∧
    gives (.sraiw 1 2 17) s (-1) ∧ gives (.lui 1 0x80001) s (-0x7FFFF000) ∧ gives (.auipc 1 1) s 0x2000 := by decide

/-- 15 R287 at PC 0x1000: targets, return addresses, x0. -/
theorem test_jumps : let s := xs [(2, 0x3001)] st
    ok (.jal 1 0x1FFFFC) s (fun t => t.rx 1 == 0x1004 && t.pc == 0xFFC) ∧
    ok (.jalr 2 2 3) s (fun t => t.rx 2 == 0x1004 && t.pc == 0x3004) ∧
    ok (.jal 0 8) s (fun t => t.rx 0 == 0 && t.pc == 0x1008) ∧
    ok (.jal 1 6) s (fun t => t.me.state == .stopping && t.rx 1 == 0 && t.pc == 0x1000 &&
      t.me.fault == some { cause := .misalign, fslot := 0, fpc := 0x1000, felem := 0, progress := 0, faddr := 0x1006 }) :=
  by decide

/-- 15 R287 with x2 = -1 and x3 = 1: which branches are taken. -/
theorem test_branches : let s := xs [(2, neg 1), (3, 1)] st
    [(Instr.beq 2 3 16, false), (.bne 2 3 16, true), (.blt 2 3 16, true), (.bge 2 3 16, false), (.bltu 2 3 16, false),
      (.bgeu 2 3 16, true), (.beq 2 2 0x1FF0, true)].all (fun e => ok e.1 s fun t => t.pc ==
        if e.2 then (if e.1 == .beq 2 2 0x1FF0 then 0xFF0 else 0x1010) else 0x1004) = true := by decide

/-- 15 R288: the eight bytes 88 87 86 85 84 83 82 81 at 0x2000. -/
theorem test_loads : let s := mem 0x2000 8 0x8182838485868788 (xs [(2, 0x2008)] st)
    gives (.lb 1 2 0xFF8) s (-0x78) ∧ gives (.lbu 1 2 0xFF9) s 0x87 ∧ gives (.lh 1 2 0xFFA) s (-0x7A7A) ∧
    gives (.lhu 1 2 0xFFA) s 0x8586 ∧ gives (.lw 1 2 0xFFC) s (-0x7E7D7C7C) ∧ gives (.lwu 1 2 0xFF8) s 0x85868788 ∧
    gives (.ld 1 2 0xFF8) s 0x8182838485868788 := by decide

/-- 15 R288, 05 R105: the low bytes at x2 - 8, and no byte beside them. -/
theorem test_stores : let s := mem 0x2000 8 0xFFFFFFFFFFFFFFFF (xs [(2, 0x2008), (3, 0x1122334455667788)] st)
    [(Instr.sb 3 2 0xFF8, 0xFFFFFFFFFFFFFF88), (.sh 3 2 0xFFA, 0xFFFFFFFF7788FFFF), (.sw 3 2 0xFFC, 0x55667788FFFFFFFF),
      (.sd 3 2 0xFF8, 0x1122334455667788)].all (fun e => ok e.1 s fun t =>
        readNum t 0 0x2000 8 == e.2 && readNum t 0 0x2008 8 == 0 && t.pc == 0x1004) = true := by decide

/-- 15 R292 with -1 at 0x2000 and x3 = 5: the new value, and the old one in x1. -/
theorem test_atomics : let s := mem 0x2000 8 0x00000000FFFFFFFF (xs [(2, 0x2000), (3, 5)] st)
    [(Instr.amoswapW 1 2 3 0 0, 5), (.amoaddW 1 2 3 0 0, 4), (.amoxorW 1 2 3 0 0, 0xFFFFFFFA), (.amoandW 1 2 3 0 0, 5),
      (.amoorW 1 2 3 0 0, 0xFFFFFFFF), (.amominW 1 2 3 0 0, 0xFFFFFFFF), (.amomaxW 1 2 3 0 0, 5),
      (.amominuW 1 2 3 0 0, 5), (.amomaxuW 1 2 3 1 1, 0xFFFFFFFF)].all (fun e => ok e.1 s fun t =>
        t.rx 1 == -1 && readNum t 0 0x2000 8 == e.2) = true ∧
    [(Instr.amoswapD 1 2 3 0 0, 5), (.amoaddD 1 2 3 0 0, 0x100000004), (.amoxorD 1 2 3 0 0, 0xFFFFFFFA),
      (.amoandD 1 2 3 0 0, 5), (.amoorD 1 2 3 0 0, 0xFFFFFFFF), (.amominD 1 2 3 0 0, 5), (.amomaxD 1 2 3 0 0, 0xFFFFFFFF),
      (.amominuD 1 2 3 0 0, 5), (.amomaxuD 1 2 3 1 1, 0xFFFFFFFF)].all (fun e => ok e.1 s fun t =>
        t.rx 1 == 0xFFFFFFFF && readNum t 0 0x2000 8 == e.2) = true := by decide

/-- 15 R297: an SC after its LR, after an LR of another width, and after none. -/
theorem test_reservation : let s := mem 0x2000 4 0x80000000 (xs [(2, 0x2000), (3, 5)] st)
    let held := fun (w : Nat) => s.onStrand fun u => { u with
      resv := some { addr := 0x2000, width := w, granule := 0x80, hold := true } }
    ok (.lrW 1 2 0 0) s (fun t => t.rx 1 == -0x80000000 && t.strand.resv == (held 4).strand.resv) ∧
    ok (.scW 1 2 3 0 0) (held 4) (fun t => t.rx 1 == 0 && readNum t 0 0x2000 4 == 5 && t.strand.resv == none) ∧
    ok (.scW 1 2 3 0 0) (held 8) (fun t => t.rx 1 == 1 && readNum t 0 0x2000 4 == 0x80000000 && t.strand.resv == none) ∧
    ok (.scD 1 2 3 0 0) s (fun t => t.rx 1 == 1 && readNum t 0 0x2000 4 == 0x80000000) := by decide

/-- 15 R302: the strand of a gang of one ends with it; any other x17 faults. -/
theorem test_ecall : ok .ecall st (fun t => t.me.state == .empty) ∧
    ok .ecall (xs [(17, 1)] st) (fun t => t.me.state == .stopping && (t.me.fault.map (·.cause)) == some .ecall) ∧
    ok .ebreak st (fun t => t.me.state == .stopping && (t.me.fault.map (·.cause)) == some .ebreak) := by decide

/-- 09 R159: the work identifier 0x219 of a launch with fields of 4 and 6 bits; 16 R311 and R307, R310. -/
theorem test_control_words :
    let s := (st.modLaunch 0 0 fun x => { x with widths := [4, 6, 0, 0, 0, 0] }).modCtx 0 0 fun c => { c with widv := 0x219 }
    gives (.wid 1 6) s 0x219 ∧ gives (.wid 1 1) s 33 ∧ gives (.wid 1 0) s 9 ∧ gives (.wid 1 5) s 0 ∧
    gives (.setvli 1 32767) (st.modCtx 0 0 fun c => { c with elat := 3 }) 512 ∧ gives (.setvl 1 2) (xs [(2, 7)] st) 7 ∧
    ok (.setvl 1 2) (xs [(2, 7)] st) (fun t => t.strand.vl == 7) ∧
    ok (.qsend 2 9) (xs [(9, 77)] st) (fun t => t.strand.qget 2 == [77] && t.pc == 0x1004) ∧
    gives (.qrecv 1 4) (st.onStrand fun u => { u with q := tset 4 [5, 6] u.q }) 5 ∧
    ok (.qrecv 0 4) (st.onStrand fun u => { u with q := tset 4 [5, 6] u.q }) (fun t => t.strand.qget 4 == [6]) ∧
    ok (.xltrap 5) st (fun t => t.me.fault.map (fun f => (f.cause, f.fpc, f.faddr)) == some (.xlate, 0x1000, 5)) ∧
    gives (.fflags 1) (st.onStrand fun u => { u with fflags := 5 }) 5 := by decide

/-! ## Words of a convoy -/

/-- 18 R333, 12 R240, R241 on i8, without saturation: 100 and 100, -128 and -1. -/
theorem test_integer_words : let s := vec 0 2 [100, 0xFF] (vec 0 1 [100, 0x80] st)
    [(Instr.vadd 3 1 2 0, [0xC8, 0x7F]), (.vsub 3 1 2 0, [0, 0x81]), (.vrsub 3 1 2 0, [0, 0x7F]), (.vmul 3 1 2 0, [0x10, 0x80]),
      (.vmulh 3 1 2 0, [0x27, 0]), (.vdiv 3 1 2 0, [1, 0x80]), (.vrem 3 1 2 0, [0, 0]), (.vmin 3 1 2 0, [100, 0x80]),
      (.vmax 3 1 2 0, [100, 0xFF]), (.vand 3 1 2 0, [100, 0x80]), (.vor 3 1 2 0, [100, 0xFF]), (.vxor 3 1 2 0, [0, 0x7F]),
      (.vsll 3 1 2 0, [0x40, 0]), (.vsrl 3 1 2 0, [6, 1]), (.vsra 3 1 2 0, [6, 0xFF]), (.vabs 3 1, [100, 0x80]),
      (.vneg 3 1, [0x9C, 0x80]), (.vclz 3 1, [1, 0]), (.vpopcnt 3 1, [3, 1])].all
      (fun e => ok e.1 (under (issueOf 0 2 [] e.1) s) fun t => elems 0 3 3 t == e.2 ++ [0]) = true := by decide

/-- 16 R321: 60,000 + 60,000 in fp16 gives infinity (0x7C00) with OF and NX; 12 R238. -/
theorem test_half_overflow : let i := Instr.vadd 3 1 2 0
    ok i (under (issueOf 8 1 [] i) (vec 8 2 [0x7B53] (vec 8 1 [0x7B53] st)))
      (fun t => elems 8 3 1 t == [0x7C00] && t.strand.fflags == 5) := by decide

/-- 18 R333 to R336 on fp32 with a = 3, b = -2 and d = 1. -/
theorem test_float_words : let s := vec 10 3 [0x3F800000] (vec 10 2 [0xC0000000] (vec 10 1 [0x40400000] st))
    [(Instr.vadd 3 1 2 0, 0x3F800000), (.vsub 3 1 2 0, 0x40A00000), (.vrsub 3 1 2 0, 0xC0A00000), (.vmul 3 1 2 0, 0xC0C00000),
      (.vdiv 3 1 2 0, 0xBFC00000), (.vmin 3 1 2 0, 0xC0000000), (.vmax 3 1 2 0, 0x40400000), (.vsgnj 3 1 2 0, 0xC0400000),
      (.vfma 3 1 2 0, 0xC0A00000), (.vfms 3 1 2 0, 0xC0E00000), (.vfnma 3 1 2 0, 0x40A00000), (.vfnms 3 1 2 0, 0x40E00000),
      (.vabs 3 2, 0x40000000), (.vneg 3 2, 0x40000000), (.vsqrt 3 2, 0x7FC00000)].all
      (fun e => ok e.1 (under (issueOf 10 1 [] e.1) s) fun t => elems 10 3 1 t == [e.2]) = true ∧
    (let i := Instr.vscale 3 1 4 1
     ok i (under (issueOf 10 1 [3] i) s) fun t => elems 10 3 1 t == [0x41C00000]) := by decide

/-- 18 R334: 1 + 2^-12 squared, less 1, rounded once. -/
theorem test_fused_rounds_once : let i := Instr.vfma 3 1 2 0
    ok i (under (issueOf 10 1 [] i) (vec 10 3 [0xBF800000] (vec 10 2 [0x3F800800] (vec 10 1 [0x3F800800] st))))
      (fun t => elems 10 3 1 t == [0x3A000400] && t.strand.fflags == 0) := by decide

/-- 18 R336: signed comparisons of i16, and of fp32 with a NaN. -/
theorem test_comparisons : let s := vec 2 2 [1, 1] (vec 2 1 [0xFFFF, 1] st)
    [(Instr.vcmpeq 5 1 2 0, false, true), (.vcmpne 5 1 2 0, true, false), (.vcmplt 5 1 2 0, true, false),
      (.vcmple 5 1 2 0, true, true), (.vcmpgt 5 1 2 0, false, false), (.vcmpge 5 1 2 0, false, true)].all
      (fun e => ok e.1 (under (issueOf 2 2 [] e.1) s) fun t =>
        t.strand.pbit 5 0 == e.2.1 && t.strand.pbit 5 1 == e.2.2) = true ∧
    (let z := vec 10 2 [0x3F800000] (vec 10 1 [0x7FC00000] st)
     [(Instr.vcmpne 5 1 2 0, true), (.vcmpuo 5 1 2 0, true), (.vcmpeq 5 1 2 0, false)].all
       (fun e => ok e.1 (under (issueOf 10 1 [] e.1) z) fun t => t.strand.pbit 5 0 == e.2) = true) := by decide

/-- 18 R337: 2.5e9 to i32 with NV; R338 to R340, R348. -/
theorem test_moves : let s := preds 4 [true, false] (vec 10 2 [0x4F1502F9] (vec 4 1 [10, 11] st))
    let run := fun (ty vl : Nat) (caps : List Nat) (i : Instr) (p : State → Bool) => ok i (under (issueOf ty vl caps i) s) p
    run 4 1 [] (.vcvt 4 2 10) (fun t => elems 4 4 1 t == [2147483647] && t.strand.fflags == 16) ∧
    run 4 2 [] (.vmvV 3 1) (fun t => elems 4 3 2 t == [10, 11]) ∧
    run 4 2 [neg 1] (.vmvX 3 12) (fun t => elems 4 3 2 t == [0xFFFFFFFF, 0xFFFFFFFF]) ∧
    run 4 3 [] (.vid 3) (fun t => elems 4 3 4 t == [0, 1, 2, 0]) ∧
    run 4 2 [1, 99] (.vins 3 11 12) (fun t => elems 4 3 2 t == [0, 99]) ∧
    run 4 2 [] (.pmovv 3 4) (fun t => elems 4 3 2 t == [1, 0]) ∧
    run 4 2 [] (.vmovp 5 1) (fun t => t.strand.pbit 5 0 && t.strand.pbit 5 1) ∧
    (let i := Instr.vmerge 3 1 2 0
     ok i (under (issueIn (encodeWord (.cvy 0 4 0 4 0 0 0)) 2 i) (vec 4 2 [20, 21] s))
       fun t => elems 4 3 2 t == [10, 21]) := by decide

/-- 18 R351, R352 with p1 = 1010 and p2 = 0110. -/
theorem test_predicate_words : let s := preds 2 [false, true, true, false] (preds 1 [true, false, true, false] st)
    [(Instr.pand 3 1 2, [false, false, true, false]), (.por 3 1 2, [true, true, true, false]),
      (.pxor 3 1 2, [true, true, false, false]), (.pandn 3 1 2, [true, false, false, false]),
      (.pnot 3 1, [false, true, false, true]), (.pset 3, [true, true, true, true]), (.pclr 3, [false, false, false, false]),
      (.pfirst 3 2, [false, true, false, false])].all (fun e => ok e.1 (under (issueOf 4 4 [] e.1) s) fun t =>
        (List.range 5).map (t.strand.pbit 3) == e.2 ++ [false]) = true := by decide

/-- 18 R342, R353: the worked fragment under R353: eight elements, guard p1. -/
theorem test_compress_and_count :
    let p1 := [true, false, true, false, true, true, false, true]
    let s := preds 1 p1 (vec 4 3 [99, 99, 99, 99, 99, 99, 99, 99] (vec 4 1 [10, 11, 12, 13, 14, 15, 16, 17] st))
    let q := issueIn 0x0212007B 8
    ok (.vcompress 3 1) (under (q (.vcompress 3 1)) s) (fun t => elems 4 3 8 t == [10, 12, 14, 15, 17, 99, 99, 99]) ∧
    ok (.vpopcLq 0 1) (under (q (.vpopcLq 0 1)) s) (fun t => t.strand.lqget 0 == [5]) ∧
    ok (.viota 3 1) (under (issueOf 4 8 [] (.viota 3 1)) s) (fun t => elems 4 3 8 t == [0, 1, 1, 2, 2, 3, 4, 4]) := by decide

/-- 18 R343 to R345. -/
theorem test_slides_and_permutes : let s := vec 5 2 [2, 9, 0, 1] (vec 5 1 [10, 11, 12, 13] st)
    let run := fun (k : Nat) (i : Instr) (l : List Nat) => ok i (under (issueOf 5 4 [k] i) s) fun t => elems 5 3 4 t == l
    run 1 (.vslideup 3 1 12) [0, 10, 11, 12] ∧ run 1 (.vslidedn 3 1 12) [11, 12, 13, 0] ∧
    run 0 (.vperm 3 1 2) [12, 0, 10, 11] ∧ run 3 (.vxchg 3 1 12) [10, 11, 12, 13] := by decide

/-- 18 R346, 12 R244: the sum and the seed; VL = 0 gives the seed. -/
theorem test_reductions : let s := vec 4 2 [100] (vec 4 1 [7, 0xFFFFFFFD, 5] st)
    [(Instr.vredsum 3 1 2 0, 109), (.vredmax 3 1 2 0, 100), (.vredmin 3 1 2 0, 0xFFFFFFFD), (.vredand 3 1 2 0, 4),
      (.vredor 3 1 2 0, 0xFFFFFFFF), (.vredxor 3 1 2 0, 0xFFFFFF9B)].all
      (fun e => ok e.1 (under (issueOf 4 3 [] e.1) s) fun t => elems 4 3 2 t == [e.2, 0]) = true ∧
    (let i := Instr.vredsum 3 1 12 1
     ok i (under (issueOf 4 0 [42] i) s) fun t => elems 4 3 1 t == [42]) ∧
    (let i := Instr.vfredosum 3 1 2 0
     ok i (under (issueOf 10 2 [] i) (vec 10 2 [0x3F800000] (vec 10 1 [0x40000000, 0x40400000] st)))
       fun t => elems 10 3 1 t == [0x40C00000]) := by decide

/-- 18 R347, R349: an element to its pending register, a queue to a vector and back. -/
theorem test_elements_and_queues :
    let s := vec 2 1 [5, 0x8000] st
    let i := Instr.vext 5 1 12
    let q := issueOf 2 2 [1] i
    ok i (under q (s.onStrand fun u => { u with pend := [{ reg := 5, tok := q.tok }] }))
      (fun t => t.rx 5 == -0x8000 && t.strand.pend == []) ∧
    ok (.vqsend 4 1) (under (issueOf 2 2 [] (.vqsend 4 1)) s) (fun t => t.strand.qget 4 == [5]) ∧
    ok (.vqrecv 3 1) (under (issueOf 2 2 [] (.vqrecv 3 1)) (s.onStrand fun u => { u with q := tset 1 [0x10007] u.q }))
      (fun t => elems 2 3 2 t == [7, 7] && t.strand.qget 1 == []) := by decide

/-- 18 R355, R356: the worked fragment. -/
theorem test_blocks :
    let xs := [0x3E800000, 0xBFA00000, 0x40200000, 0, 0x40A00000, 0xBD800000, 0x40F00000, 0x3F800000]
    let s := (xs.zip (List.range 8)).foldl (fun s e => s.onStrand fun u => u.setSlot (8 + e.2) 0 e.1) st
    ok (.vqnt4 2 8) (under (issueOf 14 1 [] (.vqnt4 2 8)) s) (fun t => t.strand.slot 2 0 == 0x278604A0 &&
      t.strand.slot 3 0 == 0x68 && t.strand.vvbit 0 && t.strand.fflags == 3) ∧
    ok (.vdq4 16 2) (under (issueOf 14 1 [] (.vdq4 16 2))
        (s.onStrand fun u => ((u.setSlot 2 0 0x278604A0).setSlot 3 0 0x68).setVv 0 true))
      (fun t => (List.range 8).map (fun j => t.strand.slot (16 + j) 0) ==
        [0, 0xBFA00000, 0x40200000, 0, 0x40A00000, 0x80000000, 0x40F00000, 0x3FA00000] && t.strand.fflags == 0) := by decide

/-- 24 R423, the worked fragment: GOR2 with tie-break, and without. -/
theorem test_orientation :
    let cols := [[0, 0, 0, 0], [0, 0, 0, 0], [0x3F800000, 0x3F800000, 0x3F800000, 0], [0, 0x3F800000, 0x3F800000, 0],
      [0, 0x40000000, 0x40000000, 0], [0x3F800000, 0x40000000, 0x40000001, 0]]
    let s := (cols.zip (List.range 6)).foldl (fun s e => vec 10 (16 + e.2) e.1 s) st
    let i := Instr.gor2 8 16
    ok i (under (issueIn 0x01F5047B 4 i) s) (fun t => elems 5 8 5 t == [1, 0xFFFFFFFE, 1, 0xFFFFFFFE, 0]) ∧
    ok i (under (issueIn 0x01F5007B 4 i) s) (fun t => elems 5 8 4 t == [1, 0, 1, 0]) := by decide +kernel

/-- 24 R421: a point inside a circle, and the same with a and b exchanged. -/
theorem test_circle :
    let s := fun (f : List Nat) => (f.zip (List.range 8)).foldl (fun s e => vec 10 (16 + e.2) [e.1] s) st
    let one := 0x3F800000
    let mone := 0xBF800000
    let i := Instr.ginc 8 16
    ok i (under (issueOf 10 1 [] i) (s [one, 0, 0, one, mone, 0, 0, 0])) (fun t => elems 5 8 1 t == [1]) ∧
    ok i (under (issueOf 10 1 [] i) (s [0, one, one, 0, mone, 0, 0, 0])) (fun t => elems 5 8 1 t == [0xFFFFFFFF]) := by decide +kernel

/-! ## Witnesses: states and operands that meet the hypotheses of the statements

The placed strand stands at 0x1000 of identity-mapped memory; x2 points to 0x2000. -/

/-- Where an access reaches memory and P holds, the hypotheses of a statement about it are met. -/
theorem reaches {r : Except Cause Xlat} {P : Xlat → Nat → Prop} [∀ x pa, Decidable (P x pa)]
    (h : (match r with
      | .ok x => (match x.target with | .mem pa => decide (P x pa) | _ => false)
      | .error _ => false) = true) : ∃ x pa, r = .ok x ∧ x.target = .mem pa ∧ P x pa := by
  match r, h with
  | .ok x, h =>
    cases ht : x.target <;> simp only [ht, decide_eq_true_eq, Bool.false_eq_true] at h
    exact ⟨x, _, rfl, ht, h⟩

/-- x1 = -1, x2 = 0x2000, x3 = 3, x9 = 77; -1 at 0x2000. -/
def ws : State := mem 0x2000 8 0xFFFFFFFFFFFFFFFF (xs [(1, neg 1), (2, 0x2000), (3, 3), (9, 77)] st)

/-- Every walk of queue 5's world waits: the links of its table pages retrain. -/
def wk (s : State) : State := { s with mlinks := (List.range 24).map fun n => (n, { Link.zero with retraining := true }) }

/-- A line of world 0's memory fails. -/
def bad (l : Nat) (s : State) : State := { s with lineBad := [(l, true)] }

theorem witness_ControlTransfers :
    (ws.pc + dword (simm 21 8)).toNat % 4 = 0 ∧ (ws.pc + dword (simm 21 0x100000)).toNat % 4 = 0 ∧
    ((ws.rx 2 + dword (simm 12 5)) &&& ~~~1#64).toNat % 4 = 0 ∧ (ws.pc + dword (simm 13 0x1000)).toNat % 4 = 0 ∧
    ws.rx 2 = ws.rx 2 ∧ ws.rx 2 ≠ ws.rx 3 ∧ (ws.rx 1).toInt < (ws.rx 3).toInt ∧ (ws.rx 3).toInt ≤ (ws.rx 2).toInt ∧
    (ws.rx 3).toNat < (ws.rx 1).toNat ∧ (ws.rx 3).toNat ≤ (ws.rx 2).toNat := by decide

theorem witness_MisalignedAddresses : ws.me.state.live = true ∧ (ws.pc + dword (simm 21 2)).toNat % 4 ≠ 0 ∧
    ((ws.rx 2 + dword (simm 12 2)) &&& ~~~1#64).toNat % 4 ≠ 0 ∧ (ws.pc + dword (simm 13 0x1002)).toNat % 4 ≠ 0 ∧
    accessVa ws 2 1 % 2 ≠ 0 ∧ accessVa ws 2 0xFFE % 4 ≠ 0 ∧ accessVa ws 2 4 % 8 ≠ 0 ∧ (ws.rx 3).toNat % 4 ≠ 0 ∧
    (ws.rx 3).toNat % 8 ≠ 0 ∧ scalarDone ws true true = true ∧ ws.strand.releasing = false := by decide

theorem witness_LoadValues : ∀ e ∈ loadForms, ∃ x pa,
    checkAccess ws ws.cur.1 ws.cur.2 (ws.me.core 0)
      (scalarAsk ws ws.cur.1 ws.cur.2 (accessVa ws 2 0) e.2.1 .load none) = .ok x ∧ x.target = .mem pa ∧
    (walkBusy ws ws.cur.1 ws.cur.2 (accessVa ws 2 0) e.2.1 .load = false ∧ scalarWaits ws ws.cur.1 ws.cur.2 pa e.2.1 = false ∧
      tagFails ws (keySlot ws ws.cur.1) pa e.2.1 = false) := by
  intro e he
  simp only [loadForms, List.mem_cons, List.not_mem_nil, or_false] at he
  rcases he with rfl | rfl | rfl | rfl | rfl | rfl | rfl <;> exact reaches (by decide)

theorem witness_StoreBytes : ∀ e ∈ storeForms, ∃ x pa,
    checkAccess ws ws.cur.1 ws.cur.2 (ws.me.core 0) (scalarAsk ws ws.cur.1 ws.cur.2 (accessVa ws 2 0) e.2 .store
      (if e.2 = 8 then some (ws.rx 3).toNat else none)) = .ok x ∧ x.target = .mem pa ∧
    (granuleHeld ws ws.cur.1 ws.cur.2 pa e.2 = false ∧ ws.strand.acquiring = false ∧ ws.strand.updating pa e.2 = false ∧
      convoyNames ws ws.cur.1 ws.cur.2 pa e.2 = false ∧ writeTagFails ws (keySlot ws ws.cur.1) pa e.2 = false ∧
      writeWaits ws pa e.2 = false ∧ walkBusy ws ws.cur.1 ws.cur.2 (accessVa ws 2 0) e.2 .store = false ∧
      ws.strand.lockPending (accessVa ws 2 0) e.2 = false) := by
  intro e he
  simp only [storeForms, List.mem_cons, List.not_mem_nil, or_false] at he
  rcases he with rfl | rfl | rfl | rfl <;> exact reaches (by decide)

theorem witness_AccessedAndDirty : ∃ x pa,
    checkAccess ws ws.cur.1 ws.cur.2 (ws.me.core 0) (scalarAsk ws ws.cur.1 ws.cur.2 0x2000 8 .load none) = .ok x ∧
    x.target = .mem pa ∧ (∃ l ∈ x.leaf, l.loc % 8 = 0 ∧ isMem l.loc = true ∧
      slotOf ws.lineSlot (l.loc / 64) = keySlot ws ws.cur.1 ∧ readNum ws (keySlot ws ws.cur.1) l.loc 8 = l.entry) :=
  reaches (by decide)

theorem witness_AtomicUpdates : ∀ n ∈ [4, 8], ∃ x pa, let s1 := setAD ws ws.cur.1 x .amo
    checkAccess ws ws.cur.1 ws.cur.2 (ws.me.core 0) (scalarAsk ws ws.cur.1 ws.cur.2 (ws.rx 2).toNat n .amo none) = .ok x ∧
    x.target = .mem pa ∧
    (virgaRoom ws ws.cur.1 ws.cur.2 1 = true ∧ granuleHeld ws ws.cur.1 ws.cur.2 pa n = false ∧
      ws.strand.acquiring = false ∧ ws.strand.updating pa n = false ∧ convoyNames ws ws.cur.1 ws.cur.2 pa n = false ∧
      portLater ws pa n = false ∧ walkBusy ws ws.cur.1 ws.cur.2 (ws.rx 2).toNat n .amo = false ∧
      writeTagFails s1 (keySlot ws ws.cur.1) pa n = false ∧ scalarDone ws true true = true ∧ ws.strand.releasing = false ∧
      ws.strand.lockPending (ws.rx 2).toNat n = false) := by
  intro n hn
  simp only [List.mem_cons, List.not_mem_nil, or_false] at hn
  rcases hn with rfl | rfl <;> exact reaches (by decide)

/-- An LR, and an SC with its reservation and without. -/
theorem witness_ReserveAndConditional :
    (∃ x pa, checkAccess ws ws.cur.1 ws.cur.2 (ws.me.core 0) (scalarAsk ws ws.cur.1 ws.cur.2 (ws.rx 2).toNat 8 .load none)
        = .ok x ∧ x.target = .mem pa ∧ (scalarWaits ws ws.cur.1 ws.cur.2 pa 8 = false ∧
      walkBusy ws ws.cur.1 ws.cur.2 (ws.rx 2).toNat 8 .load = false ∧
      granuleHeld ws ws.cur.1 ws.cur.2 pa 8 = false ∧ tagFails ws (keySlot ws ws.cur.1) pa 8 = false)) ∧
    (let s := ws.onStrand fun u => { u with resv := some { addr := 0x2000, width := 8, granule := 0x80, hold := true } }
     ∃ x pa, checkAccess s s.cur.1 s.cur.2 (s.me.core 0) (scalarAsk s s.cur.1 s.cur.2 (s.rx 2).toNat 8 .store none) = .ok x ∧
       x.target = .mem pa ∧ (virgaRoom s s.cur.1 s.cur.2 1 = true ∧ granuleHeld s s.cur.1 s.cur.2 pa 8 = false ∧
         s.strand.acquiring = false ∧ s.strand.updating pa 8 = false ∧ convoyNames s s.cur.1 s.cur.2 pa 8 = false ∧
         portLater s pa 8 = false ∧ walkBusy s s.cur.1 s.cur.2 (s.rx 2).toNat 8 .store = false ∧
         s.strand.releasing = false ∧ s.strand.lockPending (s.rx 2).toNat 8 = false ∧
         writeTagFails (setAD s s.cur.1 x .store) (keySlot s s.cur.1) pa 8 = false ∧
         (setAD s s.cur.1 x .store).strand.resv = some { addr := 0x2000, width := 8, granule := pa / 64, hold := true })) ∧
    ws.strand.resv = none := ⟨reaches (by decide), reaches (by decide), by decide⟩

/-- A gang of two strands, the first running, the other running or dead. -/
def st2 (c : CtxState) : State := (st.modLaunch 0 0 fun x => { x with
    gangs := x.gangs.map fun g => (g.1, { g.2 with ctxs := [0, 1] }) }).modCtx 0 1 fun _ => { st.ctx 0 0 with index := 1, state := c }

/-- The last strand of a gang and one that is not; a convoy that has not retired, and an update that waits at a held granule. -/
theorem witness_EcallAndEbreak :
    let last := fun (s : State) => (s.gangOf s.cur.1 s.cur.2).state ≠ .ended ∧
      ∀ j ∈ (s.gangOf s.cur.1 s.cur.2).ctxs, ctxKey s.cur.1 j ≠ ctxKey s.cur.1 s.cur.2 → (s.ctx s.cur.1 j).state = .dead
    (st2 .dead).me.state.live = true ∧ (st2 .dead).rx 17 = 0 ∧ (st2 .dead).strand.convoysDone = true ∧
    sentWaits (st2 .dead) 0 0 = false ∧ (st2 .dead).strand.ops.all (fun o => o.cls != 1) = true ∧ last (st2 .dead) ∧
    ¬ last (st2 .running) ∧ sentWaits (st2 .running) 0 0 = false ∧ (0 ∈ ((st2 .dead).gangOf 0 0).ctxs ∧ 1 ∈ ((st2 .dead).gangOf 0 0).ctxs) ∧
    (st.onStrand fun u => { u with va := [.convoy (placedConvoy 0x28C0005B)] }).strand.convoysDone = false ∧
    (let s := ({ st2 .running with ready := { Ready.zero with mgrp := 1, grpBytes := 2 ^ 33 } }.modCtx 0 1 fun c => { c with strand := { c.strand with
        resv := some { addr := 0x2000, width := 8, granule := 0x80, hold := true } } }).onStrand fun u => { u with
        ops := [{ Op.zero with cls := 1, kind := 0x10, wlog := 3, pa := 0x2000 }] }
     sentWaits s 0 0 = true) ∧ (xs [(17, 1)] st).rx 17 ≠ 0 := by decide

/-- 15 R302, 03 R57: the last strand's ECALL ends the gang, whose contexts are EMPTY; before that, the context is DEAD. -/
theorem test_gang_end : ok .ecall (st2 .dead) (fun t => t.me.state == .empty && (t.ctx 0 1).state == .empty) ∧
    ok .ecall (st2 .running) (fun t => t.me.state == .dead && (t.ctx 0 1).state == .running) := by decide

/-! Words: a latch that the hypotheses accept, for every form. -/

theorem witness_IntegerTwoOperandWords : ∀ e ∈ integerForms, ∀ ty ∈ [0, 1, 2, 3, 4, 5, 6, 7],
    let q := issueOf ty 4 [] (e.1 2 4 6 0)
    q.hi ≤ 4096 ∧ tyInt q.mode.etype = true ∧ bodyOk q.mode.etype (e.1 2 4 6 0) = true := by decide

theorem witness_FloatTwoOperandWords : (∀ e ∈ floatForms, ∀ ty ∈ [8, 9, 10, 11],
    let q := issueOf ty 4 [] (e.1 2 4 6 0)
    q.hi ≤ 4096 ∧ tyFloat q.mode.etype = true ∧ bodyOk q.mode.etype (e.1 2 4 6 0) = true) ∧
    ∀ sx ∈ [0, 1], bodyOk (issueOf 10 4 [3] (.vscale 2 4 6 sx)).mode.etype (.vscale 2 4 6 sx) = true := by decide

theorem witness_FusedWords : ∀ i ∈ [Instr.vfma 2 4 6 0, .vfms 2 4 6 0, .vfnma 2 4 6 0, .vfnms 2 4 6 1],
    let q := issueOf 11 4096 [1] i
    q.hi ≤ 4096 ∧ bodyOk q.mode.etype i = true := by decide

/-- Numbers, infinities and NaNs of fp32 and e4m3 (12 R229, R231), and a mode. -/
theorem witness_rounding : (finite 10 0x3F800000 ∧ number 10 0x3F800000 = 1 ∧ finite 10 0x80000000 ∧ number 10 0x80000000 = 0 ∧
      finite 10 0xC0000000 ∧ number 10 0xC0000000 = -2) ∧ (infinite 10 0xFF800000 ∧ negOf 10 0xFF800000 = true) ∧
    (notNumber 10 0x7FC00000 ∧ ¬ signalling 10 0x7FC00000 ∧ signalling 10 0x7F800001) ∧
    (notNumber 12 0xFF ∧ ¬ signalling 12 0xFF ∧ finite 12 0x7E ∧ number 12 0x7E = 448) ∧
    (let m := (issueOf 4 1 [] (.vcvt 2 4 10)).mode; m.rm < 5 ∧ 10 ≠ m.etype) := by decide +kernel

/-- 12 R232: 460 to e4m3 is 448 under RTZ, with NX alone; 500 overflows to NaN. R242: 127.5 to i8 gives 127 with NV. -/
theorem test_rounding : (magnitude 12 0x7E = 448 ∧ magnitude 8 1 = 1 / 2 ^ 24 ∧ magnitude 11 0x3FF8000000000000 = 3 / 2) ∧
    convert 10 { guard := 31, gneg := false, etype := 12, rm := 1, sat := false, tb := 0 } 0x43E60000 = (0x7E, 1) ∧
    convert 10 { guard := 31, gneg := false, etype := 12, rm := 0, sat := false, tb := 0 } 0x43FA0000 = (0x7F, 5) ∧
    convert 10 { guard := 31, gneg := false, etype := 0, rm := 0, sat := false, tb := 0 } 0x42FF0000 = (127, 16) ∧
    convert 10 { guard := 31, gneg := false, etype := 0, rm := 0, sat := false, tb := 0 } 0x42FECCCD = (127, 1) := by decide +kernel

theorem witness_OneOperandWords :
    (tyInt (issueOf 4 4 [] (.vabs 1 2)).mode.etype = true ∧ ∀ i ∈ [Instr.vabs 1 2, .vneg 1 2, .vclz 1 2, .vpopcnt 1 2],
      bodyOk (issueOf 4 4 [] i).mode.etype i = true) ∧
    tyFloat (issueOf 10 4 [] (.vabs 1 2)).mode.etype = true ∧ ∀ i ∈ [Instr.vabs 1 2, .vneg 1 2, .vsqrt 1 2, .vclass 1 2],
      bodyOk (issueOf 10 4 [] i).mode.etype i = true := by decide

theorem witness_CompareWords : ∀ i ∈ [Instr.vcmpeq 23 1 2 0, .vcmpne 23 1 2 0, .vcmplt 0 1 2 0, .vcmple 0 1 2 0,
      .vcmpgt 0 1 2 0, .vcmpge 0 1 2 1, .vcmpuo 0 1 2 0],
    bodyOk (issueOf 10 4 [1] i).mode.etype i = true := by decide

theorem witness_MoveAndConvertWords : (∀ i ∈ [Instr.vcvt 2 4 10, .vmvV 2 4, .vmvX 2 3, .vmerge 2 4 6 0, .vmerge 2 4 6 1,
      .vid 2, .vins 2 3 4, .pmovv 2 23], bodyOk (issueOf 4 4 [1, 2] i).mode.etype i = true) ∧
    bodyOk (issueOf 14 4 [] (.vmvV 2 4)).mode.etype (.vmvV 2 4) = true := by decide

theorem witness_CrossElementWords : (∀ i ∈ [Instr.viota 1 4, .vcompress 1 2, .vslideup 1 2 3, .vslidedn 1 2 3, .vxchg 1 2 3,
      .vperm 1 2 3], let q := issueOf 5 1024 [1] i
      q.lo = 0 ∧ q.hi = q.vl ∧ q.vl ≤ 4096 ∧ bodyOk q.mode.etype i = true) ∧
    -- an index in the other slice, at element 1, is the lowest
    (let s := vec 5 3 [0, 600] st
     let q := issueOf 5 1024 [] (.vperm 1 2 3)
     Act s q 1 ∧ s.strand.slot 3 1 < q.vl ∧ s.strand.slot 3 1 / 512 ≠ 1 / 512 ∧
       ∀ j < 1, s.strand.slot 3 j / 512 = j / 512) := by simp only [Act]; decide

theorem witness_Reductions : (∀ e ∈ reduceForms, bodyOk (issueOf 4 4 [] (e.1 1 2 3 0)).mode.etype (e.1 1 2 3 0) = true) ∧
    bodyOk (issueOf 11 0 [] (.vfredosum 2 4 6 0)).mode.etype (.vfredosum 2 4 6 0) = true := by decide

theorem witness_ElementAndQueueWords :
    (st.strand.lqget 0).length < 8 ∧ (st.strand.qget 4).length < 16 ∧ st.strand.qget 1 = [] ∧
    ¬ ((st.onStrand fun u => { u with lq := tset 3 (List.replicate 8 1) u.lq }).strand.lqget 3).length < 8 ∧
    ¬ ((st.onStrand fun u => { u with q := tset 7 (List.replicate 16 1) u.q }).strand.qget 7).length < 16 ∧
    (st.onStrand fun u => { u with q := tset 1 [5] u.q }).strand.qget 1 = [5] ∧
    bodyOk (issueOf 4 4 [] (.vqrecv 3 1)).mode.etype (.vqrecv 3 1) = true := by decide

theorem witness_BlockWords : bodyOk (issueOf 14 4 [] (.vqnt4 2 8)).mode.etype (.vqnt4 2 8) = true ∧
    bodyOk (issueOf 14 4 [] (.vdq4 8 2)).mode.etype (.vdq4 8 2) = true := by decide

theorem witness_GeometricWords :
    (∀ e ∈ [(Instr.gor2 40 16, GWord.gor2), (.gor3 40 16, .gor3), (.ginc 40 16, .ginc), (.gins 40 16, .gins),
        (.gsegx 40 16, .gsegx)], let q := issueOf 10 1 [] e.1
      q.cv.prog = 0 ∧ q.lo = 0 ∧ q.vl ≤ 4096 ∧ bodyOk q.mode.etype e.1 = true ∧ Act st q 0 ∧
      finiteAt st.strand e.2 q.mode.etype 16 0 = true) ∧
    (let s := vec 10 17 [0, 0x7FC00000] st
     let q := issueOf 10 4 [] (.gor2 40 16)
     Act s q 1 ∧ finiteAt s.strand .gor2 10 16 1 = false ∧ finiteAt s.strand .gor2 10 16 0 = true) ∧
    (let q := { issueOf 10 2 [] (.gor2 40 16) with cut := some (3, 1) }
     q.cut = some (3, 1) ∧ 1 ≤ q.vl ∧ Act st q 0 ∧ finiteAt st.strand .gor2 10 16 0 = true ∧ finiteAt st.strand .gor2 10 16 1 = true) ∧
    (issueOf 10 2 [] (.gor2 40 16)).cut = none := by simp only [Act]; decide +kernel

/-- A word on the witness state, with its captured operands. -/
def wq (ty vl : Nat) (caps : List Nat) (i : Instr) : Issue := issueOf ty vl caps i

/-- An element's load and store of 4 bytes at 0x2000. -/
theorem witness_ElementAccesses :
    (∃ x pa, checkAccess ws 0 0 (ws.me.core 0)
        { va := 0x2000, width := 4, acc := .load, vec := true, sd := none, locks := [] } = .ok x ∧ x.target = .mem pa ∧
      (walkBusy ws 0 0 0x2000 4 .load = false ∧ portBusy ws pa 4 = false ∧ ws.strand.updating pa 4 = false ∧
        tagFails ws (keySlot ws 0) pa 4 = false)) ∧
    ∃ x pa, checkAccess ws 0 0 (ws.me.core 0)
        { va := 0x2000, width := 4, acc := .store, vec := true, sd := none, locks := [(0x3000, 8)] } = .ok x ∧
      x.target = .mem pa ∧ (granuleHeld ws 0 0 pa 4 = false ∧ ws.strand.updating pa 4 = false ∧
        writeTagFails ws (keySlot ws 0) pa 4 = false ∧ writeWaits ws pa 4 = false ∧ walkBusy ws 0 0 0x2000 4 .store = false ∧
        matrixReads ws 0 0 pa 4 = false ∧ stripWaits ws 0 0 1 = false) :=
  ⟨reaches (by decide), reaches (by decide)⟩

/-- The accesses of two elements answer, in every form. -/
theorem witness_VectorMemoryWords : NoneAsked ws (wq 4 2 [0x2000, 8] (.vld 8 2)) ∧
    (∀ i ∈ [Instr.vld 8 2, .vlds 8 2 3, .vldx 8 2 9, .vst 8 2, .vsts 8 2 3, .vstx 8 2 9],
      bodyOk (wq 4 2 [0x2000, 8] i).mode.etype i = true) ∧
    (let q := wq 4 2 [0x2000, 8] (.vld 8 2)
     let s := under q ws
     let loads := fun (va : State → Nat → Nat) => (overCovered q (fun s e =>
       (loadsAt s e (va s e) 4).map fun r => r.1.onStrand fun u => u.setElem 4 8 e r.2) s).isSome = true
     let stores := fun (va : State → Nat → Nat) =>
       (overCovered q (fun s e => storesAt q s e (va s e) 4 (s.strand.elem 4 8 e)) s).isSome = true
     loads (fun _ => unitVa q) ∧ loads (fun _ => strideVa q) ∧ loads (fun s => indexVa s q 9) ∧ stores (fun _ => unitVa q) ∧
     stores (fun _ => strideVa q) ∧ stores (fun s => indexVa s q 9)) := by
  refine ⟨?_, by decide, by decide⟩
  have h : ws.strand.ops = [] := by decide
  intro o ho
  rw [h] at ho
  simp at ho

/-- 19 R358, R361: what a unit load, a strided store and an indexed load do to two elements. -/
theorem test_vector_memory :
    ok (.vld 8 2) (under (wq 4 2 [0x1FFC] (.vld 8 2)) ws) (fun t => elems 4 8 3 t == [0, 0xFFFFFFFF, 0]) ∧
    ok (.vsts 8 2 3) (under (wq 4 2 [0x2000, 8] (.vsts 8 2 3)) (vec 4 8 [5, 6] ws))
      (fun t => readNum t 0 0x2000 8 == 0xFFFFFFFF00000005 && readNum t 0 0x2008 8 == 6) ∧
    ok (.vldx 8 2 9) (under (wq 5 1 [0x2008] (.vldx 8 2 9)) (vec 5 9 [0xFFFFFFFC] ws))
      (fun t => elems 5 8 1 t == [0xFFFFFFFF]) := by decide

theorem witness_BlockLoadAndStore :
    let q := wq 14 2 [0x2000, 0x2040] (.vldb4 8 2 3)
    let s := under q ws
    (overBlocks q (fun s i => (loadsAt s i (((q.cap 0).toNat + 4 * i) % 2 ^ 64) 4).bind fun c =>
        (loadsAt c.1 i (((q.cap 1).toNat + i) % 2 ^ 64) 1).map fun b =>
          b.1.onStrand fun u => ((u.setSlot 8 i c.2).setSlot 9 i b.2).setVv i (b.2 != 0xFF)) s).isSome = true ∧
    (overBlocks q (fun s i => (storesAt q s i (((q.cap 0).toNat + 4 * i) % 2 ^ 64) 4 (s.strand.slot 8 i)).bind fun m =>
        storesAt q m i (((q.cap 1).toNat + i) % 2 ^ 64) 1 (if m.strand.vvbit i then m.strand.slot 9 i % 256 else 0xFF))
      s).isSome = true ∧
    ok (.vldb4 8 2 3) s (fun t => t.strand.slot 8 0 == 0xFFFFFFFF && t.strand.slot 9 0 == 0 && t.strand.vvbit 0) ∧
    ok (.vstb4 8 2 3) s (fun t => readNum t 0 0x2040 2 == 0xFFFF && readNum t 0 0x2000 8 == 0) := by decide

/-- As `ws`, with updates left to their ports; and with the record of its class full. -/
def wl : State := { ws with deferPorts := true }
def wf : State := (wl.modCtx 0 0 fun c => { c with elat := 0 }).onStrand fun u =>
  { u with ops := List.replicate 256 { Op.zero with kind := 1 } }

theorem witness_full_record : virgaRoom wf 0 0 1 = false := by decide +kernel

/-- An element that is active, one that is not, and one whose operation has left and ended; and where it leaves for its port. -/
theorem witness_VectorAtomics : virgaRoom wl 0 0 1 = true ∧ portLater wl 0x2000 4 = true ∧
    portLater wf 0x2000 4 = true ∧
    (let q := { wq 4 1 [0x2000] (.vamo 8 2 9 0) with cv := { (wq 4 1 [0x2000] (.vamo 8 2 9 0)).cv with sent := [(1, 0)] } }
     q.cv.sent.contains (q.slot, 0) = true ∧ ws.strand.awaits q 0 = false ∧ q.halt = none ∧
       (ws.onStrand fun u => { u with ops := [{ Op.zero with kind := 0x13, slot := q.slot, pc := q.cv.addr }] }).strand.awaits q 0 = true) ∧
    ∀ e ∈ vamoForms, let ty := if e.1 = 7 then 10 else 4
    (wq ty 1 [0x2000] (.vamo 8 2 9 e.1)).cv.sent.contains (1, 0) = false ∧
    bodyOk (wq ty 1 [0x2000] (.vamo 8 2 9 e.1)).mode.etype (.vamo 8 2 9 e.1) = true ∧
    ws.strand.active (wq ty 1 [0x2000] (.vamo 8 2 9 e.1)).mode 1 0 = true ∧
    ws.strand.active (wq ty 0 [0x2000] (.vamo 8 2 9 e.1)).mode 0 0 = false ∧
    (∃ x pa, checkAccess ws 0 0 (ws.me.core 0)
      { va := indexVa ws (wq ty 1 [0x2000] (.vamo 8 2 9 e.1)) 9 0, width := 4, acc := .amo, vec := true, sd := none
        locks := [] } = .ok x ∧ x.target = .mem pa ∧
      (walkBusy ws 0 0 (indexVa ws (wq ty 1 [0x2000] (.vamo 8 2 9 e.1)) 9 0) 4 .amo = false ∧ portLater ws pa 4 = false ∧
        granuleHeld ws 0 0 pa 4 = false ∧ ws.strand.updating pa 4 = false ∧ matrixReads ws 0 0 pa 4 = false ∧
        stripWaits ws 0 0 (wq ty 1 [0x2000] (.vamo 8 2 9 e.1)).cv.strip = false ∧
        writeTagFails (setAD ws 0 x .amo) (keySlot ws 0) pa 4 = false)) := by
  refine ⟨by decide, by decide, by decide, by decide, ?_⟩
  intro e he
  simp only [vamoForms, List.mem_cons, List.not_mem_nil, or_false] at he
  rcases he with rfl | rfl | rfl | rfl | rfl | rfl | rfl | rfl <;>
    exact ⟨by decide, by decide, by decide, by decide, reaches (by decide)⟩

/-- 19 R364 with -1 at 0x2000 and 5: VAMOR gives the old value back. -/
theorem test_vector_atomics :
    [(0, 4), (1, 5), (2, 0xFFFFFFFF), (3, 0xFFFFFFFA), (4, 0xFFFFFFFF), (5, 5), (6, 5)].all (fun (e : Nat × Nat) =>
      ok (.vamor 8 2 9 e.1) (under (wq 4 1 [0x2000] (.vamor 8 2 9 e.1)) (vec 4 8 [5] ws)) fun t =>
        elems 4 8 1 t == [0xFFFFFFFF] && readNum t 0 0x2000 8 == 0xFFFFFFFF00000000 + e.2) = true ∧
    ok (.vamo 8 2 9 7) (under (wq 10 1 [0x2008] (.vamo 8 2 9 7)) (vec 10 8 [0x3F800000] ws))
      (fun t => readNum t 0 0x2008 4 == 0x3F800000) := by decide

/-- The strand's own vault window (10 R182). -/
def ownBase : Nat := 0xFFFFF00000000000

/-! The Anvil: an attached strand whose resident B is two columns of fp16, one batch committed. -/

def anv : Anvil := { Anvil.zero with
  grant := 2, fmt := some 8, nc := 2
  b := [(0, 0x3C00), (1, 0x3C00), (512, 0x3C00)]
  done := [{ Batch.fresh with id := 1, words := 1 }] }

def wa : State := ws.onStrand fun u => { u with anvil := some anv }

theorem witness_MatrixTransfers : ws.strand.anvil = none ∧ wa.strand.anvil = some anv ∧
    (let q := wq 10 1 [0x2000, 0x0002000200000002] (.mrd 1 2 3)
     let s := under q wa
     let cells := (List.range (clipRows (q.cap 1))).flatMap fun j => (List.range (clipCols (q.cap 1))).map fun c => 512 * j + c
     let va := fun (e : Nat) => ((q.cap 0).toNat + 4 * (e / 512 * par2 (q.cap 1) + e % 512)) % 2 ^ 64
     cells = [0, 1, 512, 513] ∧ q.cv.busy.contains q.slot = false ∧ checkTransfer s q .store = none ∧ checkTransfer s q .load = none ∧
     checkTransfer s (wq 10 1 [0x80000000, 0x0002000200000002] (.mrd 1 2 3)) .store = some (.fault .trans 0 0 0x80000000) ∧
     (inOrder (fun s e => storesAt q s 0 (va e) 4
       (tget 0 anv.acc (accKey 1 (par1 (q.cap 1) + e / 512) (e % 512))).toNat) cells s).isSome = true ∧
     (inOrder (fun s e => (loadsAt s 0 (va e) 4).map fun r => r.1.onStrand fun u =>
       u.setAcc 1 (par1 (q.cap 1) * 512 + e) r.2) cells s).isSome = true ∧ storesHeld s 0 0 = false) ∧
    (anv.done.filter fun b => b.closed && !b.complete).length < 4 ∧
    (anv.done.find? fun b => !b.closed) = some { Batch.fresh with id := 1, words := 1 } ∧
    4 ≤ ((List.replicate 4 { Batch.fresh with closed := true }).filter fun b => b.closed && !b.complete).length := by decide

/-- BATCH_COMPLETE of the strand. -/
def turn (s : State) : State := { s with ev := event .batchComplete [0, 0] }

/-- A step of two rows, a load of B and a record that the Anvil may hold, not begun. -/
def hStep : MatOp := { MatOp.zero with kind := 0x20, func := 1 + 16 * 8, xa := ownBase, xp := 0x0002000200000002, rows := [0, 1], words := [0] }
def hLoad : MatOp := { hStep with kind := 0x21, func := 16 * 8, xa := 0x2000, words := [] }

/-- `wa` with an operation held, and its entry in the record. -/
def holds (h : MatOp) : State := turn (wa.onStrand fun u => { u with
  anvil := some { anv with held := [h] }, ops := [{ Op.zero with kind := h.kind, cls := 2 }] })

theorem witness_MatrixSteps :
    let p := BitVec.ofNat 64 0x0002000200000002
    let rows := fun (s : State) (own : Bool) (base n : Nat) => checkRows s 0 0 own 8 (par2 p) base 2 (List.range n)
    let turns := fun (h : MatOp) => let s := holds h
      (s.ctx (s.arg 0) (s.arg 1)).strand.anvil = some { anv with held := [h] } ∧ (s.ctx 0 0).state.live = true ∧ h.live = true
    let got := fun (r : RowRead (List Nat)) => match r with | .got _ xs => xs == [0xFFFF, 0xFFFF] || xs == [0, 0] | _ => false
    wa.strand.anvil = some anv ∧ (wq 8 1 [] (.mstep 1 2 3)).cv.busy.contains 1 = false ∧
    par0 p ≠ 0 ∧ par1 p < 256 ∧ Nat.min (par3 p) (Nat.min 512 (2 * colsPerBand 8)) ≠ 0 ∧ par3 0x0000000200000002 = 0 ∧
    rows wa false 0x2000 2 = none ∧ rows wa true ownBase 2 = none ∧ (rows wa true 0x2000 2).isSome = true ∧
    virgaRoom wa 0 0 1 = true ∧
    turns hStep ∧ turns hLoad ∧ turns { hStep with loaded := true } ∧ turns { hStep with loaded := true, rows := [] } ∧
    pairs 8 8 = true ∧ pairs 4 8 = false ∧ anv.nc ≤ 512 ∧ hStep.words.length ≠ 8 ∧
    got (readRow (holds hLoad) 0 0 false 8 (par2 p) (rowBase 8 (par2 p) 0x2000 0) 2) = true ∧
    got (readRow (holds hLoad) 0 0 false 8 (par2 p) (rowBase 8 (par2 p) 0x2000 1) 2) = true ∧ turns { hLoad with loaded := true, rows := [1] } ∧
    got (readRow (holds hStep) 0 0 true 8 (par2 p) (rowBase 8 (par2 p) ownBase 0) 2) = true ∧
    (match readRow wa 0 0 true 8 (par2 p) 0x2000 2 with | .fault _ _ => true | _ => false) = true ∧
    (turn ws).strand.anvil = none ∧ anv.held = [] ∧ (∀ b ∈ anv.done, b.closed = false ∨ b.complete = true) ∧
    ∃ b ∈ [{ Batch.fresh with closed := true }], b.closed = true ∧ b.complete = false := by decide

/-- 22 R404, the small product: row 1, 2, 3, 4 against columns 1, 1, 1, 1 and 1, 0, 1, 0, once the held step has begun. -/
theorem test_matrix_step :
    let h := { hStep with xp := 0x0000000800000004, rows := [0] }
    let a := { Anvil.zero with
      grant := 2, fmt := some 8, nc := 2, held := [{ h with loaded := true }]
      b := [(0, 0x3C00), (1, 0x3C00), (512, 0x3C00), (1024, 0x3C00), (1025, 0x3C00), (1536, 0x3C00)] }
    let s := turn (mem (vaultPA 0 0) 8 0x4400420040003C00 (st.onStrand fun u => { u with anvil := some a }))
    ok .batchComplete s (fun t => match t.strand.anvil with
      | some a => tget 0 a.acc (accKey 1 0 0) == 0x41200000 && tget 0 a.acc (accKey 1 0 1) == 0x40800000 &&
        a.held == [{ h with loaded := true, rows := [], done := 1 }]
      | none => false) ∧
    ok (.mzero 1) (under (wq 10 1 [] (.mzero 1)) s) (fun t => (t.strand.anvil.map (·.acc)) == some []) ∧
    ok (.mstep 1 2 3) (under (wq 8 1 [ownBase, 0x0000000800000004] (.mstep 1 2 3)) s) (fun t => match t.strand.anvil with
      | some a => (a.held.map fun x => (x.kind, x.func, x.rows, x.done)) == [(0x20, 129, [0], 0), (0x20, 129, [0], 0)]
      | none => false) := by decide

/-- A record of one A row of depth 4 in the own vault and a B of two columns at 0x3000: doubleword 2 and the tag given. -/
def recd (w2 tag : Nat) : Record :=
  { d := [0x0004F00000000000, 0x0002000000003000, w2, 0, tag * 2 ^ 16, 0, 0, 0] }

def goodRec : Record := recd 0x8800020004 0

/-- The record stands at 0x1000 of the own vault; the A row is 1, 2, 3, 4, and B is 1 where it is set. -/
def wr : State :=
  let s := mem 0x3000 8 0x00003C003C003C00 (mem (vaultPA 0 0) 8 0x4400420040003C00 (st.onStrand fun u => { u with
    anvil := some { Anvil.zero with grant := 2 } }))
  (goodRec.d.zip (List.range 8)).foldl (fun s e => mem (vaultPA 0 0x1000 + 8 * e.2) 8 e.1 s) s

/-- A record of the strand, as the Anvil holds it. -/
def hRec (r : Record) : MatOp :=
  { MatOp.zero with kind := 0x20, func := 2 + 16 * 5, xa := ownBase + 0x1000, rows := List.range r.rows, words := r.d, bands := 2 }

theorem witness_OperandRecords :
    let q := wq 5 1 [ownBase + 0x1000, 0x20000] (.mstepr 2 2 3)
    q.cv.busy.contains q.slot = false ∧ q.cv.prog = 0 ∧ (ownBase + 0x1000) % 64 = 0 ∧ (ownBase + 0x1020) % 64 ≠ 0 ∧
    (inOrder (issuesRecord q 2 2 (ownBase + 0x1000)) [0] (under q wr)).isSome = true ∧
    (recd 0x8800020000 0).bad 2 = 8 ∧ (recd 0x8A00020004 0).bad 2 = 7 ∧ goodRec.bad 2 = 0 ∧
    (match checkRuns wr 0 0 true [(ownBase + 0x1000, 64)] with
      | .parts (({ target := .mem pa, .. }, _) :: _) => !writeWaits wr (pa + 0x28) 8
      | _ => false) = true ∧
    (goodRec.bruns.any fun x => xlatWaits wr 0 0 x.1 .load) = false ∧
    goodRec.deny wr 0 0 = some 0 ∧ (recd 0x8800020004 5).deny wr 0 0 = some 1 ∧
    (match readB 0 0 goodRec (List.range goodRec.depth) wr [] with | .got _ _ => true | _ => false) = true ∧
    (hRec goodRec).rows = [0] ∧ goodRec.ncol ≤ 512 ∧ goodRec.row0 + 0 < 64 ∧
    (match readRow wr 0 0 true 8 goodRec.astride (rowBase 8 goodRec.astride goodRec.abase 0) goodRec.depth with
      | .got _ _ => true | _ => false) = true := by decide

/-- Its Anvil holds an operation; the link that the line of B lies on is retraining; another strand holds the record's granule. -/
def recHeld (h : MatOp) (s : State) : State := turn (s.onStrand fun u => { u with
  anvil := some { Anvil.zero with grant := 2, held := [h] }, ops := [{ Op.zero with kind := 0x20, cls := 2 }] })
def linkDown (s : State) : State := { s with mlinks := [(linkOf s 0x3000, { Link.zero with retraining := true })] }
def recLocked (s : State) : State := s.modCtx 0 1 fun c => { c with
  strand := { c.strand with resv := some { addr := 0, width := 8, granule := (vaultPA 0 0x1028) / 64, hold := true } } }

theorem witness_RecordTurns :
    let asks := fun (r : Record) (h : MatOp) (s : State) =>
      let t := recHeld h s
      (t.ctx (t.arg 0) (t.arg 1)).strand.anvil == some { Anvil.zero with grant := 2, held := [h] } && (t.ctx 0 0).state.live && h.live &&
        h.kind != 0x21 && h.words.length == 8 && h.words == r.d &&
        (match checkRuns t 0 0 true [((h.xa + 64 * h.index) % 2 ^ 64, 64)] with
          | .parts (({ target := .mem pa, .. }, _) :: _) => pa == vaultPA 0 0x1000 && !writeWaits t (pa + 0x28) 8
          | _ => false)
    let row := fun (s : State) => readRow s 0 0 true goodRec.afmt goodRec.astride
      (rowBase goodRec.afmt goodRec.astride goodRec.abase 0) goodRec.depth
    let went := { hRec goodRec with loaded := true }
    (asks goodRec (hRec goodRec) wr && asks (recd 0x8A00020004 0) (hRec (recd 0x8A00020004 0)) wr &&
      asks (recd 0x8800020004 5) (hRec (recd 0x8800020004 5)) wr && asks goodRec went wr && asks goodRec { went with rows := [] } wr) = true ∧
    granuleHeld (recHeld (hRec goodRec) wr) 0 0 (vaultPA 0 0x1000 + 0x28) 8 = false ∧
    granuleHeld (recHeld (hRec goodRec) (recLocked wr)) 0 0 (vaultPA 0 0x1000 + 0x28) 8 = true ∧
    (hRec goodRec).loaded = false ∧ (recd 0x8A00020004 0).bad 2 ≠ 0 ∧ goodRec.bad 2 = 0 ∧ (recd 0x8800020004 5).bad 2 = 0 ∧
    (goodRec.bruns.any fun x => xlatWaits wr 0 0 x.1 .load) = false ∧ (goodRec.bruns.any fun x => xlatWaits (wk wr) 0 0 x.1 .load) = true ∧
    goodRec.deny wr 0 0 = some 0 ∧ (recd 0x8800020004 5).deny wr 0 0 = some 1 ∧
    goodRec.deny (bad (placedBase / 64) wr) 0 0 = none ∧
    (goodRec.bruns.any fun x => xlatWaits (linkDown wr) 0 0 x.1 .load) = false ∧ goodRec.deny (linkDown wr) 0 0 = some 0 ∧
    goodRec.deny (bad (0x3000 / 64) wr) 0 0 = some 0 ∧
    (match readB 0 0 goodRec (List.range goodRec.depth) wr [], readB 0 0 goodRec (List.range goodRec.depth) (linkDown wr) [],
        readB 0 0 goodRec (List.range goodRec.depth) (bad (0x3000 / 64) wr) [] with
      | .got _ _, .waits, .fault _ _ => true | _, _, _ => false) = true ∧
    (hRec goodRec).rows = [0] ∧ goodRec.ncol ≤ 512 ∧ goodRec.row0 + 0 < 64 ∧ (match row wr with | .got _ _ => true | _ => false) = true ∧
    (match readRow wr 0 0 true 8 8 0x2000 4 with | .fault _ _ => true | _ => false) = true := by
  and_intros <;> decide

/-- 22 R413: the record steps, its row of m2 is 1 + 2 + 3 = 6 against B(0..2, 0), and its status is 1. -/
theorem test_operand_record :
    let b := [(0, 0x3C00), (1, 0x3C00), (512, 0x3C00), (1024, 0x3C00)]
    (match recordStep wr 0 0 { Anvil.zero with grant := 2 } { hRec goodRec with loaded := true, b := b } with
      | .more _ a h => tget 0 a.acc (accKey 2 0 0) == 0x40C00000 && tget 0 a.acc (accKey 2 0 1) == 0x3F800000 && h.rows == []
      | _ => false) = true ∧
    (match recordStep wr 0 0 { Anvil.zero with grant := 2 } { hRec goodRec with loaded := true, rows := [] } with
      | .done s _ => readNum s 0 (vaultPA 0 0x1028) 8 == 1
      | _ => false) = true := by decide

/-! Copies. -/

theorem witness_CopyWords :
    let q := wq 5 1 [0x3000, 0x2000, 64] (.copy 5 6 7 8)
    let s := under q ws
    q.lo = 0 ∧ q.hi = q.vl ∧ q.halt = none ∧ s.strand.copies = [] ∧ s.strand.ops = [] ∧
    (overCovered q (fun s e => sendsChunk q 4 0x09 5 q.tok s e (dword (0x2000 + e * 64)).toNat ((0x3000 + e * 64) % 2 ^ 64) 64)
      (s.onStrand fun u => { u with
        copies := u.copies ++ [{ id := q.tok, op5 := 9, reg := 5, status := 0, sidx := 0, issued := false }] })).isSome = true ∧
    -- no element; and a gang with one allocation, whose ring is one core
    (wq 5 0 [] (.copy 5 6 7 8)).vl = 0 ∧ ((s.gangOf 0 0).allocAt 0).isSome = true ∧ 64 + 4096 ≤ (s.gangOf 0 0).size := by
  decide

/-- A command in v8 slots 0 to 7: 64 bytes from 0x2000 to 0x3000, no status. -/
def cmdState : State :=
  vec 5 8 [0x1001, 64, 0x2000, 0, 0x3000, 0xF8000000, 0, 0] ws

theorem witness_EngineCommands :
    let q := wq 5 8 [] (.cmdb 3 8)
    let dw := fun j => cmdState.strand.slot 8 (2 * j) + cmdState.strand.slot 8 (2 * j + 1) * 2 ^ 32
    let c : Cmd := { w0 := dw 0, w1 := dw 1, w2 := dw 2, w3 := dw 3 }
    q.lo = 0 ∧ q.hi = 8 ∧ q.vl = 8 ∧ cmdState.strand.active q.mode q.vl 0 = true ∧ c.locked q.cv.locks = false ∧
    cmdState.strand.ops = [] ∧ freeSlot cmdState.strand = some 0 ∧ virgaRoom cmdState 0 0 1 = true ∧
    (∀ o ∈ cmdState.strand.ops, o.kind = 0x15 → o.done = true) ∧
    c.locked [(0x3000, 8)] = true ∧ (preds 3 [true] ws).strand.active (issueIn (encodeWord (.cvy 0 3 1 5 0 0 0)) 8 (.cmdb 3 8)).mode 8 0 = false ∧
    c.test cmdState 0 0 = .accept ∧ Cmd.test ws 0 0 { w0 := 0, w1 := 0, w2 := 0, w3 := 0 } = .refuse := by decide

/-- 21 R384: the command takes slot 0 and sets bit 0 of p3; its bytes move, and its status reads 0. -/
theorem test_command : let i := Instr.cmdb 3 8
    ok i (under (wq 5 8 [] i) cmdState) (fun t => t.strand.pbit 3 0 && t.work == [event .engineCopyCommand [0, 0, 0]] &&
      ok .engineCopyCommand { t with ev := event .engineCopyCommand [0, 0, 0] } fun u =>
        readNum u 0 0x3000 8 == 2 ^ 64 - 1 && u.strand.ops == [] && readNum u 0 (vaultPA 0 0x80) 8 == 0) := by decide

/-- 21 R378, R379: one chunk of 64 bytes, issued and completed; the token is 0. -/
theorem test_copy : let i := Instr.copy 5 6 7 8
    let q := wq 5 1 [0x3000, 0x2000, 64] i
    ok i (under q (ws.onStrand fun u => { u with pend := [{ reg := 5, tok := q.tok }] })) (fun t =>
      ok .chunkComplete { t with ev := event .chunkComplete [0, 0, 0] } fun u =>
        readNum u 0 0x3000 8 == 2 ^ 64 - 1 && u.rx 5 == 0 && u.strand.pend == [] && u.strand.copies == []) := by decide

/-! The control instructions. -/

/-- A SETVLQ marker at the heads of VA and VM, with an entry in lq1 and without. -/
def wm (l : List Nat) : State := { st.onStrand fun u => { u with
    va := [.mark 0 false], vm := [.mark 0 false], vlMark := some 0, pend := [{ reg := 5, tok := 2 }]
    marks := [{ id := 0, word := 0x180012FB, val := none, vaPast := false, vmPast := false }], lq := tput [] 1 l u.lq } with
  ev := event .lengthMarkerTake [0, 0, 0] }

/-- A queue of 32 entries has no room for a marker. -/
theorem witness_VectorLength :
    frameRoom st 0 0 false = true ∧ frameRoom st 0 0 true = true ∧
    frameRoom (st.onStrand fun u => { u with va := List.replicate 32 (.fence 0 0) }) 0 0 false = false ∧
    (∀ l ∈ [[], [37, 4]], let s := wm l
      let m : Mark := { id := 0, word := 0x180012FB, val := none, vaPast := false, vmPast := false }
      (s.ctx 0 0).state = .running ∧ (s.ctx 0 0).strand.va = .mark m.id false :: [] ∧
      ((s.ctx 0 0).strand.marks.find? fun x => x.id == m.id) = some m ∧ m.val = none ∧
      (s.ctx 0 0).strand.lqget (bits m.word 16 12 % 4) = l) := by decide

/-- 16 R308: the strip uses 37, and x5 becomes 37. -/
theorem test_length_marker : ok .lengthMarkerTake (wm [37, 4]) (fun t => t.strand.vl == 37 && t.rx 5 == 37 &&
    t.strand.lqget 1 == [4] && t.strand.va == [] && t.strand.pend == []) := by decide

theorem witness_Fences : scalarDone st true true = true ∧ storesLeft st 0 0 = false ∧ tableStoresHeld st 0 0 = false ∧
    storesLeft (st.onStrand fun u => { u with vm := [.convoy (placedConvoy 0x1880282B)] }) 0 0 = true ∧
    frameRoom st 0 0 false = true ∧ frameRoom st 0 0 true = true ∧
    vectorDone st = true ∧ (st.strand.va = [] ∧ st.strand.vm = []) ∧
    (let s := st.onStrand fun u => { u with ops := [{ Op.zero with kind := 0x10, cls := 1 }, { Op.zero with kind := 2 }] }
     scalarDone s true true = false ∧ vectorDone s = false) ∧ (wm []).strand.va ≠ [] := by decide

theorem witness_QueueTransfersAndNames : st.me.state.live = true ∧ (st.strand.qget 3).length < 16 ∧
    16 ≤ ((st.onStrand fun u => { u with q := tset 0 (List.replicate 16 1) u.q }).strand.qget 0).length ∧
    st.strand.qget 4 = [] ∧ (st.onStrand fun u => { u with q := tset 5 [8] u.q }).strand.qget 5 = [8] := by decide

/-- As `ws`, with the readiness page at 1 GiB. -/
def wpg : State := mem (placedBase + 4096 + 8) 8 (pagePA 0 0 0 + 7) ws

/-- Monitors on memory and on a control page; waits that have come and that have not. -/
theorem witness_MonitorsAndWaits :
    (∃ x pa, checkAccess ws 0 0 (ws.me.core 0) (scalarAsk ws 0 0 (ws.rx 2).toNat 8 .load none) = .ok x ∧ x.target = .mem pa ∧
      (ws.strand.acquiring = false ∧ walkBusy ws 0 0 (ws.rx 2).toNat 8 .load = false ∧ scalarWaits ws 0 0 pa 8 = false ∧
        tagFails ws (keySlot ws 0) pa 8 = false ∧ virgaRoom ws 0 0 1 = true ∧ ws.strand.mon = none)) ∧
    (match checkAccess wpg 0 0 (wpg.me.core 0) (scalarAsk wpg 0 0 0x40000000 8 .load none) with
      | .ok x => x.target == .page 0 0 0 && !walkBusy wpg 0 0 0x40000000 8 .load
      | .error _ => false) = true ∧
    (let s := ws.onStrand fun u => { u with
       kids := [{ q := 1, count := 7, done := none }, { q := 1, count := 8, done := some 5 }], anvil := some anv }
     s.strand.child (2 ^ 63 + 2 ^ 32 + 7) = some { q := 1, count := 7, done := none } ∧
     s.strand.child (2 ^ 63 + 2 ^ 32 + 8) = some { q := 1, count := 8, done := some 5 } ∧ s.strand.child 9 = none ∧
     s.strand.batchesDone 1 = false ∧ s.strand.batchesDone 0 = true) ∧
    (match barrierPhase ws 0 0 (0x2041 / 2 * 2) with 
      | .ok (x, ph) => x.target == .mem 0x2040 && ph == 0 && !walkBusy ws 0 0 0x2040 64 .load && !scalarWaits ws 0 0 0x2040 24 &&
          virgaRoom (setAD ws 0 x .load) 0 0 1
      | .error _ => false) = true ∧
    -- a BWAIT whose object waits at a link that retrains
    (let s := (ws.modMlink (linkOf ws 0x2040) fun l => { l with retraining := true }).modCtx 0 0 fun c => { c with
       state := .waiting, wait := some { kind := 0x30, operand := 0x2040, reg := 0 } }
     barrierBusy s 0 0 0x2040 = true ∧ s.parked.contains (event .waitSatisfied [0, 0]) = false) ∧
    (let wt : Wait := { kind := 0x31, operand := 0, reg := 0 }
     let s := fun b => ws.modCtx 0 0 fun c => { c with
       state := .waiting, wait := some wt, strand := { c.strand with mon := some { world := 0, line := 0x80, woken := b } } }
     waitOver (s false) 0 0 wt = none ∧ (waitOver (s true) 0 0 wt).isSome = true ∧
     ((s true).ctx 0 0).state = .waiting) := ⟨reaches (by decide), by decide, by decide, by decide, by decide, by decide⟩

/-- 16 R313 to R315: MONARM reads and arms; a write to the line ends the wait that MONWAIT begins. -/
theorem test_monitor : ok (.monarm 5 2) ws (fun t => t.rx 5 == -1 && t.pc == 0x1004 &&
    ok .monwait t fun u => u.me.state == .waiting &&
      (performWrite u 0 0x2010 [1]).work.contains (event .waitSatisfied [0, 0])) := by decide

/-- A packet at 0x2000 (NOP with a completion address) that CHILDQ of queue 0 accepts, and the same with CHILDV clear. -/
def wp (v : Bool) : State :=
  let s := ((mem 0x2028 8 0x3000 (mem 0x2000 8 5 (xs [(2, 0x2000)] st))).modQueue 0 fun x =>
    { x with childv := v, childq := 1, istate := 2 }).modQueue 1 fun x => { x with istate := 2 }
  s

/-- A page at 1 GiB that stands at peer 5, which is reached by link 2. -/
def wpr : State := { mem (placedBase + 4096 + 8) 8 (0xA000000000000 + 5 * 2 ^ 42 + 7) (xs [(2, 0x40003000)] ws) with
  peers := [(2, { Peer.zero with faridv := true, farid := 5 })], portPlink := 4 }

/-- The strand behind it has a batch open, and a SETVLQ. -/
def locking (b : Batch) : State := wpr.onStrand fun u => { u with
  anvil := some { anv with opn := b }
  marks := [{ id := 0, word := 0x180012FB, val := none, vaPast := false, vmPast := false }] }

theorem witness_SpawnAndRemoteStore :
    ws.me.state.live = true ∧ (ws.rx 3).toNat % 8 ≠ 0 ∧ (ws.rx 2).toNat % 8 = 0 ∧
    (match readPacket (wp true) 0 0 0x2000 8 0 [] with
      | .words s d => s.cur == (wp true).cur && !spawnRefused s d | _ => false) = true ∧
    (match readPacket (wp false) 0 0 0x2000 8 0 [] with
      | .words s d => s.cur == (wp false).cur && spawnRefused s d | _ => false) = true ∧
    (wpr.rx 2).toNat = 0x40003000 ∧ wpr.strand.acquiring = false ∧ xlatWaits wpr 0 0 0x40003000 .store = false ∧
    (match resolve wpr 0 0 (wpr.me.core 0) 0x40003000 .store with
      | .ok x => x.target == .peer 5 0x3000
      | _ => false) = true ∧
    (match route wpr 5 with | .ok n => n == 2 | _ => false) = true ∧
    (meets 0x40003000 8 wpr.strand.locked = false ∧ wpr.strand.lockPending 0x40003000 8 = false) ∧
    -- a lock that meets the address, and one that an open SETVLQ may still set there
    (let s := locking
     meets 0x40003000 8 (s { Batch.fresh with locks := [(0x40003000, 64)] }).strand.locked = true ∧ (s Batch.fresh).me.state.live = true ∧
     meets 0x40003000 8 (s { Batch.fresh with soft := [(0, 1, 0x40003000, 64)] }).strand.locked = false ∧
     (s { Batch.fresh with soft := [(0, 1, 0x40003000, 64)] }).strand.lockPending 0x40003000 8 = true) := by decide

/-- 16 R316: the token is CHILDQ's number and its packet count, with bit 63 set. -/
theorem test_spawn : ok (.spawn 5 2) (wp true) (fun t => t.rx 5 == 0x8000000100000000 && t.pc == 0x1004 &&
      t.strand.kids == [{ q := 1, count := 0, done := none }] && (t.queue 1).cur.isSome) ∧
    ok (.spawn 5 2) (wp false) (fun t => t.rx 5 == 0 && t.strand.kids == []) := by decide

/-- A fresh barrier object of two arrivals at 0x2040: INIT and PENDING 2, scope 4. -/
def wb : State := mem 0x2048 8 0x400000002 (mem 0x2040 8 2 (xs [(2, 0x2040), (3, 2)] st))

theorem witness_BarriersAndAttachment :
    (∀ n ∈ [24, 64], ∃ x pa, barrierTarget wb 0 0 (wb.rx 2).toNat = .ok x ∧ x.target = .mem pa ∧
      (granuleHeld wb 0 0 pa n = false ∧ wb.strand.acquiring = false ∧ wb.strand.updating pa n = false ∧
        convoyNames wb 0 0 pa n = false ∧ tagFails wb (keySlot wb 0) pa n = false ∧ writeWaits wb pa n = false ∧
        virgaRoom wb 0 0 1 = true ∧ portLater wb pa n = false ∧ walkBusy wb 0 0 (wb.rx 2).toNat 64 .amo = false ∧
        wb.strand.lockPending (wb.rx 2).toNat 64 = false ∧
        writeTagFails (setAD wb 0 x .amo) (keySlot wb 0) pa n = false)) ∧
    scalarDone wb true true = true ∧ wb.strand.convoysDone = true ∧ vectorDone wb = true ∧ wb.strand.anvil = none ∧
    (min (min (wb.rx 3).toNat 16) (min ((wb.gangOf 0 0).bands - bandsGranted wb 0 0) (bandClamp wb.me.elat)) ≠ 0 ∧
      bit wb.ready.anvil (engineOf wb 0 0) = true ∧ attachedHere wb 0 0 < 8) ∧
    (min (wb.rx 1).toNat 16 = 0) ∧ wa.strand.anvil = some anv ∧
    (wa.onStrand fun u => { u with va := [.convoy (placedConvoy 0x7000005B)] }).strand.matrixDone = false ∧
    (ws.onStrand fun u => { u with anvil := some Anvil.zero }).strand.matrixDone = true := by
  refine ⟨fun n hn => ?_, ?_⟩
  · simp only [List.mem_cons, List.not_mem_nil, or_false] at hn
    rcases hn with rfl | rfl <;> exact reaches (by decide)
  · decide

/-- 21 R388 to R391, 22 R398: the object that BINIT leaves is `wb`'s; two arrivals end the phase. -/
theorem test_barrier : ok (.binit 2 3) (xs [(2, 0x2040), (3, 0x400000002)] st) (fun t =>
      readBytes t 0 0x2040 64 == readBytes wb 0 0x2040 64) ∧
    ok (.barrive 2) wb (fun t => t.pc == 0x1004 && readBytes t 0 0x2040 24 != readBytes wb 0 0x2040 24 &&
      ok (.barrive 2) t fun u => (readBarrier u 0 0x2040).w0 == 0x100000002) ∧
    ok (.matt 5 3) wb (fun t => t.rx 5 == 2 && (t.strand.anvil.map (·.grant)) == some 2 &&
      ok .mdet t fun u => u.strand.anvil == none) := by decide

/-- A CVY of one `pset p0` at PC; one whose body word is no instruction. -/
theorem witness_ConvoyCommit :
    (let s := mem 0x1004 4 0x28C0005B st
     (match fetchBody s 0 0 s.pc.toNat 1 1 [] with
      | .words s1 ws => ws == [0x28C0005B] && s1.cur == s.cur && illegalSlot s.myLaunch.features 4 ws == none &&
          roomIn s 0 0 (isVmBody ws) && !recordsWait s 0 0 (s.strand.newConvoy (encodeWord (.cvy 0 31 0 4 0 0 0)) s.pc.toNat ws) &&
          (ws.filterMap wordOf).all fun b => (captures b).all fun r => !s.strand.pending r
      | _ => false) = true) ∧
    (let s := mem 0x1004 4 0x0000005B st
     (match fetchBody s 0 0 s.pc.toNat 1 1 [] with
      | .words s1 ws => s1.me.state.live && s1.cur == s.cur && illegalSlot s.myLaunch.features 4 ws == none
      | _ => false) = true) ∧
    (let s := mem 0x1004 4 0xFC00000B st
     (match fetchBody s 0 0 s.pc.toNat 1 1 [] with
      | .words s1 ws => s1.me.state.live && s1.cur == s.cur && illegalSlot s.myLaunch.features 4 ws == some 1
      | _ => false) = true) ∧
    -- the body's second word stands where nothing is mapped, and the first is a word or is none
    (∀ e ∈ [(0x28C0005B, none), (0xFC00000B, some 1)], let s := mem 0x3FFFFFFC 4 e.1 (st.onStrand fun u => { u with pc := 0x3FFFFFF8 })
     s.me.state.live = true ∧ (match fetchBody s 0 0 s.pc.toNat 2 1 [] with
      | .fault c slot ws => c == .trans && slot == 2 && ws == [e.1] && prefixIllegal s.myLaunch.features 4 ws == e.2
      | _ => false) = true) := by decide

/-- 13 R253, 16 R305: the convoy stands in VA with its captured operand, and PC stands past it. -/
theorem test_convoy : ok (.cvy 0 31 0 4 0 0 0) (mem 0x1004 4 0x0209818B (xs [(12, 9)] st)) (fun t => t.pc == 0x1008 &&
    match t.strand.va with | [.convoy c] => c.caps == [[9]] && c.words == [0x0209818B] | _ => false) := by decide

/-! ## Steps -/

/-- The state after n default or scheduled steps. -/
def after : Nat → State → State
  | 0, s => s
  | n + 1, s => match step s with | .next t => after n t | _ => s

/-- 13 R249: a word at PC runs, waits at a link, or faults; a body word runs from the head of its queue. -/
theorem witness_StepRunsDecoded :
    let s := State.reset.withFetchWord 32 0x00100293
    let s0 := { s with sched := [], cur := (0, 0) }
    s.tripped = false ∧ s.sched = [.scalar 0 0] ∧ (s.ctx 0 0).state = .running ∧
    (match fetchWord s0 0 0 (s.ctx 0 0).strand.pc.toNat with
      | .word s1 v => v == 0x00100293 && reads v (.addi 5 0 1) && admitted s1.myLaunch.features (.addi 5 0 1) &&
          !stalls s1.strand (.addi 5 0 1)
      | _ => false) = true ∧
    (walkBusy s 0 0 0x1000 4 .fetch = false ∧
      (match checkAccess s 0 0 ((s.ctx 0 0).core 0) (scalarAsk s 0 0 0x1000 4 .fetch none) with
        | .ok x => x.target == .mem 0x1000 | _ => false) = true ∧
      portBusy s 0x1000 4 = false ∧ tagFails s (keySlot s 0) 0x1000 4 = false) ∧
    (match fetchWord (s0.modMlink (linkOf s 0x1000) fun l => { l with retraining := true }) 0 0 0x1000 with
      | .waits => true | _ => false) = true ∧
    (match fetchWord s0 0 0 0x80000000 with | .fault _ => true | _ => false) = true ∧
    (match fetchWord { State.reset.withFetchWord 32 0 with sched := [], cur := (0, 0) } 0 0 0x1000 with
      | .word _ v => (match decodeWord v with | .ok _ => false | .error _ => true) | _ => false) = true ∧
    ((after 1 s).ctx 0 0).strand.rx 5 = 1 ∧ (placedConvoy 0x28C0005B).word 1 = some (.pset 3) ∧
    inputStep s (.sensor 0 40) = none := by decide

/-- A word at PC that is no instruction, or is out of range, faults ILLEGAL there. -/
theorem test_illegal_word : [0x00000000, 0x3800927B, 0xD800007B].all (fun w =>
    let t := after 1 (State.reset.withFetchWord 32 w)
    (t.ctx 0 0).state == .stopping && ((t.ctx 0 0).fault.map fun f => (f.cause, f.fpc, f.faddr)) == some (.illegal, 0x1000, 0))
    = true := by decide

/-- A body word of each kind of queue is issued and retires. -/
theorem test_body_words : [0x0008418B, 0x28C0005B, 0x0080282B].all (fun w =>
    let t := after 1 (State.reset.withFetchWord 32 w)
    (t.ctx 0 0).strand.va == [] && (t.ctx 0 0).strand.vm == [] && (t.ctx 0 0).state == .running) = true := by decide

theorem witness_MemoryStaysCanonical : Memory.wf ws.mem = true ∧ (match step ws with | .next _ => true | _ => false) = true := by
  decide

theorem witness_OneStop : (match step { State.reset with tripped := true } with | .fault .poweredOff => true | _ => false) = true ∧
    (match step { State.reset with tripped := true, inputs := [.ev (event .powerOnReset [])] } with
      | .next t => !t.tripped | _ => false) = true := by decide

/-! ## Events -/

/-- A state with the operands of an event. -/
def on (l : List Nat) (s : State) : State := { s with ev := event .nop l }

/-- Links 0 to 3 and peer links 0 and 1 up, link 1 of each kind retraining and link 2 of each failed; the I/O die 1 and
die 1 are ready, die 2 has failed its self-test; cluster 0 is ready, and so is cluster 1 with its Anvil; cluster 2's failed. -/
def lk : State :=
  { State.reset with
    ready := { Ready.zero with iod := 2, cdie := 2, clu := 7, anvil := 2, mlink := 0xF, plink := 3, mlinkFail := 4, plinkFail := 4 }
    failDie := 4, failAnvil := 4
    mlinks := [(1, { Link.zero with retraining := true }), (2, { Link.zero with failed := true, mib := 1536 })]
    plinks := [(1, { Link.zero with retraining := true }), (2, { Link.zero with failed := true })] }

/-- A store that waits at link 1, and an operation that has left for it. -/
def lh : State := { (lk.modCtx 0 0 fun c => { c with strand := { c.strand with ops := [{ Op.zero with cls := 1, pa := 0x1000 }] } }) with
  ready := { lk.ready with mgrp := 1, grpBytes := 6 * 2 ^ 30 }
  heldW := [{ world := 0, ctx := 0, slot := 0, pa := 0x1000, data := [1, 2], ack := none }] }

theorem witness_ReadinessEvents :
    bit lk.ready.iod 1 = true ∧ bit lk.ready.iod 0 = false ∧ bit lk.ready.fn 0 = false ∧
    (let s := on [0, 0] { lk with ready := { lk.ready with mgrp := 1 } }
     s.arg 0 = 0 ∧ s.arg 1 = 0 ∧ (s.world 0).wstate = 0 ∧ bit s.ready.mgrp 0 = true) ∧ (on [0, 1] lk).arg 1 ≠ 0 ∧
    (bit lk.failDie 2 = true ∧ bit lk.ready.cdie 1 = true ∧ bit lk.failDie 7 = false ∧ bit lk.ready.cdie 7 = false) ∧
    bit ((on [7, 0x3FF] lk).arg 1) 10 = false ∧ bit ((on [7, 0x600] lk).arg 1) 10 = true ∧
    (79 / 10 = 7 ∧ bit 0x600 (79 % 10) = true ∧ bit lk.failClu 79 = false ∧ bit lk.ready.clu 79 = false) ∧
    (let s := on [7, 0x400] lk; ∀ c, c < 80 → ¬ (c / 10 = 7 ∧ bit (s.arg 1) (c % 10) = true)) ∧
    (bit lk.ready.clu 79 = false ∧ bit lk.failAnvil 2 = true ∧ bit lk.ready.anvil 1 = true) ∧
    (bit lk.ready.clu 0 = true ∧ bit lk.failAnvil 0 = false ∧ bit lk.ready.anvil 0 = false) ∧
    ((∀ i, i < 4 → bit lk.ready.mlink (4 * 0 + i) = true) ∧ bit lk.ready.mgrp 0 = false ∧ groupBytes lk = 6 * 2 ^ 30 ∧
      (lk.core.up = false ∨ (lk.world 0).wstate ≠ 0)) ∧
    (let s := { lk with core := { lk.core with up := true } }; s.core.up = true ∧ (s.world 0).wstate = 0) ∧
    (¬ ∀ i, i < 4 → bit lk.ready.mlink (4 * 5 + i) = true) ∧
    (let s := on [0, 3] lk; s.arg 0 = 0 ∧ bit s.ready.mlink (s.arg 1) = true) ∧
    (let s := on [1, 1] lk; s.arg 0 ≠ 0 ∧ bit s.ready.plink (s.arg 1) = true ∧ (s.plink (s.arg 1)).retraining = true ∧
      s.heldW = [] ∧ (s.peer (s.arg 1)).pfrozen = false) ∧
    ({ lk with peers := [(1, { Peer.zero with pfrozen := true })] }.peer 1).pfrozen = true ∧
    (let s := on [0, 4] lk; s.arg 0 = 0 ∧ bit s.ready.mlink (s.arg 1) = false) ∧
    (let s := on [1, 2] { lk with peers := [(1, { Peer.zero with pfrozen := true }), (2, { Peer.zero with pfrozen := true })] }
     (s.peer 1).pfrozen = true ∧ (s.plink 1).failed = false ∧ bit s.ready.plink 2 = false ∧ (s.plink 2).failed = true) ∧
    ((lk.mlink 1).retraining = true ∧ lk.heldW = []) ∧ (lk.plink 0).retraining = false ∧ (lk.mlink 0).retraining = false ∧
    (∃ h, lh.heldW = [h] ∧ h.data ≠ [] ∧ heldAt lh 1 h = true ∧ h.reserved lh = false ∧ h.ctx < 16384 ∧ h.ack = none ∧
      ∀ p ∈ pagesOf h.pa h.data.length, (linkOf lh p = 1 ∨ retrains lh p = false) ∧ uncopied lh p = false) ∧
    (let s := { lh with heldW := [{ world := 0, ctx := 16384, slot := 0, pa := 0x1000, data := [1, 2], ack := some (1, 77) }] }
     s.heldW.map (fun h => (h.ctx, h.ack)) = [(16384, some (1, 77))]) ∧
    (∃ o ∈ (lh.ctx 0 0).strand.ops, o.cls = 1 ∧ o.done = false ∧ o.queued = false ∧ o.host = none ∧ isMem o.pa = true ∧
      linkOf lh o.pa = 1) ∧
    ((lk.mlink 2).failed = true ∧ (lk.plink 2).failed = true ∧ (lk.mlink 0).failed = false ∧ (lk.plink 0).failed = false) ∧
    (Nat.land lk.ready.mlinkFail 4 ≠ 0 ∧ Nat.land lk.ready.mlinkFail 3 = 0 ∧ Nat.land lk.ready.plinkFail 4 ≠ 0 ∧
      Nat.land lk.ready.plinkFail 3 = 0) := by
  and_intros
  any_goals decide
  exact ⟨_, rfl, by decide⟩

/-- 01 R18, R23: the first group to be ready gives its size, four links of 1.5 GiB rounded down to whole GiB, and GEN counts
twice. R27: a failed link takes its group along. -/
theorem test_readiness :
    ok .mgrpReady (on [0] lk) (fun t => t.ready.mgrp == 1 && t.ready.gen == 2 && t.ready.grpBytes == 6 * 2 ^ 30) ∧
    ok .linkFailure (on [0, 1] lh)
      (fun t => t.ready.mlink == 0xD && t.ready.mlinkFail == 6 && t.ready.mgrp == 0 && t.ready.gen == 1 && t.ready.lostw == 1) ∧
    ok .cdieReady (on [7, 0x600] lk) (fun t => t.ready.clu == 2 ^ 79 + 7 && t.ready.cdie == 0x82 && t.failClu == (2 ^ 9 - 1) * 2 ^ 70)
    := by decide

def un (p : Nat) : EUnit := { src := 0, dst := 1, payload := p, via := none }

def flit (n : Nat) (ms : List PeerMsg) : Flit :=
  { seq := BitVec.ofNat 12 n, ack := 0, credits := [], slots := if ms.isEmpty then [] else [(1, .descs ms)] }

/-- Edge 0 holds two units for die 1; link 24 (peer link 0) waits for flit 4095 and holds three for retry; link 26 has
credit of its first two channels. -/
def fl (wire : List (Nat × Flit)) : State := { State.reset with
  edges := [(0, { Edge.zero with retry := [un 11, un 12], used := 2 })]
  plinks := [(0, { Link.zero with
    rxNext := 4095, txRetry := [flit 4094 [], flit 4095 [], flit 0 []], wire := wire, retraining := true }),
    (2, { Link.zero with credit := [(0, 1), (1, 2)] })] }

theorem witness_UnitsAndFlits :
    let good := fl [(1, flit 4095 [.ack 9])]
    (((fl []).edge 0).retry = un 11 :: [un 12] ∧ edgeEnd 0 = (un 11).dst ∧ ((fl []).edge 0).wait = [] ∧ (on [0, 1] good).arg 1 ≤ 1 ∧
      1 < (on [0, 2] good).arg 1) ∧ ((fl []).edge 1).retry = [] ∧
    ((good.flitLink 24).wire = (1, flit 4095 [.ack 9]) :: [] ∧ (flit 4095 []).seq = (good.flitLink 24).rxNext ∧ 24 ≤ 24) ∧
    (((fl [(2, flit 4095 [])]).flitLink 24).wire = (2, flit 4095 []) :: [] ∧ 1 < 2) ∧
    (((fl [(0, flit 7 [])]).flitLink 24).wire = (0, flit 7 []) :: [] ∧ (flit 7 []).seq ≠ (good.flitLink 24).rxNext) ∧
    ((fl []).flitLink 24).wire = [] ∧
    (({ State.reset with mlinks := [(3, { Link.zero with wire := [(0, flit 0 [])] })] }.flitLink 3).wire = (0, flit 0 []) :: [] ∧
      (flit 0 []).seq = Link.zero.rxNext) ∧
    (let s := on [24, 4095] (fl [])
     (s.flitLink 24).txRetry = [flit 4094 []] ++ flit 4095 [] :: [flit 0 []] ∧ (flit 4095 []).seq.toNat = s.arg 1 ∧
       (∀ g ∈ [flit 4094 []], g.seq ≠ (flit 4095 []).seq) ∧ (s.flitLink 24).retraining = true) ∧
    -- units that go on, and one that no direction leads to; links that send; sequence numbers that are in no retry buffer
    ((un 11).dst = 1 ∧ edgeEnd 1 = 0 ∧ edgePort (edgeEnd 1) (nextDie (edgeEnd 1) 1) = some 0 ∧
      edgePort 0 (nextDie 0 20) = none ∧ edgeEnd 0 ≠ 20) ∧
    (let s := on [24, 4095] { fl [] with plinks := [(0, { (fl []).plink 0 with retraining := false })] }
     (s.flitLink 24).retraining = false ∧ (s.flitLink 24).failed = false ∧ (s.flitLink 24).txRetry = ((fl []).plink 0).txRetry) ∧
    (∀ f ∈ ((fl []).flitLink 24).txRetry, f.seq.toNat ≠ (on [24, 9] (fl [])).arg 1 % 4096) ∧
    (let e := event .inboundCopyRead [0]
     requestLink e = some 0 ∧ (∀ x ∈ (fl []).parked, requestLink x ≠ some 0) ∧ ∃ x ∈ { fl [] with parked := [e] }.parked, requestLink x = some 0) ∧
    (let p := (fl []).plink 2
     let m : PeerMsg := .ack 7
     (p.retraining = false ∧ p.failed = false ∧ p.txSend = [] ∧ p.txQ = [] ∧ p.txRetry.length < 1137 ∧ p.ackDue = false) ∧
       m.slots = [.descs [m]] ∧ m.channel < 3 ∧ 0 < tget 0 p.credit m.channel) := by decide

/-- 01 R16: the sequence number wraps; a refusal sends the flit and all after it again, an acknowledgement frees them. R13: a
unit from die 4 to I/O die 9 goes along its row to column 3. -/
theorem test_flits : ok .flitReceive (on [24] (fl [(1, flit 4095 [.ack 9])])) (fun t => (t.plink 0).rxNext == 0 &&
      t.work == [event .remoteStoreAck [0, 9]]) ∧
    ok .flitRefusal (on [24, 4095] (fl [])) (fun t => (t.plink 0).txSend == [flit 4095 [], flit 0 []]) ∧
    ok .flitAck (on [24, 4095] (fl [])) (fun t => (t.plink 0).txRetry == [flit 0 []]) ∧
    ok .edgeUnitReceive (on [0, 1] (fl [])) (fun t => (t.edge 0).retry == [un 12] && (t.edge 0).got == [un 11]) ∧
    dieRoute 9 4 9 = [5, 6, 7, 9] := by decide

/-- World 0 holds 32 GiB, of which the first group is ready. Peer links 0, 3 and 4 are up and take a page at 0x3000, one of
the second group, and one of the table region; link 1 is frozen, link 2 frozen and failed; a remote store is out. -/
def pr : State := { (st.modWorld 0 fun x => { x with ranges := [(0, 32)] }) with
  ready := { st.ready with plink := 0x19 }
  plinks := [(0, { Link.zero with credit := [(1, 9)] }), (2, { Link.zero with failed := true })]
  peers := [(0, { Peer.zero with inen := true, inbase := 3, insize := 1 }), (1, { Peer.zero with pfrozen := true }),
    (2, { Peer.zero with pfrozen := true }), (3, { Peer.zero with inen := true, inbase := 2 ^ 22, insize := 1 }),
    (4, { Peer.zero with inen := true, inbase := 0x40000, insize := 1 })]
  remotes := [{ id := 9, link := 0, world := 0, launch := 0 }]
  hreqs := [(6, HReq.zero)] }

theorem witness_PeerRequests :
    let up := fun (n : Nat) => (pr.peer n).pfrozen = false ∧ bit pr.ready.plink n = true
    let inside := fun (n o len : Nat) => let p := pr.peer n
      p.inen = true ∧ o + len ≤ p.insize * 4096 ∧ inRanges (pr.world p.inworld) (p.inbase * 4096 + o) = true ∧
        inRanges (pr.world p.inworld) (p.inbase * 4096 + o + len - 1) = true
    ¬ up 1 ∧ (up 0 ∧ ¬ inside 0 4089 8 ∧ inside 0 4088 8 ∧ pr.heldW = []) ∧
    (up 3 ∧ inside 3 0 8 ∧ memReady pr 0x400000000 = false) ∧
    (up 4 ∧ inside 4 0 8 ∧ memReady pr 0x40000000 = true ∧ tableRange pr 0x40000000 8 = true) ∧
    (memReady pr 0x3FF8 = true ∧ tableRange pr 0x3FF8 8 = false ∧ writeTagFails pr (keySlot pr 0) 0x3FF8 8 = false ∧
      writeWaits pr 0x3FF8 8 = false ∧ portBusy pr 0x3FF8 8 = false ∧ tagFails pr (keySlot pr 0) 0x3FF8 8 = false) ∧
    (let s := pr.modMlink (linkOf pr 0x3FF8) fun l => { l with retraining := true }
     writeWaits s 0x3FF8 8 = true ∧ portBusy s 0x3FF8 8 = true ∧ queueFull s 0x3FF8 8 = false ∧ unitHeld s 0x3FF8 8 = false ∧
       unitHeld (s.modCtx 0 0 fun c => { c with strand := { c.strand with
         resv := some { addr := 0, width := 8, granule := 0xFF, hold := true } } }) 0x3FF8 8 = true) ∧
    ((pr.peer 1).pfrozen = true ∧ (pr.plink 1).failed = false) ∧ ((pr.peer 2).pfrozen = true ∧ (pr.plink 2).failed = true) ∧
    (∀ r ∈ pr.remotes, r.id ≠ 8 ∨ r.link ≠ 0) ∧ (∀ e ∈ pr.hreqs, e.1 ≠ 8) ∧
    ((∀ r ∈ pr.remotes, r.id ≠ 6 ∨ r.link ≠ 0) ∧ ∃ e ∈ pr.hreqs, e.1 = 6) ∧
    pr.remotes.find? (fun r => r.id == 9 && r.link == 0) = some { id := 9, link := 0, world := 0, launch := 0 } ∧
    (let s := pr.modLaunch 0 0 fun l => { l with lstate := .ackwait, peerpend := 1 }
     (s.launch 0 0).lstate = .ackwait ∧ (s.launch 0 0).peerpend ≤ 1) ∧
    (let s := pr.modQueue 5 fun q => { q with istate := 1 }; 5 < 32768 ∧ (s.queue 5).owner = 0) := by decide

/-- 05 R108, 10 R204: an inbound store is acknowledged once it has performed; one that ends outside freezes its link. -/
theorem test_peer :
    ok .inboundRemoteStore (on [0, 4088, 8, 77, 5] pr) (fun t => readNum t 0 0x3FF8 8 == 77 &&
      t.out == [.flit 24 { seq := 0, ack := 4095, credits := [0, 0, 0], slots := [(1, .descs [.ack 5])] }]) ∧
    ok .inboundRemoteStore (on [0, 4089, 8, 77, 5] pr) (fun t => t.ready.plink == 0x18 && (t.peer 0).pfrozen &&
      (t.peer 0).violcnt == 1 && (t.peer 0).violoff == 4089) := by decide

/-- Clusters 1 to 3 stand in the three phases of a change to the point of 700 mV, cluster 4 has hit the limiters; clusters 0
to 4 are ready. Monitor 0 captures source 1 with its lowest edge at 5, monitor 1 is frozen, monitor 2 samples the sensor, monitor 160 watches a memory
source. -/
def pw : State := { State.reset with
  ready := { Ready.zero with clu := 0x1F }
  power := [(1, { Power.zero with phase := 1, goal := 2 }), (2, { Power.zero with phase := 2, goal := 2, cur := 1 }),
    (3, { Power.zero with phase := 3, goal := 2 }), (4, { Power.zero with limit := 6, plim := 6, hot := true, pwrlim := true })]
  monits := [(0, { Monit.zero with en := true, src := 1, edges := [(0, 5)] }),
    (1, { Monit.zero with en := true, freeze := true, src := 5 }), (2, { Monit.zero with en := true, src := 9 }), (160, { Monit.zero with en := true, src := 0x22 })] }

theorem witness_PowerAndMonitors :
    (599 % 1024 < 600) ∧
    (∀ e ∈ [(600, 0), (601, 1), (650, 1), (651, 2), (950, 7), (951, 7), (1023, 7)], 600 ≤ e.1 % 1024 ∧
      Nat.min (e.1 % 1024) 950 ≤ 600 + 50 * e.2 ∧ (e.2 = 0 ∨ 600 + 50 * (e.2 - 1) < Nat.min (e.1 % 1024) 950)) ∧
    (on [0, 3, 0] pw).arg 2 = 0 ∧ ((on [0, 3, 1] pw).arg 2 ≠ 0 ∧ pw.core.up = false) ∧
    (let u := { pw with core := { pw.core with up := true } }; u.core.up = true ∧ u.waiting = []) ∧
    (pw.pow 1).phase = 1 ∧ (pw.pow 2).phase = 2 ∧ (pw.pow 3).phase = 3 ∧ ((pw.pow 0).phase ≠ 1 ∧ (pw.pow 0).phase ≠ 3) ∧
    -- a phase that ends by a tick, and one that does not; a window that closes within a phase, and after it
    ((pw.pow 2).phase = 2 ∧ (pw.pow 2).since + 100 ≤ 100 ∧ ¬ (pw.pow 2).since + 100 ≤ 99) ∧
    (settleTo 2 (fun p => p.winStart + 1000) 8 pw ≠ pw ∧ settleTo 0 (fun p => p.winStart + 1000) 8 pw = pw) ∧
    2800 < (on [2801] pw).arg 0 ∧ ((on [2659] pw).arg 0 < 2660 ∧ 2 ≤ { pw with lowIntervals := 2 }.lowIntervals ∧
      pw.lowIntervals < 2) ∧ (2660 ≤ (on [2660] pw).arg 0 ∧ (on [2800] pw).arg 0 ≤ 2800) ∧
    (0 ∈ (byPoint pw).take 10 ∧ 5 ∉ (byPoint pw).take 10 ∧ 4 < 80 ∧ bit pw.ready.clu 4 = true ∧ (pw.pow 4).limit < 7) ∧
    (100 ≤ (on [0, 100] pw).arg 1 ∧ (on [0, 100] pw).arg 1 < 256 ∧ (on [0, 99] pw).arg 1 < 100 ∧ (on [0, 94] pw).arg 1 < 95 ∧ 95 ≤ (on [0, 95] pw).arg 1) ∧
    ((pw.monit 0).en = true ∧ (pw.monit 0).freeze = false ∧ (pw.monit 0).src = 1) ∧
    ((pw.monit 2).en = true ∧ (pw.monit 2).freeze = false ∧ 0 < 160 ∧ 5 ≤ (pw.monit 2).src ∧ (pw.monit 2).src ≤ 9 ∧
      (pw.pow 1).icount.toNat / 10 ≤ (pw.monit 2).beat + 1 ∧ ∀ o ∈ [2, 3], (pw.monit 2).beat ≤ (pw.monit o).beat) ∧
    (∀ e ∈ [(4, 0), (5, 15)], e.2 ≤ 15 ∧ (e.2 < 15 → e.1 < tget 0 (pw.monit 0).edges e.2) ∧
      ∀ j, j < e.2 → tget 0 (pw.monit 0).edges j ≤ e.1) ∧
    (pw.monit 1).freeze = true ∧
    ((pw.monit 160).en = true ∧ (pw.monit 160).freeze = false ∧ 0x20 ≤ (pw.monit 160).src ∧ (pw.monit 160).src ≤ 0x22) := by
  decide

/-- 02 R30: 700 mV is point 2, and down from 800 mV the clock goes first; 951 mV is clamped; 599 mV is refused. -/
theorem test_request : ok .reqMv (on [0, 700] pw) (fun t => (t.pow 0).target == 2 && (t.pow 0).result == 0 &&
      (t.pow 0).reqCnt == 1 && (t.pow 0).changing) ∧
    ok .reqMv (on [0, 951] pw) (fun t => (t.pow 0).target == 7 && (t.pow 0).result == 3) ∧
    ok .reqMv (on [0, 599] pw) (fun t => (t.pow 0).target == 4 && (t.pow 0).result == 1) := by decide

/-- 02 R43: a capture, and the sample of the beat at which the sensor reads 40 °C. -/
theorem test_capture : ok .monitorCapture (on [0, 4] pw) (fun t => (t.monit 0).min == 4 && (t.monit 0).max == 4 &&
      (t.monit 0).count == 1 && (t.monit 0).sum == 4 && (t.monit 0).bins == [(0, 1)]) ∧
    ok .monitorLevelSample (on [2] (sense pw 1 40)) (fun t => (t.monit 2).sum == 40 && (t.pow 1).icount == 10) := by decide

/-- The strand's context in a state. -/
def inState (x : CtxState) : State := st.modCtx 0 0 fun c => { c with state := x }

/-- A RUN has performed on the saved context of a gang that is not placed, with its page's pc set. -/
def dueState : State := st.modCtx 0 0 fun c => { c with state := .resuming, due := true, resident := false }

theorem witness_ContextCommands :
    ((st.ctx 0 0).state.live = true ∧ (st.ctx 0 0).heldState = 0 ∧ (st.ctx 0 0).due = false) ∧
    ((dueState.ctx 0 0).state.live = true ∧ (dueState.ctx 0 0).heldState = 0 ∧ (dueState.ctx 0 0).due = true) ∧
    ((st.modCtx 0 0 fun c => { c with heldState := 1 }).ctx 0 0).heldState ≠ 0 ∧
    (let c := (inState .saved).ctx 0 0; c.state.live = false ∧ c.heldState = 0 ∧
      c.state = .saved ∧ c.resident = true ∧ st.quantum.world = 0 ∧ st.quantum.switch = none) ∧
    (let s := (inState .faulted).modCtx 0 0 fun c => { c with resident := false }
     (s.ctx 0 0).state = .faulted ∧ (s.ctx 0 0).resident = false ∧ (s.ctx 0 0).heldState = 0) ∧
    (¬ ((st.ctx 0 0).state = .saved ∨ (st.ctx 0 0).state = .faulted)) ∧
    (st.ctx 0 0).state.killable = true ∧ ((inState .frozen).ctx 0 0).state = .frozen ∧ (on [0, 0, 1] st).arg 2 ≠ 0 ∧
    (on [0, 0, 0] st).arg 2 = 0 ∧ (st.ctx 0 1).state = .empty ∧ ((inState .dead).ctx 0 0).state = .dead ∧
    (∀ r ∈ [1, 31], 1 ≤ r ∧ r < 32) ∧
    (∀ off ∈ [0x78, 0xFF, 0x107, 0x100, 0x200], (off < 0x100 ∧ off ≠ 0x80 ∧ off ≠ 0x88) ∨ off < 0x108 ∧ 0x100 ≤ off ∨ 0x200 ≤ off) ∧
    -- the launch's commands
    ((st.launch 0 5).bound = false ∧ (st.launch 0 5).lstate ≠ .ackwait ∧ (st.launch 0 0).bound = true ∧
      ((st.modLaunch 0 0 fun l => { l with lstate := .ackwait }).launch 0 0).lstate = .ackwait) ∧
    (0 < 16384 ∧ (st.ctx 0 0).launch = 0 ∧ (st.ctx 0 0).state ≠ .empty) := by decide

/-- 03 R55, R59. -/
theorem test_commands : ok .stop (on [0, 0, 0] st) (fun t => (t.ctx 0 0).state == .stopping && (t.ctx 0 0).cmdCnt == 1 &&
      (t.ctx 0 0).cmdStat == 0 && ok .contextSaved (on [0, 0] t) fun u => (u.ctx 0 0).state == .saved &&
        (u.ctx 0 0).pcS == 0x1000 && ok .run (on [0, 0, 0] u) fun v => (v.ctx 0 0).state == .resuming) ∧
    ok .ctxSavedFieldWrite (on [0, 0, 0x1F8, 7] (inState .saved)) (fun t => tget 0 (t.ctx 0 0).xS 31 == 7) ∧
    ok .ctxSavedFieldWrite (on [0, 0, 0x1F8, 7] st) (· == on [0, 0, 0x1F8, 7] st) ∧
    ok .stop (on [0, 0, 0] dueState) (fun t => (t.ctx 0 0).state == .saved) ∧
    ok .stopAll (on [0, 0, 0] (st2 .running)) (fun t => (t.launch 0 0).held && (t.ctx 0 0).state == .stopping &&
      (t.ctx 0 1).state == .stopping) ∧
    ok .killAll (on [0, 0, 0] (inState .frozen)) (fun t => (t.ctx 0 0).state == .frozen && (t.launch 0 0).killed) := by decide

/-- The strand stops with a fault; its handler is context 1 where h is set. -/
def faulted (f : Cause) (h : Bool) : State := ((st2 .running).modCtx 0 0 fun c => { c with
  state := .stopping, hvalid := h, handler := 1
  fault := some { cause := f, fslot := 0, fpc := 0x1000, felem := 0, progress := 0, faddr := 0x2001 } })

theorem witness_SavingAndReplay :
    (st.ctx 0 0).state ≠ .stopping ∧
    (let s := inState .stopping
     (s.ctx 0 0).state = .stopping ∧ storesHeld s 0 0 = false ∧
       (s.ctx 0 0).fault = none ∧ 2 ^ 51 ≤ (s.ctx 0 0).saveFrame) ∧
    (let s := faulted .misalign true; handlerOf s 0 0 = some 1 ∧ ctxKey 0 1 ≠ ctxKey 0 0 ∧ (s.ctx 0 0).state = .stopping ∧
      (s.ctx 0 0).fault.isSome = true) ∧
    handlerOf (faulted .tagfail false) 0 0 = none ∧ handlerOf (faulted .perm false) 0 0 = none ∧
    (let s := inState .resuming; let u := (s.ctx 0 0).strand
     (s.ctx 0 0).state = .resuming ∧ (s.ctx 0 0).due = false ∧ u.copies = [] ∧ u.ops = [] ∧ u.va = [] ∧ u.vm = [] ∧
       (s.ctx 0 0).wait = none) ∧ (dueState.ctx 0 0).due = true ∧
    storesHeld { inState .stopping with heldW := lh.heldW } 0 0 = true ∧
    (let o : Op := { Op.zero with kind := 0x30, reg := 5, tag := 9, queued := true }
     let s := (inState .resuming).modStrand 0 0 fun u => { u with ops := [o] }
     (s.ctx 0 0).state = .resuming ∧ (s.ctx 0 0).strand.ops = [o] ∧ o.queued = true ∧ (o.kind = 0x30 ∨ o.kind = 0x32 ∨ o.kind = 0x33)) := by
  decide

/-- 03 R56, R57, 11 R209, 08 R155: with a handler the fault is recorded and notified, and without one the launch ends. -/
theorem test_saving : ok .contextSaved (on [0, 0] (faulted .misalign true)) (fun t => (t.ctx 0 0).state == .faulted &&
      (t.ctx 0 0).fseq == 1 && (t.ctx 0 0).cause == 2 && (t.ctx 0 0).faddr == 0x2001 && (t.ctx 0 1).notify == 1 &&
      (t.launch 0 0).fvalid && (t.launch 0 0).firstFault == 0) ∧
    ok .contextSaved (on [0, 0] (faulted .misalign false)) (fun t => (t.ctx 0 0).state == .empty && (t.launch 0 0).faultEnd) := by
  decide

/-- Queue 5 is the function's own, queue 6 runs for a confidential world 1. -/
def hq (x : Queue) : State := (((st.modQueue 5 fun _ => x).modQueue 6 fun y => { y with owner := 1, istate := 2 }).modWorld 1
  fun w => { w with conf := true })

/-- A request of the strand to the host, whose translation is asked for where a is set. -/
def hr (a : Bool) : HReq := { HReq.zero with addr := 0x7008, len := 8, asking := a, translated := !a }

/-- A load of the strand to x5 has gone to the host. -/
def hl (a : Bool) : State :=
  { (st.onStrand fun u => { u with ops := [{ Op.zero with kind := 1, func := 3, reg := 5, wlog := 3, host := some 4 }],
                                   pend := [{ reg := 5, tok := 1 }] }) with hreqs := [(4, hr a)] }

/-- Vector 0 waits with one message, unmasked; vector 1 is masked. -/
def vs : State := st.modFn 0 fun f => { f with
  vecs := [(0, { Vec.zero with pend := 1, masked := false, cntm1 := 1, hold := 10 }), (1, { Vec.zero with pend := 1 })] }

/-- The functions' BARs are placed, and the next turn is this input's. World 1 may read its monitors. -/
def hb (i : Input) : State := { (st.modWorld 1 fun x => { x with mongnt := 2 }) with
  memOn := true, pfBars := [2 ^ 40, 2 ^ 41, 2 ^ 42], vfBars := [2 ^ 43, 2 ^ 44, 2 ^ 45], vfEnable := true, numVfs := 2
  sched := [.input], inputs := [i] }

theorem witness_HostEvents :
    -- BAR0
    (((st.modWorld 0 fun x => { x with fnFrozen := true }).world 0).fnFrozen = true ∧ 0x1004 % 8 ≠ 0 ∧
      bit (st.world 1).pwrgnt 79 = false ∧ bit (st.world 1).mongnt 167 = false ∧ bit (st.world 1).plgnt 15 = false ∧
      (st.world 1).readygnt = false ∧ ((hq { Queue.zero with owner := 1 }).queue 5).owner ≠ 0 ∧
      (0x10FFF / 4096 = 0x10 + 0 ∧ 0x4038 % 4096 = 0x38 ∧ 0x4038000 / 4096 = 0x4000 + 0x38) ∧
      (st.world 0).fnFrozen = false ∧ st.barWaits 0 = false ∧ bit ((hb (.configRead 0)).world 1).mongnt 1 = true ∧
      st.core.up = false) ∧
    (let s := hb (.hostWrite (2 ^ 43 + 2 ^ 28 + 0x61000) [1, 2, 3, 4, 5, 6, 7, 8] true 0)
     barOf s (2 ^ 43 + 2 ^ 28 + 0x61000) = some (2, 0, 0x61000) ∧ bar0Page s 2 0x61000 = none ∧
       bar0Page s 1 0x61000 = some (6, 1) ∧ s.tripped = false ∧ s.reads = [] ∧ s.sched = .input :: [] ∧
       s.inputs = .hostWrite (2 ^ 43 + 2 ^ 28 + 0x61000) [1, 2, 3, 4, 5, 6, 7, 8] true 0 :: []) ∧
    (let s := hb (.hostRead (2 ^ 42 + 8) 4 7)
     barOf s (2 ^ 42 + 8) = some (0, 2, 8) ∧ s.barWaits 0 = false ∧ (s.world 0).fnFrozen = false ∧ 8 = 16 * 0 + 8 ∧
       barOf s (2 ^ 40 + 0x60008) = some (0, 0, 0x60008) ∧ bar0Page s 0 0x60008 = some (6, 0) ∧ 0x60008 % 8 = 0 ∧
       barOf s (2 ^ 41) = some (0, 1, 0)) ∧
    -- BAR2
    (let s := (hq Queue.zero).modQueue 5 fun q => { q with cur := some (Packet.new [2, 0, 0, 0, 0, 0, 0, 0] true false none) }
     st.core.up = false ∧ 32768 ≤ 32768 * 64 / 64 ∧ (s.queue 5).cur.isSome = true ∧ (s.queue 5).inlines < 8) ∧
    (let s := { hq Queue.zero with deferred := [.ev (event .launchRegisterWrite [0])] }; s.barWaits 0 = true ∧ s.core.up = false) ∧
    (let s := hq Queue.zero
     (s.world 0).fnFrozen = false ∧ 6 * 64 / 64 < 32768 ∧ (s.queue 6).owner ≠ 0 ∧ (s.queue 6).istate = 2 ∧
       (s.world (s.queue 6).owner).conf = true ∧ (s.queue 5).owner = 0 ∧ (s.queue 5).istate ≠ 2 ∧
       (s.queue 5).inlines < 8 ∧ (s.queue 5).cur = none ∧ (s.queue 5).order = [] ∧ (s.queue 5).ringerr = false) ∧
    (let s := hq { Queue.zero with owner := 1 }
     (s.queue 5).owner ≠ 0 ∧ (s.queue 5).istate ≠ 2) ∧
    (let s := (hq { Queue.zero with istate := 2 }).modWorld 0 fun w => { w with conf := true }
     (s.queue 5).owner = 0 ∧ (s.queue 5).istate = 2 ∧ (s.world 0).conf = true) ∧
    8 ≤ ((hq { Queue.zero with order := List.replicate 8 (.inl [] true none) }).queue 5).inlines ∧
    (((hq { Queue.zero with order := [.ring] }).queue 5).inlines < 8 ∧
      ((hq { Queue.zero with order := [.ring] }).queue 5).order ≠ []) ∧
    -- requests
    ((hl true).hreq 4 = some (hr true) ∧ (hr true).asking = true ∧ (hr true).refused = false ∧ (hr true).retried = false ∧
      (hr true).dropped = false ∧ (hr true).posted = false ∧ (hr true).stale = false ∧ (hr true).tag = none ∧
      (∀ e ∈ (hl true).hreqs, e.2.asking = true → e.2.refused = false) ∧
      ({ hl true with hreqs := [(4, { hr true with stale := true })] }.hreq 4) = some { hr true with stale := true } ∧
      pageRoom (hl true) (hr true).world = true ∧ (({ hl true with fns := [(0, { Fn.zero with priOn := true })] }).fn 0).priOn = true) ∧
    (let c := (hl false).ctx 0 0
     (hl false).hreq 4 = some (hr false) ∧ (hr false).dropped = false ∧ (hr false).asking = false ∧ (hl false).heldW = [] ∧
      ∃ o, opOfRequest (hl false) 4 (hr false) = some o ∧ c.state.live = true ∧ c.state.takes = true ∧ o.kind = 1 ∧
       c.strand.pend.any (fun p => p.reg == o.reg && p.tok == 4 * o.id + 1) = true ∧ o.reg ≠ 0) ∧
    (hl true).hreq 3 = none ∧
    -- invalidations
    (32 ≤ (List.replicate 32 ({ fn := 0, lo := 0, hi := 0, reqs := [] } : Inval)).length ∧ st.invals = []) ∧
    (let v : Inval := { fn := 0, lo := 0x7000, hi := 0x8000, reqs := [4] }
     (∃ id ∈ v.reqs, ∃ e ∈ (hl false).hreqs, e.1 = id) ∧ ∀ id ∈ v.reqs, ∀ e ∈ st.hreqs, e.1 ≠ id) ∧
    -- vectors
    (0 < ((vs.fn 0).vec 0).pend ∧ ((vs.fn 0).vec 0).masked = false ∧ (vs.fn 0).fnMask = false ∧ ((vs.fn 0).vec 2).pend = 0 ∧
      0 < ((vs.fn 0).vec 1).pend ∧ ((vs.fn 0).vec 1).masked = true) ∧
    (0 + 1 ≤ ((vs.fn 0).vec 0).pend ∧ ¬ (1 + 1 ≤ ((vs.fn 0).vec 0).pend ∨ 100 * 10 ≤ vs.iod0 - ((vs.fn 0).vec 0).t0)) := by
  refine ⟨by decide, by decide, by decide, by decide, by decide, by decide, by decide, by decide, by decide, by decide,
    by decide, ⟨rfl, rfl, rfl, rfl, _, rfl, by decide⟩,
    by decide, by decide, ⟨⟨4, by decide, _, List.mem_singleton.mpr rfl, rfl⟩, by decide⟩, by decide, by decide⟩

/-- 04 R83: a launch register write appends its packet, and a part of one is malformed. R86: a completion extends its data.
R90, R91: a coalesced vector sends when its hold expires. -/
theorem test_host :
    ok .launchRegisterWrite { on [0, 5 * 64, 1, 1] (hq Queue.zero) with
        ev := { what := .nop, args := [0, 5 * 64, 1, 1], data := [5, 0, 0, 0, 0, 0, 0, 0] } } (fun t =>
      (t.queue 5).appended == 1 && ((t.queue 5).cur.map fun p => p.dws) == some [5, 0, 0, 0, 0, 0, 0, 0]) ∧
    ok .launchRegisterWrite (on [0, 5 * 64 + 8, 1, 1] (hq Queue.zero)) (fun t => (t.queue 5).malformed == 1) ∧
    ok .hostCompletion { hl false with ev := { what := .nop, args := [4, 1], data := [0x80, 0, 0, 0, 0, 0, 0, 0xFF] } } (fun t =>
      t.rx 5 == 0xFF00000000000080 && t.hreqs == [] && t.strand.ops == [] && t.strand.pend == []) ∧
    ok .hostRequestTimeout (on [4] (hl false)) (fun t => (t.me.fault.map fun f => f.cause) == some .trans) ∧
    ok .holdExpiry (on [0, 0] vs) (fun t => t.out == [.msix 0 0 0 0] && t.iod0 == 1000) ∧
    (after 1 (hb (.hostWrite (2 ^ 43 + 0x61000) [1, 0, 0, 0, 0, 0, 0, 0] true 0))).monit 1 = { Monit.zero with en := true } ∧
    (after 1 (hb (.hostRead (2 ^ 40 + 0x100010) 8 7))).out = [.hostData 7 (List.replicate 8 0)] := by decide

def up (s : State) : State := { s with core := { s.core with up := true } }

/-- World 1 takes 8 GiB at 40 GiB with its table region at their start; world 0 holds 32 GiB. -/
def wv (f : World → World) : State :=
  up (pr.modWorld 1 fun x => f { x with ranges := (40, 8) :: x.ranges.tail, tregion := 40 * 512 })

theorem witness_WorldEvents :
    (pr.core.up = false ∧ (wv id).core.up = true ∧ (wv id).waiting = [] ∧ (1 ≠ 0 ∧ (0 : Nat) = 0)) ∧
    (let s := { wv id with deferred := [.ev (event .create [2, 0])], ev := event .create [1, 0] }
     s.waiting = .ev (event .create [2, 0]) :: [] ∧ Waiter.ev (event .create [2, 0]) ≠ .ev s.ev) ∧
    (let s := { wv id with deferred := [.ev (event .create [1, 0])], ev := event .create [1, 0] }; s.waiting = .ev s.ev :: []) ∧
    (((wv id).world 1).wstate = 0 ∧ createCheck (wv id) 1 = 0) ∧ createCheck (wv fun x => { x with tregion := 0 }) 1 = 4 ∧
    createCheck (wv fun x => { x with ranges := [(28, 8)], tregion := 28 * 512 }) 1 = 3 ∧
    (let s := { wv fun x => { x with wstate := 1, conf := true } with wal := [.begin_ 7 txCreate 1] }
     (s.world 1).wstate = 1 ∧ s.core.up = true ∧ (s.world 1).conf = true ∧ usedRanges (s.world 1) = [(40, 8)] ∧
       s.openTxn txCreate 1 = some 7 ∧ s.wal.length + 8 ≤ walRing) ∧
    (let s := wv fun x => { x with wstate := 2 }; (s.world 1).wstate = 2 ∧ (s.world 1).fnFrozen = false ∧
      (s.ctx 0 0).state ≠ .empty ∧ inSwitch s 1 = false ∧
      inSwitch { s with quantum := { s.quantum with switch := some (1, 1) } } 1 = true) ∧
    (wv fun x => { x with fnFrozen := true }).core.up = true ∧ ((wv fun x => { x with fnFrozen := true }).world 1).fnFrozen = true ∧
    (let s := { wv (fun x => { x with wstate := 3 }) with wal := [.begin_ 7 txDestroy 1] }
     (s.world 1).wstate = 3 ∧ s.core.up = true ∧ (∀ e ∈ s.hreqs, ¬ (e.2.world = 1 ∧ e.2.link = none)) ∧ s.openTxn txDestroy 1 = some 7) ∧
    (∃ e ∈ (hl true).hreqs, e.2.world = 0 ∧ e.2.link = none) ∧
    ((pr.modQueue 9 fun x => { x with owner := 1 }).queue 9).owner = 1 ∧ (∀ e ∈ pr.worlds, e.1 = 1 → e.2.wstate = 0) ∧
    (let s := (up pr).modWorld 0 fun x => { x with wstate := 3 }
     (s.world 0).wstate = 3 ∧ bit s.ready.mgrp 0 = true) := by
  refine ⟨by decide, by decide, by decide, by decide, by decide, by decide, by decide, by decide, by decide, by decide, by decide,
    ⟨_, List.mem_singleton.mpr rfl, rfl, rfl⟩, by decide, by decide, by decide⟩

/-- 05 R96, R99. -/
theorem test_create : ok .create (on [1, 0] (wv fun x => { x with confreq := true })) (fun t => (t.world 1).wstate == 1 &&
      (t.world 1).conf && ok .createComplete (on [1] t) fun u => (u.world 1).wstate == 2 && (u.world 1).wcmdStat == 0 &&
        ok .destroy (on [1, 0] u) fun v => (v.world 1).wstate == 3) ∧
    ok .create (on [1, 1] (wv id)) (fun t => (t.world 1).wcmdStat == 2 && (t.world 1).wstate == 0) ∧
    ok .powerOnReset (on [] pr) (fun t => t == { State.reset with fresh := t.fresh, sched := t.sched }) := by decide

/-- Function 1 has reached a step of the protocol, with session 0 open and session 1 secured; function 2 has four sessions. -/
def ds (n : Nat) : State := up ((st.modFn 1 fun f => { f with spdm := n, sessions :=
    [{ id := 0, secured := false, keys := 0 }, { id := 1, secured := true, keys := 0 }] }).modFn 2 fun f => { f with
      spdm := 3, sessions := (List.range 4).map fun i => { id := i, secured := false, keys := 0 } })

theorem witness_DeviceSecurityMessages :
    st.core.up = false ∧ (ds 0).core.up = true ∧ (((ds 0).fn 1).spdm < 1 ∧ ((ds 1).fn 1).spdm < 2 ∧ ((ds 2).fn 1).spdm < 3) ∧
    (1 ≤ ((ds 1).fn 1).spdm ∧ 2 ≤ ((ds 2).fn 1).spdm ∧ 3 ≤ ((ds 3).fn 1).spdm) ∧
    ((∀ m, m < 0 → ∃ x ∈ ((ds 3).fn 0).sessions, x.id = m) ∧ ∀ x ∈ ((ds 3).fn 0).sessions, x.id ≠ 0) ∧
    (∀ m, m < 4 → (((ds 3).fn 2).sessions.any fun x => x.id == m) = true) ∧
    (((ds 3).fn 1).sessions.any (fun x => x.id == 0 && !x.secured) = true ∧
      ((ds 3).fn 1).sessions.any (fun x => x.id == 1 && x.secured) = true ∧
      ¬ ((ds 3).fn 1).sessions.any (fun x => x.id == 0 && x.secured) = true) ∧
    (let s := (ds 3).modWorld 1 fun x => { x with wstate := 2 }; (255 : Nat) < 256 ∧ (s.world 1).wstate = 2) ∧
    (let e := 128 + 1000 * 2 ^ 32; e % 256 ≤ 128 ∧ 1000 ≤ bits e 63 32 ∧ bits e 31 8 = 0) ∧
    (let s := ((ds 3).modQueue 5 fun x => { x with owner := 1, root := 40 * 2 ^ 30 }).modWorld 1 fun x => { x with tregion := 40 * 512, wstate := 2 }
     (s.queue 5).istate = 0 ∧ inRegion s 1 (s.queue 5).root = true ∧ (s.queue 5).vector < 2048 ∧ (s.queue 5).pasidv = false) ∧
    (let s := (hq Queue.zero).modLaunch 0 0 fun l => { l with queue := 5 }
     0 ∈ openLaunches s 5 ∧ (s.launch 0 0).open = true) ∧
    (let s := (ds 3).modQueue 5 fun x => { x with owner := 1, istate := 1, nonce := some 77 }
     1 = (s.queue 5).owner ∧ (s.queue 5).istate = 1 ∧ (s.queue 5).nonce = some ((on [1, 1, 5, 77] s).arg 3) ∧
       (2 ≠ 0 ∧ 2 ≠ (s.queue 5).owner)) ∧
    (((ds 3).queue 5).istate = 0 ∧ (((ds 3).modQueue 5 fun x => { x with istate := 3 }).queue 5).istate = 3) := by decide

/-- 08 R141: the table that the PF sets is the one it names; 05 R103: an algorithm that is not offered ends nothing. -/
theorem test_messages :
    (let s := (ds 3).modFn 0 fun f => { f with sessions := [{ id := 0, secured := true, keys := 0 }] }
     ok .setQuantumTable { s with ev := { what := .nop, args := [0, 0, 1], data := [128 + 1000 * 2 ^ 32] } } (fun t =>
       t.quantum.next == some [(128, 1000)] && t.out == [.reply 0 18 []])) ∧
    ok .negotiateAlgorithms (on [1, 1, 1, 1, 1] (ds 2)) (fun t => (t.fn 1).spdm == 3) ∧
    ok .negotiateAlgorithms (on [1, 1, 1, 1, 2] (ds 2)) (fun t => (t.fn 1).spdm == 2 && t.out == [.reply 1 0 []]) ∧
    ok .finish (on [1, 0, 1] (ds 3)) (fun t => (t.fn 1).sessions.all (·.secured)) := by decide

/-- Queue 5, of which the interface is in a state. -/
def qs (n : Nat) : State := (wv fun x => { x with wstate := 2 }).modQueue 5 fun x => { x with
  istate := n, root := 0x40000000, rlog2 := 2, head := 0xFFFFFFFE, tail := 0xFFFFFFFE }

theorem witness_QueuePages :
    (let s := on [5, 128, 0] (qs 0); s.arg 2 = 0 ∧ (s.queue 5).istate = 0 ∧ s.arg 1 < 129 ∧ (s.world 128).wstate = 0) ∧
    ¬ (on [5, 129, 0] (qs 0)).arg 1 < 129 ∧
    (let s := on [5, 0x18, 0x40001000, 0] (qs 1); s.arg 3 = 0 ∧ (s.queue 5).istate ≠ 0 ∧ (s.queue 5).istate ≠ 3 ∧
      { s.queue 5 with root := s.arg 2 } ≠ s.queue 5) ∧
    (let s := on [5, 0x18, 0x40000000, 0] (qs 1); { s.queue 5 with root := s.arg 2 } = s.queue 5) ∧
    ((qs 3).queue 5).istate = 3 ∧ ((qs 0).core.up = true ∧ (qs 0).waiting = [] ∧ pr.core.up = false) ∧
    ¬ ((on [5, 0x18, 0, 1] (qs 1)).arg 3 = 0 ∨ (on [5, 0x18, 0, 1] (qs 1)).arg 3 = ((qs 1).queue 5).owner) ∧
    (let s := qs 0; ((s.world 0).wstate = 2 ∧ inRegion s 0 (s.queue 5).root = true ∧ (s.queue 5).vector < 2048 ∧
      (s.queue 5).pasidv = false) ∧ (s.world 0).conf = false) ∧
    (let s := (qs 0).modQueue 5 fun x => { x with vector := 2048 }; ¬ (s.queue 5).vector < 2048) ∧
    (((qs 0).modWorld 0 fun x => { x with conf := true }).world 0).conf = true ∧
    (∀ e ∈ [(2, true), (3, false), (0xFFFFFFFE, true), (0xFFFFFFFD, false)], let x := (qs 2).queue 5
      let n := (e.1 + 2 ^ 32 - x.head.toNat) % 2 ^ 32
      decide (n ≤ 2 ^ x.rlog2 ∧ (x.tail - x.head).toNat ≤ n) = e.2) ∧
    (((qs 2).queue 5).cur = none ∧ ((qs 2).queue 5).order = [] ∧ ((qs 2).queue 5).ringerr = false) ∧
    (let x := ((qs 2).modQueue 5 fun x => { x with ringerr := true, order := [.ring] }).queue 5
     x.ringerr = true ∧ x.cur = none ∧ x.order = .ring :: []) ∧
    (let s := on [0, 0x202020, 5] (qs 2)
     bar0Page s 0 0x202020 = some (1, 2) ∧ (s.world 0).fnFrozen = false ∧ needsCore 1 0x20 = false ∧ s.barWaits 0 = false ∧
      (s.world 2).wstate = 0 ∧ bar0Page s 0 0x201020 = some (1, 1) ∧ (s.world 1).wstate ≠ 0 ∧ bar0Page s 0 0xFFFFFFF8 = none ∧
      bar0Page s 0 0x10010 = some (5, 0) ∧ needsCore 5 0x10 = true) := by decide

/-- 06 R111 to R115: TAIL wraps and takes packets up to the ring's size; OWNER takes 128 and not 129. -/
theorem test_queue_page :
    ok .tailStore (on [5, 2, 0] (qs 2)) (fun t => (t.queue 5).order.length == 4 && (t.queue 5).tail == 2) ∧
    ok .tailStore (on [5, 3, 0] (qs 2)) (fun t => (t.queue 5).order == [] && (t.queue 5).malformed == 1) ∧
    ok .ownerWrite (on [5, 128, 0] (qs 0)) (fun t => (t.queue 5).owner == 128) ∧
    ok .ownerWrite (on [5, 129, 0] (qs 0)) (fun t => (t.queue 5).owner == 0) ∧
    ok .start (on [5, 0] (qs 0)) (fun t => (t.queue 5).istate == 2 && (t.queue 5).qcmdStat == 0) ∧
    ok .queueLockedFieldWrite (on [5, 0x18, 0x40001000, 0] (qs 1)) (fun t => (t.queue 5).istate == 3) := by decide

/-- Queue 5 of world 0 runs and has a packet in hand. -/
def pq (dws : List Nat) (armed : Bool) (f : Queue → Queue) : State := (qs 2).modQueue 5 fun x => f { x with
  cur := some { Packet.new (dws.map (BitVec.ofNat 64)) false true none with armed := armed } }

def pk (s : State) (p : Packet → Bool) : Bool := match (s.queue 5).cur with
  | some x => x.spawn == none && p x && accepts s 5 x
  | none => false

/-- A launch packet: one strand a gang, ten gangs at entry 0x1000. -/
def lp : List Nat := [1 + 64 * 2 ^ 32, 4, 10, 0x1000, 77, 0, 0, 1]

/-- Queue 5 with a ring slot to read at 0x3080, whose leaf is marked accessed. -/
def rq : State :=
  let s := mem 0x3080 8 5 ((qs 2).modQueue 5 fun x => { x with order := [.ring], rbase := 3 })
  { (match checkIn s 0 0x40000000 0x3080 .load with | .ok y => setAD s 0 y .load | .error _ => s) with hreqs := [] }

/-- A launch packet in a world of which the first n launch numbers are taken. -/
def full (n : Nat) : State :=
  { pq lp false id with launches := (List.range n).map fun l => (l, { Launch.zero with lstate := .active }) }

/-- A leaf of the world maps its third GiB to the host. -/
def rh : State := (mem (0x40001000 + 16) 8 (0xB000000000000 + 7) rq).modQueue 5 fun x => { x with rbase := 2 ^ 19 }

theorem full_launch {l n : Nat} (h : l < n) : (full n).launch 0 l = { Launch.zero with lstate := .active } := by
  have hm : ∀ ks : List Nat, l ∈ ks → tget Launch.zero (ks.map fun k => (k, ({ Launch.zero with lstate := .active } : Launch))) l =
      { Launch.zero with lstate := .active } := by
    intro ks hk
    induction ks with
    | nil => cases hk
    | cons k ks ih =>
      simp only [List.map_cons, tget]
      split
      · rfl
      · next hne => exact ih ((List.mem_cons.mp hk).resolve_left fun e => hne e.symm)
  have hk : launchKey 0 l = l := by simp [launchKey]
  rw [State.launch, hk]
  exact hm _ (List.mem_range.mpr h)

theorem witness_PacketParser :
    (let x := rq.queue 5
     x.cur = none ∧ x.order = .ring :: [] ∧ x.ringerr = false ∧
     (sext 48 (x.rbase * 4096)).toNat + 64 * (x.head.toNat % 2 ^ x.rlog2) = 0x3080 ∧
     (List.range 8).all (fun i => (match checkIn rq x.owner x.root (0x3080 + 8 * i) .load with
       | .ok y => y.target == .mem (0x3080 + 8 * i) && setAD rq x.owner y .load == rq
       | .error _ => false) && !tagFails rq (keySlot rq x.owner) (0x3080 + 8 * i) 8 && !portBusy rq (0x3080 + 8 * i) 8 &&
       !walkWaits rq x.owner x.root (0x3080 + 8 * i) .load && memReady rq (0x3080 + 8 * i) &&
       unitPA rq x.owner (0x3080 + 8 * i) == 0x3080 + 8 * i) = true ∧ x.fetch = none) ∧
    walkWaits (wk rq) 0 0x40000000 0x3080 .load = true ∧
    (let s := rq.modQueue 5 fun x => { x with rbase := 2 ^ 20 }
     (match checkIn s 0 0x40000000 (2 ^ 32 + 128) .load with | .error _ => true | .ok _ => false) = true) ∧
    -- a ring in the host window, and its answer
    ((match checkIn rh 0 0x40000000 (2 ^ 31 + 128) .load with | .ok y => y.target == .host 128 | .error _ => false) = true ∧
      walkWaits rh 0 0x40000000 (2 ^ 31 + 128) .load = false ∧ hostRoom rh = true ∧ asksFirst rh 0 (rh.queue 5).pasidOf 128 = false) ∧
    (let h : HReq := { HReq.zero with ctx := 16384, op := 5, len := 64 }
     let s := { rq.modQueue 5 fun x => { x with fetch := some 9 } with hreqs := [(9, h)] }
     s.hreq 9 = some h ∧ h.posted = false ∧ h.asking = false ∧ h.dropped = false ∧ s.heldW = [] ∧ (s.queue h.op).fetch = some 9) ∧
    ((qs 2).queue 5).cur = none ∧
    -- NOP; with BARRIER while launch 0 of the queue is open; a reserved bit; an interface that is not in RUN
    pk (pq [5] false id) (fun p => p.kind == 5 && !p.armed && perrOf (pq [5] false id) 5 p == 0 && p.dw 5 == 0 &&
      !bit (p.dw 0) 18 && !bit (p.dw 0) 19) = true ∧
    (let s := (pq [5 + 2 ^ 19] false id).modLaunch 0 0 fun x => { x with queue := 5 }
     pk s (fun p => perrOf s 5 p == 0 && bit (p.dw 0) 19) = true ∧ openLaunches s 5 ≠ []) ∧
    pk (pq [5, 1] false id) (fun p => perrOf (pq [5, 1] false id) 5 p == 2) = true ∧
    (let s := pq [5] false fun x => { x with istate := 3 }
     (match (s.queue 5).cur with | some p => accepts s 5 p | none => true) = false) ∧
    pk (pq lp false id) (fun p => p.kind == 1 && perrOf (pq lp false id) 5 p == 0) = true ∧
    (let s := pq lp false id
     (∀ j, j < 1 → (s.launch 0 j).lstate ≠ .never ∧ (s.launch 0 j).free = false) ∧ (s.launch 0 1).lstate = .never) ∧
    (∀ l, l < 1024 → ((full 1024).launch 0 l).lstate ≠ .never ∧ ((full 1024).launch 0 l).free = false) ∧
    -- CHECKPOINT where one may start, and where one is under way
    (let s := pq [4, 0x10000000, 0x1000, 0, 7] false id
     pk s (fun p => p.kind == 4 && perrOf s 5 p == 0) = true ∧ s.ckpt.estate = 0 ∧ s.quantum.world = 0 ∧ s.quantum.switch = none ∧
       s.core.up = true ∧ s.waiting = [] ∧ (s.launch 0 0).open = true) ∧
    { (qs 2).ckpt with estate := 3 }.estate ≠ 0 ∧
    -- WAITVALUE and WRITEVALUE at 0x3000
    (∀ b ∈ [true, false], let s := pq [2, 0x3000, 0, neg 1] b id
     pk s (fun p => p.kind == 2 && perrOf s 5 p == 0 && p.armed == b && p.ending == none && !p.hit &&
       !bit (p.dw 0) 19 && (match checkIn s 0 0x40000000 (p.dw 1) .load with
       | .ok x => x.target == .mem 0x3000 && !tagFails s (keySlot s 0) 0x3000 8 && !portBusy s 0x3000 8 && memReady s 0x3000 &&
         !walkWaits s 0 0x40000000 0x3000 .load && unitPA s 0 0x3000 == 0x3000
       | .error _ => false)) = true ∧ walkWaits (wk s) 0 0x40000000 0x3000 .load = true) ∧
    (let s := (pq [2, 0x3000, 0, neg 1] true id).modQueue 5 fun x => { x with cur := x.cur.map fun p => { p with hit := true } }
     pk s (fun p => p.kind == 2 && p.armed && p.ending == none && p.hit && p.dw 5 == 0) = true) ∧
    (let s := pq [3, 0x3000, 99] true id
     pk s (fun p => p.kind == 3 && p.armed && p.dw 5 == 0 && !bit (p.dw 0) 18 &&
       (match checkIn s 0 0x40000000 (p.dw 1) .store with
       | .ok x => x.target == .mem 0x3000 && !writeTagFails s (keySlot s 0) 0x3000 8 && !writeWaits s 0x3000 8
       | .error _ => false)) = true ∧ writeWaits (s.modMlink (linkOf s 0x3000) fun l => { l with retraining := true }) 0x3000 8 = true) ∧
    (let s := st.modLaunch 0 0 fun x => { x with lstate := .ackwait }
     (s.launch 0 0).lstate = .ackwait ∧ (s.launch 0 0).peerpend = 0 ∧ worldStoresHeld s 0 = false ∧ (s.launch 0 0).caddr = 0 ∧
       (let s := s.modLaunch 0 0 fun x => { x with caddr := 0x3000 }
        (s.launch 0 0).caddr ≠ 0 ∧ worldStoresHeld { s with heldW := lh.heldW } 0 = true)) ∧
    (let s := (wk (qs 2)).modLaunch 0 0 fun x => { x with lstate := .ackwait, caddr := 0x3000, queue := 5 }
     (s.launch 0 0).caddr ≠ 0 ∧ (s.launch 0 0).spawn = none ∧ walkWaits s 0 (s.queue 5).root 0x3000 .store = true) ∧
    ((st.launch 0 0).lstate ≠ .ackwait ∧ (st.launch 0 0).lstate ≠ .done) := by
  refine ⟨?_, ?_, ?_, ?_, ?_, ?_, ?_, ?_, ?_, ?_, ?_, ?_, fun l hl => ?_, ?_, ?_, ?_, ?_, ?_, ?_, ?_, ?_⟩
  case refine_13 => rw [full_launch hl]; decide
  all_goals decide

/-- 06 R116 to R119: a launch takes number 1; a WAITVALUE of 0 on a doubleword of 0 goes past; a WRITEVALUE stores. -/
theorem test_packets :
    ok .launch (on [5] (pq lp false id)) (fun t => (t.launch 0 1).lstate == .pending && (t.launch 0 1).count == 10 &&
      (t.launch 0 1).entry == 0x1000 && (t.launch 0 1).arg == 77 && (t.queue 5).accepted == 1 && (t.queue 5).cur.isNone) ∧
    ok .waitvalue (on [5] (pq [2, 0x3000, 0, neg 1] false id)) (fun t => (t.queue 5).cur.isNone) ∧
    ok .waitvalue (on [5] (pq [2, 0x3000, 1, neg 1] false id)) (fun t => ((t.queue 5).cur.map (·.armed)) == some true) ∧
    ok .writevaluePerformed (on [5] (pq [3, 0x3000, 99] true id)) (fun t => readNum t 0 0x3000 8 == 99) ∧
    ok .nop (on [5] (pq [5, 1] false id)) (fun t => (t.queue 5).badpkt == 1) := by decide +kernel

/-- The core is down, the first I/O die is ready, and its log has these records. -/
def rec (l : List WalRec) : State := { lk with ready := { lk.ready with iod := 1 }, wal := l }

theorem witness_PolicyCore :
    let l := [WalRec.begin_ 1 txCreate 1, .write 1 (pagePA 1 1 0) 0 1, .step 1 1]
    (qs 0).core.up = true ∧ bit st.ready.iod 0 = false ∧
    ((rec []).core.up = false ∧ bit (rec []).ready.iod 0 = true ∧ (rec []).core.recovering = false ∧ (rec []).openTxns = [] ∧
      (on [1] (rec [])).arg 0 ≠ 0 ∧ ¬ ((rec []).world 0).wstate ≠ 0 ∧ bit (rec []).ready.mgrp 0 = false) ∧
    (∀ x ∈ (rec [.begin_ 1 txCkpt 0]).openTxns, x.2.1 = txCkpt ∨ x.2.1 = txRestore) ∧
    (let s := rec l; let s := { s with core := { s.core with recovering := true } }
     s.core.recovering = true ∧ ¬ ∀ x ∈ s.openTxns, x.2.1 = txCkpt ∨ x.2.1 = txRestore) ∧
    (let s := ({ rec [] with ready := { lk.ready with iod := 1, mgrp := 1 } }); bit s.ready.mgrp 0 = true ∧ (s.world 0).wstate = 0) ∧
    (((rec l).modWorld 0 fun x => { x with wstate := 2 }).world 0).wstate ≠ 0 ∧ (rec l).wal = l ∧
    { Quantum.zero with deferred := true }.deferred = true ∧ { Ckpt.zero with estate := 4 }.estate = 4 ∧
    { rec [] with deferred := [.ev (event .create [2, 0])] }.waiting = .ev (event .create [2, 0]) :: [] := by decide

/-- 06 R124, R125: what has not committed is undone, and the store that waited is tried. -/
theorem test_recovery :
    let s : State := { rec [.begin_ 1 txCreate 1, .write 1 (pagePA 1 1 0) 0 1, .step 1 1] with
      worlds := [(0, { World.zero with wstate := 2 }), (1, { World.zero with wstate := 1 })]
      deferred := [.ev (event .create [2, 0])] }
    ok .policyCoreRecovery (on [0] s) (fun t => t.core.up && t.pcgen == 1 && (t.world 1).wstate == 0 && t.openTxns == [] &&
      t.work == [event Instr.create [2, 0]]) := by decide

/-- Queue 5 has a checkpoint under way in world 0, of which no context is bound, into 0x10000000. -/
def co : CkOp :=
  { q := 5, area := 0x10000000, asize := 0x1000, base := 0, ckid := 7, full := true, start := 0, stopped := [],
    pages := [], left := [], grans := [], dies := [], clus := [], image := [], shards := [], newest := 0, seq := 0 }

def ck (n : Nat) (o : CkOp) : State := { qs 2 with ctxs := [], launches := [], ckpt := { Ckpt.zero with estate := n, op := some o } }

theorem ck_stopped (n : Nat) (o : CkOp) : ∀ k, k < 16384 → ((ck n o).ctx 0 k).state.live = false ∧
    ((ck n o).ctx 0 k).state ≠ .stopping := fun _ _ => ⟨rfl, CtxState.noConfusion⟩

/-- A manifest at 0x2000 with FULL set, no shard and no range. -/
def mf : State :=
  let s := mem 0x2018 8 1 (mem 0x2010 8 0x200 (placeWorld State.reset))
  { up s with ckpt := { Ckpt.zero with rmanpa := 0x2000, rdig := manifestDigest s 0 0x2000 } }

/-- A restore of one whole, unsigned image without a shard passes its checks. -/
theorem restoreCheck_one {s : State} {m : Manifest} (h1 : (s.world s.ckpt.rworld).wstate = 2)
    (h2 : (s.bound s.ckpt.rworld).isEmpty = true)
    (h3 : ((worldLaunches s s.ckpt.rworld).any fun l => !(s.launch s.ckpt.rworld l).free) = false)
    (hr : readsFail s s.ckpt.rworld [(s.ckpt.rmanpa, manifestBody s s.ckpt.rworld s.ckpt.rmanpa)] = false)
    (h4 : manifestDigest s s.ckpt.rworld s.ckpt.rmanpa = s.ckpt.rdig) (h5 : chain s s.ckpt.rworld 64 s.ckpt.rmanpa = some [m])
    (hp : m.pa = s.ckpt.rmanpa) (h6 : m.signed = false)
    (h7 : (Nat.land m.dies s.ready.cdie != m.dies || Nat.land m.clus s.ready.clu != m.clus ||
      m.ranges != (s.world s.ckpt.rworld).ranges.map rangeWord) = false) (h8 : m.conf = false) (h9 : m.shards = []) :
    restoreCheck s = 0 := by
  simp only [restoreCheck, h1, h2, h3, h4, h5, hr]
  simp at h7
  simp [h6, h7, h8, h9, hp, hr, signatureOk, chainOk, chainReads]

theorem restoreCheck_mf : restoreCheck { mf with ckpt := { mf.ckpt with ecmdCnt := 1 } } = 0 :=
  restoreCheck_one (m := readManifest mf 0 0x2000) (by decide) (by decide) (by decide) (by decide +kernel) rfl (by decide +kernel)
    rfl (by decide +kernel) (by decide +kernel) (by decide +kernel) (by decide +kernel)

/-- A page of world 0, at 0x3000 and on the second GiB's last page, still to copy to a shard at 0x10001000. -/
def cp : CkOp := { co with pages := [3], left := [3], shards := [(2, 0, 0x10001000, 0x9000, 1)] }

/-- The strand's world is in phase 1, its launch held or not, its context in a state. -/
def ca (x : CtxState) (h : Bool) : State := { ((up (inState x)).modLaunch 0 0 fun l => { l with held := h }) with
  ckpt := { Ckpt.zero with estate := 1, op := some co } }

def shardAt : CkOp := { co with shards := [(2, 0, 0x10001000, 0x9000, 1)] }

theorem witness_CheckpointEngine :
    ((ck 1 co).core.up = true ∧ (ck 1 co).quantum.world = 0 ∧ (ck 1 co).quantum.switch = none ∧ State.reset.ckpt.op = none) ∧
    (unstopped (ca .running false) 0 ≠ [] ∧ unstopped (ca .stopping true) 0 = [] ∧
      (worldLaunches (ca .running true) 0).filter (runsAny (ca .running true) 0) ≠ [] ∧
      ((ca .stopping true).ctx 0 0).state = .stopping) ∧
    (unstopped (ck 1 co) 0 ++ (worldLaunches (ck 1 co) 0).filter (runsAny (ck 1 co) 0) = [] ∧
      areaWaits (wk (ck 1 co)) co 0 = true ∧ areaWaits (ck 1 co) co 0 = false ∧ (ck 1 co).sundogs = []) ∧
    (∀ k, k < 16384 → ((ck 1 co).ctx 0 k).state.live = false ∧ ((ck 1 co).ctx 0 k).state ≠ .stopping) ∧
    (areaPA (ck 1 { co with asize := 0 }) { co with asize := 0 } 0 = .bad ∧ areaPA (bad (0x40000000 / 64) (ck 1 co)) co 0 = .tag ∧
      areaPA (ck 1 co) co 0 = .pa 0x10000000 ∧ baseOk (ck 1 co) { co with full := false } 0 = .bad ∧ baseOk (ck 1 co) co 0 = .pa 0) ∧
    (let o : CkOp := { co with full := false, base := 0x40000000 }
     baseOk (bad (0x40001000 / 64) (ck 1 o)) o 0 = .tag) ∧
    (planShards (ck 1 co) 0 0x10000000 (diesOf (ck 1 co) 0) [] (dirtyPages (ck 1 co) 0 0x10000000 0x1000) (dirtyGranules (ck 1 co) 0)).2
      ≤ 0x1000 ∧
    (let s := { ck 1 co with dirty := [(3, true)] }
     0x1000 < (planShards s 0 0x10000000 (diesOf s 0) [] (dirtyPages s 0 0x10000000 0x1000) (dirtyGranules s 0)).2) ∧
    ((ck 2 co).quantum.deferred = false ∧ (∀ x ∈ co.shards, False) ∧
      ∃ x ∈ shardAt.shards, portBusy (wk (ck 2 co)) x.2.2.1 (if x.1 = 1 then x.2.2.2.1 else 32768) = true) ∧
    (let s := on [3] (ck 3 cp)
     s.ckpt.estate = 3 ∧ s.arg 0 ∈ cp.left ∧ ¬ (retrains s (3 * 4096) = true ∨ portBusy s (pageSpot cp 3) 4096 = true) ∧
       tagFails s (keySlot s 0) (3 * 4096) 4096 = false ∧ s.heldW = [] ∧ memReady s (pageSpot cp 3) = true ∧
       pageSpot cp 3 + 4096 ≤ 2 ^ 51 ∧ Memory.wf s.mem = true ∧ (∀ p ∈ cp.left, p = 3)) ∧
    retrains (wk (ck 3 cp)) (3 * 4096) = true ∧
    4 ∉ cp.left ∧ cp.left ≠ [] ∧ co.left = [] ∧
    tagFails (bad 0xC0 (ck 3 cp)) (keySlot (ck 3 cp) 0) (3 * 4096) 4096 = true ∧
    ((ck 4 co).ckpt.estate = 4 ∧ ((ck 4 co).queue co.q).cur = none ∧ manifestReads (ck 4 co) 0 co = [] ∧
      portBusy (ck 4 co) co.area 4096 = false ∧ portBusy (wk (ck 4 co)) co.area 4096 = true ∧
      pageUp (manifestLen 0 (signs ((ck 4 co).world 0))) = 4096 ∧
      { ck 4 co with wal := [.begin_ 3 txCkpt 0] }.openTxn txCkpt 0 = some 3) ∧
    (∃ r ∈ manifestReads (ck 4 shardAt) 0 shardAt, tagFails (bad (0x10001000 / 64) (ck 4 shardAt)) 0 r.1 r.2 = true) ∧
    ((ck 3 co).ckpt.op = some co ∧ (1 ≤ 3 ∧ 3 ≤ 3) ∧ onFabric (ck 3 co) 0 = true) ∧
    (mf.ckpt.estate = 0 ∧ restoreCheck { mf with ckpt := { mf.ckpt with ecmdCnt := mf.ckpt.ecmdCnt + 1 } } = 0) ∧
    restoreCheck { st with ckpt := { st.ckpt with ecmdCnt := 1 } } = 7 ∧
    restoreCheck { bad 0x80 mf with ckpt := { mf.ckpt with ecmdCnt := 1 } } = 10 ∧
    (mf.core.up = true ∧ mf.waiting = [] ∧ restoreWaits mf 0 0x2000 = false ∧ restoreWaits (wk mf) 0 0x2000 = true) ∧
    ((ck 5 co).ckpt.estate = 5 ∧ (∀ h ∈ co.shards, False) ∧
      (∃ h ∈ shardAt.shards, portBusy (wk (ck 5 co)) h.2.2.1 h.2.2.2.1 = true) ∧ pageOf (ck 5 co) 0 3 = true) := by
  refine ⟨by decide, by decide, by decide, ck_stopped 1 co, by decide, by decide, by decide +kernel, by decide +kernel,
    by decide +kernel, by decide +kernel, by decide +kernel, by decide, by decide, by decide, by decide +kernel, by decide +kernel,
    by decide +kernel, by decide +kernel, ⟨by decide, restoreCheck_mf⟩, by decide +kernel, by decide +kernel, by decide +kernel,
    by decide +kernel⟩

/-- 07 R130, R131, R137. -/
theorem test_checkpoint :
    ok .ckptPageCopied (on [3] { ck 3 cp with mem := (mem 0x3000 8 77 (ck 3 cp)).mem }) (fun t =>
      readNum t 0 (0x10001000 + 32768) 8 == 77) ∧
    ok .abort (on [0] (ck 3 { co with pages := [3, 4], left := [3] })) (fun t => t.ckpt.estate == 0 && t.ckpt.lasterr == 8 &&
      tget false t.dirty 3 && !tget false t.dirty 4) ∧
    ok .ecmdIgnored (on [3, 0] (ck 3 co)) (fun t => t.ckpt.lasterr == 11 && t.ckpt.ecmdCnt == 1) := by decide +kernel

/-- World 0 is in its quantum, and world 1 holds 8 GiB; launch 0 of world 0 waits for its one gang where l is set. -/
def qd (l : Bool) : State :=
  let s := up ((placeWorld State.reset).modWorld 0 fun x => { x with ranges := [(0, 32)] })
  let s := s.modWorld 1 fun x => { x with wstate := 2, ranges := [(40, 8)] }
  let s := { s with ready := { s.ready with clu := 1, cdie := 1 }, portCdie := 1 }
  if l then s.modLaunch 0 0 fun x => { x with
    lstate := .pending, total := 1, widths := [4], count := 1, glvl := 1, vkib := 64, entry := 0x1000, root := 0x40000000, arg := 9 } else s

/-- In stage n of a switch from the strand's world to world w. -/
def sw (w n : Nat) (s : State) : State := { up s with quantum := { s.quantum with switch := some (w, n) } }

/-- The strand's gang gives up its slots, its context in a state. -/
def gr (x : CtxState) : State :=
  (inState x).modLaunch 0 0 fun x => { x with gangs := x.gangs.map fun g => (g.1, { g.2 with state := .rotating }) }

theorem saved_settled : ∀ k, k < 16384 → ((sw 1 1 (inState .saved)).ctx 0 k).busy = false := by
  intro k _
  cases k with
  | zero => decide
  | succ n =>
    have h : (sw 1 1 (inState .saved)).ctx 0 (n + 1) = Ctx.zero := by
      have hk : ctxKey 0 (n + 1) ≠ ctxKey 0 0 := by simp [ctxKey]
      simp [State.ctx, sw, up, inState, State.modCtx, State.putCtx, st, placeStrand, hk]
      rfl
    rw [h]; rfl

/-- A request of before a save is on its way. -/
def fly (s : State) : State := { s with flights := [(0, 0, Op.zero)] }

theorem witness_QuantumEnd :
    (sw 1 1 st).quantum.switch.isSome = true ∧ ((qd true).quantum.switch = none ∧ (qd true).core.up = true ∧
      phaseUnderWay (qd true) = false) ∧ phaseUnderWay (ck 3 co) = true ∧
    nextEntry (qd true) [(0, 10000)] 0 = some (0, 0, 10000) ∧ nextEntry (qd true) [(0, 10000), (1, 2000)] 1 = some (1, 1, 2000) ∧
    nextEntry (qd true) [(2, 2000)] 0 = none ∧ (qd true).quantum.world = 0 ∧ ((qd true).openTxn txSwitch 1 = none ∧
      .fin (qd true).core.nextId ∉ (qd true).wal) ∧
    -- the entry that stays the current one, and the next of two
    ((qd true).quantum.idx = (0 + 1) % 1 ∧ { (qd true).quantum with idx := 1 }.idx ≠ (1 + 1) % 2) ∧
    ((st.ctx 0 0).state.live = true ∧ (st.ctx 0 0).due = false ∧ (dueState.ctx 0 0).state.live = true ∧
      (dueState.ctx 0 0).due = true) ∧
    ((st.ctx 0 0).heldState = 0 ∧ ((st.modCtx 0 0 fun c => { c with heldState := 3 }).ctx 0 0).heldState ≠ 0) ∧
    (let s := { qd false with quantum := { (qd false).quantum with table := [(2, 2000)] } }
     (s.world 0).conf = false ∧ worldIdle s 0 = true ∧ s.quantum.next = none ∧ nextEntry s s.quantum.table s.quantum.idx = none) ∧
    worldIdle (qd true) 0 = false := by
  and_intros <;> decide

theorem witness_Switch :
    ((st.ctx 0 0).busy = true ∧ ∀ k, k < 16384 → ((sw 1 1 (inState .saved)).ctx 0 k).busy = false) ∧
    (∃ x ∈ (fly st).flights, x.1 = (fly st).quantum.world) ∧ (∀ x ∈ st.flights, x.1 ≠ st.quantum.world) ∧
    (let s := sw 1 1 (inState .saved)
     saveWaits s 0 = false ∧ saveWaits (wk s) 0 = true ∧ s.quantum.flrs = [] ∧ s.sundogs = [] ∧
       ∃ p, launchImages s 0 (anvilsOn s 0) = [(0, [p])] ∧ (launchImages s 0 (anvilsOn s 0)).flatMap (·.2) = [p] ∧
         p.what = .vault (2 ^ 51) ∧ p.ready s = true ∧ p.pa + p.n ≤ 2 ^ 51 ∧ Memory.wf s.mem = true) ∧
    -- a page that the save writes has still to be copied
    (let s := { sw 1 1 (inState .saved) with ckpt := { Ckpt.zero with estate := 3, op := some { co with pages := [3], left := [3] } } }
     saveWaits s 0 = true ∧ ∃ p ∈ savedPages s 0, uncopied s (p * 4096) = true) ∧
    (let s := sw 1 1 ((inState .saved).modWorld 1 fun x => { x with wstate := 2 })
     let s := { s with quantum := { s.quantum with flrs := [1] } }
     (∀ v ∈ s.quantum.flrs, v < 129) ∧ (s.world 1).wstate = 2) ∧
    (let s := sw 0 2 (inState .saved)
     imageReadWaits s 0 = false ∧ imageReadWaits (wk s) 0 = true ∧
       ∃ p, launchImages s 0 (s.world 0).anvils = [(0, [p])] ∧ p.what = .vault (2 ^ 51) ∧ p.fails s 0 = false ∧
         p.fails (bad 0 s) 0 = true ∧ p.ready { s with portMgrp := 0 } = false) ∧
    (let s := (inState .saved).modCtx 0 0 fun c => { c with ranAtSwitch := true }
     (s.ctx 0 0).due = false ∧ (s.ctx 0 0).ranAtSwitch = true ∧ (s.ctx 0 0).resident = true ∧ (s.ctx 0 0).state = .saved ∧
       (s.gangOf 0 0).state ≠ .rotating) ∧
    (((gr .saved).ctx 0 0).resident = true ∧ ((gr .saved).gangOf 0 0).state = .rotating) ∧
    (let s := dueState.modCtx 0 0 fun c => { c with resident := true }; (s.ctx 0 0).resident = true ∧ (s.ctx 0 0).due = true ∧
      (s.ctx 0 0).state = .resuming) := by
  refine ⟨⟨by decide, saved_settled⟩, ?_, ?_, ⟨by decide +kernel, by decide +kernel, by decide, by decide, _, rfl, by decide +kernel⟩,
    ⟨by decide +kernel, by decide +kernel⟩, ?_, ⟨by decide +kernel, by decide +kernel, _, rfl, by decide +kernel⟩, ?_, ?_, ?_⟩
  all_goals decide

theorem witness_Dispatch :
    ((State.reset.world 0).wstate ≠ 2 ∧ State.reset.quantum.switch = none ∧ ckptStops (ck 1 co) 0 = true) ∧
    (((qd true).world 0).wstate = 2 ∧ ckptStops (qd true) 0 = false ∧ rotationWaits (qd true) 0 = false ∧
      ((qd true).world 0).reserve = none ∧ ((qd true).world 0).claims = [] ∧
      tset 0 ((qd true).world 0) (qd true).worlds = (qd true).worlds ∧ (candidates (qd true) 0).head? = some (0, 0, 0) ∧
      ((qd true).launch 0 0).first = some .fresh ∧ (tryPlace (qd true) 0 0 .fresh).isSome = true) ∧
    -- rotation
    (let s := gr .saved
     let g := tget Gang.zero (s.launch 0 0).gangs 0
     g.state = .rotating ∧ s.quantum.world = 0 ∧ s.quantum.switch = none ∧ (∀ k ∈ g.ctxs, (s.ctx 0 k).busy = false) ∧
       (∀ p ∈ rotParts s 0 g g.allocs, p.writeWaits s = false) ∧ (∃ p ∈ rotParts s 0 g g.allocs, p.writeWaits (wk s) = true) ∧
       (∃ x ∈ (fly s).flights, x.1 = 0 ∧ x.2.1 ∈ g.ctxs) ∧ ∀ x ∈ s.flights, ¬ (x.1 = 0 ∧ x.2.1 ∈ g.ctxs)) ∧
    (let s := (inState .saved).modLaunch 0 0 fun x => { x with gangs := x.gangs.map fun g => (g.1, { g.2 with state := .rotated }) }
     rotationWaits (wk s) 0 = true ∧ ((wk s).world 0).wstate = 2 ∧ (wk s).quantum.switch = none) ∧
    ((gr .running).ctx 0 0).busy = true := by
  refine ⟨by decide, ?_, ?_, ?_, by decide⟩
  all_goals decide +kernel

/-- 08 R142, R146, R147: a quantum of one world after another; the gang's strand starts at the entry with its argument. -/
theorem test_quantum :
    ok .quantumEnd { qd false with quantum := { (qd false).quantum with table := [(0, 10000), (1, 2000)], idx := 1 } } (fun t =>
      t.quantum.switch == some (1, 1) && t.quantum.len == 2000 && t.quantum.idx == 0) ∧
    ok .dispatchDecision (qd true) (fun t => (t.ctx 0 0).state == .running && (t.ctx 0 0).strand.pc == 0x1000 &&
      (t.ctx 0 0).strand.rx 10 == 9 && (t.launch 0 0).residentg == 1 && (t.launch 0 0).lstate == .active) := by decide +kernel

/-- An atomic addition of 5 at 0x2000 waits for its port, and is to write x5. -/
def po (f : Op → Op) : State := ws.onStrand fun u => { u with
  ops := [f { Op.zero with id := 1, kind := 0x10, cls := 1, reg := 5, wlog := 3, addr := 0x2000, pa := 0x2000, opnd := 5, tag := 3 }]
  pend := [{ reg := 5, tok := 5 }] }

/-- A stopped strand whose record holds an entry of tag 3; port tables hold tags 3 and 4. -/
def sp : State :=
  let b := (st.ctx 0 0).saveFrame
  { mem (b + 0x6018) 8 3 (mem (b + 0x6000) 8 0x1000 (mem b 8 0x10000 (inState .saved))) with
    sundogs := [{ tag := 3, port := 0, loc := 0x2000, old := 7 }, { tag := 4, port := 0, loc := 0x2008, old := 8 }] }

/-- The same entry, of a strand whose head VM convoy has sent it ahead of its resume point. -/
def pa : State := (po fun o => { o with kind := 0x12, slot := 1, elem := 7 }).onStrand fun u => { u with
  vm := [.convoy { placedConvoy 0x7000002B with sent := [(1, 7)] }] }

theorem witness_PortsAndReports :
    ws.strand.findOp 1 = none ∧
    (let s := po id; let u := (s.ctx 0 0).strand; let port := portOf s 0x2000
     ∃ o, u.findOp 1 = some o ∧ o.cls = 1 ∧ o.done = false ∧ o.queued = false ∧ o.host = none ∧ memReady s o.pa = true ∧
       o.kind = 0x10 ∧ o.pa + 2 ^ o.wlog ≤ 2 ^ 51 ∧ o.pa = 0x2000 ∧ writeWaits s o.pa o.bytes = false ∧
       granuleHeld s 0 0 o.pa o.bytes = false ∧ portFull s (portOf s o.pa) = false ∧
       Strand.updating { u with ops := u.ops.takeWhile fun x => x.id != 1 } o.pa o.bytes = false ∧
       writeTagFails s (keySlot s 0) o.pa o.bytes = false ∧ writeTagFails (bad 0x80 s) (keySlot s 0) o.pa o.bytes = true ∧
       4 * ((s.sundogs.filter fun d => d.port == port).length + 1) ≤ 3 * sundogLimit port ∧
       writeWaits (wk s) o.pa o.bytes = true) ∧
    (let s := { po id with sundogs := List.replicate 1536 { tag := 9, port := portOf (po id) 0x2000, loc := 0, old := 0 } }
     let port := portOf s 0x2000
     3 * sundogLimit port < 4 * ((s.sundogs.filter fun d => d.port == port).length + 1) ∧ portFull s port = false) ∧
    (∃ o, ((po fun o => { o with queued := true }).ctx 0 0).strand.findOp 1 = some o ∧ o.queued = true) ∧
    (let s := po fun o => { o with pa := 0x400000000 }
     memReady s 0x400000000 = false ∧ (s.ctx 0 0).state.live = true ∧ ∃ o, s.strand.findOp 1 = some o ∧ s.strand.ahead o = false) ∧
    (∃ o, pa.strand.findOp 1 = some o ∧ pa.strand.ahead o = true ∧ o.done = false ∧ o.queued = false ∧ pa.me.state.live = true) ∧
    (∃ o, ((po fun o => { o with done := true }).ctx 0 0).strand.findOp 1 = some o ∧ o.cls = 1 ∧ o.done = true ∧ o.kind = 0x10 ∧
      o.reg ≠ 0 ∧ ((po id).ctx 0 0).strand.pend.any (fun p => p.reg == o.reg && p.tok == 4 * o.id + 1) = true) ∧
    (((po id).modCtx 0 0 fun c => { c with state := .stopping }).ctx 0 0).state = .stopping ∧
    causeOf 15 ≠ .tagfail ∧ causeOf 16 = .tagfail ∧ (∀ d ∈ sp.sundogs, d.tag ≠ 5) ∧
    (∃ d, sp.sundogs.find? (fun d => d.tag == 3) = some d ∧ (sp.ctx 0 0).state.live = false ∧ (sp.ctx 0 0).state ≠ .stopping ∧
      onFabric sp 0 = true ∧ (sp.gangOf 0 0).state ≠ .rotated ∧ ∃ a, entryOfTag sp (sp.ctx 0 0) d.tag = some a ∧ 2 ^ 51 ≤ a) ∧
    (∃ d, sp.sundogs.find? (fun d => d.tag == 4) = some d ∧ entryOfTag sp (sp.ctx 0 0) d.tag = none) ∧
    st.me.state.live = true := by
  refine ⟨by decide, ⟨_, rfl, by decide⟩, by decide +kernel, ⟨_, rfl, by decide⟩, ⟨by decide, by decide, _, rfl, by decide⟩,
    ⟨_, rfl, by decide⟩, ⟨_, rfl, by decide⟩, by decide, by decide, by decide, by decide,
    ⟨_, rfl, by decide, by decide, by decide, by decide, (st.ctx 0 0).saveFrame + 0x6000, by decide +kernel, by decide⟩,
    ⟨_, rfl, by decide +kernel⟩, by decide⟩

/-- 10 R189, 11 R221. -/
theorem test_port :
    ok .writeQueueUpdate (on [0, 0, 1] (po id)) (fun t => readNum t 0 0x2000 8 == 4 && t.rx 5 == 0 &&
      ok .operationResponse (on [0, 0, 1] t) fun u => u.rx 5 == -1 && u.strand.ops == []) ∧
    ok .sundogSpill (on [3] sp) (fun t => t.sundogs.length == 1 && vaultDword t ((st.ctx 0 0).saveFrame + 0x6018) == 7) := by decide +kernel

/-- A chunk of 64 bytes from 0x2000 to 0x3000 that sets p3[1], and a command in slot 0 for the same bytes. -/
def cc (kind : Nat) (f : Op → Op) : State := ws.onStrand fun u => { u with
  ops := [f { Op.zero with id := 1, kind := 4, func := 0x0A, reg := 3, idx := 1, addr := 0x2000, opnd := 0x3000, len := 64 },
    { Op.zero with id := 2, kind := 6, reg := 0 }]
  cmds := [(0, { w0 := kind + 64 * 2 ^ 32, w1 := 0x2000, w2 := 0x3000, w3 := 0 })] }

/-- A side that can be moved now: every part is in memory at the address given and waits for nothing. -/
def moves (s : State) (a : Acc) (va n pa : Nat) (wr : Bool) : Bool := match checkSide s 0 0 0 a va n with
  | .ok ps => !sideWalks s 0 0 a va n && ps.all fun p => !p.waits s 0 0 wr && p.x.target == .mem pa
  | .error _ => false

/-- The source of a chunk stands at the host: world 0's second GiB is mapped there. -/
def ch : State := mem (placedBase + 4096 + 8) 8 (0xB000000000000 + 7) (cc 1 fun o => { o with addr := 0x40000000 })

/-- A request of the chunk has no answer yet. -/
def asked (s : State) : State := { s with hreqs := [(4, { HReq.zero with op := 1 })] }

/-- A decrypt command's plaintext is open: one of the two clauses about it is met, whichever it is. -/
theorem witness_CopyCompletions :
    ws.strand.findOp 1 = none ∧ findCmd ws 0 0 0 = none ∧
    (∃ o, ((cc 1 id).ctx 0 0).strand.findOp 1 = some o ∧ o.kind = 4 ∧ o.applied = false ∧ 1 ≤ o.len ∧
      o.len ≤ 65536 ∧ o.func = 0x0A) ∧
    (∃ o, ((cc 1 fun o => { o with applied := true }).ctx 0 0).strand.findOp 1 = some o ∧ o.kind = 4 ∧ o.applied = true ∧
      outstanding (cc 1 id) 0 0 o.id = false ∧ outstanding (asked (cc 1 id)) 0 0 o.id = true) ∧
    (∃ o, ((cc 1 fun o => { o with kind := 5, group := 3 }).onStrand fun u => { u with
        copies := [{ id := 3, op5 := 0, reg := 0, status := 0, sidx := 0, issued := false }] }).strand.findOp 1 = some o ∧
      o.kind = 5 ∧ o.group = 3) ∧
    (let s := cc 1 id
     (moves s .load 0x2000 64 0x2000 false && moves s .store 0x3000 64 0x3000 true) = true ∧
     (match checkSide s 0 0 0 .load 0x2000 64, checkSide s 0 0 0 .store 0x3000 64 with
      | .ok sp, .ok dp => (match readPieces s 0 sp [] with | .ok d => d.length == 64 | .error _ => false) &&
         (match readPieces (bad 0x80 s) 0 sp [] with | .ok _ => false | .error _ => true) &&
         !piecesTagFail (touchPieces s 0 .load sp) 0 dp && (dp.all fun p => !p.waits (touchPieces s 0 .load sp) 0 0 true) &&
         dp.any fun p => p.waits (wk s) 0 0 true
      | _, _ => false) = true ∧ sideWalks (wk s) 0 0 .load 0x2000 64 = true) ∧
    (match checkSide ch 0 0 0 .load 0x40000000 64 with
      | .ok sp => decide (0 < foreignOf sp) && (nextForeign 0 sp).isSome && !sideWalks ch 0 0 .load 0x40000000 64
      | .error _ => false) = true ∧
    (match checkSide (cc 1 id) 0 0 0 .load 0x40000000000 64 with | .error _ => true | .ok _ => false) = true ∧
    (((cc 1 id).modEngine 0 0 fun e => { e with efrozen := true }).engine 0 (engineOf (cc 1 id) 0 0)).efrozen = true ∧
    ((cc 1 id).engine 0 (engineOf (cc 1 id) 0 0)).efrozen = false ∧
    (0 = 0 ∨ 65536 < 65537) ∧
    (∃ o x, findCmd (cc 1 id) 0 0 0 = some (o, x) ∧ o.applied = false ∧ x.kind ≠ 0x40 ∧ x.bar = 0 ∧ 1 ≤ x.len ∧ x.len ≤ 65536) ∧
    (∃ o x, findCmd ((cc 1 id).onStrand fun u => { u with
        cmds := [(0, { w0 := 1 + 64 * 2 ^ 32, w1 := 0x2000, w2 := 0x3000, w3 := 0x2041 })] }) 0 0 0 = some (o, x) ∧
      chargeWaits (wk (cc 1 id)) 0 0 x = true) ∧
    (∃ o x, findCmd (cc 0x40 id) 0 0 0 = some (o, x) ∧ o.applied = false ∧ x.kind = 0x40 ∧ plainWaits (cc 0x40 id) 0 0 0 x = false) ∧
    (let s := cc 0x40 id
     (moves s .load 0x2000 (64 + 16) 0x2000 false && moves s .store 0x3000 64 0x3000 true) = true ∧
     (match checkSide s 0 0 0 .load 0x2000 (64 + 16) with
      | .ok sp => (match readPieces s 0 sp [] with | .ok _ => true | .error _ => false)
      | .error _ => false) = true) ∧
    ∀ k a b c d, Config.gcmOpen k a b c d = none ∨ ∃ pt, Config.gcmOpen k a b c d = some pt := by
  refine ⟨by decide, by decide, ⟨_, rfl, by decide⟩, ⟨_, rfl, by decide⟩, ⟨_, rfl, by decide⟩, by decide, by decide, by decide,
    by decide, by decide, by decide, ⟨_, _, rfl, by decide⟩, ⟨_, _, rfl, by decide⟩, ⟨_, _, rfl, by decide⟩, by decide,
    fun k a b c d => ?_⟩
  cases Config.gcmOpen k a b c d with
  | none => exact .inl rfl
  | some pt => exact .inr ⟨pt, rfl⟩

/-- A function whose words write i8 and y3, and a call of it: i1 = 2, i2 = 0x2000, i3 = 100, a shape of 2 rows of 3, and as many
values of y0. -/
def pf : List Nat := [encodePortable (.ili 8 5), encodePortable (.ysplat 10 3 8)]
def pt (l : List Nat) : Portable :=
  let t := (l.zip (List.range l.length)).foldl (fun t x => t.setY 10 0 x.2 x.1) (enterPortable pf ws).2
  { t with i := [0, 2, 0x2000, 100] ++ List.replicate 12 0, rows := 2, len := 3, pc := 1 }

/-- Where the parts of a y register stand at entry is open: a register either has its native one or is spilled. -/
theorem witness_PortableForm :
    (nativeI pf 8 = some 5 ∧ nativeY pf 3 = some 48 ∧ ((enterPortable pf ws).2.bind.length = 16 ∧
      ∀ s : State, Config.portableSpilled s.fresh 3 = true ∨ nth none (enterPortable pf s).2.bind 3 = some 48)) ∧
    (let t := pt []
     t.i.length = 16 ∧ t.rows * t.len = 6 ∧ 6 ≤ 4096 ∧ (t.ix 1).toInt < (t.ix 3).toInt ∧ ¬ (t.ix 3).toInt < (t.ix 1).toInt ∧
       t.ix 1 ≠ t.ix 2 ∧ 0 ≤ (t.pc : Int) + simm 10 0x3FF ∧ t.elem < 6 ∧ 6 ≤ { t with elem := 6 }.elem ∧
       ws.me.state.live = true ∧ (dword ((t.ix 2).toInt + simm 10 8)).toNat = 0x2008 ∧
       (dword ((t.ix 2).toInt + (0 / 3 : Nat) * (t.ix 3).toInt + (0 % 3 * 4 : Nat))).toNat = 0x2000 ∧
       [0, 0xF8000000][t.pc]? = some 0xF8000000 ∧ decodePortable 0xF8000000 = none ∧ decodePortable 0x28000000 = some .ret) ∧
    (match loadAt ws 0 0 0x2008 8 with | .value _ _ => true | _ => false) = true ∧
    (∃ z pa, checkAccess ws 0 0 (ws.me.core 0) (scalarAsk ws 0 0 0x2008 8 .store (some 2)) = .ok z ∧ z.target = .mem pa ∧
      (walkBusy ws 0 0 0x2008 8 .store = false ∧ granuleHeld ws 0 0 pa 8 = false ∧ ws.strand.acquiring = false ∧
        ws.strand.updating pa 8 = false ∧ convoyNames ws 0 0 pa 8 = false ∧ writeTagFails ws (keySlot ws 0) pa 8 = false ∧
        ws.strand.lockPending 0x2008 8 = false ∧ writeWaits ws pa 8 = false)) ∧
    (tileWaits ws 0 0x2000 4 false = false ∧ tileWaits ws 0 0x2000 4 true = false ∧ tileWaits ws 0 0x80000000 4 false = false) ∧
    (loadsAt ws 0 0x2000 4).isSome = true ∧
    (match elementStore ws 0 0 (ws.me.core 0) 0x2000 4 0 ws.strand.locked with | .next _ => true | _ => false) = true ∧
    (match elementLoad ws 0 0 (ws.me.core 0) 0x80000000 4 with | .fault _ => true | _ => false) = true ∧
    -- a return address that is aligned, one that is not, and where the private slice stands
    ((ws.rx 1 &&& ~~~1#64).toNat % 4 ≠ 0 ∧ ((xs [(1, 0x2001)] ws).rx 1 &&& ~~~1#64).toNat % 4 = 0) ∧
    (match resolve ws 0 0 (ws.me.core 0) 0xFFFFF00080000000 .store with | .ok z => z.target == .mem (2 ^ 51 + 65536) | _ => false) = true := by
  refine ⟨⟨by decide, by decide, by simp [enterPortable], fun s => ?_⟩, ?_, by decide, reaches (by decide), by decide, by decide, by decide, by decide,
    by decide, by decide⟩
  · cases h : Config.portableSpilled s.fresh 3 with
    | true => exact .inl rfl
    | false =>
      refine .inr ?_
      have : nativeY pf 3 = some 48 := by decide
      simp [enterPortable, nth, h, this]
  · and_intros <;> decide

/-- 26 R431, R434: 100 rows of 2 of which MVL = 128 grants 64; the sums of the rows 1, 2, 3 and -0, -0, -0. -/
theorem test_portable : grantShape 128 100 2 = (64, 2) ∧ grantShape 128 1 500 = (1, 128) ∧ grantShape 128 5 0 = (0, 0) ∧
    (match portableWord (pt [0x3F800000, 0x40000000, 0x40400000, 2 ^ 31, 2 ^ 31, 2 ^ 31]) ws (.yrsum 10 5 0) with
      | .next _ t => (List.range 6).map (t.yx 10 5) == [0x40C00000, 0, 0, 2 ^ 31, 0, 0]
      | _ => false) = true := by decide

/-! Further hypotheses, met where every helper stands. -/

/-- What a stopped context's commands find: a state that its page shows, a gang that gives up its slots, a launch that has ended. -/
theorem witness_HeldContexts :
    (let s := (inState .saved).modCtx 0 0 fun c => { c with heldState := 3 }
     (s.ctx 0 0).state.live = false ∧ (s.ctx 0 0).heldState ≠ 0 ∧ (s.ctx 0 0).state = .saved) ∧
    (((gr .saved).ctx 0 0).resident = true ∧ ((gr .saved).gangOf 0 0).state = .rotating ∧
      ((inState .saved).gangOf 0 0).state ≠ .rotating) ∧
    (let x := (st.modLaunch 0 0 fun x => { x with lstate := .done, free := false }).launch 0 0
     ¬ (x.lstate = .pending ∨ x.lstate = .active ∨ x.lstate = .ackwait) ∧ x.lstate = .done ∧ x.free = false) ∧
    (let x := (st.modLaunch 0 0 fun x => { x with lstate := .done, free := true }).launch 0 0
     ¬ ((x.lstate = .pending ∨ x.lstate = .active ∨ x.lstate = .ackwait) ∨ (x.lstate = .done ∧ x.free = false))) ∧
    (st.launch 0 0).lstate = .active ∧
    -- a stop that leaves a request on its way, and a replay that none delays
    ((∃ o ∈ (po id).strand.ops, o.cls = 1 ∧ o.kind ≠ 2 ∧ o.kind ≠ 0x11 ∧ o.done = false ∧ o.queued = false ∧ o.host = none) ∧
      (inState .resuming).flights = []) := by
  and_intros <;> decide

/-- Resets: the whole one, and the part that waits for the policy core. -/
theorem witness_Resets :
    (let s := { wv id with ev := event .hotReset [1] }
     s.core.up = true ∧ s.waiting = [] ∧ s.arg 0 ≠ 0 ∧ { s with ev := event .hotReset [] }.arg 0 = 0 ∧
       { s with deferred := [.ev (event .hotReset [1])] }.waiting = .ev s.ev :: [] ∧ s.heldW = []) ∧
    pr.core.up = false ∧
    (∃ e ∈ (hl true).hreqs, e.2.link = none ∧ e.2.posted = false) ∧
    (let s := { wv (fun x => { x with wstate := 3 }) with wal := [.begin_ 7 txDestroy 1] }
     s.wal.length + s.queues.length + 8 ≤ walRing) := by
  and_intros <;> decide

/-- A strand's LR holds the granule of a unit's write. -/
def unit0 (f : State → State) : State := f ((pq [3, 0x3000, 99] true id).modCtx 0 0 fun c => { c with
  strand := { c.strand with resv := some { addr := 0x3000, width := 8, granule := 0xC0, hold := true } } })

theorem witness_HeldGranule : unitHeld (pq [3, 0x3000, 99] true id) 0x3000 8 = false ∧ unitHeld (unit0 id) 0x3000 8 = true := by
  and_intros <;> decide

/-- The end of a quantum is due. -/
def due (s : State) : State := { s with quantum := { s.quantum with deferred := true } }

/-- Checkpoints that a request on its way, a held write, a switch or the end of a quantum meets. -/
theorem witness_CheckpointWaits :
    ((∃ x ∈ (fly (ck 1 co)).flights, x.1 = 0) ∧ (∀ x ∈ (ck 1 co).flights, x.1 ≠ 0)) ∧
    ((due (ck 1 co)).quantum.deferred = true ∧ (due (ck 1 co)).core.up = true ∧ (due (ck 1 co)).quantum.world = 0 ∧
      (due (ck 1 co)).quantum.switch = none ∧ (ck 1 co).quantum.deferred = false) ∧
    ((ck 2 co).ckpt.donen = 0 ∧ { (ck 2 co).ckpt with donen := 3 }.donen ≠ 0 ∧
      ¬ (∃ x ∈ co.shards, portBusy (ck 2 co) x.2.2.1 (if x.1 = 1 then x.2.2.2.1 else 32768) = true)) ∧
    (ca .saved true).ckpt.op = some co ∧ ((ca .saved true).launch 0 0).open = true ∧
    -- a page that is copied for a held write, or for a switch
    (let s := on [3] { ck 3 cp with heldW := lh.heldW.map fun h => { h with pa := 0x3000 } }
     s.core.up = true ∧ ∃ h ∈ s.heldW, s.arg 0 * 4096 ∈ pagesOf h.pa h.data.length) ∧
    (let s := on [3] { sw 1 1 (inState .saved) with ckpt := { Ckpt.zero with estate := 3, op := some cp } }
     s.core.up = true ∧ s.quantum.switch = some (1, 1) ∧ s.arg 0 ∈ savedPages s s.quantum.world ∧ s.ckpt.op = some cp ∧
       s.ckpt.estate = 3) ∧
    (onFabric (ck 3 cp) 0 = true ∧ onFabric (sw 1 2 (ck 3 cp)) 0 = false) := by
  and_intros <;> decide +kernel

/-- Requests that a save has left on their way, one that its port takes, one that it does not, and one behind another. -/
def ports (f : Op → Op) : State := { ws with
  flights := (po f).strand.ops.map fun o => (0, 0, o) }

theorem witness_Flights :
    (let s := ports id
     let here := fun (x : Nat × Nat × Op) => x.1 == 0 && x.2.1 == 0 && x.2.2.id == 1
     s.strand.findOp 1 = none ∧ ws.flights.any here = false ∧
       ∃ o, s.flights.find? here = some (0, 0, o) ∧ memReady s o.pa = true ∧ writeWaits s o.pa o.bytes = false ∧
         granuleHeld s 0 0 o.pa o.bytes = false ∧ portFull s (portOf s o.pa) = false ∧ o.kind = 0x10 ∧
         writeTagFails s (keySlot s 0) o.pa o.bytes = false ∧ o.pa + 2 ^ o.wlog ≤ 2 ^ 51 ∧
         ¬ (3 * sundogLimit (portOf s o.pa) < 4 * ((s.sundogs.filter fun d => d.port == portOf s o.pa).length + 1)) ∧
         writeWaits (wk s) o.pa o.bytes = true) ∧
    memReady (ports fun o => { o with pa := 0x400000000 }) 0x400000000 = false ∧
    -- a table that is crowded, and the entries that it may give up
    (let s := { po id with sundogs := List.replicate 1537 { tag := 9, port := portOf (po id) 0x2000, loc := 0, old := 0 } }
     (let port := portOf s 0x2000
      3 * sundogLimit port < 4 * (s.sundogs.filter fun d => d.port == port).length) ∧ ∀ d ∈ s.sundogs, d.tag ≠ 3) ∧
    (let stopped := fun (s : State) => ¬ ((s.ctx 0 0).state.live = true ∨ (s.ctx 0 0).state = .stopping ∨ onFabric s 0 = false ∨
       (s.gangOf 0 0).state = .rotated)
     stopped sp ∧ ¬ stopped ws) ∧
    (let s := po fun o => { o with kind := 2, group := 1, slot := 2 }
     ∃ o, s.strand.findOp 1 = some o ∧ o.kind = 2 ∧ o.group ≠ 0 ∧ o.slot ≠ 0 ∧ (s.ctx 0 0).state.live = true ∧ o.done = false ∧
       o.queued = false) ∧
    ws.heldW = [] := by
  refine ⟨⟨by decide, by decide, _, rfl, by decide⟩, by decide, ?_, by decide, ⟨_, rfl, by decide⟩, by decide⟩
  and_intros <;> decide +kernel

/-- A chunk behind a store that has still to perform, and one whose destination stands at the host. -/
theorem witness_ChunkOrder :
    (storesAhead (cc 1 id) 0 0 = false ∧ storesAhead { cc 1 id with heldW := lh.heldW } 0 0 = true) ∧
    (let s := mem (placedBase + 4096 + 8) 8 (0xB000000000000 + 7) (cc 1 fun o => { o with opnd := 0x40000000 })
     moves s .load 0x2000 64 0x2000 false = true ∧ storesAhead s 0 0 = false ∧
     (match checkSide s 0 0 0 .load 0x2000 64, checkSide s 0 0 0 .store 0x40000000 64 with
     | .ok sp, .ok [p] => (match p.x.target with
       | .host a => (match hostGate (touchPieces s 0 .load sp) 0 0 (pasidOf s 0 0) a with | .go => true | _ => false)
       | _ => false)
     | _, _ => false) = true) := by
  and_intros <;> decide

/-- A scalar word whose register is pending; a request of a link that stands behind an earlier one, and one that does not. -/
theorem witness_Turns :
    (let s := st.onStrand fun u => { u with pend := [{ reg := 5, tok := 5 }] }
     stalls s.strand (.addi 6 5 1) = true ∧ stalls s.strand (.addi 6 7 1) = false) ∧
    (let e := event .inboundCopyRead [0]
     heldRequest st e = none ∧ heldRequest { st with parked := [e] } e = some 0 ∧ inputStep st (.ev e) = some e) := by
  and_intros <;> decide

/-- Every operand at its largest, and a word that 13 writes out. -/
theorem witness_EncodeAndDecode : (Instr.amoaddD 31 31 31 1 1).encoded = true ∧ (Instr.amoaddD 31 31 31 1 1).fits = true ∧
    0x01F2807B < 2 ^ 32 ∧ reads 0x01F2807B (.cvy 0 31 0 5 0 0 0) = true ∧ (PInstr.ili 15 0x3FFFFF).inRange = true ∧
    decodePortable 0x2C0C8000 = some (.shape 3 2) := by decide

/-- The largest vector length. -/
theorem witness_PredicateWords : (issueOf 0 4096 [] (.pset 0)).hi ≤ 4096 ∧ (issueOf 0 4096 [] (.pset 0)).vl ≤ 4096 := by decide
end Sys2Proof.Tests
end

/-!
PROOFS. 01: what reset leaves; the die network and the links' flits; readiness.
-/

namespace Sys2Proof.Machine

/-! ## What the pages read at reset -/

theorem nth_replicate {α : Type} (d : α) (n i : Nat) : nth d (List.replicate n d) i = d := by
  unfold nth
  cases h : (List.replicate n d)[i]? with
  | none => rfl
  | some x => exact List.eq_of_mem_replicate (List.mem_of_getElem? h)

/-- No range of a FREE world holds anything (05 R96). -/
theorem rangeWord_worldZero (i : Nat) : rangeWord (nth (0, 0) World.zero.ranges i) = 0 :=
  congrArg rangeWord (nth_replicate (0, 0) 8 i)

@[simp] theorem digestWord_zero (i : Nat) : digestWord 0 i = 0 := by simp [digestWord, bits]

theorem readReady_zero (off : Nat) : readReady Ready.zero off = 0 := by
  unfold readReady
  split <;> rfl

theorem readWorld_zero (off : Nat) : readWorld World.zero off = 0 := by
  unfold readWorld
  split
  case h_11 => simp [rangeWord_worldZero]
  all_goals rfl

theorem readQueue_zero (off : Nat) : readQueue 0 Queue.zero off = if off = 0x28 then 7 * 2 ^ 8 else 0 := by
  split
  next h => subst h; rfl
  next h =>
    unfold readQueue
    split
    case h_5 => exact absurd rfl h
    all_goals rfl

/-- Of a power page, the words without a reset value of zero are REQ_MV, the operating point, CAP, LIMIT and the voltage. -/
theorem readPower_zero (off : Nat) (h0 : off ≠ 0x00) (h1 : off ≠ 0x08) (h2 : off ≠ 0x10) (h3 : off ≠ 0x18)
    (h6 : off ≠ 0x30) : readPower Power.zero off = 0 := by
  unfold readPower
  split
  case h_5 | h_6 | h_8 | h_9 => rfl
  all_goals contradiction

theorem readPower_zero_point : readPower Power.zero 0x08 = 4 * 2 ^ 4 + 4 := by decide
theorem readPower_zero_volt : readPower Power.zero 0x30 / 2 ^ 8 = 800 * 2 ^ 8 := by decide

theorem readPeer_zero (off : Nat) : readPeer Peer.zero off = 0 := by
  unfold readPeer
  split <;> rfl

theorem readCkpt_zero (off : Nat) : readCkpt Ckpt.zero off = 0 := by
  unfold readCkpt
  split
  case h_9 =>
    have h : Ckpt.zero.rdig = 0 ∧ Ckpt.zero.lastdig = 0 := ⟨rfl, rfl⟩
    simp [h]
  all_goals rfl

/-- Settles O59: an unlisted record has its reset value, and each page of it reads as its lemma above says. -/
theorem resetState : Obligations.ResetState := by
  unfold Obligations.ResetState
  refine ⟨fun _ => readReady_zero, fun _ _ => readWorld_zero, fun _ _ => readQueue_zero, fun _ _ => ?power,
    fun _ _ => readPeer_zero, fun _ _ => readCkpt_zero, rfl, wf_reset, fun _ _ => ?byte, fun _ _ => ⟨rfl, rfl⟩⟩
  case power => exact ⟨rfl, readPower_zero_point, rfl, rfl, readPower_zero_volt, readPower_zero⟩
  case byte => simp [readByte, State.reset]

/-! ## The link layer over the machine's records -/

theorem tset_tset {α : Type} (k : Nat) (v w : α) (t : Tbl α) : tset k v (tset k w t) = tset k v t := by
  induction t with
  | nil => simp [tset]
  | cons e t ih =>
    obtain ⟨j, x⟩ := e
    rcases Nat.lt_trichotomy k j with h | rfl | h
    · simp [tset, h]
    · simp [tset]
    · simp [tset, Nat.not_lt.mpr (Nat.le_of_lt h), Nat.ne_of_gt h, ih]

/-- A change of a flit link changes the links' records alone. -/
theorem modFlitLink_frame (s : State) (n : Nat) (f : Link → Link) :
    s.modFlitLink n f = { s with mlinks := (s.modFlitLink n f).mlinks, plinks := (s.modFlitLink n f).plinks } := by
  unfold State.modFlitLink
  split <;> rfl

@[simp] theorem flitLink_modFlitLink (s : State) (n : Nat) (f : Link → Link) (j : Nat) :
    (s.modFlitLink n f).flitLink j = if j = n then f (s.flitLink n) else s.flitLink j := by
  unfold State.modFlitLink State.flitLink
  by_cases hn : n < 24
  · by_cases hj : j < 24
    · simp [hn, hj]
    · have hne : j ≠ n := by omega
      simp [hn, hj, hne, State.plink, State.modMlink]
  · by_cases hj : j < 24
    · have hne : j ≠ n := by omega
      simp [hn, hj, hne, State.mlink, State.modPlink]
    · have hk : j - 24 = n - 24 ↔ j = n := by omega
      simp [hn, hj, hk]

theorem onlyAt_modFlitLink (s : State) (n : Nat) (f : Link → Link) :
    OnlyAt s.flitLink (s.modFlitLink n f).flitLink n (f (s.flitLink n)) := flitLink_modFlitLink s n f

/-- Two changes of a link in turn are one. -/
theorem modFlitLink_modFlitLink (s : State) (n : Nat) (f g : Link → Link) :
    (s.modFlitLink n f).modFlitLink n g = s.modFlitLink n fun _ => g (f (s.flitLink n)) := by
  unfold State.modFlitLink State.flitLink
  split
  · simp only [State.modMlink, State.mlink, tget_tset, if_true, tset_tset]
  · simp only [State.modPlink, State.plink, tget_tset, if_true, tset_tset]

/-- A change depends on the link's record alone. -/
theorem modFlitLink_value (s : State) (n : Nat) (f : Link → Link) :
    s.modFlitLink n f = s.modFlitLink n fun _ => f (s.flitLink n) := by
  unfold State.modFlitLink State.flitLink
  split <;> rfl

/-! ## What a link sends (01 R15, R16) -/

/-- One channel's share of the next flit. -/
def takeChannel (a : Link × List (Nat × FSlot)) (ch : Nat) : Link × List (Nat × FSlot) :=
  let ss := takeSlots0 a.1 ch (4 - a.2.length)
  (a.1.spend ch ss.length, a.2 ++ ss.map fun x => (ch, x))

/-- The flit that a link would send with these slots, and the link after it. -/
def flitOf (peer : Bool) (l : Link) (slots : List (Nat × FSlot)) : Flit :=
  { seq := l.txNext, ack := l.rxNext - 1, credits := (List.range (linkChannels peer).length).map (tget 0 l.owed), slots := slots }

theorem takeChannel_frame (cs : List Nat) (a : Link × List (Nat × FSlot)) :
    (cs.foldl takeChannel a).1 =
      { a.1 with txQ := (cs.foldl takeChannel a).1.txQ, credit := (cs.foldl takeChannel a).1.credit } := by
  induction cs generalizing a with
  | nil => rfl
  | cons c cs ih => rw [List.foldl_cons, ih]; rfl

/-- The next flit takes slots of the channels in turn; there is none where there is nothing to send. -/
theorem nextFlit_eq (peer : Bool) (l : Link) :
    l.nextFlit peer =
      (let r := (linkChannels peer).foldl takeChannel (l, [])
       if r.2.isEmpty && !l.ackDue then none
       else some ({ r.1 with txNext := l.txNext + 1, txRetry := l.txRetry ++ [flitOf peer l r.2], owed := [], ackDue := false },
         flitOf peer l r.2)) := rfl

/-- A new flit joins the retry buffer; it changes the transmitter's numbers, queues and credits alone. -/
theorem nextFlit_frame {peer : Bool} {l l' : Link} {f : Flit} (h : l.nextFlit peer = some (l', f)) :
    l' = { l with txQ := l'.txQ, credit := l'.credit, txNext := l.txNext + 1, txRetry := l.txRetry ++ [f], owed := []
                  ackDue := false } := by
  rw [nextFlit_eq] at h
  simp only at h
  split at h
  · cases h
  · cases h
    rw [takeChannel_frame]

/-- Nothing goes while a link retrains or has failed. -/
theorem pump_stopped (peer : Bool) (k : Nat) (l : Link) (h : l.retraining = true ∨ l.failed = true) :
    l.pump peer k = (l, []) := by
  cases k with
  | zero => rfl
  | succ k => simp [Link.pump, h]

/-- A link that sends nothing stays as it is. -/
theorem pump_none (peer : Bool) (k : Nat) (l : Link) (h : (l.pump peer k).2 = []) : l.pump peer k = (l, []) := by
  cases k with
  | zero => rfl
  | succ k =>
    unfold Link.pump at h ⊢
    split at h
    next hs => rw [if_pos hs]
    next hs =>
      rw [if_neg hs]
      split at h
      · cases h
      · split at h
        next hr => rw [if_pos hr]
        next hr =>
          rw [if_neg hr]
          split at h
          · cases h
          · rfl

/-- A link that runs sends what is to be sent again, in order, and then new flits, which join its retry buffer. -/
theorem pump_sends (peer : Bool) (k : Nat) (l : Link) (hr : l.retraining = false) (hf : l.failed = false)
    (hk : l.txSend.length ≤ k) :
    ∃ new, (l.pump peer k).2 = l.txSend ++ new ∧ (l.pump peer k).1.txRetry = l.txRetry ++ new ∧
      (l.pump peer k).1.txSend = [] ∧ (l.pump peer k).1.wire = l.wire ∧ (l.pump peer k).1.rxNext = l.rxNext := by
  induction k generalizing l with
  | zero =>
    have hs : l.txSend = [] := List.length_eq_zero_iff.mp (Nat.le_zero.mp hk)
    exact ⟨[], by simp [Link.pump, hs]⟩
  | succ k ih =>
    unfold Link.pump
    rw [if_neg (by simp [hr, hf])]
    split
    next f r hs =>
      obtain ⟨new, h⟩ := ih { l with txSend := r } hr hf (by rw [hs] at hk; exact Nat.le_of_succ_le_succ hk)
      exact ⟨new, by simpa [hs] using h⟩
    next hs =>
      split
      · exact ⟨[], by simp [hs]⟩
      · split
        next l' f hn =>
          have e := nextFlit_frame hn
          obtain ⟨new, h1, h2, h3, h4, h5⟩ := ih l' (by rw [e]; exact hr) (by rw [e]; exact hf) (by rw [e, hs]; simp)
          refine ⟨f :: new, ?_, ?_, h3, ?_, ?_⟩
          · show f :: (l'.pump peer k).2 = _
            rw [h1, e, hs]; rfl
          · show (l'.pump peer k).1.txRetry = _
            rw [h2, e]; simp
          · show (l'.pump peer k).1.wire = _
            rw [h4, e]
          · show (l'.pump peer k).1.rxNext = _
            rw [h5, e]
        · exact ⟨[], by simp [hs]⟩

/-- What link n sends, and its record then. -/
def linkPump (s : State) (n : Nat) : Link × List Flit :=
  (s.flitLink n).pump (!decide (n < 24)) (if n < 24 then 64 else 2048)

theorem pumpLink_eq (s : State) (n : Nat) :
    pumpLink s n = if (linkPump s n).2 = [] then s
      else { s.modFlitLink n fun _ => (linkPump s n).1 with out := s.out ++ (linkPump s n).2.map (.flit n) } := by
  unfold pumpLink linkPump State.modFlitLink State.flitLink
  by_cases hn : n < 24
  · simp only [hn, if_true, decide_true, Bool.not_true, List.isEmpty_iff]
  · have e : 24 + (n - 24) = n := by omega
    simp only [hn, if_false, decide_false, Bool.not_false, pumpPeer, e, List.isEmpty_iff]

theorem pumpLink_stopped (s : State) (n : Nat) (h : (s.flitLink n).retraining = true ∨ (s.flitLink n).failed = true) :
    pumpLink s n = s := by
  rw [pumpLink_eq, linkPump, pump_stopped _ _ _ h]
  rfl

theorem pumpLink_sends (s : State) (n : Nat) (hr : (s.flitLink n).retraining = false) (hf : (s.flitLink n).failed = false)
    (hk : (s.flitLink n).txSend.length ≤ if n < 24 then 64 else 2048) :
    ∃ new, let t := pumpLink s n
      t = { s with mlinks := t.mlinks, plinks := t.plinks, out := s.out ++ ((s.flitLink n).txSend ++ new).map (.flit n) } ∧
      (t.flitLink n).txRetry = (s.flitLink n).txRetry ++ new ∧ (t.flitLink n).txSend = [] ∧
      (t.flitLink n).wire = (s.flitLink n).wire ∧ (t.flitLink n).rxNext = (s.flitLink n).rxNext ∧
      ∀ m, m ≠ n → t.flitLink m = s.flitLink m := by
  obtain ⟨new, h1, h2, h3, h4, h5⟩ := pump_sends (!decide (n < 24)) _ _ hr hf hk
  change (linkPump s n).2 = _ at h1
  change (linkPump s n).1.txRetry = _ at h2
  change (linkPump s n).1.txSend = _ at h3
  change (linkPump s n).1.wire = _ at h4
  change (linkPump s n).1.rxNext = _ at h5
  refine ⟨new, ?_⟩
  rw [pumpLink_eq]
  split
  next h =>
    have hp : (linkPump s n).1 = s.flitLink n := congrArg Prod.fst (pump_none _ _ _ h)
    rw [h1] at h
    rw [hp] at h2 h3 h4 h5
    exact ⟨by simp [h], h2, h3, rfl, rfl, fun _ _ => rfl⟩
  next h =>
    have hl : ∀ m, State.flitLink { s.modFlitLink n fun _ => (linkPump s n).1 with
        out := s.out ++ (linkPump s n).2.map (.flit n) } m = if m = n then (linkPump s n).1 else s.flitLink m :=
      flitLink_modFlitLink s n _
    simp only [hl, if_true]
    refine ⟨?_, h2, h3, h4, h5, fun m hm => if_neg hm⟩
    rw [h1, modFlitLink_frame]

/-! ## Flits that come (01 R16) -/

theorem acked_frame (l : Link) (q : BitVec 12) :
    l.acked q = { l with txRetry := (l.acked q).txRetry, txSend := (l.acked q).txSend } := by
  unfold Link.acked
  split <;> rfl

/-- What an acknowledgement frees does not depend on the wire. -/
theorem acked_wire (l : Link) (q : BitVec 12) (w : List (Nat × Flit)) :
    Link.acked { l with wire := w } q = { l.acked q with wire := w } := by
  unfold Link.acked
  split <;> rfl

/-- The retry buffer from the first flit of a number on. -/
theorem dropWhile_split {α : Type} (p : α → Bool) (before : List α) (x : α) (after : List α)
    (hb : ∀ y ∈ before, p y = true) (hx : p x = false) : (before ++ x :: after).dropWhile p = x :: after := by
  rw [List.dropWhile_append_of_pos hb, List.dropWhile_cons_of_neg (by simp [hx])]

/-- An acknowledgement frees every flit up to its own. -/
theorem acked_upTo (l : Link) (before : List Flit) (f : Flit) (after : List Flit)
    (h : l.txRetry = before ++ f :: after) (hb : ∀ g ∈ before, g.seq ≠ f.seq) :
    l.acked f.seq = { l with
      txRetry := after
      txSend := if l.txSend.any fun g => g.seq == f.seq then (l.txSend.dropWhile fun g => g.seq != f.seq).drop 1
                else l.txSend } := by
  have hany : (l.txRetry.any fun g => g.seq == f.seq) = true := by simp [h]
  have hdrop : (l.txRetry.dropWhile fun g => g.seq != f.seq) = f :: after := by
    rw [h]
    exact dropWhile_split _ _ _ _ (fun g hg => by simpa using hb g hg) (by simp)
  unfold Link.acked
  rw [if_pos hany, hdrop]
  rfl

theorem acked_unknown (l : Link) (q : BitVec 12) (h : ∀ f ∈ l.txRetry, f.seq ≠ q) : l.acked q = l := by
  unfold Link.acked
  rw [if_neg (by simpa using h)]

/-- Each slot of a flit owes a credit of its channel. -/
theorem owed_slots {α : Type} (slots : List (Nat × α)) (t : Tbl Nat) (c : Nat) :
    tget 0 (slots.foldl (fun t x => tset x.1 (tget 0 t x.1 + 1) t) t) c =
      tget 0 t c + (slots.filter fun x => x.1 == c).length := by
  induction slots generalizing t with
  | nil => simp
  | cons x slots ih =>
    rw [List.foldl_cons, ih, tget_tset]
    by_cases h : x.1 = c
    · simp [h]; omega
    · simp [h, Ne.symm h]

/-- The record of a link that takes a flit from its wire and accepts it. -/
def Link.accepted (l : Link) (rest : List (Nat × Flit)) (f : Flit) : Link :=
  { (l.acked f.ack).gain f.credits with
    wire := rest, rxNext := l.rxNext + 1, refused := none
    rxGot := l.rxGot ++ f.slots.filterMap fun x => match x.2 with | .line bs => some bs | .descs _ => none
    owed := f.slots.foldl (fun t x => tset x.1 (tget 0 t x.1 + 1) t) l.owed
    ackDue := l.ackDue || !f.slots.isEmpty }

/-- The steps that the messages of a peer's flit ask for. -/
def flitSteps (n : Nat) (f : Flit) : List Event :=
  f.slots.flatMap fun x => match x.2 with | .descs ms => (ms.take 4).map (PeerMsg.step n) | .line _ => []

section
variable {s : State} {noise : Nat} {f : Flit} {rest : List (Nat × Flit)}

/-- The next flit in order, with errors that can be corrected, is accepted. -/
theorem flitReceive_accepts (hw : (s.flitLink (s.arg 0)).wire = (noise, f) :: rest)
    (hs : f.seq = (s.flitLink (s.arg 0)).rxNext) (hn : noise ≤ 1) :
    execFlitReceive s =
      (let n := s.arg 0
       let u := s.modFlitLink n fun _ => (s.flitLink n).accepted rest f
       .next (pumpLink (if n < 24 then u else deliverRequests u (n - 24) (flitSteps (n - 24) f)) n)) := by
  unfold execFlitReceive
  simp only [hw]
  rw [if_neg (by simp [hs]), if_pos hn]
  unfold acceptFlit Link.accepted
  simp only [modFlitLink_modFlitLink]
  rw [acked_wire, acked_frame]
  rfl

/-- One whose errors cannot be corrected is refused by its number. -/
theorem flitReceive_refuses (hw : (s.flitLink (s.arg 0)).wire = (noise, f) :: rest)
    (hs : f.seq = (s.flitLink (s.arg 0)).rxNext) (hn : 1 < noise) :
    execFlitReceive s = .next (s.modFlitLink (s.arg 0) fun l => { l with wire := rest, refused := some f.seq.toNat }) := by
  unfold execFlitReceive
  simp only [hw]
  rw [if_neg (by simp [hs]), if_neg (by omega), modFlitLink_modFlitLink]
  exact congrArg _ (modFlitLink_value s _ fun l => { l with wire := rest, refused := some f.seq.toNat }).symm

/-- One out of order is taken from the wire and not accepted. -/
theorem flitReceive_skips (hw : (s.flitLink (s.arg 0)).wire = (noise, f) :: rest)
    (hs : f.seq ≠ (s.flitLink (s.arg 0)).rxNext) :
    execFlitReceive s = .next (s.modFlitLink (s.arg 0) fun l => { l with wire := rest }) := by
  unfold execFlitReceive
  simp only [hw]
  rw [if_pos (by simpa using hs)]

end

theorem flitReceive_empty (s : State) (hw : (s.flitLink (s.arg 0)).wire = []) : execFlitReceive s = .next s := by
  unfold execFlitReceive
  simp only [hw]

/-- Where no request of the link waits, its messages' steps join the work. -/
theorem deliverRequests_free (u : State) (p : Nat) (es : List Event) (h : ∀ e ∈ u.parked, requestLink e ≠ some p) :
    deliverRequests u p es = { u with work := u.work ++ es } := by
  unfold deliverRequests requestsOf
  rw [if_pos (by simpa using h)]

/-- Where one waits, the link's requests wait behind it. -/
theorem deliverRequests_behind (u : State) (p : Nat) (es : List Event) (h : ∃ e ∈ u.parked, requestLink e = some p) :
    deliverRequests u p es = { u with
      work := u.work ++ es.filter fun e => requestLink e != some p
      parked := u.parked ++ es.filter fun e => requestLink e == some p } := by
  unfold deliverRequests
  rw [if_neg (by simpa [requestsOf] using h)]
  rfl

/-! ## One message on an idle link -/

/-- A channel without slots leaves a flit, and every queue and credit, as they are. -/
theorem takeChannel_empty (a : Link × List (Nat × FSlot)) (ch : Nat) (h : tget [] a.1.txQ ch = []) :
    (takeChannel a ch).2 = a.2 ∧ (∀ c, tget [] (takeChannel a ch).1.txQ c = tget [] a.1.txQ c) ∧
      ∀ c, tget 0 (takeChannel a ch).1.credit c = tget 0 a.1.credit c := by
  have hs : takeSlots0 a.1 ch (4 - a.2.length) = [] := by simp [takeSlots0, h]
  simp only [takeChannel, hs, Link.spend, tget_tset]
  refine ⟨by simp, fun c => ?_, fun c => ?_⟩
  · split
    next e => simp [e, h]
    next => rfl
  · split
    next e => simp [e]
    next => rfl

/-- A channel with one slot and a credit gives both. -/
theorem takeChannel_one (a : Link × List (Nat × FSlot)) (ch : Nat) (x : FSlot) (ha : a.2 = [])
    (h : tget [] a.1.txQ ch = [x]) (hc : 0 < tget 0 a.1.credit ch) :
    (takeChannel a ch).2 = [(ch, x)] ∧
      (∀ c, tget [] (takeChannel a ch).1.txQ c = if c = ch then [] else tget [] a.1.txQ c) ∧
      tget 0 (takeChannel a ch).1.credit ch = tget 0 a.1.credit ch - 1 := by
  have hs : takeSlots0 a.1 ch (4 - a.2.length) = [x] := by
    obtain ⟨k, hk⟩ := Nat.exists_eq_add_of_lt hc
    have hm : Nat.min 4 (tget 0 a.1.credit ch) = Nat.min 3 k + 1 := by rw [hk]; simp only [Nat.min_def]; split <;> split <;> omega
    simp [takeSlots0, h, ha, hm]
  simp only [takeChannel, hs]
  simp [Link.spend, h, ha]

/-- Of empty queues a flit takes nothing. -/
theorem takeChannels_empty (cs : List Nat) (a : Link × List (Nat × FSlot)) (h : ∀ c, tget [] a.1.txQ c = []) :
    (cs.foldl takeChannel a).2 = a.2 ∧ (∀ c, tget [] (cs.foldl takeChannel a).1.txQ c = []) ∧
      ∀ c, tget 0 (cs.foldl takeChannel a).1.credit c = tget 0 a.1.credit c := by
  induction cs generalizing a with
  | nil => exact ⟨rfl, h, fun _ => rfl⟩
  | cons ch cs ih =>
    obtain ⟨h1, h2, h3⟩ := takeChannel_empty a ch (h ch)
    obtain ⟨g1, g2, g3⟩ := ih (takeChannel a ch) fun c => (h2 c).trans (h c)
    exact ⟨g1.trans h1, g2, fun c => (g3 c).trans (h3 c)⟩

/-- Of queues that hold one slot, with a credit for it, a flit takes that slot. -/
theorem takeChannels_one (cs : List Nat) (a : Link × List (Nat × FSlot)) (ch : Nat) (x : FSlot) (ha : a.2 = [])
    (hm : ch ∈ cs) (h : ∀ c, tget [] a.1.txQ c = if c = ch then [x] else []) (hc : 0 < tget 0 a.1.credit ch) :
    (cs.foldl takeChannel a).2 = [(ch, x)] ∧ (∀ c, tget [] (cs.foldl takeChannel a).1.txQ c = []) ∧
      tget 0 (cs.foldl takeChannel a).1.credit ch = tget 0 a.1.credit ch - 1 := by
  induction cs generalizing a with
  | nil => cases hm
  | cons c cs ih =>
    rw [List.foldl_cons]
    by_cases e : c = ch
    · subst e
      obtain ⟨h1, h2, h3⟩ := takeChannel_one a c x ha (by rw [h, if_pos rfl]) hc
      obtain ⟨g1, g2, g3⟩ := takeChannels_empty cs (takeChannel a c) fun d => by rw [h2, h]; split <;> rfl
      exact ⟨g1.trans h1, g2, (g3 c).trans h3⟩
    · obtain ⟨h1, h2, h3⟩ := takeChannel_empty a c (by rw [h, if_neg e])
      obtain ⟨g1, g2, g3⟩ := ih (takeChannel a c) (h1.trans ha) ((List.mem_cons.mp hm).resolve_left (Ne.symm e))
        (fun d => (h2 d).trans (h d)) (by rw [h3]; exact hc)
      exact ⟨g1, g2, g3.trans (by rw [h3])⟩

/-- A link with nothing to send, again or for the first time, and nothing to acknowledge sends nothing. -/
theorem pump_idle (peer : Bool) (k : Nat) (l : Link) (hs : l.txSend = []) (hq : ∀ c, tget [] l.txQ c = [])
    (ha : l.ackDue = false) : l.pump peer k = (l, []) := by
  cases k with
  | zero => rfl
  | succ k =>
    have hn : l.nextFlit peer = none := by
      have h := (takeChannels_empty (linkChannels peer) (l, []) hq).1
      rw [nextFlit_eq]
      simp [h, ha]
    unfold Link.pump
    rw [hs, hn]
    simp

/-- An idle link with one slot, a credit for it and room sends it in one flit. -/
theorem pump_one (peer : Bool) (k : Nat) (l : Link) (ch : Nat) (x : FSlot) (hr : l.retraining = false)
    (hf : l.failed = false) (hs : l.txSend = []) (hroom : retryRoom peer l = true)
    (hm : ch ∈ linkChannels peer) (hq : ∀ c, tget [] l.txQ c = if c = ch then [x] else [])
    (hc : 0 < tget 0 l.credit ch) :
    ∃ l', l.pump peer (k + 1) = (l', [flitOf peer l [(ch, x)]]) ∧ l'.txRetry = l.txRetry ++ [flitOf peer l [(ch, x)]] ∧
      l'.txNext = l.txNext + 1 ∧ tget 0 l'.credit ch = tget 0 l.credit ch - 1 := by
  obtain ⟨h1, h2, h3⟩ := takeChannels_one (linkChannels peer) (l, []) ch x rfl hm hq hc
  obtain ⟨l', hl⟩ : ∃ l', l.nextFlit peer = some (l', flitOf peer l [(ch, x)]) ∧
      (∀ c, tget [] l'.txQ c = []) ∧ tget 0 l'.credit ch = tget 0 l.credit ch - 1 := by
    rw [nextFlit_eq]
    simp only [h1, List.isEmpty_cons, Bool.false_and, Bool.false_eq_true, if_false]
    exact ⟨_, rfl, h2, h3⟩
  obtain ⟨hn, hq', hc'⟩ := hl
  have e := nextFlit_frame hn
  have hidle : l'.pump peer k = (l', []) := pump_idle peer k l' (by rw [e]; exact hs) hq' (by rw [e])
  refine ⟨l', ?_, by rw [e], by rw [e], hc'⟩
  unfold Link.pump
  rw [if_neg (by simp [hr, hf]), hs]
  simp only [hroom, hn, hidle, Bool.not_true, Bool.false_eq_true, if_false]

/-- A message of one slot on an idle peer link with a credit of its channel goes in one flit (01 R15, R20). -/
theorem sendPeer_idle (s : State) (n : Nat) (m : PeerMsg) (hr : (s.plink n).retraining = false)
    (hf : (s.plink n).failed = false) (hs : (s.plink n).txSend = []) (hq : ∀ c, tget [] (s.plink n).txQ c = [])
    (hroom : (s.plink n).txRetry.length < 1137) (hm : m.slots = [.descs [m]]) (hch : m.channel < 3)
    (hc : 0 < tget 0 (s.plink n).credit m.channel) :
    let f := flitOf true (s.plink n) [(m.channel, .descs [m])]
    (sendPeer s n m).out = s.out ++ [.flit (24 + n) f] ∧
      ((sendPeer s n m).plink n).txRetry = (s.plink n).txRetry ++ [f] ∧
      ((sendPeer s n m).plink n).txNext = (s.plink n).txNext + 1 ∧
      tget 0 ((sendPeer s n m).plink n).credit m.channel = tget 0 (s.plink n).credit m.channel - 1 := by
  have hj : joinSlots [] m = [.descs [m]] := by rw [← hm]; rfl
  have hmem : m.channel ∈ linkChannels true := by simp only [linkChannels, if_true, List.mem_cons]; omega
  obtain ⟨l', hp, h1, h2, h3⟩ := pump_one true 2047
    { s.plink n with txQ := tset m.channel (joinSlots (tget [] (s.plink n).txQ m.channel) m) (s.plink n).txQ }
    m.channel (.descs [m]) hr hf hs (by simpa [retryRoom] using hroom) hmem
    (fun c => by rw [tget_tset, hq, hq, hj]) hc
  have e : sendPeer s n m = { s.modPlink n fun _ => l' with
      out := s.out ++ [.flit (24 + n) (flitOf true (s.plink n) [(m.channel, .descs [m])])] } := by
    unfold sendPeer pumpPeer
    rw [State.plink_modPlink, if_pos rfl, hp]
    simp only [State.modPlink, State.plink, tset_tset]
    rfl
  rw [e]
  have hl : State.plink { s.modPlink n fun _ => l' with
      out := s.out ++ [.flit (24 + n) (flitOf true (s.plink n) [(m.channel, .descs [m])])] } n = l' :=
    (State.plink_modPlink s n (fun _ => l') n).trans (if_pos rfl)
  rw [hl]
  exact ⟨rfl, h1, h2, h3⟩

/-! ## Refusals and acknowledgements -/

/-- A changed link that retrains or has failed sends nothing. -/
theorem pumpLink_modFlitLink_stopped (s : State) (n : Nat) (l : Link) (h : l.retraining = true ∨ l.failed = true) :
    let t := pumpLink (s.modFlitLink n fun _ => l) n
    t = { s with mlinks := t.mlinks, plinks := t.plinks } ∧ OnlyAt s.flitLink t.flitLink n l := by
  rw [pumpLink_stopped _ _ (by rw [flitLink_modFlitLink, if_pos rfl]; exact h)]
  exact ⟨modFlitLink_frame _ _ _, onlyAt_modFlitLink _ _ _⟩

/-- A changed link that runs sends what is to be sent again, and then new flits. -/
theorem pumpLink_modFlitLink_sends (s : State) (n : Nat) (l : Link) (hr : l.retraining = false) (hf : l.failed = false)
    (hk : l.txSend.length ≤ if n < 24 then 64 else 2048) :
    ∃ new, let t := pumpLink (s.modFlitLink n fun _ => l) n
      t = { s with mlinks := t.mlinks, plinks := t.plinks, out := s.out ++ (l.txSend ++ new).map (.flit n) } ∧
      (t.flitLink n).txRetry = l.txRetry ++ new ∧ (t.flitLink n).txSend = [] ∧ (t.flitLink n).wire = l.wire ∧
      (t.flitLink n).rxNext = l.rxNext ∧ ∀ m, m ≠ n → t.flitLink m = s.flitLink m := by
  have hl : (s.modFlitLink n fun _ => l).flitLink n = l := by rw [flitLink_modFlitLink, if_pos rfl]
  obtain ⟨new, h1, h2, h3, h4, h5, h6⟩ := pumpLink_sends (s.modFlitLink n fun _ => l) n (by rw [hl]; exact hr)
    (by rw [hl]; exact hf) (by rw [hl]; exact hk)
  rw [hl] at h1 h2 h4 h5
  refine ⟨new, ?_, h2, h3, h4, h5, fun m hm => ?_⟩
  · rw [h1, modFlitLink_frame]
  · rw [h6 m hm, flitLink_modFlitLink, if_neg hm]

/-- A refusal sends the flit of its number, and every later one, again. -/
theorem flitRefusal_eq (s : State) :
    execFlitRefusal s = .next (pumpLink (s.modFlitLink (s.arg 0) fun _ =>
      { s.flitLink (s.arg 0) with
        txSend := (s.flitLink (s.arg 0)).txRetry.dropWhile fun f => f.seq.toNat != s.arg 1 }) (s.arg 0)) :=
  congrArg (fun t => (Host.Outcome.next (pumpLink t (s.arg 0)) : Res)) (modFlitLink_value s (s.arg 0) fun l =>
    { l with txSend := l.txRetry.dropWhile fun f => f.seq.toNat != s.arg 1 })

/-- An acknowledgement frees the flits up to that of its number. -/
theorem flitAck_eq (s : State) :
    execFlitAck s = .next (pumpLink (s.modFlitLink (s.arg 0) fun _ =>
      (s.flitLink (s.arg 0)).acked (BitVec.ofNat 12 (s.arg 1))) (s.arg 0)) :=
  congrArg (fun t => (Host.Outcome.next (pumpLink t (s.arg 0)) : Res)) (modFlitLink_value s (s.arg 0) _)

/-! ## The die network (01 R12 to R14) -/

@[simp] theorem edge_modEdge (s : State) (p : Nat) (f : Edge → Edge) (q : Nat) :
    (s.modEdge p f).edge q = if q = p then f (s.edge p) else s.edge q := by
  simp [State.edge, State.modEdge]

/-- The units of a direction that are on their way, in order: those sent, and then those that wait. -/
def Edge.line (e : Edge) : List (Nat × Nat × Nat) := (e.retry ++ e.wait).map fun x => (x.src, x.dst, x.payload)

/-- From s to t units have gone from waiting to sent and none is lost: every direction keeps its line and what it has
delivered, and its retry buffer holds no fewer. -/
structure Advanced (s t : State) : Prop where
  device : t = { s with edges := t.edges }
  line   : ∀ q, (t.edge q).line = (s.edge q).line
  got    : ∀ q, (t.edge q).got = (s.edge q).got
  retry  : ∀ q, (s.edge q).retry.length ≤ (t.edge q).retry.length

theorem Advanced.refl (s : State) : Advanced s s := ⟨rfl, fun _ => rfl, fun _ => rfl, fun _ => Nat.le_refl _⟩

theorem Advanced.trans {a b c : State} (h : Advanced a b) (g : Advanced b c) : Advanced a c where
  device := by rw [g.device, h.device]
  line q := (g.line q).trans (h.line q)
  got q := (g.got q).trans (h.got q)
  retry q := Nat.le_trans (h.retry q) (g.retry q)

/-- A change of one direction that keeps its line and what it has delivered. -/
theorem advanced_modEdge (s : State) (p : Nat) (f : Edge → Edge) (hl : (f (s.edge p)).line = (s.edge p).line)
    (hg : (f (s.edge p)).got = (s.edge p).got) (hr : (s.edge p).retry.length ≤ (f (s.edge p)).retry.length) :
    Advanced s (s.modEdge p f) where
  device := rfl
  line q := by rw [edge_modEdge]; split <;> simp_all
  got q := by rw [edge_modEdge]; split <;> simp_all
  retry q := by rw [edge_modEdge]; split <;> simp_all

/-- The first unit that waits is sent. -/
def Edge.sendFirst (e : Edge) (u : EUnit) (r : List EUnit) : Edge :=
  { e with wait := r, retry := e.retry ++ [{ u with via := none }], used := e.used + 1 }

theorem advanced_sendFirst (s : State) (p : Nat) (u : EUnit) (r : List EUnit) (h : (s.edge p).wait = u :: r) :
    Advanced s (s.modEdge p fun e => e.sendFirst u r) :=
  advanced_modEdge s p _ (by simp [Edge.line, Edge.sendFirst, h]) rfl (by simp [Edge.sendFirst])

/-- A unit that goes on gives back the credit of the edge it came over. -/
theorem advanced_credit (s : State) (p : Nat) : Advanced s (s.modEdge p fun e => { e with used := e.used - 1 }) :=
  advanced_modEdge s p _ rfl rfl (Nat.le_refl _)

/-- The edge that a unit came over, with its credit back, sends what it may. -/
def pumpVia (f : Nat) (s : State) (via : Option Nat) : State :=
  match via with
  | some v => pumpEdge f (s.modEdge v fun e => { e with used := e.used - 1 }) v
  | none => s

/-- A direction with nothing waiting, or without room or credit, stays as it is; another sends its first unit and goes on. -/
theorem pumpEdge_succ (f : Nat) (s : State) (p : Nat) :
    (((s.edge p).wait = [] ∨ 64 ≤ (s.edge p).retry.length ∨ 64 ≤ (s.edge p).used) ∧ pumpEdge (f + 1) s p = s) ∨
    ∃ u r, (s.edge p).wait = u :: r ∧
      pumpEdge (f + 1) s p = pumpEdge f (pumpVia f (s.modEdge p fun e => e.sendFirst u r) u.via) p := by
  rw [pumpEdge]
  split
  next h => exact .inl ⟨.inl h, rfl⟩
  next u r h =>
    split
    next hc => exact .inr ⟨u, r, h, rfl⟩
    next hc =>
      refine .inl ⟨.inr ?_, rfl⟩
      simp only [edgeUnits, not_and_or, Nat.not_lt] at hc
      exact hc

theorem advanced_pumpVia (f : Nat) (h : ∀ s p, Advanced s (pumpEdge f s p)) (s : State) (via : Option Nat) :
    Advanced s (pumpVia f s via) := by
  cases via with
  | none => exact Advanced.refl s
  | some v => exact (advanced_credit s v).trans (h _ v)

theorem advanced_pumpEdge (f : Nat) (s : State) (p : Nat) : Advanced s (pumpEdge f s p) := by
  induction f generalizing s p with
  | zero => exact Advanced.refl s
  | succ f ih =>
    rcases pumpEdge_succ f s p with ⟨-, e⟩ | ⟨u, r, h, e⟩
    · rw [e]; exact Advanced.refl s
    · rw [e]; exact ((advanced_sendFirst s p u r h).trans (advanced_pumpVia f ih _ _)).trans (ih _ p)

/-- A direction that may send goes on until nothing waits or no room or credit is left. -/
theorem pumpEdge_done (f : Nat) (s : State) (p : Nat) (hf : 64 ≤ f + (s.edge p).retry.length) :
    ((pumpEdge f s p).edge p).wait = [] ∨ 64 ≤ ((pumpEdge f s p).edge p).retry.length ∨
      64 ≤ ((pumpEdge f s p).edge p).used := by
  induction f generalizing s with
  | zero => exact .inr (.inl (by rwa [Nat.zero_add] at hf))
  | succ f ih =>
    rcases pumpEdge_succ f s p with ⟨h, e⟩ | ⟨u, r, h, e⟩
    · rw [e]; exact h
    · rw [e]
      apply ih
      have hlen := (advanced_pumpVia f (advanced_pumpEdge f) (s.modEdge p fun e => e.sendFirst u r) u.via).retry p
      have hsent : ((s.edge p).sendFirst u r).retry.length = (s.edge p).retry.length + 1 := by simp [Edge.sendFirst]
      rw [edge_modEdge, if_pos rfl, hsent] at hlen
      omega

/-- With nothing waiting, nothing is sent. -/
theorem pumpEdge_nothing (f : Nat) (s : State) (p : Nat) (h : (s.edge p).wait = []) : pumpEdge f s p = s := by
  cases f with
  | zero => rfl
  | succ f => rw [pumpEdge, h]

/-- A unit that is corrected leaves the retry buffer; at its own die it is delivered and its credit given back, elsewhere it
waits for the next edge of its way. -/
theorem edgeUnitReceive_corrected (s : State) (u : EUnit) (rest : List EUnit) (h : (s.edge (s.arg 0)).retry = u :: rest)
    (hn : s.arg 1 ≤ 1) :
    execEdgeUnitReceive s = .next (
      let n := s.arg 0
      let freed := s.modEdge n fun e => { e with retry := rest }
      if edgeEnd n = u.dst then
        pumpEdge 70 (freed.modEdge n fun e => { e with used := e.used - 1, got := e.got ++ [u] }) n
      else pumpEdge 70 (forwardUnit freed (edgeEnd n) { u with via := some n }) n) := by
  unfold execEdgeUnitReceive
  simp only [h]
  rw [if_neg (by omega)]

/-- A worse one is sent again; where none is on its way, none arrives. -/
theorem edgeUnitReceive_stays (s : State) (h : (s.edge (s.arg 0)).retry = [] ∨ 1 < s.arg 1) :
    execEdgeUnitReceive s = .next s := by
  unfold execEdgeUnitReceive
  rcases h with h | h
  · simp only [h]
  · simp only [h, if_true]
    split <;> rfl

/-- A way ends at its die, passes compute dies alone, and follows edges (01 R13). -/
theorem dieRoute_spec : ∀ a < 10, ∀ b < 10, a ≠ b → (dieRoute 9 a b).getLast? = some b ∧
    (∀ d ∈ (dieRoute 9 a b).dropLast, d < 8) ∧
    ∀ p ∈ ((a :: dieRoute 9 a b).zip (dieRoute 9 a b)), (edgePort p.1 p.2).isSome = true := by decide

/-- Between compute dies a way follows the row first (01 R13). -/
theorem nextDie_row : ∀ a < 8, ∀ b < 8, dieCol a ≠ dieCol b → dieRow (nextDie a b) = dieRow a := by decide

section
variable (s : State) (u : EUnit) (rest : List EUnit)

/-- With nothing waiting, a unit at its own die is delivered, and nothing else happens. -/
theorem edgeUnitReceive_delivers (h : (s.edge (s.arg 0)).retry = u :: rest) (hn : s.arg 1 ≤ 1)
    (hd : edgeEnd (s.arg 0) = u.dst) (hw : (s.edge (s.arg 0)).wait = []) :
    Answers .edgeUnitReceive s fun t => t = { s with edges := t.edges } ∧
      OnlyAt s.edge t.edge (s.arg 0) { s.edge (s.arg 0) with
        retry := rest, used := (s.edge (s.arg 0)).used - 1, got := (s.edge (s.arg 0)).got ++ [u] } := by
  have e := edgeUnitReceive_corrected s u rest h hn
  simp only [if_pos hd] at e
  rw [pumpEdge_nothing _ _ _ (by simpa using hw)] at e
  refine ⟨_, e, rfl, fun j => ?_⟩
  simp only [edge_modEdge, if_true]
  split <;> rfl

end

/-- What is to be sent again after an acknowledgement: the flits behind its own. -/
def Link.resendAfter (l : Link) (q : BitVec 12) : List Flit :=
  if l.txSend.any fun g => g.seq == q then (l.txSend.dropWhile fun g => g.seq != q).drop 1 else l.txSend

section
variable (s : State) (before : List Flit) (f : Flit) (after : List Flit)
  (h : (s.flitLink (s.arg 0)).txRetry = before ++ f :: after) (hs : f.seq.toNat = s.arg 1)
  (hb : ∀ g ∈ before, g.seq ≠ f.seq)
include h hs hb

theorem flitRefusal_from : execFlitRefusal s = .next (pumpLink (s.modFlitLink (s.arg 0) fun _ =>
    { s.flitLink (s.arg 0) with txSend := f :: after }) (s.arg 0)) := by
  rw [flitRefusal_eq, h, dropWhile_split _ _ _ _ ?_ (by simp [hs])]
  intro g hg
  simpa [← hs, BitVec.toNat_inj] using hb g hg

theorem flitAck_upTo : execFlitAck s = .next (pumpLink (s.modFlitLink (s.arg 0) fun _ =>
    { s.flitLink (s.arg 0) with txRetry := after, txSend := (s.flitLink (s.arg 0)).resendAfter f.seq }) (s.arg 0)) := by
  have hq : BitVec.ofNat 12 (s.arg 1) = f.seq := by rw [← hs, BitVec.ofNat_toNat, BitVec.setWidth_eq]
  rw [flitAck_eq, hq, acked_upTo _ _ _ _ h hb]
  rfl

end

/-- A number that the retry buffer does not hold acknowledges nothing. -/
theorem flitAck_unknown (s : State) (h : ∀ f ∈ (s.flitLink (s.arg 0)).txRetry, f.seq.toNat ≠ s.arg 1 % 4096) :
    execFlitAck s = .next (pumpLink (s.modFlitLink (s.arg 0) fun _ => s.flitLink (s.arg 0)) (s.arg 0)) := by
  rw [flitAck_eq, acked_unknown]
  intro f hf e
  exact h f hf (by rw [e, BitVec.toNat_ofNat])

/-- A refusal of such a number leaves nothing to be sent again. -/
theorem flitRefusal_unknown (s : State) (h : ∀ f ∈ (s.flitLink (s.arg 0)).txRetry, f.seq.toNat ≠ s.arg 1) :
    execFlitRefusal s = .next (pumpLink (s.modFlitLink (s.arg 0) fun _ =>
      { s.flitLink (s.arg 0) with txSend := [] }) (s.arg 0)) := by
  rw [flitRefusal_eq, List.dropWhile_eq_nil_iff.mpr fun f hf => by simpa using h f hf]

/-- Settles O39: the grid by evaluation; the units by `advanced_pumpEdge`, in which no line loses a unit; the flits by what
`Link.pump` sends, `pump_sends` and `pump_one`. -/
theorem unitsAndFlits : Obligations.UnitsAndFlits := by
  unfold Obligations.UnitsAndFlits
  refine ⟨by decide, by decide, fun a b ha hb => dieRoute_spec a ha b hb, fun a b ha hb => nextDie_row a ha b hb, fun s => ?_⟩
  refine ⟨fun u rest h => ⟨fun hn hd => ⟨?here, edgeUnitReceive_delivers s u rest h hn hd⟩, ?onward, ?nowhere,
      fun hn => ⟨_, edgeUnitReceive_stays s (.inr hn), rfl⟩⟩,
    fun h => ⟨_, edgeUnitReceive_stays s (.inl h), rfl⟩, ?pumped,
    fun noise f rest hw => ⟨?accepts, ?refuses, ?skips⟩, fun h => ⟨_, flitReceive_empty s h, rfl⟩,
    fun u p es => ⟨deliverRequests_free u p es, deliverRequests_behind u p es⟩,
    ?upTo, ?ackUnknown, ?refusalUnknown, ?message⟩
  case here =>
    have e := edgeUnitReceive_corrected s u rest h hn
    exact ⟨_, e.trans (congrArg _ (if_pos hd)), rfl⟩
  case onward =>
    intro hn hd p hp
    have e := edgeUnitReceive_corrected s u rest h hn
    simp only [if_neg hd, forwardUnit, hp] at e
    exact ⟨_, e, rfl⟩
  case nowhere =>
    intro hn hd hp
    have e := edgeUnitReceive_corrected s u rest h hn
    simp only [if_neg hd, forwardUnit, hp] at e
    exact ⟨_, e, rfl⟩
  case pumped =>
    intro u p
    have h := advanced_pumpEdge 70 u p
    exact ⟨h.device, fun q => ⟨h.line q, h.got q⟩, pumpEdge_done 70 u p (by omega)⟩
  case accepts =>
    intro hs hn
    exact ⟨_, flitReceive_accepts hw hs hn, (s.flitLink (s.arg 0)).accepted rest f, rfl, owed_slots _ _, rfl⟩
  case refuses =>
    intro hs hn
    exact ⟨_, flitReceive_refuses hw hs hn, modFlitLink_frame _ _ _, onlyAt_modFlitLink _ _ _⟩
  case skips =>
    intro hs
    exact ⟨_, flitReceive_skips hw hs, modFlitLink_frame _ _ _, onlyAt_modFlitLink _ _ _⟩
  case upTo =>
    intro before f after h hs hb
    have refusal := flitRefusal_from s before f after h hs hb
    have ack := flitAck_upTo s before f after h hs hb
    refine ⟨fun stopped => ⟨_, refusal, pumpLink_modFlitLink_stopped s _ _ stopped⟩, fun hr hf hk => ?_,
      fun stopped => ⟨_, ack, pumpLink_modFlitLink_stopped s _ _ stopped⟩, fun hr hf hk => ?_⟩
    · exact ⟨_, refusal, pumpLink_modFlitLink_sends s _ _ hr hf hk⟩
    · exact ⟨_, ack, pumpLink_modFlitLink_sends s _ _ hr hf hk⟩
  case ackUnknown => exact fun h => ⟨_, flitAck_unknown s h, rfl⟩
  case refusalUnknown => exact fun h => ⟨_, flitRefusal_unknown s h, rfl⟩
  case message =>
    intro m p hr hf hs hq hroom _ hm hch hc
    exact sendPeer_idle s (s.arg 0) m hr hf hs hq hroom hm hch hc

/-! ## A link that there is not

LINK_RETRAIN_DONE answers in every state, also where its operand names no memory link. Links from number 24 on are the peer links
(`State.flitLink`), so that `pumpLink` then sends for a peer link, and what the record of this number is to send again stays. -/

/-- A flit without slots. -/
def strayFlit : Flit := { seq := 0, ack := 0, credits := [], slots := [] }

/-- Memory link 24 retrains with a flit that has not been acknowledged, and its training is done. -/
def strayRetrain : State :=
  { State.reset with
    mlinks := [(24, { Link.zero with retraining := true, txRetry := [strayFlit] })]
    ev := event .linkRetrainDone [0, 24] }

/-- Its record still has the flit to send. -/
theorem strayRetrain_keeps (t : State) (h : exec .linkRetrainDone strayRetrain = .next t) :
    (t.mlink 24).txSend = [strayFlit] := by
  cases h
  decide

/-- A memory link that pumps has sent it. -/
theorem strayRetrain_pumped : (Link.pump false 64 { strayRetrain.mlink 24 with
    retraining := false, asked := false, txSend := (strayRetrain.mlink 24).txRetry }).1.txSend = [] := by decide

/-- Refutes O38: the clause for a memory link that has retrained does not say that there is such a link (`m < 24`, as
`Event.fits` has it). -/
theorem not_readinessEvents : ¬ Obligations.ReadinessEvents := by
  unfold Obligations.ReadinessEvents
  intro h
  obtain ⟨-, -, -, -, -, -, -, -, -, -, links, -⟩ := h strayRetrain
  obtain ⟨-, -, -, retrained, -⟩ := links
  obtain ⟨t, ht, -, -, only, -⟩ := retrained rfl rfl
  have sent : (t.mlink 24).txSend = [] := (congrArg Link.txSend (only 24)).trans strayRetrain_pumped
  rw [strayRetrain_keeps t ht] at sent
  cases sent

end Sys2Proof.Machine

/-!
PROOFS. 02 R37, R38: the one stop. Every instruction and every event answers a next state, and so does every turn; only a package
that has tripped stops.
-/

namespace Sys2Proof.Machine

/-! ## Instructions -/


theorem execWid_next (xd f : Nat) (s : State) : ∃ t, execWid xd f s = .next t := by
  unfold execWid
  split
  · exact ⟨_, rfl⟩
  · split
    · exact ⟨_, rfl⟩
    · exact ⟨_, rfl⟩

theorem execMatt_next (xd xs : Nat) (s : State) : ∃ t, execMatt xd xs s = .next t := by
  unfold execMatt
  dsimp only
  split
  case h_1 =>
    split
    · exact ⟨_, rfl⟩
    · exact ⟨_, rfl⟩
  case h_2 =>
    split
    · exact ⟨_, rfl⟩
    · exact ⟨_, rfl⟩

/-- WID and MATT answer in one of several ways; every other meaning is one `.next`, whatever it tests within. -/
theorem exec_next (i : Instr) (s : State) : ∃ t, exec i s = .next t := by
  cases i with
  | wid xd f => exact execWid_next xd f s
  | matt xd xs => exact execMatt_next xd xs s
  | _ => exact ⟨_, rfl⟩

/-! ## Turns -/

theorem runEvent_next (s : State) (e : Event) : ∃ t, runEvent exec s e = .next t := exec_next e.what { s with ev := e }

theorem runInput_next (s : State) (i : Input) : ∃ t, runInput exec s i = .next t := by
  unfold runInput
  split
  case h_1 e _ =>
    split
    · exact ⟨_, rfl⟩
    · exact runEvent_next s e
  case h_2 => exact ⟨_, rfl⟩

theorem answering_next {r : Res} (h : ∃ t, r = .next t) : ∃ t, answering r = .next t := by
  obtain ⟨t, rfl⟩ := h
  exact ⟨_, rfl⟩

theorem runScalar_next (s : State) (i : Instr) : ∃ t, runScalar exec s i = .next t := by
  obtain ⟨r, hr⟩ := exec_next i s
  unfold runScalar
  rw [hr]
  dsimp only
  split
  case isTrue => exact ⟨_, rfl⟩
  case isFalse =>
    split
    · exact ⟨_, rfl⟩
    · exact ⟨_, rfl⟩

theorem scalarTurn_next (s : State) (w k : Nat) : ∃ t, scalarTurn exec s w k = .next t := by
  unfold scalarTurn
  split
  case isTrue => exact ⟨_, rfl⟩
  case isFalse =>
    dsimp only
    split
    case h_1 => exact ⟨_, rfl⟩
    case h_2 => exact ⟨_, rfl⟩
    case h_3 u v _ =>
      split
      · exact runScalar_next u _
      · exact ⟨_, rfl⟩

theorem runTurn_next (s : State) (t : Turn) : ∃ u, runTurn exec s t = .next u := by
  cases t with
  | input =>
    unfold runTurn
    dsimp only
    split
    · exact answering_next (runInput_next _ _)
    · exact ⟨_, rfl⟩
  | work n =>
    unfold runTurn
    dsimp only
    split
    · exact answering_next (runEvent_next _ _)
    · exact ⟨_, rfl⟩
  | scalar w k =>
    obtain ⟨r, hr⟩ := scalarTurn_next s w k
    exact ⟨pace w k (s.ctx w k).strand.pc r, by simp [runTurn, hr]⟩
  | va w k => exact ⟨_, rfl⟩
  | vm w k => exact ⟨_, rfl⟩
  | part w k p e => exact ⟨_, rfl⟩

/-! ## Steps -/

/-- A power-on reset is found among the inputs exactly where there is one. -/
theorem afterPowerOn_none_iff (l : List Input) :
    afterPowerOn l = none ↔ ∀ e, Input.ev e ∈ l → e.what ≠ .powerOnReset := by
  induction l with
  | nil => simp [afterPowerOn]
  | cons i l ih =>
    cases i with
    | ev e =>
      by_cases he : e.what = .powerOnReset
      · simp [afterPowerOn, he]
      · simp [afterPowerOn, he, ih]
    | _ => simp [afterPowerOn, ih]

theorem step_untripped_next (s : State) (h : s.tripped = false) : ∃ t, step s = .next t := by
  unfold step
  rw [h, if_neg Bool.false_ne_true]
  split
  case h_1 => exact runTurn_next _ _
  case h_2 =>
    split
    · exact runTurn_next _ _
    · exact ⟨_, rfl⟩

theorem step_tripped_stops (s : State) (h : s.tripped = true) (hn : afterPowerOn s.inputs = none) :
    step s = .fault .poweredOff := by
  simp [step, h, hn]

theorem step_tripped_resets (s : State) (h : s.tripped = true) (hn : afterPowerOn s.inputs ≠ none) :
    ∃ t, step s = .next t := by
  obtain ⟨x, hx⟩ := Option.ne_none_iff_exists'.mp hn
  obtain ⟨t, ht⟩ := runEvent_next { s with inputs := x.2 } x.1
  exact ⟨t, by simpa [step, h, hx] using ht⟩

/-- Settles O60: every turn ends in an `exec`, which answers, or in a next state of its own. -/
theorem oneStop : Obligations.OneStop := by
  refine ⟨exec_next, fun s => ⟨fun h hn => ?_, fun h => ?_⟩⟩
  · exact step_tripped_stops s h ((afterPowerOn_none_iff _).mpr hn)
  · by_cases ht : s.tripped = true
    case neg => exact step_untripped_next s (Bool.eq_false_iff.mpr ht)
    case pos =>
      obtain ⟨e, he, hr⟩ : ∃ e, Input.ev e ∈ s.inputs ∧ e.what = .powerOnReset := by simpa [ht] using h
      exact step_tripped_resets s ht fun hn => (afterPowerOn_none_iff _).mp hn e he hr

end Sys2Proof.Machine

/-!
PROOFS. 02 R30 to R43: operating points, limiters, stall windows and monitor blocks.
-/

namespace Sys2Proof.Machine

/-! ## Updates of a power page -/

@[simp] theorem pow_onPow (s : State) (c : Nat) (f : Power → Power) (d : Nat) :
    (s.onPow c f).pow d = if d = c then f (s.pow c) else s.pow d := State.pow_modPow s c f d

/-- A change of a page wakes its line and leaves the other pages. -/
theorem onPow_spec (s : State) (c : Nat) (f : Power → Power) :
    OnlyAt s.pow (s.onPow c f).pow c (f (s.pow c)) ∧ Woken { s with power := (s.onPow c f).power } (s.onPow c f) :=
  ⟨pow_onPow s c f, woken_wakePage (s.modPow c f) 0 5 c 0⟩

/-- What a change wakes does not turn on the power pages. -/
theorem woken_withPower {a b : State} (h : Woken a b) (x : Tbl Power) :
    Woken { a with power := x } { b with power := x } where
  device := congrArg (fun u : State => { u with power := x }) h.device
  queues := h.queues
  ctxs := h.ctxs
  work := h.work

theorem woken_withTripped {a b : State} (h : Woken a b) (x : Bool) :
    Woken { a with tripped := x } { b with tripped := x } where
  device := congrArg (fun u : State => { u with tripped := x }) h.device
  queues := h.queues
  ctxs := h.ctxs
  work := h.work

/-! ## Requests, CAP and LIMIT (02 R30, R33 to R37) -/

theorem begin_eq_started (p : Power) : p.begin = started p := rfl

theorem setLimit_eq_limited (p : Power) : p.setLimit = limited p := rfl

/-- The point of a voltage is the lowest that suffices for it (R33). -/
theorem pointFor_lowest (v want : Nat) (enough : v ≤ 600 + 50 * want)
    (lowest : want = 0 ∨ 600 + 50 * (want - 1) < v) : pointFor v = want := by
  unfold pointFor
  split
  · omega
  · omega

theorem request_low (p : Power) (v : Nat) (h : v % 1024 < 600) :
    p.request (v % 1024) = { p with reqMv := v % 1024, reqCnt := p.reqCnt + 1, result := 1 } := by
  simp [Power.request, h]

theorem request_grants (p : Power) (v want : Nat) (h : 600 ≤ v % 1024)
    (hs : Nat.min (v % 1024) 950 ≤ 600 + 50 * want)
    (hl : want = 0 ∨ 600 + 50 * (want - 1) < Nat.min (v % 1024) 950) :
    p.request (v % 1024) =
      (let grant := Nat.min want (Nat.min p.cap p.limit)
       started { p with
         reqMv := v % 1024, reqCnt := p.reqCnt + 1, target := grant, want := grant
         result := if grant < want then 2 else if 950 < v % 1024 then 3 else 0 }) := by
  have hw : pointFor (Nat.min (v % 1024) 950) = want := pointFor_lowest _ _ hs hl
  simp only [Power.request, if_neg (Nat.not_lt.mpr h), Nat.mod_mod, hw, begin_eq_started]

/-- A write of CAP that goes (06 R125). -/
theorem capWrite_goes (s : State) (r : List Waiter) (h2 : s.arg 2 ≠ 0) (hr : MayGo s r) :
    ∃ t, exec .capWrite s = .next t ∧ OnlyAt s.pow t.pow (s.arg 0) ((s.pow (s.arg 0)).setCap (s.arg 1 % 8)) ∧
      Woken { s with deferred := r, power := t.power } t := by
  have hserve := serve_mayGo s (fun u => u.onPow (u.arg 0) fun p => p.setCap (u.arg 1 % 8)) r hr
  refine ⟨_, congrArg Host.Outcome.next ((if_neg h2).trans hserve), ?_⟩
  obtain ⟨only, woken⟩ := onPow_spec { s with deferred := r } (s.arg 0) fun p => p.setCap (s.arg 1 % 8)
  split
  case isTrue hw =>
    obtain ⟨-, ⟨-, rfl⟩ | hw'⟩ := hr
    · exact ⟨only, woken⟩
    · simp [hw] at hw'
  case isFalse =>
    obtain ⟨es, hd⟩ := drain_frame (State.onPow { s with deferred := r } (s.arg 0) fun p => p.setCap (s.arg 1 % 8))
    rw [show ({ s with deferred := r } : State).arg 0 = s.arg 0 from rfl,
      show ({ s with deferred := r } : State).arg 1 = s.arg 1 from rfl, hd]
    exact ⟨only, woken_trans woken (woken_push _ es)⟩

theorem capWrite_waits (s : State) (h2 : s.arg 2 ≠ 0) (h : MustWait s) : Deferred .capWrite s :=
  ⟨_, congrArg Host.Outcome.next ((if_neg h2).trans (serve_mustWait s _ h)), rfl⟩

/-! ## The sensors (02 R32, R37) -/

theorem react_hot (p : Power) (h : 100 ≤ p.tempC) : p.react = limited { p with hot := true, thermal := true } := by
  simp [Power.react, h, setLimit_eq_limited]

theorem react_cool (p : Power) (h : p.tempC < 95) :
    p.react = if p.thermal = true then limited { p with thermal := false } else p := by
  simp [Power.react, h, setLimit_eq_limited, show ¬ 100 ≤ p.tempC by omega]

/-- What a reading v of the sensors leaves on the page of cluster c, and the trip at 115 °C. -/
theorem sense_spec (s : State) (c v : Nat) :
    OnlyAt s.pow (sense s c v).pow c (if bit s.ready.clu c = true then ({ s.pow c with tempC := v % 256 } : Power).react
      else { s.pow c with tempC := v % 256 }) ∧
    Woken { s with tripped := s.tripped || decide (115 ≤ v), power := (sense s c v).power } (sense s c v) := by
  obtain ⟨only, woken⟩ := onPow_spec s c fun p =>
    if bit s.ready.clu c then ({ p with tempC := v % 256 } : Power).react else { p with tempC := v % 256 }
  by_cases h : 115 ≤ v
  · have e : sense s c v = { s.onPow c (fun p =>
        if bit s.ready.clu c then ({ p with tempC := v % 256 } : Power).react else { p with tempC := v % 256 }) with
        tripped := true } := if_pos h
    rw [e, decide_eq_true h, Bool.or_true]
    exact ⟨only, woken_withTripped woken true⟩
  · have e : sense s c v = s.onPow c (fun p =>
        if bit s.ready.clu c then ({ p with tempC := v % 256 } : Power).react else { p with tempC := v % 256 }) := if_neg h
    rw [e, decide_eq_false h, Bool.or_false]
    exact ⟨only, woken⟩


/-! ## Time of a cluster (02 R39, R43)

A tick of the counter samples the cluster's two blocks, closes its whole stall windows, and leaves everything else. -/

/-- From s to t blocks of cluster c have sampled, and free values may have been drawn. -/
structure Sampled (c : Nat) (s t : State) : Prop where
  device : t = { s with monits := t.monits, fresh := t.fresh }
  others : ∀ b, b / 2 ≠ c → t.monit b = s.monit b

theorem Sampled.refl (c : Nat) (s : State) : Sampled c s s := ⟨rfl, fun _ _ => rfl⟩

theorem Sampled.trans {c : Nat} {s t u : State} (h : Sampled c s t) (g : Sampled c t u) : Sampled c s u where
  device := by rw [g.device, h.device]
  others := fun b hb => (g.others b hb).trans (h.others b hb)

theorem sampled_modMonit {c b : Nat} (s : State) (f : Monit → Monit) (hb : b / 2 = c) : Sampled c s (s.modMonit b f) where
  device := rfl
  others := by
    intro o ho
    rw [State.monit_modMonit, if_neg]
    rintro rfl
    exact ho hb

theorem sampled_draws {c : Nat} (s : State) (n : Nat) : Sampled c s { s with fresh := n } := ⟨rfl, fun _ _ => rfl⟩

theorem sampled_foldl {c : Nat} {f : State → Nat → State} (l : List Nat) (s : State)
    (h : ∀ u j, Sampled c u (f u j)) : Sampled c s (l.foldl f s) := by
  induction l generalizing s with
  | nil => exact .refl c s
  | cons j l ih => exact (h s j).trans (ih _)

theorem sampled_catchUp {c b : Nat} (upto : Nat) (s : State) (hb : b / 2 = c) : Sampled c s (catchUp c upto s b) := by
  unfold catchUp
  dsimp only
  split
  · exact .refl c s
  · split
    · have samples := sampled_foldl (rangeFrom ((s.monit b).beat + 1) (upto + 1)) s
        fun u j => sampled_modMonit u (fun m => m.capture b (levelAt u c m.src j)) hb
      exact (samples.trans (sampled_draws _ (s.fresh + 1))).trans (sampled_modMonit _ _ hb)
    · exact sampled_modMonit s _ hb

theorem sampled_both (c upto : Nat) (s : State) : Sampled c s ([2 * c, 2 * c + 1].foldl (catchUp c upto) s) :=
  (sampled_catchUp upto s (by omega)).trans (sampled_catchUp upto _ (by omega))

/-- A block that has sampled a beat does not sample it again. -/
theorem catchUp_done (c upto : Nat) (s : State) (b : Nat) (h : upto ≤ (s.monit b).beat) : catchUp c upto s b = s := by
  simp [catchUp, h]

theorem catchUp_both_done {c upto : Nat} {s : State} (h : ∀ o, o / 2 = c → upto ≤ (s.monit o).beat) :
    [2 * c, 2 * c + 1].foldl (catchUp c upto) s = s := by
  simp only [List.foldl_cons, List.foldl_nil]
  rw [catchUp_done c upto s _ (h _ (by omega)), catchUp_done c upto s _ (h _ (by omega))]

/-- What a page has become at a tick: the counter stands there if it had not passed it, and whole windows have closed. -/
def Ticked (p : Power) (at' : Word) (x : Power) : Prop :=
  x = (if at' ≤ p.icount then p else { p with icount := at' }) ∨
  ∃ n, p.icount < at' ∧ 1000 < (at' - p.winStart).toNat ∧ x = { p.windows n at' with icount := at' }

/-- Up to 1,000 ticks after a window began it is not yet closed (R40). -/
theorem windows_open (p : Power) (n : Nat) (at' : Word) (h : (at' - p.winStart).toNat ≤ 1000) : p.windows n at' = p := by
  unfold Power.windows
  exact if_pos (by omega)

/-- The windows are all that a closing of them changes. -/
theorem windows_frame (p : Power) (n : Nat) (at' : Word) : p.windows n at' = { p with
    stall := (p.windows n at').stall, winSeq := (p.windows n at').winSeq, winStart := (p.windows n at').winStart } := by
  unfold Power.windows
  dsimp only
  split <;> rfl

theorem ticked_windows (p : Power) (n : Nat) (at' : Word) (h : ¬ at' ≤ p.icount) :
    Ticked p at' { p.windows n at' with icount := at' } := by
  by_cases hw : (at' - p.winStart).toNat ≤ 1000
  · exact .inl (by rw [windows_open p n at' hw, if_neg h])
  · exact .inr ⟨n, BitVec.not_le.mp h, Nat.lt_of_not_le hw, rfl⟩

/-- A tick moves the counter and the windows, and leaves the change in progress. -/
theorem ticked_frame {p x : Power} {at' : Word} (h : Ticked p at' x) :
    x = { p with icount := x.icount, stall := x.stall, winSeq := x.winSeq, winStart := x.winStart } := by
  obtain rfl | ⟨n, -, -, rfl⟩ := h
  · split <;> rfl
  · rw [windows_frame p n at']

/-- At the end of a window the tick itself has closed none. -/
theorem ticked_windowEnd {p x : Power} (h : Ticked p (p.winStart + 1000) x) : x.winSeq = p.winSeq := by
  obtain hx | ⟨n, -, hw, -⟩ := h
  · rw [hx]
    split <;> rfl
  · rw [add_sub_cancel_left] at hw
    exact absurd hw (Nat.lt_irrefl 1000)

/-- From s to t time has passed for cluster c alone. -/
structure Passed (c : Nat) (s t : State) : Prop where
  device : t = { s with power := t.power, monits := t.monits, fresh := t.fresh }
  powers : ∀ d, d ≠ c → t.pow d = s.pow d
  blocks : ∀ b, b / 2 ≠ c → t.monit b = s.monit b

/-- The counter of a cluster that a tick finds behind it: the page's windows close, and free values are drawn. -/
def State.reach (s : State) (c : Nat) (t : Word) (winStart : Word) : State :=
  { s.modPow c fun p => { p.windows s.fresh t with icount := t } with fresh := s.fresh + (t - winStart).toNat / 1000 }

theorem advanceTo_passed (s : State) (c : Nat) (t : Word) (upto : Nat) (h : t ≤ (s.pow c).icount) :
    advanceTo s c t upto = s := if_pos h

theorem advanceTo_reaches (s : State) (c : Nat) (t : Word) (upto : Nat) (h : ¬ t ≤ (s.pow c).icount) :
    advanceTo s c t upto = ([2 * c, 2 * c + 1].foldl (catchUp c upto) s).reach c t (s.pow c).winStart := if_neg h

theorem pow_reach (s : State) (c : Nat) (t w : Word) (d : Nat) : (s.reach c t w).pow d =
    if d = c then { (s.pow c).windows s.fresh t with icount := t } else s.pow d :=
  State.pow_modPow s c (fun p => { p.windows s.fresh t with icount := t }) d

theorem pow_sampled {c : Nat} {s t : State} (h : Sampled c s t) (d : Nat) : t.pow d = s.pow d := by
  rw [h.device]; rfl

theorem Sampled.passed {c : Nat} {s t : State} (h : Sampled c s t) : Passed c s t where
  device := by rw [h.device]
  powers := fun d _ => pow_sampled h d
  blocks := h.others

theorem Passed.trans {c : Nat} {s t u : State} (h : Passed c s t) (g : Passed c t u) : Passed c s u where
  device := by rw [g.device, h.device]
  powers := fun d hd => (g.powers d hd).trans (h.powers d hd)
  blocks := fun b hb => (g.blocks b hb).trans (h.blocks b hb)

theorem passed_reach (s : State) (c : Nat) (t w : Word) : Passed c s (s.reach c t w) where
  device := rfl
  powers := fun d hd => (pow_reach s c t w d).trans (if_neg hd)
  blocks := fun _ _ => rfl

theorem passed_advanceTo (s : State) (c : Nat) (t : Word) (upto : Nat) : Passed c s (advanceTo s c t upto) := by
  by_cases h : t ≤ (s.pow c).icount
  case pos =>
    rw [advanceTo_passed s c t upto h]
    exact ⟨rfl, fun _ _ => rfl, fun _ _ => rfl⟩
  case neg =>
    rw [advanceTo_reaches s c t upto h]
    exact (sampled_both c upto s).passed.trans (passed_reach _ c t _)

theorem ticked_advanceTo (s : State) (c : Nat) (t : Word) (upto : Nat) :
    Ticked (s.pow c) t ((advanceTo s c t upto).pow c) := by
  by_cases h : t ≤ (s.pow c).icount
  case pos =>
    rw [advanceTo_passed s c t upto h]
    exact .inl (if_pos h).symm
  case neg =>
    rw [advanceTo_reaches s c t upto h, pow_reach, if_pos rfl, pow_sampled (sampled_both c upto s)]
    exact ticked_windows _ _ _ h

/-! ## Phases of a change (02 R30, R34) -/

/-- From s to t the counter of cluster c has come to a tick, and its page, x then, has become y with f x y. -/
def Timed (s t : State) (c : Nat) (f : Power → Power → Prop) (at' : Word) : Prop :=
  (∃ x, Ticked (s.pow c) at' x ∧ f x (t.pow c)) ∧ (∀ d, d ≠ c → t.pow d = s.pow d) ∧
  (∀ b, b / 2 ≠ c → t.monit b = s.monit b) ∧
  Woken { s with power := t.power, monits := t.monits, fresh := t.fresh } t

/-- Time passes, and then a step changes the cluster's page. -/
theorem timed_onPow {s u : State} {c : Nat} {at' : Word} {f : Power → Power → Prop} (g : Power → Power)
    (passed : Passed c s u) (ticked : Ticked (s.pow c) at' (u.pow c)) (hf : f (u.pow c) (g (u.pow c))) :
    Timed s (u.onPow c g) c f at' := by
  obtain ⟨only, woken⟩ := onPow_spec u c g
  refine ⟨⟨u.pow c, ticked, ?_⟩, fun d hd => ?_, passed.blocks, ?_⟩
  · rwa [only c, if_pos rfl]
  · rw [only d, if_neg hd, passed.powers d hd]
  · have e : { u with power := (u.onPow c g).power } =
        { s with power := (u.onPow c g).power, monits := u.monits, fresh := u.fresh } :=
      congrArg (fun v : State => { v with power := (u.onPow c g).power }) passed.device
    rw [e] at woken
    exact woken

theorem passed_tick (s : State) (c : Nat) (t : Word) : Passed c s (s.tick c t) := passed_advanceTo s c t _

theorem ticked_tick (s : State) (c : Nat) (t : Word) : Ticked (s.pow c) t ((s.tick c t).pow c) := ticked_advanceTo s c t _

/-- A free value drawn. -/
theorem Passed.draw {c : Nat} {s t : State} (h : Passed c s t) : Passed c s { t with fresh := t.fresh + 1 } where
  device := congrArg (fun u : State => { u with fresh := t.fresh + 1 }) h.device
  powers := h.powers
  blocks := h.blocks

theorem phase_tick (s : State) (c : Nat) (t : Word) : ((s.tick c t).pow c).phase = (s.pow c).phase := by
  rw [ticked_frame (ticked_tick s c t)]

/-- A ramp ends: the rail stands at its voltage. -/
theorem endPhase_ramp (s : State) (c : Nat) (h : (s.pow c).phase ≠ 2) :
    endPhase s c = (s.tick c (s.pow c).ends).onPow c Power.rampDone :=
  if_neg (by rwa [phase_tick])

/-- A lock ends: the clock has switched. -/
theorem endPhase_lock (s : State) (c : Nat) (h : (s.pow c).phase = 2) :
    endPhase s c = (let u := s.tick c (s.pow c).ends
      { u with fresh := u.fresh + 1 }.onPow c fun p => p.lockDone (Config.stallSample u.fresh)) :=
  if_pos (by rwa [phase_tick])

theorem timed_ramp (s : State) (c : Nat) (f : Power → Power → Prop) (h : (s.pow c).phase ≠ 2)
    (hf : ∀ x, Ticked (s.pow c) (s.pow c).ends x → f x x.rampDone) : Timed s (endPhase s c) c f (s.pow c).ends := by
  rw [endPhase_ramp s c h]
  exact timed_onPow _ (passed_tick s c _) (ticked_tick s c _) (hf _ (ticked_tick s c _))

theorem timed_lock (s : State) (c : Nat) (f : Power → Power → Prop) (h : (s.pow c).phase = 2)
    (hf : ∀ x r, Ticked (s.pow c) (s.pow c).ends x → f x (x.lockDone r)) : Timed s (endPhase s c) c f (s.pow c).ends := by
  rw [endPhase_lock s c h]
  exact timed_onPow _ (passed_tick s c _).draw (ticked_tick s c _) (hf _ _ (ticked_tick s c _))

theorem voltageRampDone_ends (s : State) (h : (s.pow (s.arg 0)).phase = 1 ∨ (s.pow (s.arg 0)).phase = 3) :
    exec .voltageRampDone s = .next (endPhase s (s.arg 0)) := congrArg Host.Outcome.next (if_pos h)

theorem clockLockDone_ends (s : State) (h : (s.pow (s.arg 0)).phase = 2) :
    exec .clockLockDone s = .next (endPhase s (s.arg 0)) := congrArg Host.Outcome.next (if_pos h)

/-- A raise that has reached its voltage locks its source next. -/
theorem rampDone_raise (p : Power) (h : p.phase = 1) :
    p.rampDone = { p with voltMv := 600 + 50 * p.goal, since := p.icount, phase := 2 } := by
  simp [Power.rampDone, h, pointMv]

/-- A lowering that has reached its voltage is over. -/
theorem rampDone_lowering (p : Power) (h : p.phase = 3) : p.rampDone =
    started { p with voltMv := 600 + 50 * p.goal, since := p.icount, phase := 0, changing := false } := by
  simp [Power.rampDone, h, pointMv, begin_eq_started]

theorem settleTo_ends {d : Nat} {f : Power → Word} {u : State} (n : Nat) (hp : (u.pow d).phase ≠ 0)
    (he : (u.pow d).ends ≤ f (u.pow d)) : settleTo d f (n + 1) u = settleTo d f n (endPhase u d) := if_pos ⟨hp, he⟩

theorem settleTo_rests {d : Nat} {f : Power → Word} {u : State} (n : Nat)
    (h : (u.pow d).phase = 0 ∨ ¬ (u.pow d).ends ≤ f (u.pow d)) : settleTo d f (n + 1) u = u :=
  if_neg (by rintro ⟨hp, he⟩; exact h.elim hp (· he))

/-! ## The stall sampler (02 R40) -/

theorem stallWord_toNat (seq : Nat) (short : Bool) (rates win : Nat) : (stallWord seq short rates win).toNat =
    seq % 4096 * 2 ^ 52 + short.toNat * 2 ^ 51 + rates % 2 ^ 30 * 2 ^ 10 + win % 1024 := by
  have hb : short.toNat ≤ 1 := Bool.toNat_le short
  rw [stallWord, BitVec.toNat_ofNat, Nat.mod_eq_of_lt (by omega)]

/-- The fields of a sample: its number, whether the window closed early, its three rates and its length. -/
theorem stallWord_fields (seq : Nat) (short : Bool) (rates win : Nat) : let w := (stallWord seq short rates win).toNat
    bits w 63 52 = seq % 4096 ∧ bit w 51 = short ∧ bits w 39 30 = rates / 2 ^ 20 % 1024 ∧
    bits w 29 20 = rates / 2 ^ 10 % 1024 ∧ bits w 19 10 = rates % 1024 ∧ bits w 9 0 = win % 1024 := by
  have hb : short.toNat ≤ 1 := Bool.toNat_le short
  simp only [stallWord_toNat, bits, bit]
  refine ⟨by omega, ?_, by omega, by omega, by omega, by omega⟩
  cases short
  · exact beq_eq_false_iff_ne.mpr (by simp only [Bool.toNat_false]; omega)
  · exact beq_iff_eq.mpr (by simp only [Bool.toNat_true]; omega)

/-- The clock switches: CUR takes the new point and the window closes early, with rates r. -/
theorem lockDone_eq (x : Power) (r : Nat) : x.lockDone r =
    (let z := { x with
      cur := x.goal, stall := stallWord (x.winSeq + 1) true r ((x.icount - x.winStart).toNat)
      winSeq := x.winSeq + 1, winStart := x.icount, since := x.icount }
     if x.cur < x.goal then started { z with phase := 0, changing := false } else { z with phase := 3 }) := by
  simp only [Power.lockDone, begin_eq_started, decide_eq_true_eq, gt_iff_lt]

/-- A window closes with its sample at its end. -/
def Power.closeWindow (p : Power) (sample now : Word) : Power :=
  { p with stall := sample, winSeq := p.winSeq + 1, winStart := now }

theorem Power.closeWindow_cur (p : Power) (sample now : Word) : (p.closeWindow sample now).cur = p.cur := rfl
theorem Power.closeWindow_phase (p : Power) (sample now : Word) : (p.closeWindow sample now).phase = p.phase := rfl

/-- Three rates of a sample, as STALL_WINDOW_CLOSE brings them. -/
def State.stallRates (s : State) : Nat := s.arg 1 % 1024 * 2 ^ 20 + s.arg 2 % 1024 * 2 ^ 10 + s.arg 3 % 1024

theorem stallWindowClose_eq {s s0 : State} (h : settleTo (s.arg 0) (fun p => p.winStart + 1000) 8 s = s0) :
    exec .stallWindowClose s = .next (let now := (s0.pow (s.arg 0)).winStart + 1000
      (s0.tick (s.arg 0) now).onPow (s.arg 0) fun p =>
        p.closeWindow (stallWord (p.winSeq + 1) false s0.stallRates 1000) now) := by
  subst h
  rfl

/-! ## The power limiter (02 R36) -/

/-- From s to t interrupt vectors have been looked at: messages may have left (04 R90). -/
def VectorsSeen (s t : State) : Prop := t = { s with fns := t.fns, out := t.out }

theorem vectorsSeen_foldl {α : Type} {f : State → α → State} (l : List α) (s : State) (h : ∀ u x, VectorsSeen u (f u x)) :
    VectorsSeen s (l.foldl f s) := by
  induction l generalizing s with
  | nil => rfl
  | cons x l ih =>
    have e : l.foldl f (f s x) = _ := ih (f s x)
    rw [List.foldl_cons, e, h s x]
    rfl

theorem vectorsSeen_checkVec (s : State) (n v : Nat) : VectorsSeen s (checkVec s n v) := by
  unfold checkVec
  dsimp only
  split
  · rfl
  · split
    · rfl
    · split <;> rfl

theorem vectorsSeen_checkVecs (s : State) : VectorsSeen s (checkVecs s) :=
  vectorsSeen_foldl _ s fun u v => vectorsSeen_checkVec u v.1 v.2

theorem mem_insertNat (n m : Nat) (l : List Nat) : m ∈ insertNat n l ↔ m = n ∨ m ∈ l := by
  induction l with
  | nil => simp [insertNat]
  | cons k l ih =>
    unfold insertNat
    split
    · simp
    · simp only [List.mem_cons, ih]
      tauto

theorem mem_insertAll (m : Nat) (l acc : List Nat) :
    m ∈ l.foldl (fun l d => insertNat d l) acc ↔ m ∈ l ∨ m ∈ acc := by
  induction l generalizing acc with
  | nil => simp
  | cons k l ih =>
    rw [List.foldl_cons, ih, mem_insertNat, List.mem_cons]
    tauto

/-- A hold that ends on the way to a tick ends by it. -/
theorem holdEnds_le (s : State) (t : Nat) : ∀ due ∈ holdEnds s t, due ≤ t := by
  intro due h
  obtain h | h := (mem_insertAll due _ []).mp h
  case inr => cases h
  case inl =>
    obtain ⟨e, -, h⟩ := List.mem_flatMap.mp h
    obtain ⟨v, -, h⟩ := List.mem_filterMap.mp h
    dsimp only at h
    split at h
    case isTrue hd =>
      obtain ⟨-, -, -, hle⟩ := hd
      cases h
      exact hle
    case isFalse => cases h

/-- The counter of I/O die 0 reaches one tick of those at which a hold ends. -/
def runTo (s : State) (due : Nat) : State := checkVecs { s with iod0 := Nat.max s.iod0 due }

theorem advanceIod0_eq (s : State) (T : Nat) : advanceIod0 s T = runTo ((holdEnds s T).foldl runTo s) T := rfl

theorem runTo_frame (s : State) (due : Nat) :
    runTo s due = { s with fns := (runTo s due).fns, out := (runTo s due).out, iod0 := Nat.max s.iod0 due } :=
  vectorsSeen_checkVecs { s with iod0 := Nat.max s.iod0 due }

theorem runTo_iod0 (s : State) (due : Nat) : (runTo s due).iod0 = Nat.max s.iod0 due := congrArg State.iod0 (runTo_frame s due)

/-- From s to t the counter of I/O die 0 has advanced, not past tick T, and messages may have left. -/
def Ran (T : Nat) (s t : State) : Prop := t = { s with fns := t.fns, out := t.out, iod0 := t.iod0 } ∧ t.iod0 ≤ T

theorem ran_runTo {T due : Nat} (s : State) (hs : s.iod0 ≤ T) (hd : due ≤ T) : Ran T s (runTo s due) := by
  have e := runTo_iod0 s due
  refine ⟨?_, e.le.trans (Nat.max_le.mpr ⟨hs, hd⟩)⟩
  rw [e]
  exact runTo_frame s due

theorem ran_holds {T : Nat} (l : List Nat) (s : State) (hs : s.iod0 ≤ T) (hl : ∀ due ∈ l, due ≤ T) :
    Ran T s (l.foldl runTo s) := by
  induction l generalizing s with
  | nil => exact ⟨rfl, hs⟩
  | cons due l ih =>
    obtain ⟨first, h1⟩ := ran_runTo s hs (hl due (by simp))
    obtain ⟨rest, h2⟩ := ih _ h1 fun d hd => hl d (by simp [hd])
    refine ⟨?_, h2⟩
    rw [List.foldl_cons, rest, first]

/-- The counter of I/O die 0 stands at the tick that it has reached. -/
theorem advanceIod0_spec (s : State) (T : Nat) (h : s.iod0 ≤ T) :
    ∃ fns out, advanceIod0 s T = { s with fns := fns, out := out, iod0 := T } := by
  obtain ⟨holds, hle⟩ := ran_holds (holdEnds s T) s h (holdEnds_le s T)
  rw [advanceIod0_eq]
  generalize (holdEnds s T).foldl runTo s = u at holds hle
  have last := runTo_frame u T
  rw [show Nat.max u.iod0 T = T from Nat.max_eq_right hle] at last
  exact ⟨(runTo u T).fns, (runTo u T).out, last.trans
    (congrArg (fun v : State => { v with fns := (runTo u T).fns, out := (runTo u T).out, iod0 := T }) holds)⟩

/-- Each cluster of a list changes once. -/
theorem pow_foldl_onPow (l : List Nat) (f : Power → Power) (s : State) (hl : l.Nodup) (d : Nat) :
    (l.foldl (fun s c => s.onPow c f) s).pow d = if d ∈ l then f (s.pow d) else s.pow d := by
  induction l generalizing s with
  | nil => simp
  | cons c l ih =>
    obtain ⟨hc, hl⟩ := List.nodup_cons.mp hl
    rw [List.foldl_cons, ih _ hl, pow_onPow]
    by_cases hd : d = c
    · subst hd
      simp [hc]
    · simp [hd]

theorem woken_foldl_onPow (l : List Nat) (f : Power → Power) (s : State) :
    Woken { s with power := (l.foldl (fun s c => s.onPow c f) s).power } (l.foldl (fun s c => s.onPow c f) s) := by
  induction l generalizing s with
  | nil => exact woken_refl s
  | cons c l ih =>
    rw [List.foldl_cons]
    have first := woken_withPower (onPow_spec s c f).2 (l.foldl (fun s c => s.onPow c f) (s.onPow c f)).power
    exact woken_trans first (ih _)

theorem byPoint_nodup (s : State) : (byPoint s).Nodup := by
  refine List.nodup_flatMap.mpr ⟨fun p _ => List.nodup_range.filter _, ?_⟩
  refine (List.nodup_reverse.mpr List.nodup_range).imp fun {p q} hpq => ?_
  intro c hp hq
  simp only [List.mem_filter, Bool.and_eq_true, beq_iff_eq] at hp hq
  exact hpq (hp.2.2.symm.trans hq.2.2)

/-- The next millisecond of I/O die 0's counter. -/
def nextInterval (s : State) : Nat := (s.iod0 / 100000 + 1) * 100000

/-- An interval has ended: the clusters that `on` names have become f of what they were, and the count of low intervals is low. -/
def Limited (s t : State) (on : Nat → Prop) (f : Power → Power) (low : Nat) : Prop :=
  (∀ d, (on d → t.pow d = f (s.pow d)) ∧ (¬ on d → t.pow d = s.pow d)) ∧ t.iod0 = nextInterval s ∧
  Woken { s with power := t.power, iod0 := t.iod0, lowIntervals := low, fns := t.fns, out := t.out } t

/-- The clusters of a list change, in the state that the counter has reached. -/
theorem limited_foldl (s : State) (fns : Tbl Fn) (out : List Out) (l : List Nat) (hl : l.Nodup) (f : Power → Power) (low : Nat) :
    Limited s (l.foldl (fun s c => s.onPow c f)
      { s with fns := fns, out := out, iod0 := nextInterval s, lowIntervals := low }) (· ∈ l) f low := by
  have woken := woken_foldl_onPow l f { s with fns := fns, out := out, iod0 := nextInterval s, lowIntervals := low }
  have pows := pow_foldl_onPow l f { s with fns := fns, out := out, iod0 := nextInterval s, lowIntervals := low } hl
  have hi := congrArg State.iod0 woken.device
  have hf := congrArg State.fns woken.device
  have ho := congrArg State.out woken.device
  refine ⟨fun d => ⟨fun h => (pows d).trans (if_pos h), fun h => (pows d).trans (if_neg h)⟩, hi, ?_⟩
  rw [hi, hf, ho]
  exact woken

theorem nextInterval_reached (s : State) : ∃ fns out,
    advanceIod0 s (nextInterval s) = { s with fns := fns, out := out, iod0 := nextInterval s } :=
  advanceIod0_spec s _ (by unfold nextInterval; omega)

/-- Above 2,800 W the ten clusters with the highest points come down. -/
theorem limiter_lowers (s : State) (h : 2800 < s.arg 0) : Answers .powerLimiterInterval s fun t =>
    Limited s t (· ∈ (byPoint s).take 10) (fun p => limited { p with plim := p.limit - 1, pwrlim := true }) 0 := by
  obtain ⟨fns, out, e⟩ := nextInterval_reached s
  refine ⟨_, congrArg Host.Outcome.next (if_pos h), ?_⟩
  rw [show (s.iod0 / 100000 + 1) * 100000 = nextInterval s from rfl, e]
  exact limited_foldl s fns out ((byPoint s).take 10) ((byPoint_nodup s).sublist (List.take_sublist _ _)) _ 0

/-- The third interval in a row below 2,660 W raises what stands below 7. -/
theorem limiter_raises (s : State) (h : s.arg 0 < 2660) (hn : 2 ≤ s.lowIntervals) : Answers .powerLimiterInterval s fun t =>
    Limited s t (fun d => d < 80 ∧ bit s.ready.clu d = true ∧ (s.pow d).limit < 7)
      (fun p => limited { p with plim := Nat.min 7 (p.plim + 1) }) 0 := by
  obtain ⟨fns, out, e⟩ := nextInterval_reached s
  refine ⟨_, congrArg Host.Outcome.next ((if_neg (by omega)).trans (if_pos h)), ?_⟩
  rw [show (s.iod0 / 100000 + 1) * 100000 = nextInterval s from rfl, e, if_pos hn]
  have acts := limited_foldl s fns out
    ((List.range 80).filter fun c => bit s.ready.clu c && decide ((s.pow c).limit < 7))
    (List.nodup_range.filter _) (fun p => limited { p with plim := Nat.min 7 (p.plim + 1) }) 0
  simp only [List.mem_filter, List.mem_range, Bool.and_eq_true, decide_eq_true_eq] at acts
  exact acts

/-- The first two of them are counted. -/
theorem limiter_counts (s : State) (h : s.arg 0 < 2660) (hn : s.lowIntervals < 2) :
    Answers .powerLimiterInterval s fun t => Limited s t (fun _ => False) id (s.lowIntervals + 1) := by
  obtain ⟨fns, out, e⟩ := nextInterval_reached s
  refine ⟨_, congrArg Host.Outcome.next ((if_neg (by omega)).trans (if_pos h)), ?_⟩
  rw [show (s.iod0 / 100000 + 1) * 100000 = nextInterval s from rfl, e, if_neg (Nat.not_le.mpr hn)]
  simpa using limited_foldl s fns out [] List.nodup_nil id (s.lowIntervals + 1)

/-- Between the bounds the count starts afresh. -/
theorem limiter_rests (s : State) (h : 2660 ≤ s.arg 0) (h' : s.arg 0 ≤ 2800) :
    Answers .powerLimiterInterval s fun t => Limited s t (fun _ => False) id 0 := by
  obtain ⟨fns, out, e⟩ := nextInterval_reached s
  refine ⟨_, congrArg Host.Outcome.next ((if_neg (by omega)).trans (if_neg (by omega))), ?_⟩
  rw [show (s.iod0 / 100000 + 1) * 100000 = nextInterval s from rfl, e]
  simpa using limited_foldl s fns out [] List.nodup_nil id 0

/-! ## Monitor blocks (02 R41 to R43) -/

theorem modMonit_spec (s : State) (b : Nat) (f : Monit → Monit) :
    s.modMonit b f = { s with monits := (s.modMonit b f).monits } ∧ OnlyAt s.monit (s.modMonit b f).monit b (f (s.monit b)) :=
  ⟨rfl, State.monit_modMonit s b f⟩

theorem satInc_eq_min (w v : Nat) : satInc w v = Nat.min (2 ^ w - 1) (v + 1) := by
  unfold satInc
  have : 0 < 2 ^ w := Nat.pow_pos (by decide)
  show _ = min _ _
  split
  · omega
  · omega

theorem binOf_eq (edges : Tbl Nat) (x i : Nat) (hi : i ≤ 15) (hx : i < 15 → x < tget 0 edges i)
    (hj : ∀ j, j < i → tget 0 edges j ≤ x) : binOf edges x = i := by
  unfold binOf
  obtain h | rfl : i < 15 ∨ i = 15 := by omega
  · have found : (List.range 15).find? (fun i => decide (x < tget 0 edges i)) = some i := by
      rw [List.find?_range_eq_some]
      refine ⟨decide_eq_true (hx h), List.mem_range.mpr h, fun j hji => ?_⟩
      simpa using hj j hji
    rw [found]
    rfl
  · have missing : (List.range 15).find? (fun i => decide (x < tget 0 edges i)) = none := by
      rw [List.find?_range_eq_none]
      intro j hji
      simpa using hj j hji
    rw [missing]
    rfl

/-- The block captures: it is enabled and not frozen, and its source is present where it stands. -/
def Monit.On (m : Monit) (b : Nat) : Prop :=
  m.en = true ∧ m.freeze = false ∧ (if b < 160 then 1 ≤ m.src ∧ m.src ≤ 9 else 0x20 ≤ m.src ∧ m.src ≤ 0x22)

theorem srcPresent_iff (b v : Nat) :
    srcPresent b v = true ↔ if b < 160 then 1 ≤ v ∧ v ≤ 9 else 0x20 ≤ v ∧ v ≤ 0x22 := by
  unfold srcPresent
  split
  · simp
  · simp

theorem levelSrc_iff (v : Nat) : levelSrc v = true ↔ 5 ≤ v ∧ v ≤ 9 := by simp [levelSrc]

/-- The value x in bin i of the block (R42). -/
def Monit.taken (m : Monit) (x i : Nat) : Monit :=
  { m with
    min := Nat.min m.min x, max := Nat.max m.max x, count := Nat.min (2 ^ 64 - 1) (m.count + 1)
    sum := Nat.min (2 ^ 64 - 1) (m.sum + x), bins := tset i (Nat.min (2 ^ 32 - 1) (tget 0 m.bins i + 1)) m.bins }

/-- The lowest bin whose edge lies above x, or the last. -/
def Monit.Bin (m : Monit) (x i : Nat) : Prop :=
  i ≤ 15 ∧ (i < 15 → x < tget 0 m.edges i) ∧ ∀ j, j < i → tget 0 m.edges j ≤ x

theorem capture_takes (m : Monit) (b x i : Nat) (on : m.On b) (bin : m.Bin (x % 2 ^ 32) i) :
    m.capture b x = m.taken (x % 2 ^ 32) i := by
  obtain ⟨en, free, src⟩ := on
  obtain ⟨hi, hx, hj⟩ := bin
  unfold Monit.capture
  rw [if_neg (by simp [en, free, (srcPresent_iff b m.src).mpr src])]
  dsimp only
  rw [binOf_eq m.edges (x % 2 ^ 32) i hi hx hj, satInc_eq_min, satInc_eq_min]
  rfl

theorem capture_off (m : Monit) (b x : Nat) (off : ¬ m.On b) : m.capture b x = m := by
  unfold Monit.capture
  rw [if_pos]
  rw [Monit.On, ← srcPresent_iff] at off
  by_contra h
  simp only [Bool.or_eq_true, Bool.not_eq_true', not_or, Bool.not_eq_false, Bool.not_eq_true] at h
  exact off ⟨h.1.1, h.1.2, h.2⟩

theorem monitorCapture_takes (s : State) (i : Nat) (on : (s.monit (s.arg 0)).On (s.arg 0))
    (latency : ¬ (5 ≤ (s.monit (s.arg 0)).src ∧ (s.monit (s.arg 0)).src ≤ 9))
    (bin : (s.monit (s.arg 0)).Bin (s.arg 1 % 2 ^ 32) i) : Answers .monitorCapture s fun t =>
      t = { s with monits := t.monits } ∧
      OnlyAt s.monit t.monit (s.arg 0) ((s.monit (s.arg 0)).taken (s.arg 1 % 2 ^ 32) i) := by
  have spec := modMonit_spec s (s.arg 0) fun m => if levelSrc m.src then m else m.capture (s.arg 0) (s.arg 1)
  rw [if_neg (by rwa [levelSrc_iff]), capture_takes _ _ _ i on bin] at spec
  exact ⟨_, rfl, spec⟩

theorem monitorCapture_ignores (s : State)
    (h : ¬ (s.monit (s.arg 0)).On (s.arg 0) ∨ (5 ≤ (s.monit (s.arg 0)).src ∧ (s.monit (s.arg 0)).src ≤ 9)) :
    Answers .monitorCapture s fun t =>
      t = { s with monits := t.monits } ∧ OnlyAt s.monit t.monit (s.arg 0) (s.monit (s.arg 0)) := by
  have spec := modMonit_spec s (s.arg 0) fun m => if levelSrc m.src then m else m.capture (s.arg 0) (s.arg 1)
  have same : (if levelSrc (s.monit (s.arg 0)).src then s.monit (s.arg 0)
      else (s.monit (s.arg 0)).capture (s.arg 0) (s.arg 1)) = s.monit (s.arg 0) := by
    obtain off | level := h
    · rw [capture_off _ _ _ off, ite_self]
    · exact if_pos ((levelSrc_iff _).mpr level)
  rw [same] at spec
  exact ⟨_, rfl, spec⟩

/-! ### Level sources (02 R43) -/

/-- A strand's place and its queues are what an occupancy counts, and no waking changes them. -/
theorem occupancy_onPow (s : State) (c d : Nat) (f : Power → Power) (vm : Bool) :
    occupancy (s.onPow c f) d vm = occupancy s d vm := by
  simp only [occupancy, State.onPow, wakePage, touchLines, List.foldl_map]
  rfl

/-- From s to t time has passed for cluster c in which its blocks had nothing to sample. -/
structure Quiet (c : Nat) (s t : State) : Prop where
  powers    : ∀ d, d ≠ c → t.pow d = s.pow d
  monits    : t.monits = s.monits
  ev        : t.ev = s.ev
  occupancy : ∀ vm, occupancy t c vm = occupancy s c vm

theorem Quiet.trans {c : Nat} {s t u : State} (h : Quiet c s t) (g : Quiet c t u) : Quiet c s u where
  powers := fun d hd => (g.powers d hd).trans (h.powers d hd)
  monits := g.monits.trans h.monits
  ev := g.ev.trans h.ev
  occupancy := fun vm => (g.occupancy vm).trans (h.occupancy vm)

theorem Quiet.monit {c : Nat} {s t : State} (h : Quiet c s t) (b : Nat) : t.monit b = s.monit b := by
  rw [State.monit, h.monits]
  rfl

theorem quiet_onPow (s : State) (c : Nat) (f : Power → Power) : Quiet c s (s.onPow c f) where
  powers := fun d hd => (pow_onPow s c f d).trans (if_neg hd)
  monits := rfl
  ev := rfl
  occupancy := occupancy_onPow s c c f

/-- Where both blocks have sampled up to a beat, the counter moves alone. -/
theorem advanceTo_sampled {s : State} {c upto : Nat} (t : Word) (h : ∀ o, o / 2 = c → upto ≤ (s.monit o).beat) :
    advanceTo s c t upto = if t ≤ (s.pow c).icount then s else s.reach c t (s.pow c).winStart := by
  split
  case isTrue hp => exact advanceTo_passed s c t upto hp
  case isFalse hp => rw [advanceTo_reaches s c t upto hp, catchUp_both_done h]

theorem quiet_advanceTo {s : State} {c upto : Nat} (t : Word) (h : ∀ o, o / 2 = c → upto ≤ (s.monit o).beat) :
    Quiet c s (advanceTo s c t upto) := by
  have powers := (passed_advanceTo s c t upto).powers
  rw [advanceTo_sampled t h] at powers ⊢
  split
  · exact ⟨fun _ _ => rfl, rfl, rfl, fun _ => rfl⟩
  · exact ⟨fun d hd => (pow_reach s c t _ d).trans (if_neg hd), rfl, rfl, fun _ => rfl⟩

theorem quiet_endPhase {s : State} {c : Nat} (h : ∀ o, o / 2 = c → (s.pow c).ends.toNat / 10 ≤ (s.monit o).beat) :
    Quiet c s (endPhase s c) := by
  have tick : Quiet c s (s.tick c (s.pow c).ends) := quiet_advanceTo _ h
  by_cases hp : (s.pow c).phase = 2
  · rw [endPhase_lock s c hp]
    have draw : Quiet c (s.tick c (s.pow c).ends)
        { s.tick c (s.pow c).ends with fresh := (s.tick c (s.pow c).ends).fresh + 1 } :=
      ⟨fun _ _ => rfl, rfl, rfl, fun _ => rfl⟩
    exact (tick.trans draw).trans (quiet_onPow _ c _)
  · rw [endPhase_ramp s c hp]
    exact tick.trans (quiet_onPow _ c _)

/-- Phases that end before the next beat leave the blocks as they are. -/
theorem quiet_settleTo {c m : Nat} {t : Word} (ht : t.toNat / 10 ≤ m) (n : Nat) (s : State)
    (h : ∀ o, o / 2 = c → m ≤ (s.monit o).beat) : Quiet c s (settleTo c (fun _ => t) n s) := by
  induction n generalizing s with
  | zero => exact ⟨fun _ _ => rfl, rfl, rfl, fun _ => rfl⟩
  | succ n ih =>
    by_cases hp : (s.pow c).phase ≠ 0 ∧ (s.pow c).ends ≤ t
    · rw [settleTo_ends n hp.1 hp.2]
      have le : (s.pow c).ends.toNat ≤ t.toNat := BitVec.le_def.mp hp.2
      have first : Quiet c s (endPhase s c) := quiet_endPhase fun o ho => by
        have := h o ho
        omega
      exact first.trans (ih _ fun o ho => by rw [first.monit]; exact h o ho)
    · rw [settleTo_rests n (by tauto)]
      exact ⟨fun _ _ => rfl, rfl, rfl, fun _ => rfl⟩

/-- The tick before beat j + 1 lies in beat j. -/
theorem beforeBeat_div (j : Nat) : (BitVec.ofNat 64 (10 * (j + 1) - 1)).toNat / 10 ≤ j := by
  have := Nat.mod_le (10 * (j + 1) - 1) (2 ^ 64)
  rw [BitVec.toNat_ofNat]
  omega

/-- A tick leaves the change in progress, and so the voltage at every tick. -/
theorem ticked_voltAt {p x : Power} {at' : Word} (h : Ticked p at' x) (t : Word) : x.voltAt t = p.voltAt t := by
  rw [ticked_frame h]
  rfl

theorem ticked_tempC {p x : Power} {at' : Word} (h : Ticked p at' x) : x.tempC = p.tempC := by
  rw [ticked_frame h]

theorem ticked_icount {p x : Power} {at' : Word} (h : Ticked p at' x) :
    x.icount = if at' ≤ p.icount then p.icount else at' := by
  obtain hx | ⟨n, lt, -, hx⟩ := h
  · rw [hx]
    split <;> rfl
  · rw [hx, if_neg (BitVec.not_le.mpr lt)]

theorem Passed.device_modMonit {c : Nat} {s t : State} (h : Passed c s t) (b : Nat) (f : Monit → Monit) :
    t.modMonit b f = { s with
      monits := (t.modMonit b f).monits, power := (t.modMonit b f).power, fresh := (t.modMonit b f).fresh } :=
  congrArg (fun u : State => { u with monits := (t.modMonit b f).monits }) h.device

/-- What a level source of cluster c presents at a tick: s0 is the device then, v the occupancy of a FIFO. -/
def presented (s s0 : State) (c src v : Nat) (now : Word) : Nat :=
  match src with
  | 5 => occupancy s c false
  | 6 => occupancy s c true
  | 7 => v
  | 8 => (s0.pow c).voltAt now
  | _ => (s0.pow c).tempC

/-- At its beat the counter presents what the device held just before it. -/
theorem presented_eq {s s0 u : State} {c src j v : Nat} {t : Word} (came : Quiet c s u)
    (ticked : Ticked (s0.pow c) t (u.pow c)) (level : 5 ≤ src ∧ src ≤ 9) :
    (if src = 7 then v else levelAt u c src j) = presented s s0 c src v (BitVec.ofNat 64 (10 * j)) := by
  obtain rfl | rfl | rfl | rfl | rfl : src = 5 ∨ src = 6 ∨ src = 7 ∨ src = 8 ∨ src = 9 := by omega
  · exact came.occupancy false
  · exact came.occupancy true
  · rfl
  · exact ticked_voltAt ticked _
  · exact ticked_tempC ticked

/-- The beat that a level sample takes, and the device just before it. -/
theorem monitorLevelSample_eq {s : State} (hb : s.arg 0 < 160)
    (level : 5 ≤ (s.monit (s.arg 0)).src ∧ (s.monit (s.arg 0)).src ≤ 9)
    (next : (s.pow (s.arg 0 / 2)).icount.toNat / 10 ≤ (s.monit (s.arg 0)).beat + 1) :
    exec .monitorLevelSample s = .next (
      let c := s.arg 0 / 2
      let j := (s.monit (s.arg 0)).beat
      let s0 := settleTo c (fun _ => BitVec.ofNat 64 (10 * (j + 1) - 1)) 8 s
      let u := [2 * c, 2 * c + 1].foldl (catchUp c j) (advanceTo s0 c (BitVec.ofNat 64 (10 * (j + 1))) j)
      u.modMonit (s.arg 0) fun m =>
        { m.capture (s.arg 0) (if m.src = 7 then u.arg 1 else levelAt u c m.src (j + 1)) with beat := j + 1 }) := by
  have beat : Nat.max ((s.monit (s.arg 0)).beat + 1) ((s.pow (s.arg 0 / 2)).icount.toNat / 10) =
      (s.monit (s.arg 0)).beat + 1 := Nat.max_eq_left next
  show execMonitorLevelSample s = _
  unfold execMonitorLevelSample
  dsimp only
  rw [if_pos ⟨hb, (levelSrc_iff _).mpr level⟩, beat, Nat.add_sub_cancel]

/-- A level sample changes its block alone, to what a capture of the presented value makes of it, and the counter comes to
the beat. -/
theorem monitorLevelSample_spec {s : State} (hb : s.arg 0 < 160)
    (level : 5 ≤ (s.monit (s.arg 0)).src ∧ (s.monit (s.arg 0)).src ≤ 9)
    (next : (s.pow (s.arg 0 / 2)).icount.toNat / 10 ≤ (s.monit (s.arg 0)).beat + 1)
    (both : ∀ o, o / 2 = s.arg 0 / 2 → (s.monit (s.arg 0)).beat ≤ (s.monit o).beat) :
    let c := s.arg 0 / 2
    let m := s.monit (s.arg 0)
    let now := BitVec.ofNat 64 (10 * (m.beat + 1))
    let s0 := settleTo c (fun _ => BitVec.ofNat 64 (10 * (m.beat + 1) - 1)) 8 s
    Answers .monitorLevelSample s fun t =>
      OnlyAt s.monit t.monit (s.arg 0)
        { m.capture (s.arg 0) (presented s s0 c m.src (s.arg 1) now) with beat := m.beat + 1 } ∧
      t = { s0 with monits := t.monits, power := t.power, fresh := t.fresh } ∧
      (t.pow c).icount = (if now ≤ (s0.pow c).icount then (s0.pow c).icount else now) ∧
      ∀ d, d ≠ c → t.pow d = s.pow d := by
  intro c m now s0
  have settled : Quiet c s s0 := quiet_settleTo (beforeBeat_div m.beat) 8 s both
  have both0 : ∀ o, o / 2 = c → m.beat ≤ (s0.monit o).beat := fun o ho => by
    rw [settled.monit]
    exact both o ho
  have came : Quiet c s (advanceTo s0 c now m.beat) := settled.trans (quiet_advanceTo now both0)
  have ticked := ticked_advanceTo s0 c now m.beat
  have passed := passed_advanceTo s0 c now m.beat
  have bothU : ∀ o, o / 2 = c → m.beat ≤ ((advanceTo s0 c now m.beat).monit o).beat := fun o ho => by
    rw [came.monit]
    exact both o ho
  refine ⟨_, monitorLevelSample_eq hb level next, ?_⟩
  dsimp only
  rw [catchUp_both_done bothU]
  generalize advanceTo s0 c now m.beat = u at came ticked passed ⊢
  have value : (if m.src = 7 then u.arg 1 else levelAt u c m.src (m.beat + 1)) = presented s s0 c m.src (s.arg 1) now := by
    rw [show u.arg 1 = s.arg 1 from congrArg (fun e : Event => e.arg 1) came.ev]
    exact presented_eq came ticked level
  have only := (modMonit_spec u (s.arg 0) fun x =>
    { x.capture (s.arg 0) (if x.src = 7 then u.arg 1 else levelAt u c x.src (m.beat + 1)) with beat := m.beat + 1 }).2
  rw [came.monit, value] at only
  refine ⟨fun o => (only o).trans ?_, passed.device_modMonit _ _, ticked_icount ticked, came.powers⟩
  rw [came.monit o]

/-! ## The events, clause by clause -/

/-- Event i sets the power page that it names to x, and wakes what its line wakes; s0 is what else the device becomes. -/
def SetsPage (i : Instr) (s s0 : State) (x : Power) : Prop :=
  Answers i s fun t => OnlyAt s.pow t.pow (s.arg 0) x ∧ Woken { s0 with power := t.power } t

theorem reqMv_refuses (s : State) (h : s.arg 1 % 1024 < 600) : SetsPage .reqMv s s { s.pow (s.arg 0) with
    reqMv := s.arg 1 % 1024, reqCnt := (s.pow (s.arg 0)).reqCnt + 1, result := 1 } := by
  have spec := onPow_spec s (s.arg 0) fun p => p.request (s.arg 1 % 1024)
  rw [request_low _ _ h] at spec
  exact ⟨_, rfl, spec⟩

theorem reqMv_grants (s : State) (want : Nat) (h : 600 ≤ s.arg 1 % 1024)
    (hs : Nat.min (s.arg 1 % 1024) 950 ≤ 600 + 50 * want)
    (hl : want = 0 ∨ 600 + 50 * (want - 1) < Nat.min (s.arg 1 % 1024) 950) :
    let p := s.pow (s.arg 0)
    let grant := Nat.min want (Nat.min p.cap p.limit)
    SetsPage .reqMv s s (started { p with
      reqMv := s.arg 1 % 1024, reqCnt := p.reqCnt + 1, target := grant, want := grant
      result := if grant < want then 2 else if 950 < s.arg 1 % 1024 then 3 else 0 }) := by
  have spec := onPow_spec s (s.arg 0) fun p => p.request (s.arg 1 % 1024)
  rw [request_grants _ _ want h hs hl] at spec
  exact ⟨_, rfl, spec⟩

theorem ends_ramp (p : Power) (h : p.phase ≠ 2) : p.ends = p.since + BitVec.ofNat 64 p.rampTicks := by
  rw [Power.ends, if_neg h]

theorem ends_lock (p : Power) (h : p.phase = 2) : p.ends = p.since + 100 := by
  rw [Power.ends, if_pos h]

theorem voltageRampDone_raises (s : State) (h : (s.pow (s.arg 0)).phase = 1) :
    let p := s.pow (s.arg 0)
    Answers .voltageRampDone s (Timed s · (s.arg 0) (fun x y =>
      y = { x with voltMv := 600 + 50 * p.goal, since := x.icount, phase := 2 }) (p.since + BitVec.ofNat 64 p.rampTicks)) := by
  intro p
  rw [← ends_ramp p fun h2 => absurd (h.symm.trans h2) (by decide)]
  refine ⟨_, voltageRampDone_ends s (.inl h), timed_ramp s _ _ (by omega) fun x hx => ?_⟩
  have frame := ticked_frame hx
  have goal : x.goal = (s.pow (s.arg 0)).goal := by rw [frame]
  rw [rampDone_raise x (by rw [frame]; exact h), goal]

theorem voltageRampDone_lowers (s : State) (h : (s.pow (s.arg 0)).phase = 3) :
    let p := s.pow (s.arg 0)
    Answers .voltageRampDone s (Timed s · (s.arg 0) (fun x y => y = started
      { x with voltMv := 600 + 50 * p.goal, since := x.icount, phase := 0, changing := false })
      (p.since + BitVec.ofNat 64 p.rampTicks)) := by
  intro p
  rw [← ends_ramp p fun h2 => absurd (h.symm.trans h2) (by decide)]
  refine ⟨_, voltageRampDone_ends s (.inr h), timed_ramp s _ _ (by omega) fun x hx => ?_⟩
  have frame := ticked_frame hx
  have goal : x.goal = (s.pow (s.arg 0)).goal := by rw [frame]
  rw [rampDone_lowering x (by rw [frame]; exact h), goal]

theorem clockLockDone_switches (s : State) (h : (s.pow (s.arg 0)).phase = 2) :
    let p := s.pow (s.arg 0)
    Answers .clockLockDone s (Timed s · (s.arg 0) (fun x y => ∃ w : Word,
      let z := { x with cur := p.goal, stall := w, winSeq := x.winSeq + 1, winStart := x.icount, since := x.icount }
      bits w.toNat 63 52 = (x.winSeq + 1) % 4096 ∧ bit w.toNat 51 = true ∧
      bits w.toNat 9 0 = (x.icount - x.winStart).toNat % 1024 ∧
      y = if p.cur < p.goal then started { z with phase := 0, changing := false } else { z with phase := 3 })
      (p.since + 100)) := by
  intro p
  rw [← ends_lock p h]
  refine ⟨_, clockLockDone_ends s h, timed_lock s _ _ h fun x r hx => ?_⟩
  have frame := ticked_frame hx
  have goal : x.goal = (s.pow (s.arg 0)).goal := by rw [frame]
  have cur : x.cur = (s.pow (s.arg 0)).cur := by rw [frame]
  obtain ⟨seq, short, -, -, -, win⟩ := stallWord_fields (x.winSeq + 1) true r ((x.icount - x.winStart).toNat)
  exact ⟨_, seq, short, win, by rw [lockDone_eq, goal, cur]⟩

theorem voltageRampDone_idle (s : State) (h1 : (s.pow (s.arg 0)).phase ≠ 1) (h3 : (s.pow (s.arg 0)).phase ≠ 3) :
    Answers .voltageRampDone s (· = s) := ⟨_, congrArg Host.Outcome.next (if_neg (not_or.mpr ⟨h1, h3⟩)), rfl⟩

theorem clockLockDone_idle (s : State) (h : (s.pow (s.arg 0)).phase ≠ 2) :
    Answers .clockLockDone s (· = s) := ⟨_, congrArg Host.Outcome.next (if_neg h), rfl⟩

/-- A window that closes after phases have ended on the way ends 1,000 ticks after its own beginning, and leaves the point. -/
theorem stallWindowClose_later (s s0 : State) (h : settleTo (s.arg 0) (fun p => p.winStart + 1000) 8 s = s0) :
    ∃ t, exec .stallWindowClose s = .next t ∧
      (t.pow (s.arg 0)).winStart = (s0.pow (s.arg 0)).winStart + 1000 ∧
      (t.pow (s.arg 0)).cur = (s0.pow (s.arg 0)).cur ∧ (t.pow (s.arg 0)).phase = (s0.pow (s.arg 0)).phase := by
  have cur : ((s0.tick (s.arg 0) ((s0.pow (s.arg 0)).winStart + 1000)).pow (s.arg 0)).cur = (s0.pow (s.arg 0)).cur := by
    rw [ticked_frame (ticked_tick s0 (s.arg 0) ((s0.pow (s.arg 0)).winStart + 1000))]
  refine ⟨_, stallWindowClose_eq h, ?_⟩
  dsimp only
  rw [pow_onPow, if_pos rfl]
  exact ⟨rfl, (Power.closeWindow_cur ..).trans cur, (Power.closeWindow_phase ..).trans (phase_tick s0 _ _)⟩

theorem stallWindowClose_samples (s : State) (h : settleTo (s.arg 0) (fun p => p.winStart + 1000) 8 s = s) :
    let p := s.pow (s.arg 0)
    let now := p.winStart + 1000
    Answers .stallWindowClose s (Timed s · (s.arg 0) (fun x y => ∃ w : Word,
      bits w.toNat 63 52 = (p.winSeq + 1) % 4096 ∧ bit w.toNat 51 = false ∧ bits w.toNat 39 30 = s.arg 1 % 1024 ∧
      bits w.toNat 29 20 = s.arg 2 % 1024 ∧ bits w.toNat 19 10 = s.arg 3 % 1024 ∧ bits w.toNat 9 0 = 1000 ∧
      y = { x with stall := w, winSeq := p.winSeq + 1, winStart := now }) now) := by
  intro p now
  have ticked := ticked_tick s (s.arg 0) now
  refine ⟨_, stallWindowClose_eq h, timed_onPow _ (passed_tick s _ now) ticked ?_⟩
  obtain ⟨seq, short, mem, anvil, lane, win⟩ := stallWord_fields (p.winSeq + 1) false s.stallRates 1000
  have hm : s.stallRates / 2 ^ 20 % 1024 = s.arg 1 % 1024 := by unfold State.stallRates; omega
  have ha : s.stallRates / 2 ^ 10 % 1024 = s.arg 2 % 1024 := by unfold State.stallRates; omega
  have hl : s.stallRates % 1024 = s.arg 3 % 1024 := by unfold State.stallRates; omega
  refine ⟨_, seq, short, mem.trans hm, anvil.trans ha, lane.trans hl, win, ?_⟩
  rw [Power.closeWindow, ticked_windowEnd ticked]

theorem thermalHot_reads (s : State) (h : 100 ≤ s.arg 1) (hv : s.arg 1 < 256) :
    let reads := { s.pow (s.arg 0) with tempC := s.arg 1 }
    SetsPage .thermalHot s { s with tripped := s.tripped || decide (115 ≤ s.arg 1) }
      (if bit s.ready.clu (s.arg 0) = true then limited { reads with hot := true, thermal := true } else reads) := by
  have spec := sense_spec s (s.arg 0) (s.arg 1)
  rw [Nat.mod_eq_of_lt hv, react_hot { s.pow (s.arg 0) with tempC := s.arg 1 } h] at spec
  exact ⟨_, congrArg Host.Outcome.next (if_neg (Nat.not_lt.mpr h)), spec⟩

theorem thermalRelease_reads (s : State) (h : s.arg 1 < 95) :
    let p := s.pow (s.arg 0)
    let reads := { p with tempC := s.arg 1 }
    SetsPage .thermalRelease s s
      (if bit s.ready.clu (s.arg 0) = true ∧ p.thermal = true then limited { reads with thermal := false } else reads) := by
  have spec := sense_spec s (s.arg 0) (s.arg 1)
  rw [Nat.mod_eq_of_lt (by omega), react_cool { s.pow (s.arg 0) with tempC := s.arg 1 } h, ← ite_and,
    decide_eq_false (show ¬ 115 ≤ s.arg 1 by omega), Bool.or_false] at spec
  exact ⟨_, congrArg Host.Outcome.next (if_neg (Nat.not_le.mpr h)), spec⟩

/-- A level sample of a block that captures, with the value in bin i. -/
theorem capture_presented (m : Monit) (b x j : Nat) :
    (∀ i, m.On b → m.Bin (x % 2 ^ 32) i → ({ m.capture b x with beat := j } : Monit) = { m.taken (x % 2 ^ 32) i with beat := j }) ∧
    (¬ m.On b → ({ m.capture b x with beat := j } : Monit) = { m with beat := j }) :=
  ⟨fun i on bin => by rw [capture_takes m b x i on bin], fun off => by rw [capture_off m b x off]⟩

/-- Settles O41: each clause is the lemma of its event above. -/
theorem powerAndMonitors : Obligations.PowerAndMonitors := by
  refine ⟨fun s => ⟨?refused, ?granted, ?noRights, ?cap, ?ramp, ?lock, ?noLock, ?rampPhase, ?lockPhase, ?settle,
    ?windowLater, ?window, ?limiter, ?thermal, ?trip, ?flags⟩, fun s => ⟨?clear, ?capture, ?noSample, ?sample⟩⟩
  case refused => exact reqMv_refuses s
  case granted => exact fun want h hs hl => reqMv_grants s want h hs hl
  case noRights => exact fun h => ⟨_, congrArg Host.Outcome.next (if_pos h), rfl⟩
  case cap => exact fun h => ⟨capWrite_waits s h, fun r hr => capWrite_goes s r h hr⟩
  case ramp => exact ⟨voltageRampDone_raises s, voltageRampDone_lowers s, voltageRampDone_idle s⟩
  case lock => exact clockLockDone_switches s
  case noLock => exact clockLockDone_idle s
  case rampPhase => exact fun h => ⟨_, voltageRampDone_ends s h, rfl⟩
  case lockPhase => exact fun h => ⟨_, clockLockDone_ends s h, rfl⟩
  case settle => exact fun u d f n => ⟨settleTo_rests n, settleTo_ends n⟩
  case windowLater => exact fun s0 h _ => stallWindowClose_later s s0 h
  case window => exact stallWindowClose_samples s
  case limiter => exact ⟨limiter_lowers s, limiter_raises s, limiter_counts s, limiter_rests s⟩
  case thermal =>
    exact ⟨thermalHot_reads s, fun h => ⟨_, congrArg Host.Outcome.next (if_pos h), rfl⟩,
      thermalRelease_reads s, fun h => ⟨_, congrArg Host.Outcome.next (if_pos h), rfl⟩⟩
  case trip => exact ⟨_, rfl, rfl⟩
  case flags => exact ⟨_, rfl, rfl, State.pow_modPow s _ _⟩
  case clear => exact ⟨_, rfl, modMonit_spec s _ _⟩
  case capture => exact ⟨fun i on latency bin => monitorCapture_takes s i on latency bin, monitorCapture_ignores s⟩
  case noSample => exact fun h => ⟨_, congrArg Host.Outcome.next (if_neg (by rwa [levelSrc_iff])), rfl⟩
  case sample =>
    intro c p beat now s0 p0 x samples hb level next both
    have sampled := monitorLevelSample_spec hb level next both
    obtain ⟨takes, stays⟩ := capture_presented (s.monit (s.arg 0)) (s.arg 0)
      (presented s s0 c (s.monit (s.arg 0)).src (s.arg 1) now) beat
    refine ⟨fun i on bin => ?_, fun off => ?_⟩
    · dsimp only at sampled
      rw [takes i on bin] at sampled
      exact sampled
    · dsimp only at sampled
      rw [stays off] at sampled
      exact sampled
end Sys2Proof.Machine

section

/-!
PROOFS: memory stays in its canonical form. Most functions of the model leave `mem` as it is, and say so by an equation
`f_mem`; the few that write cells keep the form, which `wf_f` states of their result, and of every outcome that a
function with several outcomes may have (the `Wf` predicates below). The step is then one case per operation.
-/

namespace Sys2Proof.Machine

/-! ### Functions that leave memory as it is -/

@[simp] theorem ite_mem (c : Prop) [Decidable c] (s t : State) :
    (if c then s else t).mem = if c then s.mem else t.mem := apply_ite State.mem c s t

@[simp] theorem foldl_mem {α : Type} (f : State → α → State) (h : ∀ s x, (f s x).mem = s.mem) (l : List α) (s : State)
    :
    (l.foldl f s).mem = s.mem := by
  induction l generalizing s with
  | nil => rfl
  | cons x l ih => rw [List.foldl_cons, ih, h]

@[simp] theorem State.modCtx_mem (s : State) (w k : Nat) (f : Ctx → Ctx) : (State.modCtx s w k f).mem = s.mem :=
  (rfl)

@[simp] theorem State.modStrand_mem (s : State) (w k : Nat) (f : Strand → Strand) :
    (State.modStrand s w k f).mem = s.mem := (rfl)

@[simp] theorem State.modEngine_mem (s : State) (w c : Nat) (f : Engine → Engine) :
    (State.modEngine s w c f).mem = s.mem := (rfl)

@[simp] theorem State.modFn_mem (s : State) (n : Nat) (f : Fn → Fn) : (State.modFn s n f).mem = s.mem := (rfl)

@[simp] theorem State.modPow_mem (s : State) (c : Nat) (f : Power → Power) : (State.modPow s c f).mem = s.mem :=
  (rfl)

@[simp] theorem State.modMonit_mem (s : State) (b : Nat) (f : Monit → Monit) : (State.modMonit s b f).mem = s.mem :=
  (rfl)

@[simp] theorem State.modPeer_mem (s : State) (n : Nat) (f : Peer → Peer) : (State.modPeer s n f).mem = s.mem :=
  (rfl)

@[simp] theorem State.modMlink_mem (s : State) (n : Nat) (f : Link → Link) : (State.modMlink s n f).mem = s.mem :=
  (rfl)

@[simp] theorem State.modPlink_mem (s : State) (n : Nat) (f : Link → Link) : (State.modPlink s n f).mem = s.mem :=
  (rfl)

@[simp] theorem State.drain_mem (s : State) : (State.drain s).mem = s.mem := by
  unfold State.drain
  split <;> simp

theorem State.serve_mem (s : State) (f : State → State) (h : ∀ u, (f u).mem = u.mem) : (s.serve f).mem = s.mem := by
  unfold State.serve
  split
  · rfl
  · split
    · exact h _
    · split
      · rw [State.drain_mem, h]
      · rfl

@[simp] theorem State.enqueue_mem (s : State) (w k : Nat) : (State.enqueue s w k).mem = s.mem := by
  simp [State.enqueue]

@[simp] theorem State.dequeue_mem (s : State) (w k : Nat) : (State.dequeue s w k).mem = s.mem := by
  simp [State.dequeue]

@[simp] theorem State.onStrand_mem (s : State) (f : Strand → Strand) : (State.onStrand s f).mem = s.mem := (rfl)
@[simp] theorem State.wx_mem (s : State) (n : Nat) (v : Word) : (State.wx s n v).mem = s.mem := (rfl)

@[simp] theorem State.progress_mem (s : State) (w l : Nat) : (State.progress s w l).mem = s.mem := by
  simp [State.progress]

@[simp] theorem State.retire_mem (s : State) (pc : Word) : (State.retire s pc).mem = s.mem := by
  simp [State.retire]

@[simp] theorem State.advance_mem (s : State) : (State.advance s).mem = s.mem := by simp [State.advance]
@[simp] theorem touchLines_mem (s : State) (l0 l1 world : Nat) : (touchLines s l0 l1 world).mem = s.mem := (rfl)
@[simp] theorem touchImage_mem (s : State) (w l : Nat) : (touchImage s w l).mem = s.mem := (rfl)
@[simp] theorem wakePage_mem (s : State) (w kind idx off : Nat) : (wakePage s w kind idx off).mem = s.mem := (rfl)

@[simp] theorem markDirty_mem (s : State) (pa n : Nat) : (markDirty s pa n).mem = s.mem := by
  unfold markDirty
  split <;> rfl

@[simp] theorem retag_mem (s : State) (slot pa n : Nat) : (retag s slot pa n).mem = s.mem := by simp [retag]

@[simp] theorem State.setCtxState_mem (s : State) (w k : Nat) (st : CtxState) :
    (State.setCtxState s w k st).mem = s.mem := by simp [State.setCtxState]

@[simp] theorem takeFault_mem (s : State) (w k : Nat) (f : FaultRec) : (takeFault s w k f).mem = s.mem := by
  simp [takeFault]

@[simp] theorem scalarFault_mem (s : State) (c : Cause) (faddr : Nat) : (scalarFault s c faddr).mem = s.mem := by
  simp [scalarFault]

@[simp] theorem State.emit_mem (s : State) (o : Out) : (State.emit s o).mem = s.mem := (rfl)

@[simp] theorem State.push_mem (s : State) (i : Instr) (args : List Nat) : (State.push s i args).mem = s.mem :=
  (rfl)

@[simp] theorem State.readyEvent_mem (s : State) (f : Ready → Ready) : (State.readyEvent s f).mem = s.mem := by
  simp [State.readyEvent]

@[simp] theorem hostRequest_mem (s : State) (r : HReq) (msg : Tlp → Nat → Out) : (hostRequest s r msg).mem = s.mem :=
  (rfl)

@[simp] theorem hostAsk_mem (s : State) (w k op a len : Nat) (msg : Tlp → Nat → Out) :
    (hostAsk s w k op a len msg).mem = s.mem := (rfl)

@[simp] theorem pumpPeer_mem (s : State) (n : Nat) : (pumpPeer s n).mem = s.mem := by simp [pumpPeer]

@[simp] theorem sendPeer_mem (s : State) (n : Nat) (m : PeerMsg) : (sendPeer s n m).mem = s.mem := by
  simp [sendPeer]

@[simp] theorem remoteStore_mem (s : State) (w k id off size v : Nat) :
    (remoteStore s w k id off size v).mem = s.mem := by
  unfold remoteStore
  split <;> simp

@[simp] theorem compromise_mem (s : State) (w : Nat) : (compromise s w).mem = s.mem := (rfl)
@[simp] theorem park_mem (s : State) (e : Event) : (park s e).mem = s.mem := (rfl)
@[simp] theorem wakeResuming_mem (s : State) (w k : Nat) : (wakeResuming s w k).mem = s.mem := (rfl)

@[simp] theorem releaseAlloc_mem (s : State) (w core off size : Nat) :
    (releaseAlloc s w core off size).mem = s.mem := by
  simp [releaseAlloc]

@[simp] theorem launchEnd_mem (s : State) (w l : Nat) : (launchEnd s w l).mem = s.mem := by simp [launchEnd]
@[simp] theorem gangEnd_mem (s : State) (w l g : Nat) : (gangEnd s w l g).mem = s.mem := by simp [gangEnd]

@[simp] theorem settled_mem (s : State) (w k : Nat) : (settled s w k).mem = s.mem := by
  unfold settled
  dsimp only
  split <;> simp

@[simp] theorem killCtx_mem (s : State) (w k : Nat) : (killCtx s w k).mem = s.mem := by
  simp only [killCtx, launchEnd_mem, gangEnd_mem, settled_mem, State.setCtxState_mem, ite_mem, State.modLaunch_mem,
    State.putCtx_mem, ite_self]

@[simp] theorem stopCtx_mem (s : State) (w k : Nat) : (stopCtx s w k).mem = s.mem := by simp [stopCtx]

@[simp] theorem killAll_mem (s : State) (w l : Nat) (root : Bool) : (killAll s w l root).mem = s.mem := by
  simp [killAll]

@[simp] theorem recordFault_mem (s : State) (w k : Nat) (f : FaultRec) : (recordFault s w k f).mem = s.mem := by
  unfold recordFault
  dsimp only
  split <;> simp

@[simp] theorem leaveRequests_mem (s : State) (w k : Nat) : (leaveRequests s w k).mem = s.mem := (rfl)
@[simp] theorem launchFlights_mem (s : State) (w k : Nat) : (launchFlights s w k).mem = s.mem := (rfl)
@[simp] theorem loadCtx_mem (s : State) (w k : Nat) : (loadCtx s w k).mem = s.mem := by simp [loadCtx]
@[simp] theorem runCtx_mem (s : State) (w k : Nat) : (runCtx s w k).mem = s.mem := by simp [runCtx]
@[simp] theorem cmdResult_mem (s : State) (w k r : Nat) : (cmdResult s w k r).mem = s.mem := (rfl)
@[simp] theorem stopCmd_mem (s : State) (w k : Nat) : (stopCmd s w k).mem = s.mem := by simp [stopCmd]
@[simp] theorem cmdStop_mem (s : State) (w k : Nat) : (cmdStop s w k).mem = s.mem := by simp [cmdStop]
@[simp] theorem cmdRun_mem (s : State) (w k : Nat) : (cmdRun s w k).mem = s.mem := by simp [cmdRun]

@[simp] theorem cmdKill_mem (s : State) (w k : Nat) (root : Bool) : (cmdKill s w k root).mem = s.mem := by
  simp [cmdKill]

@[simp] theorem stopAll_mem (s : State) (w l : Nat) : (stopAll s w l).mem = s.mem := by simp [stopAll]
@[simp] theorem runAll_mem (s : State) (w l : Nat) : (runAll s w l).mem = s.mem := by simp [runAll]

@[simp] theorem killAllCmd_mem (s : State) (w l : Nat) (root : Bool) : (killAllCmd s w l root).mem = s.mem := by
  simp [killAllCmd]

@[simp] theorem savedFieldWrite_mem (s : State) (w k off v : Nat) : (savedFieldWrite s w k off v).mem = s.mem := by
  simp [savedFieldWrite]

@[simp] theorem State.modVec_mem (s : State) (n v : Nat) (f : Vec → Vec) : (State.modVec s n v f).mem = s.mem :=
  (rfl)

@[simp] theorem sendVec_mem (s : State) (n v : Nat) : (sendVec s n v).mem = s.mem := (rfl)
@[simp] theorem checkVec_mem (s : State) (n v : Nat) : (checkVec s n v).mem = s.mem := by simp [checkVec]
@[simp] theorem recordVec_mem (s : State) (n v : Nat) : (recordVec s n v).mem = s.mem := by simp [recordVec]
@[simp] theorem unmaskVec_mem (s : State) (n v : Nat) : (unmaskVec s n v).mem = s.mem := by simp [unmaskVec]
@[simp] theorem checkVecs_mem (s : State) : (checkVecs s).mem = s.mem := by simp [checkVecs]
@[simp] theorem advanceIod0_mem (s : State) (t : Nat) : (advanceIod0 s t).mem = s.mem := by simp [advanceIod0]

@[simp] theorem catchUp_mem (c upto : Nat) (s : State) (b : Nat) : (catchUp c upto s b).mem = s.mem := by
  simp [catchUp]

@[simp] theorem advanceTo_mem (s : State) (c : Nat) (t : Word) (upto : Nat) : (advanceTo s c t upto).mem = s.mem := by
  simp [advanceTo]

@[simp] theorem State.tick_mem (s : State) (c : Nat) (t : Word) : (State.tick s c t).mem = s.mem := by
  simp [State.tick]

@[simp] theorem State.onPow_mem (s : State) (c : Nat) (f : Power → Power) : (State.onPow s c f).mem = s.mem := (rfl)
@[simp] theorem endPhase_mem (s : State) (c : Nat) : (endPhase s c).mem = s.mem := by simp [endPhase]

@[simp] theorem settleTo_mem (c : Nat) (t : Power → Word) (n : Nat) (s : State) : (settleTo c t n s).mem = s.mem := by
  induction n generalizing s with
  | zero => rfl
  | succ n ih =>
    unfold settleTo
    dsimp only
    split
    · rw [ih, endPhase_mem]
    · rfl

@[simp] theorem State.passTo_mem (s : State) (c : Nat) (t : Word) : (State.passTo s c t).mem = s.mem := by
  simp [State.passTo]

@[simp] theorem sense_mem (s : State) (c t : Nat) : (sense s c t).mem = s.mem := by simp [sense]
@[simp] theorem clusterPages_mem (s : State) (c : Nat) : (clusterPages s c).mem = s.mem := (rfl)
@[simp] theorem clearPowerFlags_mem (s : State) (c m : Nat) : (clearPowerFlags s c m).mem = s.mem := (rfl)

@[simp] theorem State.modEdge_mem (s : State) (p : Nat) (f : Edge → Edge) : (State.modEdge s p f).mem = s.mem :=
  (rfl)

@[simp] theorem pumpEdge_mem (f : Nat) (s : State) (p : Nat) : (pumpEdge f s p).mem = s.mem := by
  rw [(advanced_pumpEdge f s p).device]

@[simp] theorem forwardUnit_mem (s : State) (at_ : Nat) (u : EUnit) : (forwardUnit s at_ u).mem = s.mem := by
  unfold forwardUnit
  split <;> simp

@[simp] theorem sendUnit_mem (s : State) (src dst payload : Nat) : (sendUnit s src dst payload).mem = s.mem := by
  simp [sendUnit]

@[simp] theorem State.modFlitLink_mem (s : State) (n : Nat) (f : Link → Link) :
    (State.modFlitLink s n f).mem = s.mem := by simp [State.modFlitLink]

@[simp] theorem pumpLink_mem (s : State) (n : Nat) : (pumpLink s n).mem = s.mem := by simp [pumpLink]

@[simp] theorem deliverRequests_mem (s : State) (n : Nat) (es : List Event) :
    (deliverRequests s n es).mem = s.mem := by
  simp [deliverRequests]

@[simp] theorem parkRequest_mem (s : State) (n : Nat) (e : Event) : (parkRequest s n e).mem = s.mem := (rfl)

@[simp] theorem acceptFlit_mem (s : State) (n : Nat) (f : Flit) : (acceptFlit s n f).mem = s.mem := by
  simp [acceptFlit]

@[simp] theorem wireFlit_mem (s : State) (n noise : Nat) (f : Flit) : (wireFlit s n noise f).mem = s.mem := by
  simp [wireFlit]

@[simp] theorem handSlots_mem (s : State) (n ch : Nat) (ss : List FSlot) : (handSlots s n ch ss).mem = s.mem := by
  simp [handSlots]

@[simp] theorem wakeAll_mem (s : State) : (wakeAll s).mem = s.mem := (rfl)

@[simp] theorem settleRemote_mem (s : State) (r : Remote) (lost : Bool) : (settleRemote s r lost).mem = s.mem := by
  simp [settleRemote]

@[simp] theorem loseRemotes_mem (s : State) (n : Nat) : (loseRemotes s n).mem = s.mem := by simp [loseRemotes]
@[simp] theorem dropInbound_mem (s : State) (n : Nat) (table : Bool) : (dropInbound s n table).mem = s.mem := (rfl)

@[simp] theorem dropHeld_mem (s : State) (h : HeldW) : (dropHeld s h).mem = s.mem := by
  unfold dropHeld
  split <;> simp

@[simp] theorem retrainMem_mem (s : State) (n : Nat) : (retrainMem s n).mem = s.mem := by simp [retrainMem]
@[simp] theorem retrainPeer_mem (s : State) (n : Nat) : (retrainPeer s n).mem = s.mem := by simp [retrainPeer]

@[simp] theorem clearMlinkFail_mem (s : State) (m : Nat) : (clearMlinkFail s m).mem = s.mem := by
  simp [clearMlinkFail]

@[simp] theorem clearPlinkFail_mem (s : State) (m : Nat) : (clearPlinkFail s m).mem = s.mem := by
  simp [clearPlinkFail]

theorem withWal_mem (s : State) (l : List WalRec) : ({ s with wal := l } : State).mem = s.mem := rfl
@[simp] theorem State.log_mem (s : State) (r : WalRec) : (s.log r).mem = s.mem := withWal_mem s _
theorem withCore_mem (s : State) (c : Core) : ({ s with core := c } : State).mem = s.mem := rfl

@[simp] theorem State.beginTxn_mem (s : State) (kind arg : Nat) : (s.beginTxn kind arg).mem = s.mem :=
  (withCore_mem _ _).trans (State.log_mem s _)

@[simp] theorem State.logOpen_mem (s : State) (kind arg : Nat) (f : Nat → WalRec) :
    (s.logOpen kind arg f).mem = s.mem := by
  unfold State.logOpen
  split
  · exact State.log_mem _ _
  · rfl

@[simp] theorem State.logStep_mem (s : State) (kind arg n : Nat) : (State.logStep s kind arg n).mem = s.mem := by
  simp [State.logStep]

@[simp] theorem State.closeTxn_mem (s : State) (kind arg : Nat) : (s.closeTxn kind arg).mem = s.mem := by
  unfold State.closeTxn
  split
  · rw [State.log_mem, State.log_mem]
  · rfl

@[simp] theorem State.endTxn_mem (s : State) (kind arg : Nat) : (State.endTxn s kind arg).mem = s.mem := by
  simp [State.endTxn]

@[simp] theorem State.logOnce_mem (s : State) (kind arg : Nat) (ws : List (Nat × Nat × Nat)) :
    (State.logOnce s kind arg ws).mem = s.mem := by simp [State.logOnce]

@[simp] theorem writeStateWord_mem (s : State) (pa v : Nat) : (writeStateWord s pa v).mem = s.mem := by
  unfold writeStateWord
  split <;> rfl

@[simp] theorem State.logWrite_mem (s : State) (kind arg pa old new : Nat) :
    (State.logWrite s kind arg pa old new).mem = s.mem := by simp [State.logWrite]

@[simp] theorem State.onQueue_mem (s : State) (q : Nat) (f : Queue → Queue) : (State.onQueue s q f).mem = s.mem :=
  (rfl)

@[simp] theorem finishChild_mem (s : State) (w q count word : Nat) : (finishChild s w q count word).mem = s.mem := by
  refine foldl_mem _ (fun u k => ?_) _ _
  dsimp only
  split
  · split
    · split <;> rfl
    · rfl
  · rfl

@[simp] theorem discardPacket_mem (s : State) (q : Nat) (spawn : Option Nat) :
    (discardPacket s q spawn).mem = s.mem := by
  unfold discardPacket
  split <;> simp

@[simp] theorem kick_mem (s : State) (q : Nat) : (kick s q).mem = s.mem := by
  unfold kick
  dsimp only
  repeat' split
  all_goals rfl

@[simp] theorem nextPacket_mem (s : State) (q : Nat) : (nextPacket s q).mem = s.mem := by simp [nextPacket]
@[simp] theorem ringGot_mem (s : State) (q : Nat) (ds : List Word) : (ringGot s q ds).mem = s.mem := (rfl)
@[simp] theorem ringFault_mem (s : State) (q : Nat) : (ringFault s q).mem = s.mem := (rfl)

@[simp] theorem ringData_mem (s : State) (q id : Nat) (data : Option (List Byte)) :
    (ringData s q id data).mem = s.mem := by
  unfold ringData
  repeat' split
  all_goals simp

@[simp] theorem putInterrupt_mem (s : State) (q : Nat) (intr : Bool) : (putInterrupt s q intr).mem = s.mem := by
  unfold putInterrupt
  split
  · simp
  · rfl

@[simp] theorem kickWaiting_mem (s : State) (w : Nat) : (kickWaiting s w).mem = s.mem := by simp [kickWaiting]

@[simp] theorem launchFreed_mem (s : State) (w l word : Nat) : (launchFreed s w l word).mem = s.mem := by
  unfold launchFreed
  dsimp only
  split <;> simp

@[simp] theorem launchClosed_mem (s : State) (w l : Nat) : (launchClosed s w l).mem = s.mem := (rfl)
@[simp] theorem killCarried_mem (s : State) (q : Nat) : (killCarried s q).mem = s.mem := by simp [killCarried]

@[simp] theorem dropPackets_mem (s : State) (q : Nat) : (dropPackets s q).mem = s.mem := by
  unfold dropPackets
  dsimp only
  split <;> simp

@[simp] theorem stopInterface_mem (s : State) (q : Nat) : (stopInterface s q).mem = s.mem := by
  simp [stopInterface]

@[simp] theorem interfaceError_mem (s : State) (q : Nat) : (interfaceError s q).mem = s.mem := by
  unfold interfaceError
  dsimp only
  split <;> simp

@[simp] theorem toError_mem (s : State) (q : Nat) : (toError s q).mem = s.mem := by simp [toError]

@[simp] theorem ownerWrite_mem (s : State) (q v who : Nat) : (ownerWrite s q v who).mem = s.mem := by
  simp [ownerWrite]

@[simp] theorem lockedWrite_mem (s : State) (q off v who : Nat) : (lockedWrite s q off v who).mem = s.mem := by
  simp [lockedWrite]

@[simp] theorem configWrite_mem (s : State) (q off v who : Nat) : (configWrite s q off v who).mem = s.mem := by
  simp [configWrite]

@[simp] theorem qcmdResult_mem (s : State) (q r : Nat) : (qcmdResult s q r).mem = s.mem := (rfl)

@[simp] theorem interfaceTo_mem (s : State) (kind q n : Nat) : (interfaceTo s kind q n).mem = s.mem := by
  simp only [interfaceTo, State.onQueue_mem, State.logOnce_mem]

@[simp] theorem qcmd_mem (s : State) (q v who : Nat) : (qcmd s q v who).mem = s.mem := by simp [qcmd]

@[simp] theorem tailStore_mem (s : State) (q v who : Nat) : (tailStore s q v who).mem = s.mem := by
  simp [tailStore]

@[simp] theorem ringerrClear_mem (s : State) (q who : Nat) : (ringerrClear s q who).mem = s.mem := by
  simp [ringerrClear]

@[simp] theorem appendInline_mem (s : State) (q : Nat) (dws : List Word) (secure : Bool) (spawn : Option Nat) :
    (appendInline s q dws secure spawn).mem = s.mem := by simp [appendInline]

@[simp] theorem launchWrite_mem (s : State) (fn off whole secure : Nat) (dws : List Nat) :
    (launchWrite s fn off whole secure dws).mem = s.mem := by simp [launchWrite]

@[simp] theorem clearDirty_mem (s : State) (r : Nat × Nat) : (clearDirty s r).mem = s.mem := (rfl)
@[simp] theorem clearRecords_mem (s : State) (w : Nat) : (clearRecords s w).mem = s.mem := (rfl)

@[simp] theorem wcmdResult_mem (s : State) (w r : Nat) : (wcmdResult s w r).mem = s.mem := by
  unfold wcmdResult
  dsimp only
  rw [wakePage_mem, State.modWorld_mem, State.logOnce_mem]

@[simp] theorem State.logStat_mem (s : State) (kind w r : Nat) : (State.logStat s kind w r).mem = s.mem := by
  simp [State.logStat]

@[simp] theorem wcmdCount_mem (s : State) (w : Nat) : (wcmdCount s w).mem = s.mem := (rfl)
@[simp] theorem beginCreate_mem (s : State) (w : Nat) : (beginCreate s w).mem = s.mem := by simp [beginCreate]
@[simp] theorem kickCkpt_mem (s : State) : (kickCkpt s).mem = s.mem := (rfl)

@[simp] theorem resetFunction_mem (s : State) (w : Nat) : (resetFunction s w).mem = s.mem := by
  simp [resetFunction]

@[simp] theorem logUnlock_mem (s : State) (kind w : Nat) : (logUnlock s kind w).mem = s.mem := by
  simp [logUnlock]

@[simp] theorem resetFree_mem (s : State) (w : Nat) : (resetFree s w).mem = s.mem := by simp [resetFree]
@[simp] theorem resetConfig_mem (s : State) : (resetConfig s).mem = s.mem := (rfl)
@[simp] theorem inworldWrite_mem (s : State) (n v : Nat) : (inworldWrite s n v).mem = s.mem := (rfl)

@[simp] theorem remoteAnswer_mem (s : State) (n id : Nat) (lost : Bool) : (remoteAnswer s n id lost).mem = s.mem := by
  unfold remoteAnswer
  split <;> simp

@[simp] theorem State.answer_mem (s : State) (mb code : Nat) (data : List Nat) :
    (State.answer s mb code data).mem = s.mem := (rfl)

theorem afterStep_mem (s : State) (mb n : Nat) (f : State → State) (h : (f s).mem = s.mem) :
    (afterStep s mb n f).mem = s.mem := by
  simp [afterStep, h]

@[simp] theorem wakeBarriers_mem (s : State) : (wakeBarriers s).mem = s.mem := (rfl)
@[simp] theorem leaveT_mem (s : State) (w k : Nat) (o : Op) : (leaveT s w k o).mem = s.mem := (rfl)

@[simp] theorem askPeer_mem (s : State) (w k op n off len : Nat) (m : Nat → PeerMsg) :
    (askPeer s w k op n off len m).mem = s.mem := by simp [askPeer]

@[simp] theorem askPiece_mem (s : State) (w k op : Nat) (p : Piece) : (askPiece s w k op p).mem = s.mem := by
  unfold askPiece
  dsimp only
  repeat' split
  all_goals simp

@[simp] theorem freezeEngine_mem (s : State) (w c : Nat) : (freezeEngine s w c).mem = s.mem := (rfl)
@[simp] theorem sentOut_mem (w k op : Nat) (s : State) : (sentOut w k op s).mem = s.mem := (rfl)
@[simp] theorem countDone_mem (s : State) (w k n status : Nat) : (countDone s w k n status).mem = s.mem := (rfl)

@[simp] theorem endChunk_mem (s : State) (w k : Nat) (o : Op) (status : Nat) :
    (endChunk s w k o status).mem = s.mem := (rfl)

@[simp] theorem undoTxn_mem (s : State) (id kind arg : Nat) : (undoTxn s id kind arg).mem = s.mem := by
  simp [undoTxn, -List.foldl_reverse]

@[simp] theorem resumeCkpt_mem (s : State) : (resumeCkpt s).mem = s.mem := by
  unfold resumeCkpt
  split <;> rfl

@[simp] theorem resumeSwitch_mem (s : State) : (resumeSwitch s).mem = s.mem := by
  unfold resumeSwitch
  split <;> rfl

@[simp] theorem redoTxn_mem (s : State) (id kind arg : Nat) : (redoTxn s id kind arg).mem = s.mem := by
  simp [redoTxn]

@[simp] theorem recoverTxn_mem (s : State) (t : Nat × Nat × Nat) : (recoverTxn s t).mem = s.mem := by
  simp [recoverTxn]

@[simp] theorem loseLaunch_mem (s : State) (w l : Nat) : (loseLaunch s w l).mem = s.mem := by simp [loseLaunch]
@[simp] theorem stopWorld_mem (s : State) (w : Nat) : (stopWorld s w).mem = s.mem := by simp [stopWorld]
theorem withQuantum_mem (s : State) (q : Quantum) : ({ s with quantum := q } : State).mem = s.mem := rfl

@[simp] theorem beginSwitch_mem (s : State) (w len idx : Nat) : (beginSwitch s w len idx).mem = s.mem := by
  unfold beginSwitch
  dsimp only
  rw [State.push_mem, stopWorld_mem, withQuantum_mem, State.logStep_mem, State.logOpen_mem, State.logOpen_mem,
    State.logOpen_mem, State.beginTxn_mem]

@[simp] theorem staysOn_mem (s : State) (len idx : Nat) : (staysOn s len idx).mem = s.mem := by simp [staysOn]

@[simp] theorem endQuantum_mem (s : State) : (endQuantum s).mem = s.mem := by
  unfold endQuantum
  dsimp only
  split <;> simp

@[simp] theorem quantumEnd_mem (s : State) : (quantumEnd s).mem = s.mem := by simp [quantumEnd]

@[simp] theorem resumeThese_mem (s : State) (w : Nat) (ks : List Nat) : (resumeThese s w ks).mem = s.mem := by
  simp [resumeThese]

@[simp] theorem landed_mem (s : State) (w l g : Nat) : (landed s w l g).mem = s.mem := (rfl)

@[simp] theorem placeStopped_mem (s : State) (w l g : Nat) (slots : List Nat) :
    (placeStopped s w l g slots).mem = s.mem := by simp [placeStopped]

@[simp] theorem preemptGang_mem (s : State) (w : Nat) (v : Nat × Nat) : (preemptGang s w v).mem = s.mem := by
  simp [preemptGang]

@[simp] theorem tryPreempt_mem (s : State) (w l : Nat) (c : Cand) : (tryPreempt s w l c).mem = s.mem := by
  unfold tryPreempt
  dsimp only
  repeat' split
  all_goals simp

@[simp] theorem tryReserve_mem (s : State) (w l : Nat) (c : Cand) (fails : Nat) :
    (tryReserve s w l c fails).mem = s.mem := by
  unfold tryReserve
  dsimp only
  repeat' split
  all_goals rfl

@[simp] theorem rotate_mem (s : State) (w l : Nat) : (rotate s w l).mem = s.mem := by
  have stall : (killAll (s.modLaunch w l fun x => { x with stalled := true }) w l false).mem = s.mem := by
    rw [killAll_mem, State.modLaunch_mem]
  obtain ⟨size, hs⟩ : ∃ f, f = rotSize := ⟨_, rfl⟩
  unfold rotate
  rw [← hs]
  dsimp only
  split
  · exact stall
  split
  · exact stall
  split
  · exact stall
  rw [State.push_mem, foldl_mem _ fun u k => ?_, State.modWorld_mem, State.modLaunch_mem]
  split
  · rw [stopCtx_mem, State.modCtx_mem]
  · rfl

@[simp] theorem resumeLaunches_mem (s : State) (w : Nat) (ls : List Nat) : (resumeLaunches s w ls).mem = s.mem := by
  simp [resumeLaunches]

@[simp] theorem phaseEnds_mem (s : State) : (phaseEnds s).mem = s.mem := by simp [phaseEnds]

theorem phaseBreak_mem (s : State) (next : Instr) (k : State → State) (h : (k s).mem = s.mem) :
    (phaseBreak s next k).mem = s.mem := by
  simp [phaseBreak, h]

@[simp] theorem logPhase_mem (s : State) (w n : Nat) : (logPhase s w n).mem = s.mem := by simp [logPhase]

@[simp] theorem dirtyAgain_mem (s : State) (w : Nat) (grans : List Nat) : (dirtyAgain s w grans).mem = s.mem := by
  simp [dirtyAgain]

@[simp] theorem idleCkpt_mem (s : State) (err : Nat) : (idleCkpt s err).mem = s.mem := (rfl)

@[simp] theorem beginCkpt_mem (s : State) (q : Nat) (p : Packet) : (beginCkpt s q p).mem = s.mem := by
  simp [beginCkpt]

@[simp] theorem resumePhase_mem (s : State) (o : CkOp) (w : Nat) : (resumePhase s o w).mem = s.mem := by
  simp [resumePhase]

@[simp] theorem logManifest_mem (s : State) (kind w pa seq : Nat) : (logManifest s kind w pa seq).mem = s.mem := by
  simp [logManifest]

@[simp] theorem ecmdResult_mem (s : State) (err : Nat) : (ecmdResult s err).mem = s.mem := (rfl)
@[simp] theorem countEcmd_mem (s : State) : (countEcmd s).mem = s.mem := (rfl)

@[simp] theorem restore_mem (s : State) : (restore s).mem = s.mem := by
  unfold restore
  dsimp only
  repeat' split
  all_goals simp

@[simp] theorem cleanWorld_mem (s : State) (w : Nat) : (cleanWorld s w).mem = s.mem := (rfl)

@[simp] theorem hostLoad_mem (s : State) (w k pc va a f3 rd : Nat) : (hostLoad s w k pc va a f3 rd).mem = s.mem :=
  (rfl)

@[simp] theorem sendAtomic_mem (s : State) (w k : Nat) (o : Op) (a : Nat) : (sendAtomic s w k o a).mem = s.mem :=
  (rfl)

@[simp] theorem hostAtomic_mem (s : State) (w k : Nat) (o : Op) (a : Nat) : (hostAtomic s w k o a).mem = s.mem :=
  (rfl)

@[simp] theorem enterWait_mem (s : State) (w k : Nat) (wt : Wait) : (enterWait s w k wt).mem = s.mem := by
  simp [enterWait]

@[simp] theorem endWait_mem (s : State) (w k : Nat) (f : Strand → Strand) : (endWait s w k f).mem = s.mem := by
  simp [endWait]

@[simp] theorem waitSatisfied_mem (s : State) (w k : Nat) : (waitSatisfied s w k).mem = s.mem := by
  unfold waitSatisfied
  repeat' split
  all_goals simp

@[simp] theorem opFault_mem (s : State) (w k : Nat) (o : Op) (c : Cause) : (opFault s w k o c).mem = s.mem := by
  simp [opFault]

@[simp] theorem replayAsk_mem (s : State) (w k : Nat) (o : Op) (a width : Nat) :
    (replayAsk s w k o a width).mem = s.mem := (rfl)

@[simp] theorem replayChunk_mem (s : State) (w k : Nat) (o : Op) : (replayChunk s w k o).mem = s.mem := by
  unfold replayChunk
  dsimp only
  cases (s.ctx w k).strand.copies.find? (Copy.holds o) <;> simp

@[simp] theorem replayEnds_mem (s : State) (w k : Nat) : (replayEnds s w k).mem = s.mem := by
  unfold replayEnds
  dsimp only
  split <;> simp

@[simp] theorem askTranslation_mem (s : State) (id : Nat) (r : HReq) : (askTranslation s id r).mem = s.mem := (rfl)
@[simp] theorem askPage_mem (s : State) (id : Nat) (r : HReq) : (askPage s id r).mem = s.mem := by simp [askPage]

@[simp] theorem nextPage_mem (s : State) (w : Nat) : (nextPage s w).mem = s.mem := by
  unfold nextPage
  split <;> simp

theorem eachBit_mem (v n : Nat) (f : State → Nat → State) (h : ∀ s i, (f s i).mem = s.mem) (s : State) :
    (eachBit v n f s).mem = s.mem := foldl_mem f h _ s

@[simp] theorem writeReady_mem (s : State) (off v : Nat) : (writeReady s off v).mem = s.mem := by
  unfold writeReady
  split
  · simp
  · simp
  · rw [eachBit_mem _ _ _ fun _ _ => retrainPeer_mem _ _, eachBit_mem _ _ _ fun _ _ => retrainMem_mem _ _]
  · rfl

@[simp] theorem writeQueue_mem (s : State) (who idx off v : Nat) : (writeQueue s who idx off v).mem = s.mem := by
  unfold writeQueue
  split <;> simp

@[simp] theorem writeLaunch_mem (s : State) (w : Nat) (root : Bool) (idx off v : Nat) :
    (writeLaunch s w root idx off v).mem = s.mem := by
  unfold writeLaunch
  repeat' split
  all_goals simp

@[simp] theorem writeCtx_mem (s : State) (w : Nat) (root : Bool) (idx off v : Nat) :
    (writeCtx s w root idx off v).mem = s.mem := by
  unfold writeCtx
  repeat' split
  all_goals simp

@[simp] theorem writePower_mem (s : State) (root : Bool) (idx off v : Nat) :
    (writePower s root idx off v).mem = s.mem := by
  unfold writePower
  split <;> simp

@[simp] theorem countResync_mem (s : State) (w k : Nat) : (countResync s w k).mem = s.mem := (rfl)

@[simp] theorem nameRegs_mem (s : State) (w k : Nat) (rs ds : List Nat) : (nameRegs s w k rs ds).mem = s.mem := by
  simp [nameRegs]

@[simp] theorem stallAt_mem (s : State) (rs : List Nat) : (stallAt s rs).mem = s.mem := by
  unfold stallAt
  split <;> rfl

@[simp] theorem startWait_mem (s : State) (wt : Wait) : (startWait s wt).mem = s.mem := by simp [startWait]

@[simp] theorem commitConvoy_mem (s : State) (head pc : Nat) (ws : List Nat) :
    (commitConvoy s head pc ws).mem = s.mem := by simp [commitConvoy]

@[simp] theorem State.haltAt_mem (s : State) (h : Halt) : (State.haltAt s h).mem = s.mem := (rfl)

@[simp] theorem overElems_mem (s : State) (q : Issue) (ok : Strand → Nat → Bool) (f : Strand → Nat → Strand) :
    (overElems s q ok f).mem = s.mem := (rfl)

@[simp] theorem overActive_mem (s : State) (q : Issue) (f : Strand → Nat → Strand) : (overActive s q f).mem = s.mem :=
  (rfl)

@[simp] theorem retireHead_mem (s : State) (w k : Nat) (vm : Bool) : (retireHead s w k vm).mem = s.mem := by
  simp [retireHead]

@[simp] theorem dropRefused_mem (s : State) (w k : Nat) : (dropRefused s w k).mem = s.mem := (rfl)

@[simp] theorem dropConvoy_mem (s : State) (w k : Nat) (vm : Bool) (c : Convoy) :
    (dropConvoy s w k vm c).mem = s.mem := by simp [dropConvoy]

@[simp] theorem State.putAnvil_mem (s : State) (a : Anvil) : (State.putAnvil s a).mem = s.mem := (rfl)

@[simp] theorem holdMatrix_mem (s : State) (q : Issue) (h : MatOp) : (holdMatrix s q h).mem = s.mem := by
  unfold holdMatrix
  split <;> simp

@[simp] theorem issueMatrix_mem (s : State) (q : Issue) (halt : Option Halt) (a : Anvil) (h : MatOp) :
    (issueMatrix s q halt a h).mem = s.mem := by
  unfold issueMatrix
  split <;> simp

@[simp] theorem completeBatches_mem (s : State) (w k : Nat) : (completeBatches s w k).mem = s.mem := by
  unfold completeBatches
  split <;> simp

@[simp] theorem gather_mem (s : State) (q : Issue) (vd : Nat) (f : Strand → Nat → Option Nat) :
    (gather s q vd f).mem = s.mem := (rfl)

@[simp] theorem maskVec_mem (s : State) (n v : Nat) (on : Bool) : (maskVec s n v on).mem = s.mem := by
  simp [maskVec]

@[simp] theorem coalesce_mem (s : State) (n v x : Nat) : (coalesce s n v x).mem = s.mem := by simp [coalesce]

@[simp] theorem writeBar4_mem (s : State) (n off x : Nat) : (writeBar4 s n off x).mem = s.mem := by
  unfold writeBar4
  dsimp only
  repeat' split
  all_goals simp

@[simp] theorem bar4Write_mem (s : State) (fn off : Nat) (data : List Nat) (whole : Bool) :
    (bar4Write s fn off data whole).mem = s.mem := by simp [bar4Write]

@[simp] theorem hostReadNow_mem (s : State) (a n tag : Nat) : (hostReadNow s a n tag).mem = s.mem := by
  unfold hostReadNow
  split <;> simp

@[simp] theorem answerReads_mem (s : State) : (answerReads s).mem = s.mem := by simp [answerReads]

@[simp] theorem configure_mem (s : State) (z0 : Cfg) : (configure s z0).mem = s.mem := by
  unfold configure
  split <;> simp

@[simp] theorem pace_mem (w k : Nat) (pc : Word) (r : State) : (pace w k pc r).mem = r.mem := by simp [pace]
@[simp] theorem unpace_mem (w k : Nat) (r : State) : (unpace w k r).mem = r.mem := by simp [unpace]

/-! ### Functions that keep the canonical form

The `Wf` predicate of an outcome type says that the state in it, where it has one, stands in canonical form. -/

@[simp] def Gate.Wf : Gate → Prop
  | .go => True
  | .waits s | .refused s => Memory.wf s.mem = true

@[simp] def StoreDone.Wf : StoreDone → Prop
  | .done s | .fault s _ | .waits s => Memory.wf s.mem = true

@[simp] def Reached.Wf {α : Type} : Reached α → Prop
  | .done s _ | .failed s | .waits s => Memory.wf s.mem = true

@[simp] def Taken.Wf : Taken → Prop
  | .gone s | .holds s => Memory.wf s.mem = true
  | .none | .go _ => True

@[simp] def Moved.Wf : Moved → Prop
  | .waits s | .ended s _ => Memory.wf s.mem = true

@[simp] def Fetched.Wf : Fetched → Prop
  | .data s _ | .waits s | .ended s _ => Memory.wf s.mem = true

@[simp] def Did.Wf : Did → Prop
  | .next s | .busy s | .fault s _ => Memory.wf s.mem = true

@[simp] def Got.Wf : Got → Prop
  | .value s _ | .host s _ => Memory.wf s.mem = true
  | .busy | .fault _ => True

@[simp] def Replay.Wf : Replay → Prop
  | .next s | .waits s | .fault s _ _ => Memory.wf s.mem = true

@[simp] def PacketRead.Wf : PacketRead → Prop
  | .words s _ | .waits s => Memory.wf s.mem = true
  | .fault _ _ => True

@[simp] def WordFetch.Wf : WordFetch → Prop
  | .word s _ => Memory.wf s.mem = true
  | .waits | .fault _ => True

@[simp] def BodyFetch.Wf : BodyFetch → Prop
  | .words s _ => Memory.wf s.mem = true
  | .waits | .fault _ _ _ => True

@[simp] def Elem.Wf : Elem → Prop
  | .next s => Memory.wf s.mem = true
  | .halt _ => True

@[simp] def Read.Wf : Read → Prop
  | .value s _ => Memory.wf s.mem = true
  | .halt _ => True

@[simp] def RowRead.Wf {α : Type} : RowRead α → Prop
  | .got s _ => Memory.wf s.mem = true
  | .waits | .fault _ _ => True

@[simp] def Stepped.Wf : Stepped → Prop
  | .more s _ _ | .done s _ => Memory.wf s.mem = true
  | .waits | .fault _ _ _ => True

@[simp] def okWf {α : Type} (f : α → State) : Except Cause α → Prop
  | .ok x => Memory.wf (f x).mem = true
  | .error _ => True

@[simp] def optWf : Option State → Prop
  | some s => Memory.wf s.mem = true
  | none => True

@[simp] def Res.Wf : Res → Prop
  | .next s => Memory.wf s.mem = true
  | _ => True

theorem withFresh_mem (s : State) (n : Nat) : ({ s with fresh := n } : State).mem = s.mem := rfl

/-- A fold keeps the canonical form when each of its steps does. -/
theorem wf_foldl {α : Type} (f : State → α → State) (h : ∀ s x, Memory.wf s.mem = true → Memory.wf (f s x).mem = true)
    (l : List α) (s : State) (hs : Memory.wf s.mem = true) :
    Memory.wf (l.foldl f s).mem = true := by
  induction l generalizing s with
  | nil => exact hs
  | cons x l ih => exact ih _ (h s x hs)

@[simp] theorem wf_writeNum (s : State) (slot pa n v : Nat) (hs : Memory.wf s.mem = true) :
    Memory.wf (writeNum s slot pa n v).mem = true := by
  unfold writeNum
  grind [wf_performWrite]

@[simp] theorem wf_postHeld (s : State) (h : HeldW) (hs : Memory.wf s.mem = true) :
    Memory.wf (postHeld s h).mem = true := by
  unfold postHeld
  grind [wf_performWrite]

@[simp] theorem wf_postWrite (s : State) (w k pa : Nat) (data : List Byte) (strip : Option Nat) (hs : Memory.wf s.mem
    = true) :
    Memory.wf (postWrite s w k pa data strip).mem = true := by simp [postWrite, hs]

@[simp] theorem wf_setAD (s : State) (w : Nat) (x : Xlat) (a : Acc) (hs : Memory.wf s.mem = true) :
    Memory.wf (setAD s w x a).mem = true := by
  unfold setAD
  dsimp only
  repeat' split
  all_goals simp [hs]

@[simp] theorem wf_hostGate (s : State) (w k : Nat) (pasid : Option Nat) (a : Nat) (hs : Memory.wf s.mem = true) :
    (hostGate s w k pasid a).Wf := by
  unfold hostGate
  dsimp only
  repeat' split
  all_goals simp [hs]

@[simp] theorem wf_storeNum (s : State) (w k : Nat) (x : Xlat) (a : Ask) (v : Nat) (strip : Option Nat) (hs :
    Memory.wf s.mem = true) :
    (storeNum s w k x a v strip).Wf := by
  unfold storeNum
  grind [remoteStore_mem, wf_hostGate, wf_postWrite, wf_setAD, State.emit_mem, Gate.Wf, StoreDone.Wf]

@[simp] theorem wf_unitStore (s : State) (x : Queue) (va n v : Nat) (hs : Memory.wf s.mem = true) :
    (unitStore s x va n v).Wf := by
  unfold unitStore
  dsimp only
  repeat' split
  all_goals grind [touchImage_mem, wf_performWrite, compromise_mem, wf_hostGate, wf_setAD, State.emit_mem,
      Gate.Wf, Reached.Wf]

@[simp] theorem wf_unitLoad (s : State) (x : Queue) (va n : Nat) (hs : Memory.wf s.mem = true) :
    (unitLoad s x va n).Wf := by
  unfold unitLoad
  dsimp only
  repeat' split
  all_goals simp [hs]

@[simp] theorem wf_saveFrame (s : State) (w k : Nat) (hs : Memory.wf s.mem = true) :
    Memory.wf (saveFrame s w k).mem = true := by
  unfold saveFrame
  simp only [State.modCtx_mem]
  exact wf_foldl _ (fun u t h => wf_performCells _ _ _ _ _ h) _ _ hs

@[simp] theorem wf_scrubAlloc (s : State) (w core off size : Nat) (hs : Memory.wf s.mem = true) :
    Memory.wf (scrubAlloc s w core off size).mem = true := by
  unfold scrubAlloc
  dsimp only
  split
  · exact wf_terase _ _ _ (by simpa using hs)
  · simpa using hs

@[simp] theorem wf_freshAlloc (s : State) (size : Nat) (a : Nat × Nat) (hs : Memory.wf s.mem = true) :
    Memory.wf (freshAlloc s size a).mem = true := wf_terase _ _ _ hs

@[simp] theorem wf_contextSaved (s : State) (w k : Nat) (hs : Memory.wf s.mem = true) :
    Memory.wf (contextSaved s w k).mem = true := by
  unfold contextSaved
  dsimp only
  repeat' split
  all_goals simp [hs]

@[simp] theorem wf_scrubGroup (s : State) (g : Nat) (hs : Memory.wf s.mem = true) :
    Memory.wf (scrubGroup s g).mem = true :=
  wf_terase _ _ _ hs

@[simp] theorem wf_groupReady (s : State) (g : Nat) (hs : Memory.wf s.mem = true) :
    Memory.wf (groupReady s g).mem = true := by
  unfold groupReady
  split <;> simp [hs]

@[simp] theorem wf_performHeld (s : State) (h : HeldW) (hs : Memory.wf s.mem = true) :
    Memory.wf (performHeld s h).mem = true := by
  unfold performHeld
  dsimp only
  repeat' split
  all_goals grind [wf_performWrite, State.push_mem, sendPeer_mem]

@[simp] theorem wf_releaseScan (hs' kept : List HeldW) (s : State) (hs : Memory.wf s.mem = true) :
    Memory.wf (releaseScan hs' kept s).mem = true := by
  induction hs' generalizing kept s with
  | nil => exact hs
  | cons h r ih =>
    unfold releaseScan
    split
    · exact ih _ _ hs
    · exact ih _ _ (wf_performHeld _ _ hs)

@[simp] theorem wf_releaseWrites (s : State) (hs : Memory.wf s.mem = true) :
    Memory.wf (releaseWrites s).mem = true := by
  unfold releaseWrites
  split <;> simp [hs]

@[simp] theorem wf_unholdAll (s : State) (hs : Memory.wf s.mem = true) : Memory.wf (unholdAll s).mem = true := by
  simp [unholdAll, hs]

@[simp] theorem wf_ringLoad (s : State) (x : Queue) (va : Nat) (hs : Memory.wf s.mem = true) :
    (ringLoad s x va).Wf := by
  refine List.foldlRecOn (motive := Reached.Wf) _ _ hs fun a h i _ => ?_
  cases a with
  | done u ds =>
    have hu := wf_unitLoad u x (va + 8 * i) 8 h
    dsimp only
    generalize unitLoad u x (va + 8 * i) 8 = r at hu ⊢
    cases r <;> exact hu
  | failed u => exact h
  | waits u => exact h

@[simp] theorem wf_ringRead (s : State) (q : Nat) (hs : Memory.wf s.mem = true) :
    Memory.wf (ringRead s q).mem = true := by
  unfold ringRead
  dsimp only
  repeat' split
  all_goals grind [park_mem, wf_ringLoad, ringFault_mem, ringGot_mem, hostRequest_mem, State.modQueue_mem, Reached.Wf]

@[simp] theorem wf_putCompletion (s : State) (q caddr word : Nat) (hs : Memory.wf s.mem = true) :
    (putCompletion s q caddr word).Wf := by
  unfold putCompletion
  grind [State.onQueue_mem, wf_unitStore, Reached.Wf]

@[simp] theorem wf_finishPacket (s : State) (q : Nat) (hs : Memory.wf s.mem = true) :
    Memory.wf (finishPacket s q).mem = true := by
  unfold finishPacket
  dsimp only
  repeat' split
  all_goals grind [wf_putCompletion, park_mem, finishChild_mem, putInterrupt_mem, nextPacket_mem, Reached.Wf]

@[simp] theorem wf_endPacket (s : State) (q : Nat) (p : Packet) (status perr : Nat) (hs : Memory.wf s.mem = true) :
    Memory.wf (endPacket s q p status perr).mem = true := by simp [endPacket, hs]

@[simp] theorem wf_takePacket (s : State) (q : Nat) (hs : Memory.wf s.mem = true) : (takePacket s q).Wf := by
  unfold takePacket
  dsimp only
  repeat' split
  all_goals simp [hs]

@[simp] theorem wf_takeLaunch (s : State) (q : Nat) (hs : Memory.wf s.mem = true) :
    Memory.wf (takeLaunch s q).mem = true := by
  unfold takeLaunch
  dsimp only
  repeat' split
  all_goals grind [wf_takePacket, wakePage_mem, State.modWorld_mem, State.push_mem, State.onQueue_mem,
      State.modQueue_mem, nextPacket_mem, Taken.Wf]

@[simp] theorem wf_testWait (s : State) (q : Nat) (p : Packet) (hs : Memory.wf s.mem = true) :
    Memory.wf (testWait s q p).mem = true := by
  unfold testWait
  dsimp only
  repeat' split
  all_goals grind [park_mem, State.modQueue_mem, wf_endPacket, wf_unitLoad, Reached.Wf]

@[simp] theorem wf_putFaultRecord (s : State) (x : Launch) (hs : Memory.wf s.mem = true) :
    (putFaultRecord s x).Wf := by
  unfold putFaultRecord
  split
  · refine List.foldlRecOn (motive := Reached.Wf) _ _ hs fun a h i _ => ?_
    cases a with
    | done u _ =>
      have hu := wf_unitStore u (u.queue x.queue) (x.caddr + 8 + 8 * i) 8 (nth 0 x.faultRec i) h
      dsimp only
      generalize unitStore u (u.queue x.queue) (x.caddr + 8 + 8 * i) 8 (nth 0 x.faultRec i) = r at hu ⊢
      cases r <;> exact hu
    | failed u => exact h
    | waits u => exact h
  · exact hs

@[simp] theorem wf_launchDone (s : State) (w l : Nat) (hs : Memory.wf s.mem = true) :
    Memory.wf (launchDone s w l).mem = true := by
  unfold launchDone
  dsimp only
  repeat' split
  all_goals grind [wf_putCompletion, kickWaiting_mem, wf_putFaultRecord, park_mem, launchClosed_mem,
      launchFreed_mem, Reached.Wf]

@[simp] theorem wf_writeSeed (s : State) (w : Nat) (hs : Memory.wf s.mem = true) :
    Memory.wf (writeSeed s w).mem = true := by
  unfold writeSeed
  dsimp only
  grind [wf_performCells]

theorem withMem_wf {s : State} {m : Tbl Byte} (h : Memory.wf m = true) :
    Memory.wf ({s with mem := m} : State).mem = true := h

@[simp] theorem wf_zeroRange (s : State) (slot : Nat) (r : Nat × Nat) (hs : Memory.wf s.mem = true) :
    Memory.wf (zeroRange s slot r).mem = true := wf_terase _ _ _ hs

@[simp] theorem wf_createComplete (s : State) (w : Nat) (hs : Memory.wf s.mem = true) :
    Memory.wf (createComplete s w).mem = true := by
  unfold createComplete
  dsimp only
  repeat' split
  all_goals grind [clearDirty_mem, State.logWrite_mem, State.logStat_mem, wakePage_mem, State.logStep_mem,
      State.closeTxn_mem, wf_writeSeed, wf_zeroRange, wf_foldl]

@[simp] theorem wf_abandonCkpt (s : State) (w : Nat) (hs : Memory.wf s.mem = true) :
    Memory.wf (abandonCkpt s w).mem = true := by
  unfold abandonCkpt
  split <;> simp [hs]

@[simp] theorem wf_beginDestroy (s : State) (kind w : Nat) (hs : Memory.wf s.mem = true) :
    Memory.wf (beginDestroy s kind w).mem = true := by
  unfold beginDestroy
  dsimp only
  grind [State.logWrite_mem, wf_abandonCkpt, State.beginTxn_mem, State.logStep_mem, State.logOpen_mem,
      State.push_mem, killCtx_mem, State.modQueue_mem, wf_foldl]

@[simp] theorem wf_scrubWorld (s : State) (w : Nat) (hs : Memory.wf s.mem = true) :
    Memory.wf (scrubWorld s w).mem = true :=
  wf_foldl _ (fun _ _ h => wf_scrubAlloc _ _ _ _ _ h) _ _ hs

@[simp] theorem wf_bootWorld0 (s : State) (hs : Memory.wf s.mem = true) : Memory.wf (bootWorld0 s).mem = true := by
  unfold bootWorld0
  split
  · exact wf_writeSeed _ _ (by rw [withFresh_mem, State.modWorld_mem, State.logOnce_mem]; exact hs)
  · exact hs

@[simp] theorem wf_destroyComplete (s : State) (w : Nat) (hs : Memory.wf s.mem = true) :
    Memory.wf (destroyComplete s w).mem = true := by
  unfold destroyComplete
  dsimp only
  repeat' split
  all_goals simp [hs]

@[simp] theorem wf_wcmd (s : State) (w v who : Nat) (hs : Memory.wf s.mem = true) :
    Memory.wf (wcmd s w v who).mem = true := by
  have result : ∀ r, Memory.wf (wcmdResult s w r).mem = true := fun r => by rw [wcmdResult_mem]; exact hs
  unfold wcmd
  extract_lets x
  split
  · exact result _
  split
  · exact result _
  split
  · split
    · exact result _
    · split
      · exact result _
      · rw [beginCreate_mem, wcmdCount_mem]; exact hs
  · split
    · exact result _
    · exact wf_beginDestroy _ _ _ (by rw [wcmdCount_mem]; exact hs)
  · split
    · rw [wcmdResult_mem, State.modWorld_mem, State.logOnce_mem]; exact hs
    · exact result _
  · exact result _

@[simp] theorem wf_flr (s : State) (n : Nat) (hs : Memory.wf s.mem = true) : Memory.wf (flr s n).mem = true := by
  unfold flr
  split <;> simp [hs]

@[simp] theorem wf_destroyAll (s : State) (hs : Memory.wf s.mem = true) : Memory.wf (destroyAll s).mem = true := by
  unfold destroyAll
  dsimp only
  grind [wf_beginDestroy, resetFree_mem, wf_foldl]

/-- The policy core runs what it is given now, later or never. -/
theorem State.wf_serve (s : State) (f : State → State) (hf : ∀ u, Memory.wf u.mem = true → Memory.wf (f u).mem = true)
    (hs : Memory.wf s.mem = true) :
    Memory.wf (s.serve f).mem = true := by
  unfold State.serve
  split
  · exact hs
  split
  · exact hf _ hs
  split
  · rw [State.drain_mem]
    exact hf _ hs
  · exact hs

@[simp] theorem wf_resetWorlds (s : State) (hs : Memory.wf s.mem = true) : Memory.wf (resetWorlds s).mem = true :=
  State.wf_serve _ _ wf_destroyAll hs

@[simp] theorem wf_dropRequests (s : State) (hs : Memory.wf s.mem = true) :
    Memory.wf (dropRequests s).mem = true := by
  simp [dropRequests, hs]

@[simp] theorem wf_freezePeer (s : State) (n o : Nat) (hs : Memory.wf s.mem = true) :
    Memory.wf (freezePeer s n o).mem = true := by simp [freezePeer, hs]

@[simp] theorem wf_inboundWrite (s : State) (n w pa id : Nat) (data : List Byte) (hs : Memory.wf s.mem = true) :
    Memory.wf (inboundWrite s n w pa id data).mem = true := by
  unfold inboundWrite
  split <;> simp [hs]

@[simp] theorem wf_peerUnfreeze (s : State) (n : Nat) (hs : Memory.wf s.mem = true) :
    Memory.wf (peerUnfreeze s n).mem = true := by
  unfold peerUnfreeze
  dsimp only
  repeat' split
  all_goals simp [hs]

theorem wf_served (s : State) (f : State → State) (hf : Memory.wf (f s).mem = true) (hs : Memory.wf s.mem = true) :
    Res.Wf (served s f) := by
  unfold served
  split
  · exact hf
  · exact hs

theorem wf_tdisp (s : State) (f : State → State) (hf : Memory.wf (f s).mem = true) (hs : Memory.wf s.mem = true) :
    Res.Wf (tdisp s f) := by
  refine wf_served _ _ ?_ hs
  dsimp only
  split
  · exact hf
  · rw [State.answer_mem]
    exact hs

@[simp] theorem wf_writeBarrier (s : State) (w pa : Nat) (old new : Barrier) (hs : Memory.wf s.mem = true) :
    Memory.wf (writeBarrier s w pa old new).mem = true := by
  unfold writeBarrier
  dsimp only
  repeat' split
  all_goals grind [wakeBarriers_mem, wf_performWrite]

@[simp] theorem wf_applyUpdate (s : State) (w k : Nat) (o : Op) (hs : Memory.wf s.mem = true) :
    okWf Prod.fst (applyUpdate s w k o) := by
  unfold applyUpdate
  dsimp only
  repeat' split
  all_goals simp [hs]

@[simp] theorem wf_spill (s : State) (d : Sundog) (hs : Memory.wf s.mem = true) :
    Memory.wf (spill s d).mem = true := by
  unfold spill
  dsimp only
  split <;> simp [hs]

@[simp] theorem wf_spillFull (s : State) (port : Nat) (hs : Memory.wf s.mem = true) :
    Memory.wf (spillFull s port).mem = true := by
  unfold spillFull
  grind [wf_spill, wf_foldl]

@[simp] theorem wf_issueT (s : State) (w k : Nat) (o : Op) (hs : Memory.wf s.mem = true) :
    okWf id (issueT s w k o) := by
  unfold issueT
  dsimp only
  split
  · simpa using hs
  · have h := wf_applyUpdate (s.modStrand w k Strand.nextT) w k ((s.ctx w k).strand.tagged w k o) (by simpa using hs)
    generalize applyUpdate (s.modStrand w k Strand.nextT) w k ((s.ctx w k).strand.tagged w k o) = r at h ⊢
    rcases r with _ | ⟨u, old⟩
    · trivial
    · simpa using h

@[simp] theorem wf_touchPieces (s : State) (w : Nat) (a : Acc) (ps : List Piece) (hs : Memory.wf s.mem = true) :
    Memory.wf (touchPieces s w a ps).mem = true := wf_foldl _ (fun _ _ h => wf_setAD _ _ _ _ h) _ _ hs

@[simp] theorem wf_writePieces (s : State) (w k op : Nat) (ps : List Piece) (d : List Byte) (hs : Memory.wf s.mem =
    true) :
    Memory.wf (writePieces s w k op ps d).mem = true := by
  induction ps generalizing s d with
  | nil => exact hs
  | cons p ps ih =>
    unfold writePieces
    dsimp only
    apply ih
    split
    · exact wf_postWrite _ _ _ _ _ _ hs
    · exact hs
    · split <;> simpa using hs
    · exact hs

@[simp] theorem wf_hostGates (s : State) (w k : Nat) (ps : List Piece) (hs : Memory.wf s.mem = true) :
    (hostGates s w k ps).Wf := by
  induction ps with
  | nil => trivial
  | cons p ps ih =>
    unfold hostGates
    split
    next a _ =>
      have h := wf_hostGate s w k (pasidOf s w k) a hs
      split
      · exact ih
      · exact h
    · exact ih

@[simp] theorem wf_moveOut (s : State) (w k op : Nat) (dst : List Piece) (data : List Byte) (hs : Memory.wf s.mem =
    true) :
    (moveOut s w k op dst data).Wf := by
  unfold moveOut
  dsimp only
  repeat' split
  all_goals grind [sentOut_mem, wf_writePieces, wf_touchPieces, freezeEngine_mem, wf_hostGates, Gate.Wf, Moved.Wf]

@[simp] theorem wf_fetchIn (s : State) (w k : Nat) (o : Op) (src : List Piece) (hs : Memory.wf s.mem = true) :
    (fetchIn s w k o src).Wf := by
  unfold fetchIn
  grind [wf_touchPieces, freezeEngine_mem, askPiece_mem, Fetched.Wf]

@[simp] theorem wf_moveBytes (s : State) (w k core src dst len : Nat) (o : Op) (hs : Memory.wf s.mem = true) :
    (moveBytes s w k core src dst len o).Wf := by
  unfold moveBytes
  grind [wf_moveOut, wf_fetchIn, Fetched.Wf, Moved.Wf]

@[simp] theorem wf_runChunk (s : State) (w k : Nat) (o : Op) (hs : Memory.wf s.mem = true) :
    Memory.wf (runChunk s w k o).mem = true := by
  unfold runChunk
  grind [wf_moveBytes, endChunk_mem, Moved.Wf]

@[simp] theorem readTransfers_mem (s : State) (w k core : Nat) (os : List Op) :
    (readTransfers s w k core os).1.mem = s.mem := by
  induction os generalizing s with
  | nil => rfl
  | cons o os ih =>
    unfold readTransfers
    grind [freezeEngine_mem]

@[simp] theorem wf_runTransfers (s : State) (w k group : Nat) (hs : Memory.wf s.mem = true) :
    Memory.wf (runTransfers s w k group).mem = true := by
  unfold runTransfers
  dsimp only
  split
  · exact hs
  refine List.foldlRecOn (motive := fun u : State => Memory.wf u.mem = true) _ _ ((congrArg Memory.wf
      (readTransfers_mem ..)).trans hs) fun u h e _ => ?_
  split
  · exact (congrArg Memory.wf (endChunk_mem ..)).trans h
  · have hm := wf_moveOut u w k e.1.id e.2.2.1 e.2.2.2 h
    generalize moveOut u w k e.1.id e.2.2.1 e.2.2.2 = r at hm ⊢
    cases r with
    | ended t st => exact (congrArg Memory.wf (endChunk_mem ..)).trans hm
    | waits t => exact hm

@[simp] theorem wf_chunkComplete (s : State) (w k id : Nat) (hs : Memory.wf s.mem = true) :
    Memory.wf (chunkComplete s w k id).mem = true := by
  unfold chunkComplete
  grind [wf_runChunk, wf_runTransfers]

@[simp] theorem wf_putStatus (s : State) (w k : Nat) (c : Cmd) (status : Nat) (hs : Memory.wf s.mem = true) :
    Memory.wf (putStatus s w k c status).mem = true := by
  unfold putStatus
  dsimp only
  repeat' split
  all_goals simp [hs]

@[simp] theorem wf_offerCmd (s : State) (w k slot body pc elem : Nat) (c : Cmd) (hs : Memory.wf s.mem = true) :
    Memory.wf (offerCmd s w k slot body pc elem c).1.mem = true := by
  unfold offerCmd
  split <;> simp [hs]

@[simp] theorem wf_endCmd (s : State) (w k : Nat) (o : Op) (c : Cmd) (n status : Nat) (hs : Memory.wf s.mem = true) :
    Memory.wf (endCmd s w k o c n status).mem = true := by simp [endCmd, hs]

@[simp] theorem wf_chargeBar (s : State) (w k : Nat) (c : Cmd) (hs : Memory.wf s.mem = true) :
    Memory.wf (chargeBar s w k c).1.mem = true := by
  unfold chargeBar
  dsimp only
  repeat' split
  all_goals simp [hs]

@[simp] theorem wf_copyCmd (s : State) (w k : Nat) (o : Op) (c : Cmd) (hs : Memory.wf s.mem = true) :
    Memory.wf (copyCmd s w k o c).mem = true := by
  unfold copyCmd
  dsimp only
  repeat' split
  all_goals grind [wf_endCmd, wf_chargeBar, wf_moveBytes, Moved.Wf]

@[simp] theorem wf_decryptCmd (s : State) (w k : Nat) (o : Op) (c : Cmd) (hs : Memory.wf s.mem = true) :
    Memory.wf (decryptCmd s w k o c).mem = true := by
  have ended : ∀ n st, Memory.wf (endCmd s w k o c n st).mem = true := fun n st => wf_endCmd _ _ _ _ _ _ _ hs
  unfold decryptCmd
  extract_lets core
  split
  · split
    · exact hs
    · exact ended _ _
  split
  · exact ended _ _
  split
  · exact hs
  split
  · exact ended _ _
  next sp _ =>
    have hf := wf_fetchIn s w k o sp hs
    generalize fetchIn s w k o sp = r at hf ⊢
    cases r with
    | waits u => exact hf
    | ended u e => exact wf_endCmd _ _ _ _ _ _ _ hf
    | data u d =>
      dsimp only
      split
      · exact wf_endCmd _ _ _ _ _ _ _ hf
      next pt _ =>
        split
        · exact wf_endCmd _ _ _ _ _ _ _ hf
        next dp _ =>
          have hm := wf_moveOut u w k o.id dp (plainBytes c.len pt) hf
          generalize moveOut u w k o.id dp (plainBytes c.len pt) = r at hm ⊢
          cases r with
          | waits t => exact hm
          | ended t e => exact wf_endCmd _ _ _ _ _ _ _ hm

@[simp] theorem wf_engineAnswer (s : State) (w k : Nat) (o : Op) (r : HReq) (ok : Bool) (data : List Nat) (hs :
    Memory.wf s.mem = true) :
    Memory.wf (engineAnswer s w k o r ok data).mem = true := by
  unfold engineAnswer
  dsimp only
  repeat' split
  all_goals simp [hs]

@[simp] theorem wf_resumeService (s : State) (hs : Memory.wf s.mem = true) :
    Memory.wf (resumeService s).mem = true := by
  simp [resumeService, hs]

@[simp] theorem wf_recover (s : State) (failed : Nat) (hs : Memory.wf s.mem = true) :
    Memory.wf (recover s failed).mem = true := by
  unfold recover
  dsimp only
  repeat' split
  all_goals simp [hs]

@[simp] theorem wf_Part.save (w : Nat) (s : State) (p : Part) (hs : Memory.wf s.mem = true) :
    Memory.wf (Part.save w s p).mem = true := by
  unfold Part.save
  extract_lets cells u
  have h : Memory.wf u.mem = true := by
    unfold u
    split
    · exact wf_performCells _ _ _ _ _ hs
    · exact hs
  cases p.what with
  | vault pa => exact wf_terase _ _ _ h
  | anvil k => exact (congrArg Memory.wf (State.modStrand_mem ..)).trans h

@[simp] theorem wf_Part.load (w : Nat) (s : State) (p : Part) (hs : Memory.wf s.mem = true) :
    Memory.wf (Part.load w s p).mem = true := by
  unfold Part.load
  cases p.what with
  | vault pa => exact wf_putCells _ _ _ _ hs
  | anvil k => simpa using hs

@[simp] theorem wf_saveWorld (s : State) (w : Nat) (hs : Memory.wf s.mem = true) :
    Memory.wf (saveWorld s w).mem = true := by
  unfold saveWorld
  dsimp only
  grind [wf_Part.save, State.modWorld_mem, wf_spill, wf_foldl]

@[simp] theorem wf_loadParts (w : Nat) (s : State) (ps : List Part) (hs : Memory.wf s.mem = true) :
    Memory.wf (loadParts w s ps).1.mem = true := by
  unfold loadParts
  grind [compromise_mem, wf_Part.load, wf_foldl]

@[simp] theorem wf_restoreWorld (s : State) (w : Nat) (hs : Memory.wf s.mem = true) :
    Memory.wf (restoreWorld s w).mem = true := by
  unfold restoreWorld
  dsimp only
  grind [loseLaunch_mem, State.modWorld_mem, wf_loadParts, wf_foldl]

@[simp] theorem wf_placeFresh (s : State) (w l : Nat) (sp : Spot) (al : List (Nat × Nat)) (slots : List Nat) (hs :
    Memory.wf s.mem = true) :
    Memory.wf (placeFresh s w l sp al slots).mem = true := by
  unfold placeFresh
  dsimp only
  grind [landed_mem, wakePage_mem, State.modWorld_mem, State.putCtx_mem, State.modLaunch_mem,
      wf_freshAlloc, wf_foldl]

@[simp] theorem wf_placeRotated (s : State) (w l g : Nat) (sp : Spot) (al : List (Nat × Nat)) (slots : List Nat) (hs :
    Memory.wf s.mem = true) :
    Memory.wf (placeRotated s w l g sp al slots).mem = true := by
  unfold placeRotated
  dsimp only
  repeat' split
  all_goals grind [loseLaunch_mem, landed_mem, State.modWorld_mem, State.modLaunch_mem, State.modCtx_mem,
      resumeThese_mem, wf_loadParts, wf_foldl]

theorem optWf_ite {p : Prop} [Decidable p] {x y : Option State} (hx : optWf x) (hy : optWf y) :
    optWf (if p then x else y) := by
  split <;> assumption

theorem optWf_map {α : Type} (o : Option α) (f : α → State) (h : ∀ x, Memory.wf (f x).mem = true) :
    optWf (o.map f) := by
  cases o with
  | none => trivial
  | some x => exact h x

theorem optWf_findSome? {α : Type} (l : List α) (f : α → Option State) (h : ∀ x, optWf (f x)) :
    optWf (l.findSome? f) := by
  induction l with
  | nil => trivial
  | cons x l ih =>
    have hx := h x
    rw [List.findSome?_cons]
    generalize f x = r at hx ⊢
    cases r with
    | none => exact ih
    | some u => exact hx

@[simp] theorem wf_tryPlace (s : State) (w l : Nat) (c : Cand) (hs : Memory.wf s.mem = true) :
    optWf (tryPlace s w l c) := by
  unfold tryPlace
  dsimp only
  split
  · exact optWf_ite trivial (optWf_map _ _ fun _ => by rw [placeStopped_mem]; exact hs)
  · refine optWf_ite trivial (optWf_findSome? _ _ fun sp => optWf_ite trivial ?_)
    split
    · split
      · exact wf_placeRotated _ _ _ _ _ _ _ hs
      · exact wf_placeFresh _ _ _ _ _ _ hs
    · trivial

@[simp] theorem wf_countFail (s : State) (w l : Nat) (c : Cand) (hs : Memory.wf s.mem = true) :
    Memory.wf (countFail s w l c).1.mem = true := by
  unfold countFail
  split <;> simp [hs]

@[simp] theorem wf_decide1 (w : Nat) (os : List (Nat × Nat × Nat)) (s : State) (hs : Memory.wf s.mem = true) :
    Memory.wf (decide1 w os s).1.mem = true := by
  induction os generalizing s with
  | nil => exact hs
  | cons o os ih =>
    unfold decide1
    split
    · exact ih _ hs
    next c _ =>
      have h := wf_tryPlace s w o.2.2 c hs
      generalize tryPlace s w o.2.2 c = r at h ⊢
      cases r with
      | some u => exact h
      | none => exact ih _ (by rw [tryPreempt_mem, tryReserve_mem]; exact wf_countFail _ _ _ _ hs)

@[simp] theorem wf_dispatch (s : State) (hs : Memory.wf s.mem = true) : Memory.wf (dispatch s).mem = true := by
  unfold dispatch
  dsimp only
  repeat' split
  all_goals grind [park_mem, State.modWorld_mem, wf_decide1, State.push_mem, rotate_mem, wf_foldl]

@[simp] theorem wf_rotationSaved (s : State) (w l g : Nat) (hs : Memory.wf s.mem = true) :
    Memory.wf (rotationSaved s w l g).mem = true := by
  unfold rotationSaved
  dsimp only
  repeat' split
  all_goals grind [wf_Part.save, wakePage_mem, park_mem, State.modLaunch_mem, State.modCtx_mem, State.push_mem,
      wf_spill, wf_scrubAlloc, wf_foldl]

@[simp] theorem wf_releasePage (s : State) (page : Nat) (hs : Memory.wf s.mem = true) :
    Memory.wf (releasePage s page).mem = true := by
  unfold releasePage
  split <;> simp [hs]

@[simp] theorem wf_endCkptPacket (s : State) (q status : Nat) (hs : Memory.wf s.mem = true) :
    Memory.wf (endCkptPacket s q status).mem = true := by
  unfold endCkptPacket
  grind [wf_endPacket]

@[simp] theorem wf_failCkpt (s : State) (err : Nat) (hs : Memory.wf s.mem = true) :
    Memory.wf (failCkpt s err).mem = true := by
  unfold failCkpt
  split <;> simp [hs]

@[simp] theorem wf_tagCkpt (s : State) (hs : Memory.wf s.mem = true) : Memory.wf (tagCkpt s).mem = true := by
  simp [tagCkpt, hs]

@[simp] theorem wf_writeArea (s : State) (w pa n : Nat) (cells : Tbl Byte) (hs : Memory.wf s.mem = true) :
    Memory.wf (writeArea s w pa n cells).mem = true := by
  unfold writeArea
  dsimp only
  repeat' split
  all_goals grind [wf_performCells]

@[simp] theorem wf_captureWorld (s : State) (o : CkOp) (w pa : Nat) (hs : Memory.wf s.mem = true) :
    Memory.wf (captureWorld s o w pa).mem = true := by
  unfold captureWorld
  dsimp only
  repeat' split
  all_goals grind [wf_failCkpt, wakePage_mem, State.push_mem, wf_spill, wf_foldl]

@[simp] theorem wf_writeShards (s : State) (o : CkOp) (w : Nat) (hs : Memory.wf s.mem = true) :
    Memory.wf (writeShards s o w).mem = true := by
  unfold writeShards
  dsimp only
  grind [logPhase_mem, wf_writeArea, wf_foldl]

@[simp] theorem wf_abort (s : State) (hs : Memory.wf s.mem = true) : Memory.wf (abort s).mem = true := by
  unfold abort
  dsimp only
  split <;> simp [hs]

@[simp] theorem wf_applyMemShard (s : State) (w gib pa : Nat) (hs : Memory.wf s.mem = true) :
    Memory.wf (applyMemShard s w gib pa).mem = true := wf_foldl _ (fun _ _ h => wf_performCells _ _ _ _ _ h) _ _ hs

@[simp] theorem wf_applyDieShard (s : State) (w die pa : Nat) (hs : Memory.wf s.mem = true) :
    Memory.wf (applyDieShard s w die pa).mem = true := by
  refine wf_foldl _ (fun u i h => ?_) _ _ hs
  dsimp only
  split
  · exact wf_putCells _ _ _ _ h
  · exact wf_performCells _ _ _ _ _ h

@[simp] theorem wf_applyRecords (s : State) (w : Nat) (cs : List (Nat × Ctx)) (ls : List (Nat × Launch)) (hs :
    Memory.wf s.mem = true) :
    Memory.wf (applyRecords s w cs ls).mem = true := by
  unfold applyRecords
  dsimp only
  repeat' split
  all_goals grind [wf_Part.save, touchLines_mem, State.modWorld_mem, wf_foldl]

@[simp] theorem wf_loadAt (s : State) (w k va width : Nat) (hs : Memory.wf s.mem = true) :
    (loadAt s w k va width).Wf := by
  unfold loadAt
  grind [wf_setAD, Got.Wf]

@[simp] theorem wf_reserveAt (s : State) (w k va width : Nat) (hs : Memory.wf s.mem = true) :
    (reserveAt s w k va width).Wf := by
  unfold reserveAt
  grind [State.modStrand_mem, wf_setAD, Got.Wf]

@[simp] theorem wf_armAt (s : State) (w k va : Nat) (hs : Memory.wf s.mem = true) : (armAt s w k va).Wf := by
  unfold armAt
  dsimp only
  repeat' split
  all_goals simp [hs]

@[simp] theorem wf_storeDid (s : State) (w k : Nat) (x : Xlat) (a : Ask) (v : Nat) (strip : Option Nat) (hs :
    Memory.wf s.mem = true) :
    (storeDid s w k x a v strip).Wf := by
  unfold storeDid
  grind [wf_storeNum, Did.Wf, StoreDone.Wf]

@[simp] theorem wf_storeAt (s : State) (w k : Nat) (x : Xlat) (a : Ask) (v : Nat) (hs : Memory.wf s.mem = true) :
    (storeAt s w k x a v).Wf := by
  unfold storeAt
  dsimp only
  repeat' split
  all_goals grind [wf_storeDid, Did.Wf]

@[simp] theorem wf_issueUpdate (s : State) (w k : Nat) (o : Op) (hs : Memory.wf s.mem = true) :
    (issueUpdate s w k o).Wf := by
  unfold issueUpdate
  dsimp only
  repeat' split
  all_goals grind [wf_issueT, hostAtomic_mem, wf_setAD, Did.Wf, okWf]

@[simp] theorem wf_flightUpdate (s : State) (w k id : Nat) (hs : Memory.wf s.mem = true) :
    Memory.wf (flightUpdate s w k id).mem = true := by
  unfold flightUpdate
  dsimp only
  repeat' split
  all_goals grind [wakeAll_mem, wf_applyUpdate, wf_spillFull, compromise_mem, okWf]

@[simp] theorem wf_writeQueueUpdate (s : State) (w k id : Nat) (hs : Memory.wf s.mem = true) :
    Memory.wf (writeQueueUpdate s w k id).mem = true := by
  unfold writeQueueUpdate
  dsimp only
  repeat' split
  all_goals grind [wf_applyUpdate, wf_spillFull, State.modStrand_mem, wf_flightUpdate, State.push_mem,
      opFault_mem, okWf]

@[simp] theorem wf_elementLoad (s : State) (w k core va width : Nat) (hs : Memory.wf s.mem = true) :
    (elementLoad s w k core va width).Wf := by
  unfold elementLoad
  grind [wf_setAD, Got.Wf]

@[simp] theorem wf_elementStore (s : State) (w k core va width v : Nat) (locks : List (Nat × Nat)) (strip : Option
    Nat) (hs : Memory.wf s.mem = true) :
    (elementStore s w k core va width v locks strip).Wf := by
  unfold elementStore
  dsimp only
  repeat' split
  all_goals grind [wf_storeDid, Did.Wf]

@[simp] theorem wf_replayLoad (s : State) (w k : Nat) (o : Op) (hs : Memory.wf s.mem = true) :
    (replayLoad s w k o).Wf := by
  unfold replayLoad
  dsimp only
  repeat' split
  all_goals grind [wf_loadAt, State.modStrand_mem, replayAsk_mem, wf_armAt, wf_reserveAt, Got.Wf, Replay.Wf]

@[simp] theorem wf_replayElement (s : State) (w k : Nat) (o : Op) (hs : Memory.wf s.mem = true) :
    (replayElement s w k o).Wf := by
  unfold replayElement
  dsimp only
  repeat' split
  all_goals grind [State.modStrand_mem, replayAsk_mem, wf_elementLoad, Got.Wf, Replay.Wf]

@[simp] theorem wf_replayT (s : State) (w k : Nat) (o : Op) (hs : Memory.wf s.mem = true) : (replayT s w k o).Wf := by
  unfold replayT
  dsimp only
  repeat' split
  all_goals grind [wf_applyUpdate, sendAtomic_mem, State.modStrand_mem, wf_setAD, leaveT_mem, Replay.Wf, okWf]

@[simp] theorem wf_replayMatrix (s : State) (w k : Nat) (o : Op) (hs : Memory.wf s.mem = true) :
    (replayMatrix s w k o).Wf := by
  unfold replayMatrix
  grind [State.modStrand_mem, Replay.Wf]

@[simp] theorem wf_replayOne (s : State) (w k : Nat) (o : Op) (hs : Memory.wf s.mem = true) :
    (replayOne s w k o).Wf := by
  unfold replayOne
  grind [wf_elementStore, replayChunk_mem, wf_replayMatrix, wf_replayT, State.modStrand_mem, wf_replayElement,
      State.modCtx_mem, wf_replayLoad, State.push_mem, Did.Wf, Replay.Wf]

@[simp] theorem wf_replayAll (s : State) (w k : Nat) (os : List Op) (hs : Memory.wf s.mem = true) :
    Memory.wf (replayAll s w k os).1.mem = true := by
  induction os generalizing s with
  | nil => exact hs
  | cons o os ih =>
    have h := wf_replayOne s w k { o with queued := false } hs
    unfold replayAll
    generalize replayOne s w k { o with queued := false } = r at h ⊢
    cases r with
    | next u => exact ih _ h
    | waits u => rw [State.modStrand_mem]; exact h
    | fault u c fa => rw [takeFault_mem, State.modStrand_mem]; exact h

@[simp] theorem wf_replayDone (s : State) (w k : Nat) (hs : Memory.wf s.mem = true) :
    Memory.wf (replayDone s w k).mem = true := by
  unfold replayDone
  split <;> simp [hs]

@[simp] theorem wf_endRequest (s : State) (id : Nat) (r : HReq) (hs : Memory.wf s.mem = true) :
    Memory.wf (endRequest s id r).mem = true := by simp [endRequest, hs]

@[simp] theorem wf_requestFails (s : State) (id : Nat) (hs : Memory.wf s.mem = true) :
    Memory.wf (requestFails s id).mem = true := by
  unfold requestFails
  dsimp only
  repeat' split
  all_goals simp [hs]

@[simp] theorem wf_giveData (s : State) (w k : Nat) (o : Op) (v : Nat) (hs : Memory.wf s.mem = true) :
    Memory.wf (giveData s w k o v).mem = true := by
  unfold giveData
  grind [State.modStrand_mem, replayAsk_mem, opFault_mem, wf_elementLoad, Got.Wf]

@[simp] theorem wf_keepOld (s : State) (tag : Nat) (r : HReq) (old : Nat) (hs : Memory.wf s.mem = true) :
    Memory.wf (keepOld s tag r old).mem = true := by simp [keepOld, hs]

@[simp] theorem wf_hostCompletion (s : State) (id : Nat) (ok : Bool) (data : List Nat) (hs : Memory.wf s.mem = true) :
    Memory.wf (hostCompletion s id ok data).mem = true := by
  unfold hostCompletion
  dsimp only
  repeat' split
  all_goals simp [hs]

@[simp] theorem wf_hostTranslation (s : State) (id : Nat) (ok : Bool) (hs : Memory.wf s.mem = true) :
    Memory.wf (hostTranslation s id ok).mem = true := by
  unfold hostTranslation
  dsimp only
  repeat' split
  all_goals simp [hs]

@[simp] theorem wf_prgResponse (s : State) (id : Nat) (ok : Bool) (hs : Memory.wf s.mem = true) :
    Memory.wf (prgResponse s id ok).mem = true := by
  unfold prgResponse
  dsimp only
  repeat' split
  all_goals simp [hs]

@[simp] theorem wf_writeWorld (s : State) (who idx off v : Nat) (hs : Memory.wf s.mem = true) :
    Memory.wf (writeWorld s who idx off v).mem = true := by
  unfold writeWorld
  split <;> simp [hs]

@[simp] theorem wf_writePeer (s : State) (idx off v : Nat) (hs : Memory.wf s.mem = true) :
    Memory.wf (writePeer s idx off v).mem = true := by
  unfold writePeer
  grind [State.modPeer_mem, inworldWrite_mem, wf_peerUnfreeze]

@[simp] theorem wf_writeCkpt (s : State) (off v : Nat) (hs : Memory.wf s.mem = true) :
    Memory.wf (writeCkpt s off v).mem = true := by
  unfold writeCkpt
  dsimp only
  repeat' split
  all_goals simp [hs]

@[simp] theorem wf_storeWord (s : State) (w : Nat) (root : Bool) (kind idx off v : Nat) (hs : Memory.wf s.mem = true)
    :
    Memory.wf (storeWord s w root kind idx off v).mem = true := by
  unfold storeWord
  grind [wf_writeCkpt, wf_writePeer, State.modMonit_mem, wf_writeWorld, writeLaunch_mem, writePower_mem,
      writeQueue_mem, writeReady_mem, writeCtx_mem]

@[simp] theorem wf_writePage (s : State) (w : Nat) (root : Bool) (kind idx off v : Nat) (hs : Memory.wf s.mem = true)
    :
    Memory.wf (writePage s w root kind idx off v).mem = true := by simp [writePage, hs]

@[simp] theorem wf_setReg (s : State) (rd : Nat) (v : Word) (hs : Memory.wf s.mem = true) :
    Res.Wf (setReg s rd v) := by
  simp [setReg, hs]

@[simp] theorem wf_jumpTo (s : State) (rd : Nat) (t : Word) (hs : Memory.wf s.mem = true) :
    Res.Wf (jumpTo s rd t) := by
  simp [jumpTo, hs]

@[simp] theorem wf_branchIf (s : State) (b : Bool) (off : Nat) (hs : Memory.wf s.mem = true) :
    Res.Wf (branchIf s b off) := by simp [branchIf, hs]

@[simp] theorem wf_loadReg (s : State) (f3 rd va : Nat) (hs : Memory.wf s.mem = true) :
    Res.Wf (loadReg s f3 rd va) := by
  unfold loadReg
  grind [wf_loadAt, hostLoad_mem, State.advance_mem, scalarFault_mem, State.wx_mem, Got.Wf, Res.Wf]

@[simp] theorem wf_controlStore (s : State) (w k kind idx off v : Nat) (hs : Memory.wf s.mem = true) :
    Memory.wf (controlStore s w k kind idx off v).mem = true := by
  unfold controlStore
  dsimp only
  repeat' split
  all_goals simp [hs]

@[simp] theorem wf_storeReg (s : State) (wl rs2 va : Nat) (hs : Memory.wf s.mem = true) :
    Res.Wf (storeReg s wl rs2 va) := by
  unfold storeReg
  dsimp only
  repeat' split
  all_goals grind [wf_controlStore, wf_setAD, wf_storeAt, State.advance_mem, scalarFault_mem, Did.Wf, Res.Wf]

@[simp] theorem wf_atomicReg (s : State) (kind f5 wl rd rs1 rs2 aq rl : Nat) (hs : Memory.wf s.mem = true) :
    Res.Wf (atomicReg s kind f5 wl rd rs1 rs2 aq rl) := by
  unfold atomicReg
  dsimp only
  repeat' split
  all_goals grind [wf_issueUpdate, wakeAll_mem, State.advance_mem, scalarFault_mem, Did.Wf, Res.Wf]

@[simp] theorem wf_loadReserve (s : State) (wl rd rs1 aq rl : Nat) (hs : Memory.wf s.mem = true) :
    Res.Wf (loadReserve s wl rd rs1 aq rl) := by
  unfold loadReserve
  dsimp only
  repeat' split
  all_goals grind [wf_reserveAt, State.advance_mem, scalarFault_mem, State.wx_mem, Got.Wf, Res.Wf]

@[simp] theorem wf_onWords (s : State) (rd rs1 rs2 : Nat) (f : BitVec 32 → BitVec 32 → BitVec 32) (hs : Memory.wf
    s.mem = true) :
    Res.Wf (onWords s rd rs1 rs2 f) := by
  unfold onWords
  grind [wf_setReg, Res.Wf]

@[simp] theorem wf_applySent (s : State) (w k : Nat) (hs : Memory.wf s.mem = true) :
    Memory.wf (applySent s w k).mem = true := by
  unfold applySent
  grind [wf_applyUpdate, okWf, wf_foldl]

@[simp] theorem wf_setLength (s : State) (xd req : Nat) (hs : Memory.wf s.mem = true) :
    Res.Wf (setLength s xd req) := by
  unfold setLength
  dsimp only
  grind [State.onStrand_mem, wf_setReg, Res.Wf]

@[simp] theorem wf_fenceMark (s : State) (word : Nat) (hs : Memory.wf s.mem = true) : Res.Wf (fenceMark s word) := by
  simp [fenceMark, hs]

@[simp] theorem wf_readPacket (s : State) (w k va n i : Nat) (acc : List Word) (hs : Memory.wf s.mem = true) :
    (readPacket s w k va n i acc).Wf := by
  induction n generalizing s i acc with
  | zero => exact hs
  | succ n ih =>
    unfold readPacket
    dsimp only
    split
    · split
      · exact ih _ _ _ hs
      · exact hs
    have h := wf_loadAt s w k ((va + 8 * i) % 2 ^ 64) 8 hs
    generalize loadAt s w k ((va + 8 * i) % 2 ^ 64) 8 = r at h ⊢
    cases r with
    | fault c => trivial
    | busy => exact hs
    | value u v => exact ih _ _ _ h
    | host u x => exact (congrArg Memory.wf ((State.modStrand_mem ..).trans (hostAsk_mem ..))).trans h

@[simp] theorem wf_barrierOp (s : State) (kind va opnd : Nat) (hs : Memory.wf s.mem = true) :
    Memory.wf (barrierOp s kind va opnd).mem = true := by
  unfold barrierOp
  dsimp only
  repeat' split
  all_goals grind [wf_issueUpdate, State.advance_mem, scalarFault_mem, Did.Wf]

@[simp] theorem wf_fetchWord (s : State) (w k va : Nat) (hs : Memory.wf s.mem = true) : (fetchWord s w k va).Wf := by
  unfold fetchWord
  split
  · trivial
  split
  · trivial
  split
  · split
    · trivial
    split
    · trivial
    · exact wf_setAD _ _ _ _ hs
  · trivial
  · trivial

@[simp] theorem wf_fetchBody (s : State) (w k pc n slot : Nat) (ws : List Nat) (hs : Memory.wf s.mem = true) :
    (fetchBody s w k pc n slot ws).Wf := by
  induction n generalizing s slot ws with
  | zero => exact hs
  | succ n ih =>
    have h := wf_fetchWord s w k ((pc + 4 * slot) % 2 ^ 64) hs
    unfold fetchBody
    generalize fetchWord s w k ((pc + 4 * slot) % 2 ^ 64) = r at h ⊢
    cases r with
    | fault c => trivial
    | waits => trivial
    | word u v => exact ih _ _ _ h

theorem wf_onIssue {s : State} {f : Issue → State} (hf : ∀ q, Memory.wf (f q).mem = true) (hs : Memory.wf s.mem =
    true) :
    (onIssue s f).Wf := by
  unfold onIssue
  split
  · exact hf _
  · exact (congrArg Memory.wf (scalarFault_mem ..)).trans hs

theorem wf_overAccess {ok : Strand → Nat → Bool} {f : State → Nat → Elem} (hf : ∀ s i, Memory.wf s.mem = true → (f s
    i).Wf) (is : List Nat) (s : State) (hs : Memory.wf s.mem = true) :
    Memory.wf (overAccess ok f is s).mem = true := by
  induction is generalizing s with
  | nil => exact hs
  | cons i is ih =>
    have h := hf s i hs
    unfold overAccess
    generalize f s i = r at h ⊢
    split
    · cases r with
      | next u => exact ih _ h
      | halt h => rw [State.haltAt_mem]; exact hs
    · exact ih _ hs

/-- A body word runs as the parameter `ex` runs it. -/
theorem wf_runWord {ex : Instr → State → State} (hex : ∀ i s, Memory.wf s.mem = true → Memory.wf (ex i s).mem = true)
    (s : State) (vm : Bool) (c : Convoy) (vl slot lo hi : Nat) (cut : Option (Nat × Nat)) (hs : Memory.wf s.mem =
    true) :
    Memory.wf (runWord ex s vm c vl slot lo hi cut).1.mem = true := by
  unfold runWord
  split
  · exact hs
  · exact hex _ _ hs

theorem wf_sweep {ex : Instr → State → State} (hex : ∀ i s, Memory.wf s.mem = true → Memory.wf (ex i s).mem = true)
    (vm : Bool) (c : Convoy) (vl : Nat) (hi : Nat → Nat) (js : List Nat) (s : State) (b : Option Stop) (hs : Memory.wf
    s.mem = true) :
    Memory.wf (sweep ex vm c vl hi js s b).1.mem = true := by
  induction js generalizing s b with
  | nil => exact hs
  | cons j js ih =>
    unfold sweep
    extract_lets top
    have h := wf_runWord hex s vm c vl j (c.start j) top none hs
    generalize runWord ex s vm c vl j (c.start j) top none = r at h ⊢
    obtain ⟨u, _ | x⟩ := r
    · exact ih _ _ h
    · exact ih _ _ h

theorem wf_segment {ex : Instr → State → State} (hex : ∀ i s, Memory.wf s.mem = true → Memory.wf (ex i s).mem = true)
    (s : State) (vm : Bool) (c : Convoy) (vl : Nat) (js : List Nat) (n : Nat) (b : Option Stop) (hs : Memory.wf s.mem
    = true) :
    Memory.wf (segment ex s vm c vl js n b).1.mem = true := by
  induction n generalizing b with
  | zero => exact hs
  | succ n ih =>
    unfold segment
    dsimp only
    split
    next u e => exact (congrArg (fun r : State × Option Stop => Memory.wf r.1.mem = true) e).mp (wf_sweep hex vm c
        vl _ js s none hs)
    · exact ih _

@[simp] theorem wf_sendUpdate (s : State) (w k : Nat) (o : Op) (hs : Memory.wf s.mem = true) :
    Memory.wf (sendUpdate s w k o).mem = true := by
  unfold sendUpdate
  split <;> simp [hs]

@[simp] theorem wf_haltConvoy (s : State) (w k : Nat) (vm : Bool) (c : Convoy) (slot rese : Nat) (h : Halt) (at_ :
    Nat) (hs : Memory.wf s.mem = true) :
    Memory.wf (haltConvoy s w k vm c slot rese h at_).mem = true := by
  unfold haltConvoy
  dsimp only
  repeat' split
  all_goals grind [wf_sendUpdate, takeFault_mem, State.modStrand_mem, hostAsk_mem, wf_hostGate, dropRefused_mem,
      Gate.Wf, wf_foldl]

theorem wf_runSegment {ex : Instr → State → State} (hex : ∀ i s, Memory.wf s.mem = true → Memory.wf (ex i s).mem =
    true) (s : State) (w k : Nat) (vm : Bool) (vl : Nat) (c : Convoy) (j : Nat) (next : State → State) (hn : ∀ s,
    Memory.wf s.mem = true → Memory.wf (next s).mem = true) (hs : Memory.wf s.mem = true) :
    Memory.wf (runSegment ex s w k vm vl c j next).mem = true := by
  have h := wf_segment hex s vm c vl (c.run j) (4 * vl + 5) none hs
  unfold runSegment
  dsimp only
  generalize segment ex s vm c vl (c.run j) (4 * vl + 5) none = r at h ⊢
  obtain ⟨u, b⟩ := r
  split
  next t _ e =>
    obtain ⟨rfl, -⟩ := Prod.mk.inj e
    split
    · rw [State.modStrand_mem]; exact h
    · exact hn _ h
  next t f k' x e =>
    obtain ⟨rfl, -⟩ := Prod.mk.inj e
    split
    · exact wf_haltConvoy _ _ _ _ _ _ _ _ _ (wf_sweep hex _ _ _ _ _ _ _ hs)
    · exact wf_haltConvoy _ _ _ _ _ _ _ _ _ h

theorem wf_runSegments {ex : Instr → State → State} (hex : ∀ i s, Memory.wf s.mem = true → Memory.wf (ex i s).mem =
    true) (w k : Nat) (vm : Bool) (vl : Nat) (cut : Option (Nat × Nat)) (n : Nat) (c : Convoy) (j : Nat) (s : State)
    (hs : Memory.wf s.mem = true) :
    Memory.wf (runSegments ex w k vm vl cut n c j s).mem = true := by
  induction n generalizing c j s with
  | zero => exact (congrArg Memory.wf (retireHead_mem s w k vm)).trans hs
  | succ n ih =>
    unfold runSegments
    extract_lets next
    split
    · rw [retireHead_mem]; exact hs
    next i _ =>
    split
    · rw [State.modStrand_mem]; exact hs
    split
    · have h := wf_runWord hex s vm c vl j (if resumesAt i then c.rese else 0) vl cut hs
      generalize runWord ex s vm c vl j (if resumesAt i then c.rese else 0) vl cut = r at h ⊢
      obtain ⟨u, _ | x⟩ := r
      · exact ih _ _ _ h
      · refine wf_haltConvoy _ _ _ _ _ _ _ _ _ ?_
        split
        · exact h
        · exact hs
    · exact wf_runSegment hex _ _ _ _ _ _ _ _ (fun u hu => ih _ _ u hu) hs

theorem wf_issueHead {ex : Instr → State → State} (hex : ∀ i s, Memory.wf s.mem = true → Memory.wf (ex i s).mem =
    true) (s : State) (w k : Nat) (vm : Bool) (cut : Option (Nat × Nat)) (hs : Memory.wf s.mem = true) :
    Memory.wf (issueHead ex s w k vm cut).mem = true := by
  have wait : Memory.wf (s.modStrand w k fun t => t.hold vm).mem = true := by rw [State.modStrand_mem]; exact hs
  unfold issueHead
  dsimp only
  split
  · exact hs
  split
  · exact hs
  · split
    · rw [State.modStrand_mem]; exact hs
    · exact wait
  · split
    · rw [retireHead_mem]; exact hs
    · exact wait
  · split
    · rw [dropConvoy_mem]; exact hs
    split
    · exact wait
    · exact wf_runSegments hex _ _ _ _ _ _ _ _ _ hs

@[simp] theorem wf_readElem (s : State) (q : Issue) (core i ty reg sub wlog va : Nat) (hs : Memory.wf s.mem = true) :
    (readElem s q core i ty reg sub wlog va).Wf := by
  unfold readElem
  dsimp only
  repeat' split
  all_goals grind [State.onStrand_mem, wf_elementLoad, Got.Wf, Read.Wf]

@[simp] theorem wf_writeElem (s : State) (q : Issue) (core i wlog va v : Nat) (hs : Memory.wf s.mem = true) :
    (writeElem s q core i wlog va v).Wf := by
  unfold writeElem
  grind [wf_elementStore, Did.Wf, Elem.Wf]

theorem wf_vectorLoad (v : Nat) (i : Instr) (s : State) (hs : Memory.wf s.mem = true) : (vectorLoad v i s).Wf := by
  refine wf_onIssue (fun q => wf_overAccess (fun u e hu => ?_) _ _ hs) hs
  split
  next t x he =>
    refine (congrArg Memory.wf (State.onStrand_mem ..)).trans ?_
    exact (congrArg Read.Wf he).mp (wf_readElem _ _ _ _ _ _ _ _ _ hu)
  · trivial

theorem wf_vectorStore (v : Nat) (i : Instr) (s : State) (hs : Memory.wf s.mem = true) : (vectorStore v i s).Wf :=
  wf_onIssue (fun _ => wf_overAccess (fun _ _ hu => wf_writeElem _ _ _ _ _ _ _ hu) _ _ hs) hs

@[simp] theorem wf_amoElem (s : State) (q : Issue) (old : Bool) (v fn va n i : Nat) (hs : Memory.wf s.mem = true) :
    (amoElem s q old v fn va n i).Wf := by
  unfold amoElem
  dsimp only
  repeat' split
  all_goals grind [wf_issueT, wf_setAD, Elem.Wf, okWf]

theorem wf_vectorAmo (old : Bool) (v fn : Nat) (i : Instr) (s : State) (hs : Memory.wf s.mem = true) :
    (vectorAmo old v fn i s).Wf := by
  refine wf_onIssue (fun q => ?_) hs
  extract_lets elem r
  have h : Memory.wf r.mem = true := wf_overAccess (fun u e hu => wf_amoElem _ _ _ _ _ _ _ _ hu) _ _ hs
  split
  · split
    · exact h
    · rw [State.haltAt_mem]; exact h
  · exact h

@[simp] theorem wf_readRuns (s : State) (w k : Nat) (own : Bool) (runs : List (Nat × Nat)) (hs : Memory.wf s.mem =
    true) :
    (readRuns s w k own runs).Wf := by
  unfold readRuns
  grind [wf_setAD, RowRead.Wf, wf_foldl]

@[simp] theorem wf_readRow (s : State) (w k : Nat) (own : Bool) (ty st base n : Nat) (hs : Memory.wf s.mem = true) :
    (readRow s w k own ty st base n).Wf := by
  unfold readRow
  grind [wf_readRuns, RowRead.Wf]

theorem wf_onAnvil {s : State} {f : Issue → Anvil → State} (hf : ∀ q a, Memory.wf (f q a).mem = true) (hs : Memory.wf
    s.mem = true) :
    (onAnvil s f).Wf := by
  refine wf_onIssue (fun q => ?_) hs
  split
  · split
    · rw [State.haltAt_mem]; exact hs
    · exact hf _ _
  · rw [State.haltAt_mem]; exact hs

theorem wf_issueRecords (q : Issue) (m rb base : Nat) (js : List Nat) (s : State) (hs : Memory.wf s.mem = true) :
    Memory.wf (issueRecords q m rb base js s).mem = true := by
  induction js generalizing s with
  | nil => exact hs
  | cons j js ih =>
    have halted : ∀ x, Memory.wf (s.haltAt x).mem = true := fun x => by rw [State.haltAt_mem]; exact hs
    generalize hu : issueRecords q m rb base (j :: js) s = u
    rw [issueRecords] at hu
    split at hu
    · exact hu ▸ halted _
    · exact hu ▸ halted _
    next t bs he =>
      have h := (congrArg RowRead.Wf he).mp (wf_readRuns _ _ _ _ _ hs)
      extract_lets x at hu
      split at hu
      · exact hu ▸ halted _
      · exact hu ▸ halted _
      · split at hu
        · exact hu ▸ halted _
        · exact hu ▸ ih _ (by rw [holdMatrix_mem]; exact h)

@[simp] theorem wf_loadStep (s : State) (w k : Nat) (a : Anvil) (h : MatOp) (hs : Memory.wf s.mem = true) :
    (loadStep s w k a h).Wf := by
  unfold loadStep
  dsimp only
  repeat' split
  all_goals grind [wf_readRow, RowRead.Wf, Stepped.Wf]

@[simp] theorem wf_rowStep (s : State) (w k : Nat) (a : Anvil) (h : MatOp) (hs : Memory.wf s.mem = true) :
    (rowStep s w k a h).Wf := by
  unfold rowStep
  dsimp only
  repeat' split
  all_goals grind [wf_readRow, RowRead.Wf, Stepped.Wf]

theorem wf_readB (w k : Nat) (r : Record) (is : List Nat) (s : State) (b : Tbl Nat) (hs : Memory.wf s.mem = true) :
    (readB w k r is s b).Wf := by
  induction is generalizing s b with
  | nil => exact hs
  | cons i is ih =>
    have h := wf_readRow s w k false r.bfmt r.bstride (rowBase r.bfmt r.bstride r.bbase i) r.ncol hs
    unfold readB
    generalize readRow s w k false r.bfmt r.bstride (rowBase r.bfmt r.bstride r.bbase i) r.ncol = x at h ⊢
    cases x with
    | waits => trivial
    | fault c va => trivial
    | got u xs => exact ih _ _ h

theorem wf_endRecord (s : State) (w k : Nat) (a : Anvil) (h : MatOp) (status detail : Nat) (rinv : Bool) (hs :
    Memory.wf s.mem = true) :
    (endRecord s w k a h status detail rinv).Wf := by
  generalize hr : endRecord s w k a h status detail rinv = r
  rw [endRecord] at hr
  split at hr
  · exact hr ▸ True.intro
  · exact hr ▸ True.intro
  split at hr
  · split at hr
    · exact hr ▸ True.intro
    · subst hr
      exact wf_performWrite _ _ _ _ (wf_setAD _ _ _ _ hs)
  · subst hr
    exact hs

@[simp] theorem wf_recordStep (s : State) (w k : Nat) (a : Anvil) (h : MatOp) (hs : Memory.wf s.mem = true) :
    (recordStep s w k a h).Wf := by
  unfold recordStep
  dsimp only
  repeat' split
  all_goals grind [wf_readRow, wf_endRecord, wf_readB, RowRead.Wf, Stepped.Wf]

@[simp] theorem wf_stepHeld (s : State) (w k : Nat) (a : Anvil) (h : MatOp) (hs : Memory.wf s.mem = true) :
    (stepHeld s w k a h).Wf := by
  unfold stepHeld
  grind [wf_rowStep, wf_recordStep, wf_loadStep, Stepped.Wf]

@[simp] theorem wf_batchComplete (s : State) (w k : Nat) (hs : Memory.wf s.mem = true) :
    Memory.wf (batchComplete s w k).mem = true := by
  unfold batchComplete
  dsimp only
  repeat' split
  all_goals grind [takeFault_mem, State.modStrand_mem, park_mem, completeBatches_mem, wf_stepHeld, State.push_mem,
      Stepped.Wf]

@[simp] theorem wf_failChunk (s : State) (q : Issue) (kind op5 reg group i status : Nat) (hs : Memory.wf s.mem = true)
    :
    (failChunk s q kind op5 reg group i status).Wf := by
  unfold failChunk
  split <;> simp [hs]

@[simp] theorem wf_issueChunk (s : State) (q : Issue) (kind op5 reg group i src dst len : Nat) (hs : Memory.wf s.mem =
    true) :
    (issueChunk s q kind op5 reg group i src dst len).Wf := by
  unfold issueChunk
  dsimp only
  repeat' split
  all_goals simp [hs]

theorem wf_copyElems (q : Issue) (op5 reg : Nat) {f : Nat → State → Nat → Elem} (hf : ∀ n s i, Memory.wf s.mem = true
    → (f n s i).Wf) (s : State) (hs : Memory.wf s.mem = true) :
    Memory.wf (copyElems q op5 reg f s).mem = true := by
  have h := fun ok n => wf_overAccess (ok := ok) (hf n) (rangeFrom q.lo q.hi) s hs
  unfold copyElems
  split
  · exact hs
  · extract_lets id u
    split
    · split
      · exact (congrArg Memory.wf (State.onStrand_mem ..)).trans (h _ _)
      · exact h _ _
    · split
      · exact (congrArg Memory.wf (State.onStrand_mem ..)).trans (h _ _)
      · exact h _ _

@[simp] theorem wf_cmdElem (q : Issue) (pd vs : Nat) (s : State) (i : Nat) (hs : Memory.wf s.mem = true) :
    (cmdElem q pd vs s i).Wf := by
  unfold cmdElem
  dsimp only
  repeat' split
  all_goals simp [hs]

@[simp] theorem wf_takeInput (s : State) (z0 : Input) (hs : Memory.wf s.mem = true) :
    Memory.wf (takeInput s z0).mem = true := by
  unfold takeInput
  grind [sendUnit_mem, bar4Write_mem, hostReadNow_mem, advanceIod0_mem, sense_mem, wireFlit_mem, configure_mem,
      State.passTo_mem, handSlots_mem, wf_hostTranslation, State.emit_mem]

@[simp] theorem overtake_mem (s : State) (w k : Nat) (pc : Word) (i : Instr) (r : State) :
    (overtake s w k pc i r).mem = r.mem := by
  unfold overtake
  split
  · dsimp only
    split
    · rw [State.modStrand_mem]
    · rfl
  · rfl

@[simp] theorem named_mem (s : State) (w k : Nat) (pc : Word) (i : Instr) (r : State) :
    (named s w k pc i r).mem = r.mem := by
  unfold named
  split
  · dsimp only
    split
    · rw [State.modStrand_mem, nameRegs_mem]
    · rw [nameRegs_mem]
  · rfl

theorem wf_runScalar {ex : Instr → State → Res} (hex : ∀ i s, Memory.wf s.mem = true → (ex i s).Wf) (s : State) (i :
    Instr) (hs : Memory.wf s.mem = true) :
    (runScalar ex s i).Wf := by
  have h := hex i s hs
  unfold runScalar
  dsimp only
  split
  · exact (congrArg Memory.wf (scalarFault_mem ..)).trans hs
  split
  · exact (congrArg Memory.wf (stallAt_mem ..)).trans hs
  split
  next r e => exact (congrArg Memory.wf ((named_mem ..).trans (overtake_mem ..))).trans ((congrArg Res.Wf e).mp h)
  · exact h

theorem wf_scalarTurn {ex : Instr → State → Res} (hex : ∀ i s, Memory.wf s.mem = true → (ex i s).Wf) (s : State) (w k
    : Nat) (hs : Memory.wf s.mem = true) :
    (scalarTurn ex s w k).Wf := by
  unfold scalarTurn
  split
  · exact hs
  · extract_lets u
    have h := wf_fetchWord u w k u.pc.toNat hs
    generalize fetchWord u w k u.pc.toNat = r at h ⊢
    cases r with
    | waits => exact hs
    | fault c => exact (congrArg Memory.wf (scalarFault_mem ..)).trans hs
    | word t v =>
      dsimp only
      split
      · exact wf_runScalar hex _ _ h
      · exact (congrArg Memory.wf (scalarFault_mem ..)).trans h

theorem wf_runEvent {ex : Instr → State → Res} (hex : ∀ i s, Memory.wf s.mem = true → (ex i s).Wf) (s : State) (e :
    Event) (hs : Memory.wf s.mem = true) :
    (runEvent ex s e).Wf := hex _ _ hs

theorem wf_after {ex : Instr → State → Res} (hex : ∀ i s, Memory.wf s.mem = true → (ex i s).Wf) (i : Instr) (s :
    State) (hs : Memory.wf s.mem = true) :
    Memory.wf (after ex i s).mem = true := by
  have h := hex i s hs
  unfold after
  split
  next e => exact (congrArg Res.Wf e).mp h
  · exact hs

theorem wf_runInput {ex : Instr → State → Res} (hex : ∀ i s, Memory.wf s.mem = true → (ex i s).Wf) (s : State) (i :
    Input) (hs : Memory.wf s.mem = true) :
    (runInput ex s i).Wf := by
  unfold runInput
  split
  · split
    · exact (congrArg Memory.wf (deliverRequests_mem ..)).trans hs
    · exact wf_runEvent hex _ _ hs
  · exact wf_takeInput _ _ hs

theorem wf_answering (r : Res) (h : r.Wf) : (answering r).Wf := by
  unfold answering
  split
  · exact (congrArg Memory.wf (answerReads_mem _)).trans h
  · exact h

theorem wf_runTurn {ex : Instr → State → Res} (hex : ∀ i s, Memory.wf s.mem = true → (ex i s).Wf) (s : State) (t :
    Turn) (hs : Memory.wf s.mem = true) :
    (runTurn ex s t).Wf := by
  have queue := fun w k vm cut => (congrArg Memory.wf (unpace_mem w k _)).trans (wf_issueHead (wf_after hex) s w k
      vm cut hs)
  unfold runTurn
  split
  · split
    · exact wf_answering _ (wf_runInput hex _ _ hs)
    · exact hs
  · split
    · exact wf_answering _ (wf_runEvent hex _ _ hs)
    · exact hs
  next w k =>
    have h := wf_scalarTurn hex s w k hs
    generalize scalarTurn ex s w k = r at h ⊢
    cases r with
    | next r => exact (congrArg Memory.wf (pace_mem ..)).trans h
    | _ => trivial
  · exact queue _ _ _ _
  · exact queue _ _ _ _
  · exact queue _ _ _ _

/-! ### The operations -/

theorem wf_afterStep (s : State) (mb n : Nat) (f : State → State) (hf : Memory.wf (f s).mem = true) (hs : Memory.wf
    s.mem = true) :
    Memory.wf (afterStep s mb n f).mem = true := by
  unfold afterStep
  split
  · rw [State.answer_mem]; exact hs
  · exact hf

theorem wf_geometric (g : GWord) (vd vs : Nat) (s : State) (hs : Memory.wf s.mem = true) :
    (geometric g vd vs s).Wf := by
  refine wf_onIssue (fun q => ?_) hs
  extract_lets t0 ty tb p e sel run end_
  have halted : ∀ (u : State) x, Memory.wf u.mem = true → Memory.wf (u.haltAt x).mem = true := fun u x h =>
      (congrArg Memory.wf (State.haltAt_mem u x)).trans h
  have hrun : ∀ l, Memory.wf (run l).mem = true := fun l => (congrArg Memory.wf (State.onStrand_mem ..)).trans hs
  have hend : ∀ u, Memory.wf u.mem = true → Memory.wf (end_ u).mem = true := by
    intro u h
    unfold end_
    split
    · split
      · exact h
      split
      · exact halted _ _ h
      · exact halted _ _ h
    · exact h
  split
  · split
    · split
      · exact halted _ _ (hrun _)
      · exact hend _ (hrun _)
    · exact hend _ (hrun _)
  · split
    · exact halted _ _ hs
    · exact hend _ (hrun _)

theorem wf_twoOp (vd va vb sx : Nat) (f : Mode → Nat → Nat → Nat × Nat) (s : State) (hs : Memory.wf s.mem = true) :
    (twoOp vd va vb sx f s).Wf := wf_onIssue (fun q => by simp [hs]) hs

theorem wf_oneOp (vd va : Nat) (f : Mode → Nat → Nat × Nat) (s : State) (hs : Memory.wf s.mem = true) :
    (oneOp vd va f s).Wf := wf_onIssue (fun q => by simp [hs]) hs

theorem wf_fused (np nc : Bool) (vd va vb sx : Nat) (s : State) (hs : Memory.wf s.mem = true) :
    (fused np nc vd va vb sx s).Wf := wf_onIssue (fun q => by simp [hs]) hs

theorem wf_compare (op pd va vb sx : Nat) (s : State) (hs : Memory.wf s.mem = true) : (compare op pd va vb sx s).Wf :=
  wf_onIssue (fun q => by simp [hs]) hs

theorem wf_reduce (f : Mode → Nat → Nat → Nat × Nat) (vd va vb sx : Nat) (s : State) (hs : Memory.wf s.mem = true) :
    (reduce f vd va vb sx s).Wf := wf_onIssue (fun q => by simp [hs]) hs

theorem wf_predOp (pd pa pb : Nat) (f : Bool → Bool → Bool) (s : State) (hs : Memory.wf s.mem = true) :
    (predOp pd pa pb f s).Wf := wf_onIssue (fun q => by simp [hs]) hs

theorem wf_copyWord (op5 reg len : Nat) (stride : Word) (s : State) (hs : Memory.wf s.mem = true) :
    (copyWord op5 reg len stride s).Wf := by
  refine wf_onIssue (fun q => wf_copyElems _ _ _ (fun id u i hu => ?_) _ hs) hs
  extract_lets t
  have ht : Memory.wf t.mem = true := by
    unfold t
    split
    · exact (congrArg Memory.wf (State.onStrand_mem ..)).trans hu
    · exact hu
  split
  · exact wf_failChunk _ _ _ _ _ _ _ _ ht
  · exact wf_issueChunk _ _ _ _ _ _ _ _ _ _ ht

theorem wf_execStop (s : State) (hs : Memory.wf s.mem = true) : (execStop s).Wf := by simp [execStop, hs]
theorem wf_execRun (s : State) (hs : Memory.wf s.mem = true) : (execRun s).Wf := by simp [execRun, hs]
theorem wf_execKill (s : State) (hs : Memory.wf s.mem = true) : (execKill s).Wf := by simp [execKill, hs]
theorem wf_execCmdZero (s : State) (hs : Memory.wf s.mem = true) : (execCmdZero s).Wf := hs

theorem wf_execCtxSavedFieldWrite (s : State) (hs : Memory.wf s.mem = true) : (execCtxSavedFieldWrite s).Wf := by
  simp [execCtxSavedFieldWrite, hs]

theorem wf_execContextSaved (s : State) (hs : Memory.wf s.mem = true) : (execContextSaved s).Wf := by
  simp [execContextSaved, hs]

theorem wf_execStopAll (s : State) (hs : Memory.wf s.mem = true) : (execStopAll s).Wf := by
  simp [execStopAll, hs]

theorem wf_execRunAll (s : State) (hs : Memory.wf s.mem = true) : (execRunAll s).Wf := by simp [execRunAll, hs]

theorem wf_execKillAll (s : State) (hs : Memory.wf s.mem = true) : (execKillAll s).Wf := by
  simp [execKillAll, hs]

theorem wf_execMsixUnmask (s : State) (hs : Memory.wf s.mem = true) : (execMsixUnmask s).Wf := by
  simp [execMsixUnmask, hs]

theorem wf_execVectorMask (s : State) (hs : Memory.wf s.mem = true) : (execVectorMask s).Wf := by
  simp [execVectorMask, hs]

theorem wf_execCoalesceWrite (s : State) (hs : Memory.wf s.mem = true) : (execCoalesceWrite s).Wf := by
  simp [execCoalesceWrite, hs]

theorem wf_execHoldExpiry (s : State) (hs : Memory.wf s.mem = true) : (execHoldExpiry s).Wf := by
  simp [execHoldExpiry, hs]

theorem wf_execAtsInvalidationRequest (s : State) (hs : Memory.wf s.mem = true) :
    (execAtsInvalidationRequest s).Wf := by
  simp [execAtsInvalidationRequest, hs]

theorem wf_execAtsInvalidationCompletion (s : State) (hs : Memory.wf s.mem = true) :
    (execAtsInvalidationCompletion s).Wf := by
  unfold execAtsInvalidationCompletion
  split <;> simp [hs]

theorem wf_execHostWriteRefusal (s : State) (hs : Memory.wf s.mem = true) : (execHostWriteRefusal s).Wf := hs
theorem wf_execBar0UnbackedWrite (s : State) (hs : Memory.wf s.mem = true) : (execBar0UnbackedWrite s).Wf := hs
theorem wf_execClear (s : State) (hs : Memory.wf s.mem = true) : (execClear s).Wf := hs
theorem wf_execMonitorCapture (s : State) (hs : Memory.wf s.mem = true) : (execMonitorCapture s).Wf := hs

theorem wf_execMonitorLevelSample (s : State) (hs : Memory.wf s.mem = true) : (execMonitorLevelSample s).Wf := by
  simp [execMonitorLevelSample, hs]

theorem wf_execReqMv (s : State) (hs : Memory.wf s.mem = true) : (execReqMv s).Wf := hs

@[simp] theorem wf_execCapWrite (s : State) (hs : Memory.wf s.mem = true) : (execCapWrite s).Wf := by
  unfold execCapWrite
  split
  · exact hs
  · exact State.wf_serve _ _ (fun u hu => (congrArg Memory.wf (State.onPow_mem ..)).trans hu) hs

theorem wf_execVoltageRampDone (s : State) (hs : Memory.wf s.mem = true) : (execVoltageRampDone s).Wf := by
  simp [execVoltageRampDone, hs]

theorem wf_execClockLockDone (s : State) (hs : Memory.wf s.mem = true) : (execClockLockDone s).Wf := by
  simp [execClockLockDone, hs]

@[simp] theorem wf_execStallWindowClose (s : State) (hs : Memory.wf s.mem = true) : (execStallWindowClose s).Wf := by
  unfold execStallWindowClose
  extract_lets c u now
  exact (congrArg Memory.wf ((State.onPow_mem ..).trans ((State.tick_mem ..).trans (settleTo_mem ..)))).trans hs

theorem wf_execPowerLimiterInterval (s : State) (hs : Memory.wf s.mem = true) : (execPowerLimiterInterval s).Wf := by
  simp [execPowerLimiterInterval, hs]

theorem wf_execThermalHot (s : State) (hs : Memory.wf s.mem = true) : (execThermalHot s).Wf := by
  simp [execThermalHot, hs]

theorem wf_execThermalRelease (s : State) (hs : Memory.wf s.mem = true) : (execThermalRelease s).Wf := by
  simp [execThermalRelease, hs]

theorem wf_execThermalTrip (s : State) (hs : Memory.wf s.mem = true) : (execThermalTrip s).Wf := hs
theorem wf_execPowerFlagsClear (s : State) (hs : Memory.wf s.mem = true) : (execPowerFlagsClear s).Wf := hs

theorem wf_execEdgeUnitReceive (s : State) (hs : Memory.wf s.mem = true) : (execEdgeUnitReceive s).Wf := by
  unfold execEdgeUnitReceive
  dsimp only
  split <;> simp [hs]

theorem wf_execFlitReceive (s : State) (hs : Memory.wf s.mem = true) : (execFlitReceive s).Wf := by
  unfold execFlitReceive
  dsimp only
  split <;> simp [hs]

theorem wf_execFlitRefusal (s : State) (hs : Memory.wf s.mem = true) : (execFlitRefusal s).Wf := by
  simp [execFlitRefusal, hs]

theorem wf_execFlitAck (s : State) (hs : Memory.wf s.mem = true) : (execFlitAck s).Wf := by
  simp [execFlitAck, hs]

theorem wf_execFnReady (s : State) (hs : Memory.wf s.mem = true) : (execFnReady s).Wf := by
  simp [execFnReady, hs]

theorem wf_execCdieReady (s : State) (hs : Memory.wf s.mem = true) : (execCdieReady s).Wf := by
  simp [execCdieReady, hs]

theorem wf_execAnvilReady (s : State) (hs : Memory.wf s.mem = true) : (execAnvilReady s).Wf := by
  simp [execAnvilReady, hs]

theorem wf_execMlinkReady (s : State) (hs : Memory.wf s.mem = true) : (execMlinkReady s).Wf := by
  simp [execMlinkReady, hs]

theorem wf_execPlinkReady (s : State) (hs : Memory.wf s.mem = true) : (execPlinkReady s).Wf := by
  simp [execPlinkReady, hs]

theorem wf_execLinkTrainingLoss (s : State) (hs : Memory.wf s.mem = true) : (execLinkTrainingLoss s).Wf := by
  simp [execLinkTrainingLoss, hs]

theorem wf_execLinkRetrainDone (s : State) (hs : Memory.wf s.mem = true) : (execLinkRetrainDone s).Wf := by
  unfold execLinkRetrainDone
  dsimp only [Res.Wf]
  repeat' split
  all_goals simp [hs]

theorem wf_execLinkFailure (s : State) (hs : Memory.wf s.mem = true) : (execLinkFailure s).Wf := by
  unfold execLinkFailure
  dsimp only [Res.Wf]
  repeat' split
  all_goals simp [hs]

theorem wf_execMlinkRetrain (s : State) (hs : Memory.wf s.mem = true) : (execMlinkRetrain s).Wf := by
  simp [execMlinkRetrain, hs]

theorem wf_execPlinkRetrain (s : State) (hs : Memory.wf s.mem = true) : (execPlinkRetrain s).Wf := by
  simp [execPlinkRetrain, hs]

theorem wf_execMlinkFailClear (s : State) (hs : Memory.wf s.mem = true) : (execMlinkFailClear s).Wf := by
  simp [execMlinkFailClear, hs]

theorem wf_execPlinkFailClear (s : State) (hs : Memory.wf s.mem = true) : (execPlinkFailClear s).Wf := by
  simp [execPlinkFailClear, hs]

theorem wf_execPostedStoreDropped (s : State) (hs : Memory.wf s.mem = true) : (execPostedStoreDropped s).Wf := by
  simp [execPostedStoreDropped, hs]

theorem wf_execRingPacketRead (s : State) (hs : Memory.wf s.mem = true) : (execRingPacketRead s).Wf := by
  simp [execRingPacketRead, hs]

theorem wf_execLaunch (s : State) (hs : Memory.wf s.mem = true) : (execLaunch s).Wf := by simp [execLaunch, hs]

theorem wf_execWaitvalue (s : State) (hs : Memory.wf s.mem = true) : (execWaitvalue s).Wf := by
  unfold execWaitvalue
  dsimp only [Res.Wf]
  repeat' split
  all_goals grind [wf_takePacket, wf_testWait, Res.Wf, Taken.Wf]

theorem wf_execWaitvalueRetest (s : State) (hs : Memory.wf s.mem = true) : (execWaitvalueRetest s).Wf := by
  unfold execWaitvalueRetest
  dsimp only [Res.Wf]
  repeat' split
  all_goals simp [hs]

theorem wf_execWritevalue (s : State) (hs : Memory.wf s.mem = true) : (execWritevalue s).Wf := by
  unfold execWritevalue
  dsimp only [Res.Wf]
  repeat' split
  all_goals grind [wf_takePacket, State.push_mem, State.modQueue_mem, Res.Wf, Taken.Wf]

theorem wf_execWritevaluePerformed (s : State) (hs : Memory.wf s.mem = true) : (execWritevaluePerformed s).Wf := by
  unfold execWritevaluePerformed
  dsimp only [Res.Wf]
  repeat' split
  all_goals grind [park_mem, wf_endPacket, wf_unitStore, Reached.Wf, Res.Wf]

theorem wf_execNop (s : State) (hs : Memory.wf s.mem = true) : (execNop s).Wf := by
  unfold execNop
  dsimp only [Res.Wf]
  repeat' split
  all_goals grind [wf_takePacket, wf_endPacket, Res.Wf, Taken.Wf]

theorem wf_execLaunchDone (s : State) (hs : Memory.wf s.mem = true) : (execLaunchDone s).Wf := by
  simp [execLaunchDone, hs]

@[simp] theorem wf_execLaunchRegisterWrite (s : State) (hs : Memory.wf s.mem = true) :
    (execLaunchRegisterWrite s).Wf := by
  unfold execLaunchRegisterWrite
  extract_lets go
  have h : ∀ u, Memory.wf u.mem = true → Memory.wf (go u).mem = true := fun u hu => (congrArg Memory.wf
      (launchWrite_mem ..)).trans hu
  split
  · exact State.wf_serve _ _ h hs
  · exact h _ hs

theorem wf_execOwnerWrite (s : State) (hs : Memory.wf s.mem = true) : (execOwnerWrite s).Wf := by
  simp [execOwnerWrite, hs]

theorem wf_execQueueLockedFieldWrite (s : State) (hs : Memory.wf s.mem = true) :
    (execQueueLockedFieldWrite s).Wf := by
  simp [execQueueLockedFieldWrite, hs]

theorem wf_execStart (s : State) (hs : Memory.wf s.mem = true) : (execStart s).Wf :=
  State.wf_serve _ _ (fun u hu => by simp [hu]) hs

theorem wf_execUnlock (s : State) (hs : Memory.wf s.mem = true) : (execUnlock s).Wf :=
  State.wf_serve _ _ (fun u hu => by simp [hu]) hs

theorem wf_execQcmdIgnored (s : State) (hs : Memory.wf s.mem = true) : (execQcmdIgnored s).Wf :=
  State.wf_serve _ _ (fun u hu => by simp [hu]) hs

theorem wf_execTailStore (s : State) (hs : Memory.wf s.mem = true) : (execTailStore s).Wf := by
  simp [execTailStore, hs]

theorem wf_execRingerrClear (s : State) (hs : Memory.wf s.mem = true) : (execRingerrClear s).Wf := by
  simp [execRingerrClear, hs]

theorem wf_execCreate (s : State) (hs : Memory.wf s.mem = true) : (execCreate s).Wf :=
  State.wf_serve _ _ (fun u hu => by simp [hu]) hs

theorem wf_execCreateComplete (s : State) (hs : Memory.wf s.mem = true) : (execCreateComplete s).Wf := by
  simp [execCreateComplete, hs]

theorem wf_execDestroy (s : State) (hs : Memory.wf s.mem = true) : (execDestroy s).Wf :=
  State.wf_serve _ _ (fun u hu => by simp [hu]) hs

theorem wf_execDestroyComplete (s : State) (hs : Memory.wf s.mem = true) : (execDestroyComplete s).Wf := by
  simp [execDestroyComplete, hs]

theorem wf_execUnfreeze (s : State) (hs : Memory.wf s.mem = true) : (execUnfreeze s).Wf :=
  State.wf_serve _ _ (fun u hu => by simp [hu]) hs

theorem wf_execWcmdZero (s : State) (hs : Memory.wf s.mem = true) : (execWcmdZero s).Wf :=
  State.wf_serve _ _ (fun u hu => by simp [hu]) hs

@[simp] theorem wf_execVfFlr (s : State) (hs : Memory.wf s.mem = true) : (execVfFlr s).Wf := by
  unfold execVfFlr
  extract_lets n
  split
  · exact hs
  · refine State.wf_serve _ _ (fun u hu => ?_) hs
    split
    · exact hu
    · exact wf_flr _ _ hu

theorem wf_execPfFlr (s : State) (hs : Memory.wf s.mem = true) : (execPfFlr s).Wf := by simp [execPfFlr, hs]

theorem wf_execHotReset (s : State) (hs : Memory.wf s.mem = true) : (execHotReset s).Wf := by
  simp [execHotReset, hs]

theorem wf_execLinkDown (s : State) (hs : Memory.wf s.mem = true) : (execLinkDown s).Wf := by
  unfold execLinkDown
  split <;> simp [hs]

theorem wf_execIodReady (s : State) (hs : Memory.wf s.mem = true) : (execIodReady s).Wf := by
  unfold execIodReady
  dsimp only [Res.Wf]
  repeat' split
  all_goals simp [hs]

theorem wf_execMgrpReady (s : State) (hs : Memory.wf s.mem = true) : (execMgrpReady s).Wf := by
  simp [execMgrpReady, hs]

@[simp] theorem wf_execIdeIntegrityFailure (s : State) (hs : Memory.wf s.mem = true) :
    (execIdeIntegrityFailure s).Wf := by
  unfold execIdeIntegrityFailure
  extract_lets n u v
  have hv : Memory.wf v.mem = true :=
    (congrArg Memory.wf ((wakePage_mem ..).trans ((State.modWorld_mem ..).trans (State.modFn_mem ..)))).trans hs
  exact wf_foldl _ (fun t q h => (congrArg Memory.wf (interfaceError_mem ..)).trans h) _ _ hv

theorem wf_execInboundRemoteStore (s : State) (hs : Memory.wf s.mem = true) : (execInboundRemoteStore s).Wf := by
  unfold execInboundRemoteStore
  dsimp only [Res.Wf]
  repeat' split
  all_goals simp [hs]

theorem wf_execInboundCopyWrite (s : State) (hs : Memory.wf s.mem = true) : (execInboundCopyWrite s).Wf := by
  unfold execInboundCopyWrite
  dsimp only [Res.Wf]
  repeat' split
  all_goals simp [hs]

theorem wf_execInboundCopyRead (s : State) (hs : Memory.wf s.mem = true) : (execInboundCopyRead s).Wf := by
  unfold execInboundCopyRead
  dsimp only [Res.Wf]
  repeat' split
  all_goals simp [hs]

theorem wf_execPlinkUnfreeze (s : State) (hs : Memory.wf s.mem = true) : (execPlinkUnfreeze s).Wf := by
  simp [execPlinkUnfreeze, hs]

theorem wf_execInworldWrite (s : State) (hs : Memory.wf s.mem = true) : (execInworldWrite s).Wf := hs

theorem wf_execRemoteStoreAck (s : State) (hs : Memory.wf s.mem = true) : (execRemoteStoreAck s).Wf := by
  simp [execRemoteStoreAck, hs]

theorem wf_execRemoteStoreRefusal (s : State) (hs : Memory.wf s.mem = true) : (execRemoteStoreRefusal s).Wf := by
  simp [execRemoteStoreRefusal, hs]

theorem wf_execGetVersion (s : State) (hs : Memory.wf s.mem = true) : (execGetVersion s).Wf :=
  wf_served _ _ (by simp [hs]) hs

@[simp] theorem wf_execGetCapabilities (s : State) (hs : Memory.wf s.mem = true) : (execGetCapabilities s).Wf :=
  wf_served _ _ (wf_afterStep _ _ _ _ (by rw [State.answer_mem, State.modFn_mem]; exact hs) hs) hs

@[simp] theorem wf_execNegotiateAlgorithms (s : State) (hs : Memory.wf s.mem = true) :
    (execNegotiateAlgorithms s).Wf := by
  refine wf_served _ _ (wf_afterStep _ _ _ _ ?_ hs) hs
  split
  · rw [State.answer_mem, State.modFn_mem]; exact hs
  · rw [State.answer_mem]; exact hs

@[simp] theorem wf_execGetDigests (s : State) (hs : Memory.wf s.mem = true) : (execGetDigests s).Wf :=
  wf_served _ _ (wf_afterStep _ _ _ _ (by rw [State.answer_mem]; exact hs) hs) hs

@[simp] theorem wf_execGetCertificate (s : State) (hs : Memory.wf s.mem = true) : (execGetCertificate s).Wf := by
  refine wf_served _ _ (wf_afterStep _ _ _ _ ?_ hs) hs
  split
  · rw [State.answer_mem]; exact hs
  · rw [State.answer_mem]; exact hs

@[simp] theorem wf_execChallenge (s : State) (hs : Memory.wf s.mem = true) : (execChallenge s).Wf := by
  refine wf_served _ _ (wf_afterStep _ _ _ _ ?_ hs) hs
  split
  · rw [State.answer_mem]; exact hs
  · rw [State.answer_mem]; exact hs

@[simp] theorem wf_execGetMeasurements (s : State) (hs : Memory.wf s.mem = true) : (execGetMeasurements s).Wf := by
  refine wf_served _ _ (wf_afterStep _ _ _ _ ?_ hs) hs
  extract_lets i
  split
  · rw [State.answer_mem]; exact hs
  split
  · rw [State.answer_mem]; exact hs
  · rw [State.answer_mem]; exact hs

@[simp] theorem wf_execKeyExchange (s : State) (hs : Memory.wf s.mem = true) : (execKeyExchange s).Wf := by
  refine wf_served _ _ (wf_afterStep _ _ _ _ ?_ hs) hs
  extract_lets mb
  split
  · rw [State.answer_mem]; exact hs
  · rw [State.answer_mem, State.modFn_mem]; exact hs

theorem wf_execFinish (s : State) (hs : Memory.wf s.mem = true) : (execFinish s).Wf :=
  wf_served _ _ (by simp [hs]) hs

theorem wf_execKeyUpdate (s : State) (hs : Memory.wf s.mem = true) : (execKeyUpdate s).Wf :=
  wf_served _ _ (by simp [hs]) hs

theorem wf_execEndSession (s : State) (hs : Memory.wf s.mem = true) : (execEndSession s).Wf :=
  wf_served _ _ (by simp [hs]) hs

@[simp] theorem wf_execLockInterfaceRequest (s : State) (hs : Memory.wf s.mem = true) :
    (execLockInterfaceRequest s).Wf := by
  refine wf_tdisp _ _ ?_ hs
  extract_lets q n
  split
  · rw [State.answer_mem, State.modQueue_mem, interfaceTo_mem]; exact hs
  · rw [State.answer_mem]; exact hs

@[simp] theorem wf_execStartInterfaceRequest (s : State) (hs : Memory.wf s.mem = true) :
    (execStartInterfaceRequest s).Wf := by
  refine wf_tdisp _ _ ?_ hs
  extract_lets q
  split
  · rw [State.answer_mem, State.modQueue_mem, interfaceTo_mem]; exact hs
  · rw [State.answer_mem]; exact hs

theorem wf_execStopInterfaceRequest (s : State) (hs : Memory.wf s.mem = true) : (execStopInterfaceRequest s).Wf :=
  wf_tdisp _ _ (by simp [hs]) hs

theorem wf_execGetDeviceInterfaceReport (s : State) (hs : Memory.wf s.mem = true) :
    (execGetDeviceInterfaceReport s).Wf := wf_tdisp _ _ (by simp [hs]) hs

theorem wf_execGetDeviceInterfaceState (s : State) (hs : Memory.wf s.mem = true) :
    (execGetDeviceInterfaceState s).Wf := wf_tdisp _ _ (by simp [hs]) hs

@[simp] theorem wf_execSetStreamKey (s : State) (hs : Memory.wf s.mem = true) : (execSetStreamKey s).Wf := by
  refine wf_served _ _ ?_ hs
  extract_lets mb old
  split
  · rw [State.answer_mem, State.modWorld_mem, State.logOnce_mem]; exact hs
  · rw [State.answer_mem]; exact hs

theorem wf_execSetQuantumTable (s : State) (hs : Memory.wf s.mem = true) : (execSetQuantumTable s).Wf :=
  wf_served _ _ (by simp [hs]) hs

theorem wf_execGetQuantumTable (s : State) (hs : Memory.wf s.mem = true) : (execGetQuantumTable s).Wf :=
  wf_served _ _ (by simp [hs]) hs

theorem wf_execChunkComplete (s : State) (hs : Memory.wf s.mem = true) : (execChunkComplete s).Wf := by
  simp [execChunkComplete, hs]

theorem wf_execEngineCopyCommand (s : State) (hs : Memory.wf s.mem = true) : (execEngineCopyCommand s).Wf := by
  unfold execEngineCopyCommand
  dsimp only [Res.Wf]
  repeat' split
  all_goals simp [hs]

theorem wf_execDecryptCommand (s : State) (hs : Memory.wf s.mem = true) : (execDecryptCommand s).Wf := by
  unfold execDecryptCommand
  dsimp only [Res.Wf]
  repeat' split
  all_goals simp [hs]

theorem wf_execWatchdogExpiry (s : State) (hs : Memory.wf s.mem = true) : (execWatchdogExpiry s).Wf := hs

theorem wf_execPolicyCoreRecovery (s : State) (hs : Memory.wf s.mem = true) : (execPolicyCoreRecovery s).Wf := by
  simp [execPolicyCoreRecovery, hs]

theorem wf_execQuantumEnd (s : State) (hs : Memory.wf s.mem = true) : (execQuantumEnd s).Wf := by
  simp [execQuantumEnd, hs]

theorem wf_execQuantumIdleEnd (s : State) (hs : Memory.wf s.mem = true) : (execQuantumIdleEnd s).Wf := by
  simp [execQuantumIdleEnd, hs]

theorem wf_execSundogSpill (s : State) (hs : Memory.wf s.mem = true) : (execSundogSpill s).Wf := by
  unfold execSundogSpill
  dsimp only [Res.Wf]
  repeat' split
  all_goals simp [hs]

theorem wf_execSwitchStopsDone (s : State) (hs : Memory.wf s.mem = true) : (execSwitchStopsDone s).Wf := by
  unfold execSwitchStopsDone
  dsimp only [Res.Wf]
  repeat' split
  all_goals grind [park_mem, State.logStep_mem, State.push_mem, wf_saveWorld, wf_flr, Res.Wf, wf_foldl]

theorem wf_execSwitchSaveDone (s : State) (hs : Memory.wf s.mem = true) : (execSwitchSaveDone s).Wf := by
  unfold execSwitchSaveDone
  dsimp only [Res.Wf]
  repeat' split
  all_goals simp [hs]

theorem wf_execSwitchRestoreDone (s : State) (hs : Memory.wf s.mem = true) : (execSwitchRestoreDone s).Wf := by
  unfold execSwitchRestoreDone
  split <;> simp [hs]

theorem wf_execDispatchDecision (s : State) (hs : Memory.wf s.mem = true) : (execDispatchDecision s).Wf := by
  simp [execDispatchDecision, hs]

theorem wf_execRotationSaveDone (s : State) (hs : Memory.wf s.mem = true) : (execRotationSaveDone s).Wf := by
  simp [execRotationSaveDone, hs]

@[simp] theorem wf_execCheckpoint (s : State) (hs : Memory.wf s.mem = true) : (execCheckpoint s).Wf := by
  unfold execCheckpoint
  extract_lets q
  have h := wf_takePacket s q hs
  generalize takePacket s q = r at h ⊢
  cases r with
  | none => exact hs
  | gone u => exact h
  | holds u => exact h
  | go p =>
    dsimp only [Res.Wf]
    split
    · exact hs
    split
    · rw [State.modQueue_mem]; exact hs
    · exact State.wf_serve _ _ (fun u hu => (congrArg Memory.wf (beginCkpt_mem ..)).trans hu) hs

theorem wf_phaseBreak (s : State) (next : Instr) (k : State → State) (hk : Memory.wf (k s).mem = true) (hs : Memory.wf
    s.mem = true) :
    Memory.wf (phaseBreak s next k).mem = true := by
  unfold phaseBreak
  split
  · dsimp only
    split
    · rw [State.push_mem, endQuantum_mem]; exact hs
    · rw [endQuantum_mem]; exact hs
  · exact hk

@[simp] theorem wf_execCkptStopped (s : State) (hs : Memory.wf s.mem = true) : (execCkptStopped s).Wf := by
  unfold execCkptStopped
  extract_lets w
  split
  · exact hs
  next o _ =>
    extract_lets more
    split
    · exact hs
    split
    · exact (congrArg Memory.wf (State.push_mem ..)).trans
        (wf_foldl _ (fun t l h => (congrArg Memory.wf (stopAll_mem ..)).trans h) _ _ hs)
    split
    · exact hs
    split
    · exact (congrArg Memory.wf (park_mem ..)).trans hs
    have hl : Memory.wf (logPhase s w 1).mem = true := (congrArg Memory.wf (logPhase_mem ..)).trans hs
    refine wf_phaseBreak _ _ _ ?_ hl
    split
    · rw [park_mem]; exact hl
    split
    · exact wf_failCkpt _ _ hl
    · exact wf_tagCkpt _ hl
    · split
      · exact wf_failCkpt _ _ hl
      · exact wf_tagCkpt _ hl
      · exact wf_captureWorld _ _ _ _ hl

@[simp] theorem wf_execCkptDieshardsDone (s : State) (hs : Memory.wf s.mem = true) :
    (execCkptDieshardsDone s).Wf := by
  unfold execCkptDieshardsDone
  extract_lets w
  split
  · exact hs
  next o _ =>
    split
    · exact hs
    split
    · exact (congrArg Memory.wf (park_mem ..)).trans hs
    have hw : Memory.wf (if s.ckpt.donen = 0 then writeShards s o w else s).mem = true := by
      split
      · exact wf_writeShards _ _ _ hs
      · exact hs
    exact wf_phaseBreak _ _ _ ((congrArg Memory.wf (resumePhase_mem ..)).trans hw) hw

theorem wf_execCkptPageCopied (s : State) (hs : Memory.wf s.mem = true) : (execCkptPageCopied s).Wf := by
  unfold execCkptPageCopied
  dsimp only [Res.Wf]
  repeat' split
  all_goals simp [hs]

theorem wf_execCkptMemshardsDone (s : State) (hs : Memory.wf s.mem = true) : (execCkptMemshardsDone s).Wf := by
  unfold execCkptMemshardsDone
  split <;> simp [hs]

theorem wf_execCkptManifestDone (s : State) (hs : Memory.wf s.mem = true) : (execCkptManifestDone s).Wf := by
  unfold execCkptManifestDone
  dsimp only [Res.Wf]
  repeat' split
  all_goals grind [wf_endCkptPacket, park_mem, logManifest_mem, State.logStep_mem, State.closeTxn_mem,
      phaseEnds_mem, idleCkpt_mem, State.modWorld_mem, wf_tagCkpt, wf_writeArea, Res.Wf]

@[simp] theorem wf_execAbort (s : State) (hs : Memory.wf s.mem = true) : (execAbort s).Wf :=
  State.wf_serve _ _ (fun u hu => by
    split
    · exact wf_abort _ hu
    · exact hu) hs

theorem wf_execEcmdIgnored (s : State) (hs : Memory.wf s.mem = true) : (execEcmdIgnored s).Wf :=
  State.wf_serve _ _ (fun u hu => by simp [hu]) hs

@[simp] theorem wf_execRestore (s : State) (hs : Memory.wf s.mem = true) : (execRestore s).Wf := by
  unfold execRestore
  split
  · exact (congrArg Memory.wf (park_mem ..)).trans hs
  · refine State.wf_serve _ _ (fun u hu => ?_) hs
    split
    · rw [restore_mem]; exact hu
    · exact hu

theorem wf_execRestoreDone (s : State) (hs : Memory.wf s.mem = true) : (execRestoreDone s).Wf := by
  unfold execRestoreDone
  dsimp only [Res.Wf]
  repeat' split
  all_goals grind [wf_applyDieShard, wf_applyMemShard, cleanWorld_mem, park_mem, logManifest_mem, wf_applyRecords,
      State.logStep_mem, State.closeTxn_mem, idleCkpt_mem, State.modWorld_mem, Res.Wf, wf_foldl]

theorem wf_execWaitSatisfied (s : State) (hs : Memory.wf s.mem = true) : (execWaitSatisfied s).Wf := by
  simp [execWaitSatisfied, hs]

theorem wf_execReservationHoldExpiry (s : State) (hs : Memory.wf s.mem = true) :
    (execReservationHoldExpiry s).Wf := by
  simp [execReservationHoldExpiry, hs]

theorem wf_execPortFaultReport (s : State) (hs : Memory.wf s.mem = true) : (execPortFaultReport s).Wf := by
  unfold execPortFaultReport
  dsimp only
  split <;> simp [hs]

theorem wf_execWriteQueueUpdate (s : State) (hs : Memory.wf s.mem = true) : (execWriteQueueUpdate s).Wf := by
  simp [execWriteQueueUpdate, hs]

theorem wf_execOperationResponse (s : State) (hs : Memory.wf s.mem = true) : (execOperationResponse s).Wf := by
  unfold execOperationResponse
  dsimp only
  split <;> simp [hs]

theorem wf_execSundogAck (s : State) (hs : Memory.wf s.mem = true) : (execSundogAck s).Wf := hs

theorem wf_execLengthMarkerTake (s : State) (hs : Memory.wf s.mem = true) : (execLengthMarkerTake s).Wf := by
  unfold execLengthMarkerTake
  dsimp only [Res.Wf]
  repeat' split
  all_goals simp [hs]

theorem wf_execReplayDone (s : State) (hs : Memory.wf s.mem = true) : (execReplayDone s).Wf := by
  simp [execReplayDone, hs]

theorem wf_execHostCompletion (s : State) (hs : Memory.wf s.mem = true) : (execHostCompletion s).Wf := by
  simp [execHostCompletion, hs]

theorem wf_execHostRequestTimeout (s : State) (hs : Memory.wf s.mem = true) : (execHostRequestTimeout s).Wf := by
  unfold execHostRequestTimeout
  dsimp only [Res.Wf]
  repeat' split
  all_goals simp [hs]

theorem wf_execPrgResponse (s : State) (hs : Memory.wf s.mem = true) : (execPrgResponse s).Wf := by
  simp [execPrgResponse, hs]

@[simp] theorem wf_execControlWordWrite (s : State) (hs : Memory.wf s.mem = true) : (execControlWordWrite s).Wf := by
  unfold execControlWordWrite
  extract_lets fn off
  split
  · exact hs
  next kind idx _ =>
    extract_lets go
    have h : ∀ u, Memory.wf u.mem = true → Memory.wf (go u).mem = true := fun u hu => wf_writePage _ _ _ _ _ _ _ hu
    split
    · exact hs
    split
    · exact State.wf_serve _ _ h hs
    · exact h _ hs

@[simp] theorem wf_execPowerOnReset (s : State) (_ : Memory.wf s.mem = true) : (execPowerOnReset s).Wf :=
  (rfl : Memory.wf State.reset.mem = true)

theorem wf_execIllegal (s : State) (hs : Memory.wf s.mem = true) : (execIllegal s).Wf := by
  simp [execIllegal, hs]

theorem wf_execInstructionFetchFault (s : State) (hs : Memory.wf s.mem = true) :
    (execInstructionFetchFault s).Wf := by
  simp [execInstructionFetchFault, hs]

theorem wf_execFence (pred succ : Nat) (s : State) (hs : Memory.wf s.mem = true) : (execFence pred succ s).Wf := by
  simp [execFence, hs]

theorem wf_execFenceTso (s : State) (hs : Memory.wf s.mem = true) : (execFenceTso s).Wf := by
  simp [execFenceTso, hs]

theorem wf_execFenceI (s : State) (hs : Memory.wf s.mem = true) : (execFenceI s).Wf := by simp [execFenceI, hs]

theorem wf_execEcall (s : State) (hs : Memory.wf s.mem = true) : (execEcall s).Wf := by
  unfold execEcall
  dsimp only [Res.Wf]
  repeat' split
  all_goals simp [hs]

theorem wf_execEbreak (s : State) (hs : Memory.wf s.mem = true) : (execEbreak s).Wf := by simp [execEbreak, hs]

theorem wf_execSetvlq (xd n : Nat) (s : State) (hs : Memory.wf s.mem = true) : (execSetvlq xd n s).Wf := by
  simp [execSetvlq, hs]

theorem wf_execFvs (_scope : Nat) (s : State) (hs : Memory.wf s.mem = true) : (execFvs _scope s).Wf := by
  simp [execFvs, hs]

theorem wf_execQsend (n xs : Nat) (s : State) (hs : Memory.wf s.mem = true) : (execQsend n xs s).Wf := by
  simp [execQsend, hs]

theorem wf_execQrecv (xd n : Nat) (s : State) (hs : Memory.wf s.mem = true) : (execQrecv xd n s).Wf := by
  unfold execQrecv
  dsimp only [Res.Wf]
  repeat' split
  all_goals simp [hs]

theorem wf_execWid (xd f : Nat) (s : State) (hs : Memory.wf s.mem = true) : (execWid xd f s).Wf := by
  unfold execWid
  dsimp only [Res.Wf]
  repeat' split
  all_goals grind [wf_setReg, scalarFault_mem, Res.Wf]

theorem wf_execTsync (s : State) (hs : Memory.wf s.mem = true) : (execTsync s).Wf := by simp [execTsync, hs]

theorem wf_execXltrap (n : Nat) (s : State) (hs : Memory.wf s.mem = true) : (execXltrap n s).Wf := by
  simp [execXltrap, hs]

theorem wf_execMonarm (xd xa : Nat) (s : State) (hs : Memory.wf s.mem = true) : (execMonarm xd xa s).Wf := by
  unfold execMonarm
  dsimp only [Res.Wf]
  repeat' split
  all_goals grind [wf_armAt, State.advance_mem, scalarFault_mem, State.wx_mem, Got.Wf, Res.Wf]

theorem wf_execMonwait (s : State) (hs : Memory.wf s.mem = true) : (execMonwait s).Wf := by
  unfold execMonwait
  split <;> simp [hs]

theorem wf_execJoin (xd xt : Nat) (s : State) (hs : Memory.wf s.mem = true) : (execJoin xd xt s).Wf := by
  unfold execJoin
  dsimp only [Res.Wf]
  repeat' split
  all_goals simp [hs]

theorem wf_execMwait (xs : Nat) (s : State) (hs : Memory.wf s.mem = true) : (execMwait xs s).Wf := by
  simp [execMwait, hs]

theorem wf_execSpawn (xd xa : Nat) (s : State) (hs : Memory.wf s.mem = true) : (execSpawn xd xa s).Wf := by
  unfold execSpawn
  dsimp only [Res.Wf]
  repeat' split
  all_goals grind [State.onStrand_mem, wf_readPacket, appendInline_mem, State.advance_mem, scalarFault_mem,
      State.wx_mem, PacketRead.Wf, Res.Wf]

theorem wf_execVsync (s : State) (hs : Memory.wf s.mem = true) : (execVsync s).Wf := by simp [execVsync, hs]

theorem wf_execFflags (xd : Nat) (s : State) (hs : Memory.wf s.mem = true) : (execFflags xd s).Wf := by
  simp [execFflags, hs]

theorem wf_execRemst (xs xa : Nat) (s : State) (hs : Memory.wf s.mem = true) : (execRemst xs xa s).Wf := by
  unfold execRemst
  dsimp only [Res.Wf]
  repeat' split
  all_goals simp [hs]

theorem wf_execBinit (xa xp : Nat) (s : State) (hs : Memory.wf s.mem = true) : (execBinit xa xp s).Wf := by
  unfold execBinit
  dsimp only [Res.Wf]
  repeat' split
  all_goals simp [hs]

theorem wf_execBarrive (xa : Nat) (s : State) (hs : Memory.wf s.mem = true) : (execBarrive xa s).Wf := by
  unfold execBarrive
  split <;> simp [hs]

theorem wf_execBexpect (xa xn : Nat) (s : State) (hs : Memory.wf s.mem = true) : (execBexpect xa xn s).Wf := by
  simp [execBexpect, hs]

theorem wf_execPhend (xa : Nat) (s : State) (hs : Memory.wf s.mem = true) : (execPhend xa s).Wf := by
  unfold execPhend
  split <;> simp [hs]

theorem wf_execBwait (xa : Nat) (s : State) (hs : Memory.wf s.mem = true) : (execBwait xa s).Wf := by
  unfold execBwait
  dsimp only [Res.Wf]
  repeat' split
  all_goals simp [hs]

theorem wf_execMatt (xd xs : Nat) (s : State) (hs : Memory.wf s.mem = true) : (execMatt xd xs s).Wf := by
  unfold execMatt
  dsimp only [Res.Wf]
  repeat' split
  all_goals grind [State.onStrand_mem, wf_setReg, Res.Wf]

theorem wf_execMdet (s : State) (hs : Memory.wf s.mem = true) : (execMdet s).Wf := by simp [execMdet, hs]

theorem wf_execCvy (cnt guard gneg etype rm sat tb : Nat) (s : State) (hs : Memory.wf s.mem = true) :
    (execCvy cnt guard gneg etype rm sat tb s).Wf := by
  unfold execCvy
  dsimp only [Res.Wf]
  repeat' split
  all_goals grind [takeFault_mem, State.retire_mem, stallAt_mem, commitConvoy_mem, wf_fetchBody, BodyFetch.Wf, Res.Wf]

@[simp] theorem wf_execVldb4 (v : Nat) (_xb : Nat) (_xs : Nat) (s : State) (hs : Memory.wf s.mem = true) :
    (execVldb4 v _xb _xs s).Wf := by
  refine wf_onIssue (fun q => wf_overAccess (fun u i hu => ?_) _ _ hs) hs
  split
  · trivial
  next t c ht =>
    have h := (congrArg Read.Wf ht).mp (wf_readElem _ _ _ _ _ _ _ _ _ hu)
    split
    · trivial
    next x b hx => exact (congrArg Memory.wf (State.onStrand_mem ..)).trans ((congrArg Read.Wf hx).mp (wf_readElem
        _ _ _ _ _ _ _ _ _ h))

theorem wf_execVstb4 (v _xb _xs : Nat) (s : State) (hs : Memory.wf s.mem = true) : (execVstb4 v _xb _xs s).Wf := by
  unfold execVstb4
  dsimp only [Res.Wf]
  repeat' split
  all_goals grind [wf_overAccess, wf_onIssue, wf_writeElem, Elem.Wf, Res.Wf]

@[simp] theorem wf_execMldb (_xa : Nat) (_xp : Nat) (s : State) (hs : Memory.wf s.mem = true) :
    (execMldb _xa _xp s).Wf := by
  refine wf_onAnvil (fun q a => ?_) hs
  extract_lets
  split
  · rw [State.putAnvil_mem]; exact hs
  · rw [issueMatrix_mem]; exact hs

@[simp] theorem wf_execMstep (m : Nat) (_xa : Nat) (_xp : Nat) (s : State) (hs : Memory.wf s.mem = true) :
    (execMstep m _xa _xp s).Wf :=
  wf_onAnvil (fun _ _ => (congrArg Memory.wf (issueMatrix_mem ..)).trans hs) hs

@[simp] theorem wf_execMzero (m : Nat) (s : State) (hs : Memory.wf s.mem = true) : (execMzero m s).Wf :=
  wf_onAnvil (fun _ _ => (congrArg Memory.wf (State.putAnvil_mem ..)).trans hs) hs

@[simp] theorem wf_execMrd (m : Nat) (_xa : Nat) (_xp : Nat) (s : State) (hs : Memory.wf s.mem = true) :
    (execMrd m _xa _xp s).Wf := by
  refine wf_onAnvil (fun q a => ?_) hs
  extract_lets p r
  split
  · rw [State.haltAt_mem]; exact hs
  · have hr : Memory.wf r.mem = true := wf_overAccess (fun u e hu => wf_writeElem _ _ _ _ _ _ _ hu) _ _
      ((congrArg Memory.wf (State.putAnvil_mem ..)).trans hs)
    clear_value r
    split
    · split
      · rw [State.haltAt_mem]; exact hs
      · exact hr
    · split
      · rw [State.haltAt_mem]; exact hs
      · exact hr

@[simp] theorem wf_execMwr (m : Nat) (_xa : Nat) (_xp : Nat) (s : State) (hs : Memory.wf s.mem = true) :
    (execMwr m _xa _xp s).Wf := by
  refine wf_onAnvil (fun q a => ?_) hs
  extract_lets p
  split
  · rw [State.haltAt_mem]; exact hs
  · refine wf_overAccess (fun u e hu => ?_) _ _ ((congrArg Memory.wf (State.putAnvil_mem ..)).trans hs)
    split
    · trivial
    next t v he =>
      refine (congrArg Memory.wf (State.onStrand_mem ..)).trans ?_
      exact (congrArg Read.Wf he).mp (wf_readElem _ _ _ _ _ _ _ _ _ hu)

@[simp] theorem wf_execMcommit (xd : Nat) (s : State) (hs : Memory.wf s.mem = true) : (execMcommit xd s).Wf := by
  refine wf_onAnvil (fun q a => ?_) hs
  split
  · rw [State.haltAt_mem]; exact hs
  split
  · exact hs
  · rw [State.push_mem, State.push_mem, State.onStrand_mem]; exact hs

@[simp] theorem wf_execMstepr (m : Nat) (_xa : Nat) (_xp : Nat) (s : State) (hs : Memory.wf s.mem = true) :
    (execMstepr m _xa _xp s).Wf := by
  refine wf_onAnvil (fun q a => ?_) hs
  extract_lets base rb0 off
  split
  · rw [State.haltAt_mem]; exact hs
  · exact wf_issueRecords _ _ _ _ _ _ ((congrArg Memory.wf (State.putAnvil_mem ..)).trans hs)

theorem wf_execBatchComplete (s : State) (hs : Memory.wf s.mem = true) : (execBatchComplete s).Wf := by
  simp [execBatchComplete, hs]

theorem wf_execVscale (vd va vb sx : Nat) (s : State) (hs : Memory.wf s.mem = true) : (execVscale vd va vb sx s).Wf :=
  wf_onIssue (fun q => by simp [hs]) hs

theorem wf_execVabs (vd va : Nat) (s : State) (hs : Memory.wf s.mem = true) : (execVabs vd va s).Wf :=
  wf_onIssue (fun q => by simp [hs]) hs

theorem wf_execVneg (vd va : Nat) (s : State) (hs : Memory.wf s.mem = true) : (execVneg vd va s).Wf :=
  wf_onIssue (fun q => by simp [hs]) hs

theorem wf_execVsqrt (vd va : Nat) (s : State) (hs : Memory.wf s.mem = true) : (execVsqrt vd va s).Wf :=
  wf_onIssue (fun q => by simp [hs]) hs

theorem wf_execVclass (vd va : Nat) (s : State) (hs : Memory.wf s.mem = true) : (execVclass vd va s).Wf :=
  wf_onIssue (fun q => by simp [hs]) hs

theorem wf_execVclz (vd va : Nat) (s : State) (hs : Memory.wf s.mem = true) : (execVclz vd va s).Wf :=
  wf_onIssue (fun q => by simp [hs]) hs

theorem wf_execVpopcnt (vd va : Nat) (s : State) (hs : Memory.wf s.mem = true) : (execVpopcnt vd va s).Wf :=
  wf_onIssue (fun q => by simp [hs]) hs

theorem wf_execVcvt (vd va ty : Nat) (s : State) (hs : Memory.wf s.mem = true) : (execVcvt vd va ty s).Wf :=
  wf_onIssue (fun q => by simp [hs]) hs

theorem wf_execVmvV (vd va : Nat) (s : State) (hs : Memory.wf s.mem = true) : (execVmvV vd va s).Wf :=
  wf_onIssue (fun q => by simp [hs]) hs

theorem wf_execVmvX (vd _xs : Nat) (s : State) (hs : Memory.wf s.mem = true) : (execVmvX vd _xs s).Wf :=
  wf_onIssue (fun q => by simp [hs]) hs

theorem wf_execVmerge (vd va vb sx : Nat) (s : State) (hs : Memory.wf s.mem = true) : (execVmerge vd va vb sx s).Wf :=
  wf_onIssue (fun q => by simp [hs]) hs

theorem wf_execVid (vd : Nat) (s : State) (hs : Memory.wf s.mem = true) : (execVid vd s).Wf :=
  wf_onIssue (fun q => by simp [hs]) hs

theorem wf_execViota (vd pa : Nat) (s : State) (hs : Memory.wf s.mem = true) : (execViota vd pa s).Wf :=
  wf_onIssue (fun q => by simp [hs]) hs

theorem wf_execVcompress (vd va : Nat) (s : State) (hs : Memory.wf s.mem = true) : (execVcompress vd va s).Wf :=
  wf_onIssue (fun q => by simp [hs]) hs

theorem wf_execVslideup (vd va _xs : Nat) (s : State) (hs : Memory.wf s.mem = true) : (execVslideup vd va _xs s).Wf :=
  wf_onIssue (fun q => by simp [hs]) hs

theorem wf_execVslidedn (vd va _xs : Nat) (s : State) (hs : Memory.wf s.mem = true) : (execVslidedn vd va _xs s).Wf :=
  wf_onIssue (fun q => by simp [hs]) hs

@[simp] theorem wf_execVperm (vd : Nat) (va : Nat) (vb : Nat) (s : State) (hs : Memory.wf s.mem = true) :
    (execVperm vd va vb s).Wf := by
  refine wf_onIssue (fun q => ?_) hs
  extract_lets t0 far
  split
  · rw [State.haltAt_mem]; exact hs
  · rw [gather_mem]; exact hs

theorem wf_execVxchg (vd va _xs : Nat) (s : State) (hs : Memory.wf s.mem = true) : (execVxchg vd va _xs s).Wf :=
  wf_onIssue (fun q => by simp [hs]) hs

theorem wf_execVfredosum (vd va vb sx : Nat) (s : State) (hs : Memory.wf s.mem = true) :
    (execVfredosum vd va vb sx s).Wf := wf_onIssue (fun q => by simp [hs]) hs

theorem wf_execVext (xd va _xs : Nat) (s : State) (hs : Memory.wf s.mem = true) : (execVext xd va _xs s).Wf :=
  wf_onIssue (fun q => by simp [hs]) hs

theorem wf_execVins (vd _xi _xs : Nat) (s : State) (hs : Memory.wf s.mem = true) : (execVins vd _xi _xs s).Wf :=
  wf_onIssue (fun q => by simp [hs]) hs

@[simp] theorem wf_execVqrecv (vd : Nat) (n : Nat) (s : State) (hs : Memory.wf s.mem = true) :
    (execVqrecv vd n s).Wf := by
  refine wf_onIssue (fun q => ?_) hs
  split
  · rw [State.haltAt_mem]; exact hs
  · exact (congrArg Memory.wf ((State.onStrand_mem ..).trans (overActive_mem ..))).trans hs

theorem wf_execVqsend (n va : Nat) (s : State) (hs : Memory.wf s.mem = true) : (execVqsend n va s).Wf :=
  wf_onIssue (fun q => by simp [hs]) hs

theorem wf_execPand (pd pa pb : Nat) (s : State) (hs : Memory.wf s.mem = true) : (execPand pd pa pb s).Wf :=
  wf_onIssue (fun q => by simp [hs]) hs

theorem wf_execPor (pd pa pb : Nat) (s : State) (hs : Memory.wf s.mem = true) : (execPor pd pa pb s).Wf :=
  wf_onIssue (fun q => by simp [hs]) hs

theorem wf_execPxor (pd pa pb : Nat) (s : State) (hs : Memory.wf s.mem = true) : (execPxor pd pa pb s).Wf :=
  wf_onIssue (fun q => by simp [hs]) hs

theorem wf_execPandn (pd pa pb : Nat) (s : State) (hs : Memory.wf s.mem = true) : (execPandn pd pa pb s).Wf :=
  wf_onIssue (fun q => by simp [hs]) hs

theorem wf_execPnot (pd pa : Nat) (s : State) (hs : Memory.wf s.mem = true) : (execPnot pd pa s).Wf :=
  wf_onIssue (fun q => by simp [hs]) hs

theorem wf_execPset (pd : Nat) (s : State) (hs : Memory.wf s.mem = true) : (execPset pd s).Wf :=
  wf_onIssue (fun q => by simp [hs]) hs

theorem wf_execPclr (pd : Nat) (s : State) (hs : Memory.wf s.mem = true) : (execPclr pd s).Wf :=
  wf_onIssue (fun q => by simp [hs]) hs

theorem wf_execPfirst (pd pa : Nat) (s : State) (hs : Memory.wf s.mem = true) : (execPfirst pd pa s).Wf :=
  wf_onIssue (fun q => by simp [hs]) hs

theorem wf_execVpopcX (xd pa : Nat) (s : State) (hs : Memory.wf s.mem = true) : (execVpopcX xd pa s).Wf :=
  wf_onIssue (fun q => by simp [hs]) hs

theorem wf_execVpopcLq (n pa : Nat) (s : State) (hs : Memory.wf s.mem = true) : (execVpopcLq n pa s).Wf :=
  wf_onIssue (fun q => by simp [hs]) hs

theorem wf_execPmovv (vd pa : Nat) (s : State) (hs : Memory.wf s.mem = true) : (execPmovv vd pa s).Wf :=
  wf_onIssue (fun q => by simp [hs]) hs

theorem wf_execVmovp (pd va : Nat) (s : State) (hs : Memory.wf s.mem = true) : (execVmovp pd va s).Wf :=
  wf_onIssue (fun q => by simp [hs]) hs

theorem wf_execVqnt4 (vd vs : Nat) (s : State) (hs : Memory.wf s.mem = true) : (execVqnt4 vd vs s).Wf :=
  wf_onIssue (fun q => by simp [hs]) hs

theorem wf_execVdq4 (vd vs : Nat) (s : State) (hs : Memory.wf s.mem = true) : (execVdq4 vd vs s).Wf :=
  wf_onIssue (fun q => by simp [hs]) hs

@[simp] theorem wf_execCopys (xt : Nat) (_xd : Nat) (_xs : Nat) (_xq : Nat) (s : State) (hs : Memory.wf s.mem = true)
    :
    (execCopys xt _xd _xs _xq s).Wf :=
  wf_copyWord _ _ _ _ _ hs

@[simp] theorem wf_execRrot (xt : Nat) (_xd : Nat) (_xs : Nat) (_xn : Nat) (s : State) (hs : Memory.wf s.mem = true) :
    (execRrot xt _xd _xs _xn s).Wf := by
  refine wf_onIssue (fun q => ?_) hs
  extract_lets w k ring size dst src len id u
  have hu : Memory.wf u.mem = true := by
    refine wf_copyElems _ _ _ (fun id u j hu => ?_) _ hs
    split
    · exact hu
    split
    · exact wf_failChunk _ _ _ _ _ _ _ _ hu
    split
    · exact wf_failChunk _ _ _ _ _ _ _ _ hu
    · exact wf_issueChunk _ _ _ _ _ _ _ _ _ _ hu
  clear_value u
  split
  · rw [State.push_mem]; exact hu
  · exact hu

theorem wf_execCmdb (pd vs : Nat) (s : State) (hs : Memory.wf s.mem = true) : (execCmdb pd vs s).Wf := by
  unfold execCmdb
  dsimp only [Res.Wf]
  repeat' split
  all_goals grind [wf_overAccess, wf_onIssue, wf_cmdElem, Elem.Wf, Res.Wf]

/-- Whatever an operation answers, its state stands in canonical form. -/
theorem wf_exec (i : Instr) (s : State) (hs : Memory.wf s.mem = true) : Res.Wf (exec i s) := by
  cases i with
  | lui | auipc | addi | slti | sltiu | xori | ori | andi | slli | srli | srai | addiw | slliw | srliw | sraiw |
  add | sub | sll | slt | sltu | xor | srl | sra | or | and | mul | mulh | mulhsu | mulhu | div | divu | rem |
  remu =>
    exact wf_setReg _ _ _ hs
  | jal | jalr =>
    exact wf_jumpTo _ _ _ hs
  | beq | bne | blt | bge | bltu | bgeu =>
    exact wf_branchIf _ _ _ hs
  | lb | lh | lw | ld | lbu | lhu | lwu =>
    exact wf_loadReg _ _ _ _ hs
  | sb | sh | sw | sd =>
    exact wf_storeReg _ _ _ _ hs
  | addw | subw | sllw | srlw | sraw | mulw | divw | divuw | remw | remuw =>
    exact wf_setReg _ _ _ hs
  | lrW | lrD =>
    exact wf_loadReserve _ _ _ _ _ _ hs
  | scW | scD | amoswapW | amoswapD | amoaddW | amoaddD | amoxorW | amoxorD | amoandW | amoandD | amoorW | amoorD
  | amominW | amominD | amomaxW | amomaxD | amominuW | amominuD | amomaxuW | amomaxuD =>
    exact wf_atomicReg _ _ _ _ _ _ _ _ _ hs
  | vadd | vsub | vrsub | vmul | vmulh | vdiv | vrem | vmin | vmax | vand | vor | vxor | vsll | vsrl | vsra |
  vsgnj =>
    exact wf_twoOp _ _ _ _ _ _ hs
  | vfma | vfms | vfnma | vfnms =>
    exact wf_fused _ _ _ _ _ _ _ hs
  | vcmpeq | vcmpne | vcmplt | vcmple | vcmpgt | vcmpge | vcmpuo =>
    exact wf_compare _ _ _ _ _ _ hs
  | vredsum | vredmax | vredmin | vredand | vredor | vredxor =>
    exact wf_reduce _ _ _ _ _ _ hs
  | gor2 | gor3 | ginc | gins | gsegx =>
    exact wf_geometric _ _ _ _ hs
  | vld | vlds | vldx =>
    exact wf_vectorLoad _ _ _ hs
  | vst | vsts | vstx =>
    exact wf_vectorStore _ _ _ hs
  | vamo | vamor =>
    exact wf_vectorAmo _ _ _ _ _ hs
  | copy | copyc =>
    exact wf_copyWord _ _ _ _ _ hs
  | setvl | setvli =>
    exact wf_setLength _ _ _ hs
  | fsv | fvv =>
    exact wf_fenceMark _ _ hs
  | fence => exact wf_execFence _ _ _ hs
  | fenceTso => exact wf_execFenceTso _ hs
  | fenceI => exact wf_execFenceI _ hs
  | ecall => exact wf_execEcall _ hs
  | ebreak => exact wf_execEbreak _ hs
  | vabs => exact wf_execVabs _ _ _ hs
  | vsqrt => exact wf_execVsqrt _ _ _ hs
  | vneg => exact wf_execVneg _ _ _ hs
  | vscale => exact wf_execVscale _ _ _ _ _ hs
  | vclass => exact wf_execVclass _ _ _ hs
  | vcvt => exact wf_execVcvt _ _ _ _ hs
  | vmvV => exact wf_execVmvV _ _ _ hs
  | vmvX vd xs => exact wf_execVmvX vd xs s hs
  | vmerge => exact wf_execVmerge _ _ _ _ _ hs
  | vid => exact wf_execVid _ _ hs
  | viota => exact wf_execViota _ _ _ hs
  | vcompress => exact wf_execVcompress _ _ _ hs
  | vslideup vd va xs => exact wf_execVslideup vd va xs s hs
  | vslidedn vd va xs => exact wf_execVslidedn vd va xs s hs
  | vperm => exact wf_execVperm _ _ _ _ hs
  | vxchg vd va xs => exact wf_execVxchg vd va xs s hs
  | vfredosum => exact wf_execVfredosum _ _ _ _ _ hs
  | vext xd va xs => exact wf_execVext xd va xs s hs
  | vins vd xi xs => exact wf_execVins vd xi xs s hs
  | vclz => exact wf_execVclz _ _ _ hs
  | vpopcnt => exact wf_execVpopcnt _ _ _ hs
  | vqrecv => exact wf_execVqrecv _ _ _ hs
  | vqsend => exact wf_execVqsend _ _ _ hs
  | pand => exact wf_execPand _ _ _ _ hs
  | por => exact wf_execPor _ _ _ _ hs
  | pxor => exact wf_execPxor _ _ _ _ hs
  | pandn => exact wf_execPandn _ _ _ _ hs
  | pnot => exact wf_execPnot _ _ _ hs
  | pset => exact wf_execPset _ _ hs
  | pclr => exact wf_execPclr _ _ hs
  | pfirst => exact wf_execPfirst _ _ _ hs
  | vpopcX => exact wf_execVpopcX _ _ _ hs
  | vpopcLq => exact wf_execVpopcLq _ _ _ hs
  | pmovv => exact wf_execPmovv _ _ _ hs
  | vmovp => exact wf_execVmovp _ _ _ hs
  | vqnt4 => exact wf_execVqnt4 _ _ _ hs
  | vdq4 => exact wf_execVdq4 _ _ _ hs
  | mldb xa xp => exact wf_execMldb xa xp s hs
  | mstep m xa xp => exact wf_execMstep m xa xp s hs
  | mstepr m xa xp => exact wf_execMstepr m xa xp s hs
  | mzero => exact wf_execMzero _ _ hs
  | mrd m xa xp => exact wf_execMrd m xa xp s hs
  | mwr m xa xp => exact wf_execMwr m xa xp s hs
  | mcommit => exact wf_execMcommit _ _ hs
  | vldb4 v xb xs => exact wf_execVldb4 v xb xs s hs
  | vstb4 v xb xs => exact wf_execVstb4 v xb xs s hs
  | copys xt xd xs xq => exact wf_execCopys xt xd xs xq s hs
  | rrot xt xd xs xn => exact wf_execRrot xt xd xs xn s hs
  | cmdb => exact wf_execCmdb _ _ _ hs
  | cvy => exact wf_execCvy _ _ _ _ _ _ _ _ hs
  | setvlq => exact wf_execSetvlq _ _ _ hs
  | fvs scope => exact wf_execFvs scope s hs
  | qsend => exact wf_execQsend _ _ _ hs
  | qrecv => exact wf_execQrecv _ _ _ hs
  | wid => exact wf_execWid _ _ _ hs
  | matt => exact wf_execMatt _ _ _ hs
  | mdet => exact wf_execMdet _ hs
  | mwait => exact wf_execMwait _ _ hs
  | tsync => exact wf_execTsync _ hs
  | binit => exact wf_execBinit _ _ _ hs
  | barrive => exact wf_execBarrive _ _ hs
  | bexpect => exact wf_execBexpect _ _ _ hs
  | bwait => exact wf_execBwait _ _ hs
  | phend => exact wf_execPhend _ _ hs
  | monarm => exact wf_execMonarm _ _ _ hs
  | monwait => exact wf_execMonwait _ hs
  | spawn => exact wf_execSpawn _ _ _ hs
  | join => exact wf_execJoin _ _ _ hs
  | xltrap => exact wf_execXltrap _ _ hs
  | vsync => exact wf_execVsync _ hs
  | remst => exact wf_execRemst _ _ _ hs
  | fflags => exact wf_execFflags _ _ hs
  | edgeUnitReceive => exact wf_execEdgeUnitReceive _ hs
  | flitReceive => exact wf_execFlitReceive _ hs
  | flitRefusal => exact wf_execFlitRefusal _ hs
  | flitAck => exact wf_execFlitAck _ hs
  | iodReady => exact wf_execIodReady _ hs
  | fnReady => exact wf_execFnReady _ hs
  | cdieReady => exact wf_execCdieReady _ hs
  | anvilReady => exact wf_execAnvilReady _ hs
  | mlinkReady => exact wf_execMlinkReady _ hs
  | mgrpReady => exact wf_execMgrpReady _ hs
  | plinkReady => exact wf_execPlinkReady _ hs
  | linkTrainingLoss => exact wf_execLinkTrainingLoss _ hs
  | linkRetrainDone => exact wf_execLinkRetrainDone _ hs
  | linkFailure => exact wf_execLinkFailure _ hs
  | mlinkRetrain => exact wf_execMlinkRetrain _ hs
  | plinkRetrain => exact wf_execPlinkRetrain _ hs
  | mlinkFailClear => exact wf_execMlinkFailClear _ hs
  | plinkFailClear => exact wf_execPlinkFailClear _ hs
  | reqMv => exact wf_execReqMv _ hs
  | capWrite => exact wf_execCapWrite _ hs
  | voltageRampDone => exact wf_execVoltageRampDone _ hs
  | clockLockDone => exact wf_execClockLockDone _ hs
  | stallWindowClose => exact wf_execStallWindowClose _ hs
  | powerLimiterInterval => exact wf_execPowerLimiterInterval _ hs
  | thermalHot => exact wf_execThermalHot _ hs
  | thermalRelease => exact wf_execThermalRelease _ hs
  | thermalTrip => exact wf_execThermalTrip _ hs
  | powerFlagsClear => exact wf_execPowerFlagsClear _ hs
  | clear => exact wf_execClear _ hs
  | monitorCapture => exact wf_execMonitorCapture _ hs
  | monitorLevelSample => exact wf_execMonitorLevelSample _ hs
  | stop => exact wf_execStop _ hs
  | run => exact wf_execRun _ hs
  | kill => exact wf_execKill _ hs
  | cmdZero => exact wf_execCmdZero _ hs
  | ctxSavedFieldWrite => exact wf_execCtxSavedFieldWrite _ hs
  | contextSaved => exact wf_execContextSaved _ hs
  | replayDone => exact wf_execReplayDone _ hs
  | waitSatisfied => exact wf_execWaitSatisfied _ hs
  | stopAll => exact wf_execStopAll _ hs
  | runAll => exact wf_execRunAll _ hs
  | killAll => exact wf_execKillAll _ hs
  | bar0UnbackedWrite => exact wf_execBar0UnbackedWrite _ hs
  | launchRegisterWrite => exact wf_execLaunchRegisterWrite _ hs
  | prgResponse => exact wf_execPrgResponse _ hs
  | hostCompletion => exact wf_execHostCompletion _ hs
  | hostRequestTimeout => exact wf_execHostRequestTimeout _ hs
  | hostWriteRefusal => exact wf_execHostWriteRefusal _ hs
  | atsInvalidationRequest => exact wf_execAtsInvalidationRequest _ hs
  | atsInvalidationCompletion => exact wf_execAtsInvalidationCompletion _ hs
  | msixUnmask => exact wf_execMsixUnmask _ hs
  | coalesceWrite => exact wf_execCoalesceWrite _ hs
  | holdExpiry => exact wf_execHoldExpiry _ hs
  | vfFlr => exact wf_execVfFlr _ hs
  | pfFlr => exact wf_execPfFlr _ hs
  | hotReset => exact wf_execHotReset _ hs
  | linkDown => exact wf_execLinkDown _ hs
  | create => exact wf_execCreate _ hs
  | createComplete => exact wf_execCreateComplete _ hs
  | destroy => exact wf_execDestroy _ hs
  | destroyComplete => exact wf_execDestroyComplete _ hs
  | unfreeze => exact wf_execUnfreeze _ hs
  | wcmdZero => exact wf_execWcmdZero _ hs
  | lockInterfaceRequest => exact wf_execLockInterfaceRequest _ hs
  | startInterfaceRequest => exact wf_execStartInterfaceRequest _ hs
  | stopInterfaceRequest => exact wf_execStopInterfaceRequest _ hs
  | getDeviceInterfaceReport => exact wf_execGetDeviceInterfaceReport _ hs
  | getDeviceInterfaceState => exact wf_execGetDeviceInterfaceState _ hs
  | getVersion => exact wf_execGetVersion _ hs
  | getCapabilities => exact wf_execGetCapabilities _ hs
  | negotiateAlgorithms => exact wf_execNegotiateAlgorithms _ hs
  | getDigests => exact wf_execGetDigests _ hs
  | getCertificate => exact wf_execGetCertificate _ hs
  | challenge => exact wf_execChallenge _ hs
  | getMeasurements => exact wf_execGetMeasurements _ hs
  | keyExchange => exact wf_execKeyExchange _ hs
  | finish => exact wf_execFinish _ hs
  | keyUpdate => exact wf_execKeyUpdate _ hs
  | endSession => exact wf_execEndSession _ hs
  | setStreamKey => exact wf_execSetStreamKey _ hs
  | setQuantumTable => exact wf_execSetQuantumTable _ hs
  | getQuantumTable => exact wf_execGetQuantumTable _ hs
  | ideIntegrityFailure => exact wf_execIdeIntegrityFailure _ hs
  | inboundRemoteStore => exact wf_execInboundRemoteStore _ hs
  | inboundCopyWrite => exact wf_execInboundCopyWrite _ hs
  | inboundCopyRead => exact wf_execInboundCopyRead _ hs
  | plinkUnfreeze => exact wf_execPlinkUnfreeze _ hs
  | inworldWrite => exact wf_execInworldWrite _ hs
  | remoteStoreAck => exact wf_execRemoteStoreAck _ hs
  | remoteStoreRefusal => exact wf_execRemoteStoreRefusal _ hs
  | ownerWrite => exact wf_execOwnerWrite _ hs
  | queueLockedFieldWrite => exact wf_execQueueLockedFieldWrite _ hs
  | start => exact wf_execStart _ hs
  | unlock => exact wf_execUnlock _ hs
  | qcmdIgnored => exact wf_execQcmdIgnored _ hs
  | tailStore => exact wf_execTailStore _ hs
  | ringerrClear => exact wf_execRingerrClear _ hs
  | ringPacketRead => exact wf_execRingPacketRead _ hs
  | launch => exact wf_execLaunch _ hs
  | waitvalue => exact wf_execWaitvalue _ hs
  | waitvalueRetest => exact wf_execWaitvalueRetest _ hs
  | writevalue => exact wf_execWritevalue _ hs
  | writevaluePerformed => exact wf_execWritevaluePerformed _ hs
  | checkpoint => exact wf_execCheckpoint _ hs
  | nop => exact wf_execNop _ hs
  | launchDone => exact wf_execLaunchDone _ hs
  | watchdogExpiry => exact wf_execWatchdogExpiry _ hs
  | policyCoreRecovery => exact wf_execPolicyCoreRecovery _ hs
  | ckptStopped => exact wf_execCkptStopped _ hs
  | ckptDieshardsDone => exact wf_execCkptDieshardsDone _ hs
  | ckptPageCopied => exact wf_execCkptPageCopied _ hs
  | ckptMemshardsDone => exact wf_execCkptMemshardsDone _ hs
  | ckptManifestDone => exact wf_execCkptManifestDone _ hs
  | restore => exact wf_execRestore _ hs
  | restoreDone => exact wf_execRestoreDone _ hs
  | abort => exact wf_execAbort _ hs
  | ecmdIgnored => exact wf_execEcmdIgnored _ hs
  | quantumEnd => exact wf_execQuantumEnd _ hs
  | quantumIdleEnd => exact wf_execQuantumIdleEnd _ hs
  | switchStopsDone => exact wf_execSwitchStopsDone _ hs
  | switchSaveDone => exact wf_execSwitchSaveDone _ hs
  | switchRestoreDone => exact wf_execSwitchRestoreDone _ hs
  | dispatchDecision => exact wf_execDispatchDecision _ hs
  | rotationSaveDone => exact wf_execRotationSaveDone _ hs
  | lengthMarkerTake => exact wf_execLengthMarkerTake _ hs
  | writeQueueUpdate => exact wf_execWriteQueueUpdate _ hs
  | operationResponse => exact wf_execOperationResponse _ hs
  | portFaultReport => exact wf_execPortFaultReport _ hs
  | sundogAck => exact wf_execSundogAck _ hs
  | sundogSpill => exact wf_execSundogSpill _ hs
  | reservationHoldExpiry => exact wf_execReservationHoldExpiry _ hs
  | chunkComplete => exact wf_execChunkComplete _ hs
  | engineCopyCommand => exact wf_execEngineCopyCommand _ hs
  | decryptCommand => exact wf_execDecryptCommand _ hs
  | batchComplete => exact wf_execBatchComplete _ hs
  | controlWordWrite => exact wf_execControlWordWrite _ hs
  | powerOnReset => exact wf_execPowerOnReset _ hs
  | vectorMask => exact wf_execVectorMask _ hs
  | postedStoreDropped => exact wf_execPostedStoreDropped _ hs
  | illegal => exact wf_execIllegal _ hs
  | instructionFetchFault => exact wf_execInstructionFetchFault _ hs

/-- A step is the power-on reset of a tripped package, or a turn of the schedule. -/
theorem wf_step (s : State) (hs : Memory.wf s.mem = true) : Res.Wf (step s) := by
  unfold step
  split
  · split
    · exact wf_runEvent wf_exec _ _ hs
    · trivial
  split
  · exact wf_runTurn wf_exec _ _ hs
  split
  · exact wf_runTurn wf_exec _ _ hs
  · exact hs

/-- Settles O58: a step is one turn or the power-on reset, and each operation keeps the canonical form. -/
theorem memoryStaysCanonical :
    Obligations.MemoryStaysCanonical := fun s _ hs ht => (congrArg Res.Wf ht).mp (wf_step s hs)

end Sys2Proof.Machine
end

section
/-!
PROOFS: the accessed and dirty bits of a leaf (03 R69).
-/

namespace Sys2Proof.Machine

/-- A leaf's entry after an access: A set, and D for a write. -/
def markAD (a : Acc) (e : Nat) : Nat := setBit (if a.writes then setBit e 5 true else e) 4 true

theorem bit_markAD (a : Acc) (e i : Nat) :
    bit (markAD a e) i = if i = 4 then true else if i = 5 ∧ a.writes = true then true else bit e i := by
  rw [markAD, setBit_sets _ 4 true i]
  split
  · rfl
  · split
    · rw [setBit_sets e 5 true i]
      simp [*]
    · simp [*]

theorem markAD_lt {a : Acc} {e : Nat} (h : e < 2 ^ 64) : markAD a e < 2 ^ 64 := by
  refine Nat.lt_pow_two_of_testBit _ fun i hi => ?_
  rw [← bit_eq_testBit, bit_markAD, if_neg (by omega), if_neg (by omega), bit_eq_testBit]
  exact Nat.testBit_lt_two_pow (Nat.lt_of_lt_of_le h (Nat.pow_le_pow_right (by decide) hi))

/-- An access writes the marked entry, unless it is marked already. -/
theorem setAD_leaf (s : State) (w : Nat) {x : Xlat} (a : Acc) {l : Leaf} (h : x.leaf = some l) :
    setAD s w x a = if markAD a l.entry = l.entry then s else writeNum s (keySlot s w) l.loc 8 (markAD a l.entry) := by
  unfold setAD
  rw [h]
  rfl

/-- After the access the entry reads marked. -/
theorem readNum_setAD {s : State} {w : Nat} {x : Xlat} (a : Acc) {l : Leaf} (h : x.leaf = some l) (hm : l.loc + 8 ≤ 2 ^ 51)
    (he : readNum s (keySlot s w) l.loc 8 = l.entry) :
    readNum (setAD s w x a) (keySlot s w) l.loc 8 = markAD a l.entry := by
  have hlt : markAD a l.entry < 2 ^ (8 * 8) := markAD_lt (he ▸ readNum_lt s (keySlot s w) l.loc 8)
  rw [setAD_leaf s w a h]
  split
  next same => rw [he, same]
  · rw [readNum_writeNum _ _ _ _ _ (.inl hm), Nat.mod_eq_of_lt hlt]

/-- A byte outside the entry reads as before, under any key slot: the entry's line stands under the world's slot already. -/
theorem readByte_setAD {s : State} {w : Nat} {x : Xlat} (a : Acc) {l : Leaf} (h : x.leaf = some l) (h8 : l.loc % 8 = 0)
    (hm : l.loc + 8 ≤ 2 ^ 51) (ht : slotOf s.lineSlot (l.loc / 64) = keySlot s w) {slot b : Nat}
    (hb : b < l.loc ∨ l.loc + 8 ≤ b) : readByte (setAD s w x a) slot b = readByte s slot b := by
  rw [setAD_leaf s w a h]
  split
  · rfl
  rw [writeNum, readByte_performWrite _ _ _ _ (by simp [bytesOf]) (by simpa using hm), bytesOf_length]
  split
  next line =>
    have hl : b / 64 = l.loc / 64 := by omega
    split
    next own => rw [if_neg (by omega), own]
    next other =>
      have hmem : isMem b = true := by simp only [isMem, decide_eq_true_eq]; omega
      rw [readByte, hmem, hl, ht]
      simp [other]
  · rfl

/-- Settles O6: the entry's eight bytes read marked, and the write that marks them touches nothing else. -/
theorem accessedAndDirty : Obligations.AccessedAndDirty := by
  intro s w x a
  refine ⟨fun h => by rw [setAD, h], fun l h h8 hm ht he => ?_⟩
  have hend : l.loc + 8 ≤ 2 ^ 51 := by
    simp only [isMem, decide_eq_true_eq] at hm
    omega
  have frame := performed_setAD s w x a
  dsimp only
  rw [readNum_setAD a h hend he]
  refine ⟨?_, fun hw => ?_, fun hw => ?_, fun i h4 h5 => ?_, fun slot b => readByte_setAD a h h8 hend ht, frame.ctxs,
    frame.launches, frame.queues, frame.worlds⟩ <;> rw [bit_markAD]
  · rfl
  · simp [hw]
  · simp [hw]
  · simp [h4, h5]

end Sys2Proof.Machine
end

section
/-!
PROOFS: the context and launch commands (03 R57 to R61). STOP_ALL visits the entries of the context table. Where the table
lists a context twice, the second visit finds what the first has left, and takes a RUN that was due for one to end.
-/

namespace Sys2Proof.Machine

/-- A faulted context with a state held for the end of a world switch, and a RUN still due. -/
def heldAndDue : Ctx := { Ctx.zero with state := .faulted, heldState := 1, due := true }

/-- STOP_ALL of launch 0, which is pending, with context 0 listed twice. -/
def listedTwice : State := { State.reset with
  ctxs := [(ctxKey 0 0, heldAndDue), (ctxKey 0 0, heldAndDue)]
  launches := [(launchKey 0 0, { Launch.zero with lstate := .pending })]
  ev := event .stopAll [0, 0] }

theorem listedTwice_saved : ((stopAll listedTwice 0 0).ctx 0 0).state = .saved := by decide

/-- Refutes O42: the statement speaks of every state, and so of one whose context table is not in canonical form. Context 0
of `listedTwice` reads FAULTED, and STOP_ALL leaves it SAVED: the first visit gives up the state that is held, and the second
ends the RUN that was due. -/
theorem not_contextCommands : ¬ Obligations.ContextCommands := by
  rintro ⟨-, h⟩
  obtain ⟨-, h⟩ := h listedTwice
  obtain ⟨⟨t, ht, -, -, hk⟩, -⟩ := h (.inl (.inl (by decide)))
  obtain rfl : stopAll listedTwice 0 0 = t := Host.Outcome.next.inj ht
  obtain ⟨-, -, -, held⟩ := hk 0 (by decide)
  exact absurd ((held (by decide) (by decide)).1.symm.trans listedTwice_saved) (by decide)

end Sys2Proof.Machine
end

section
/-!
PROOFS: a stop is saved with its record, and a replay resumes it (03 R54 to R57, 11 R209, R222).
-/

namespace Sys2Proof.Machine

/-! ### Writes above the memory region -/

theorem tget_putCells_below {lo n a : Nat} (cells m : Tbl Byte) (h : a < lo) :
    tget 0 (putCells lo n cells m) a = tget 0 m a := by
  unfold putCells
  rw [tget_append_left, tget_append_left, tget_filter 0 (fun i => decide (i < lo)), if_pos (by simpa using h)]
  · intro e he
    obtain ⟨x, -, rfl⟩ := List.mem_map.mp he
    omega
  · intro e he
    have := (List.mem_filter.mp he).2
    simp only [decide_eq_true_eq] at this
    omega

theorem readByte_performCells_off (s : State) {pa : Nat} (n : Nat) (cells : Tbl Byte) (hp : 2 ^ 51 ≤ pa) (slot : Nat) {a : Nat}
    (ha : isMem a = true) : readByte (performCells s 0 pa n cells) slot a = readByte s slot a := by
  by_cases hn : n = 0
  · rw [performCells, if_pos hn]
  have hm : isMem pa = false := by simp only [isMem, decide_eq_false_iff_not]; omega
  have hl : (performCells s 0 pa n cells).lineSlot = s.lineSlot := by
    simp only [performCells_lineSlot _ _ _ _ _ hn, retag, hm]; rfl
  have hf : clearForeign s 0 pa n = s.mem := by simp [clearForeign, foreignLines, hm]
  have hlt : a < pa := by simp only [isMem, decide_eq_true_eq] at ha; omega
  simp only [readByte, hl, performCells_mem _ _ _ _ _ hn, hf, tget_putCells_below cells s.mem hlt]

/-! ### Changes of a context that its page does not show -/

/-- What the page and the record of a stopped context show. -/
def Ctx.savedPage (c : Ctx) : Word × Nat × Nat × Tbl Word × Nat × List Op :=
  (c.pcS, c.vlS, c.fflagsS, c.xS, c.virga, c.strand.ops)

/-- The saved page of context (w, k), memory and what flies are in t as they are in s. -/
structure KeepsPage (w k : Nat) (s t : State) : Prop where
  saved : (t.ctx w k).savedPage = (s.ctx w k).savedPage
  mem : t.mem = s.mem
  lineSlot : t.lineSlot = s.lineSlot
  flights : t.flights = s.flights

theorem KeepsPage.trans {w k : Nat} {a b c : State} (h : KeepsPage w k a b) (g : KeepsPage w k b c) : KeepsPage w k a c :=
  ⟨g.saved.trans h.saved, g.mem.trans h.mem, g.lineSlot.trans h.lineSlot, g.flights.trans h.flights⟩

theorem Woken.keepsPage {s t : State} (h : Woken s t) (w k : Nat) : KeepsPage w k s t where
  saved := by rw [h.ctxs]; rfl
  mem := by rw [h.device]
  lineSlot := by rw [h.device]
  flights := by rw [h.device]

theorem Woken.launch {s t : State} (h : Woken s t) (w l : Nat) : t.launch w l = s.launch w l := by
  rw [State.launch, h.device]; rfl

/-- A change of STATE is the change of the field, and what that wakes. -/
theorem woken_setCtxState (s : State) (w k : Nat) (st : CtxState) :
    Woken (s.modCtx w k fun c => { c with state := st }) (s.setCtxState w k st) := by
  obtain ⟨ev, h⟩ := drain_frame (wakePage (s.modCtx w k fun c => { c with state := st }) w 4 k 0)
  rw [State.setCtxState, h]
  exact woken_trans (woken_wakePage _ _ _ _ _) (woken_push _ _)

/-- What has settled: the context of a preempted gang is off the fabric. -/
def offFabric (s : State) (w k : Nat) : State :=
  if (s.gangOf w k).state = .preempted then s.modCtx w k fun c => { c with resident := false } else s

theorem woken_ite {p : Prop} [Decidable p] {s a b : State} (ha : Woken s a) (hb : Woken s b) :
    Woken s (if p then a else b) := by
  split <;> assumption

theorem woken_settled (s : State) (w k : Nat) : Woken (offFabric s w k) (settled s w k) := by
  have push : ∀ i as (u : State), Woken u (u.push i as) := fun i as u => woken_push u [event i as]
  unfold settled
  extract_lets c g s1 s2 s3 s4 s5
  have h2 : Woken s1 s2 := woken_ite (push _ _ _) (woken_refl _)
  have h3 : Woken s2 s3 := by
    unfold s3
    split
    · exact woken_ite (push _ _ _) (woken_refl _)
    · exact woken_refl _
  have h4 : Woken s3 s4 := woken_ite (push _ _ _) (woken_refl _)
  have h5 : Woken s4 s5 := woken_push _ _
  have h6 := woken_trans h2 (woken_trans h3 (woken_trans h4 h5))
  exact woken_trans h6 (woken_ite (push _ _ _) (woken_refl _))

theorem State.ctx_modCtx (s : State) (w k : Nat) (f : Ctx → Ctx) (w' k' : Nat) :
    (s.modCtx w k f).ctx w' k' = if ctxKey w' k' = ctxKey w k then f (s.ctx w' k') else s.ctx w' k' := by
  rw [State.modCtx, State.ctx_putCtx]
  split
  next h => rw [State.ctx, State.ctx, h]
  · rfl

/-- A change of one context that leaves its page as it is. -/
theorem keepsPage_modCtx (s : State) (w k w' k' : Nat) (f : Ctx → Ctx) (hf : ∀ c, (f c).savedPage = c.savedPage) :
    KeepsPage w k s (s.modCtx w' k' f) where
  saved := by
    rw [State.ctx_modCtx]
    split
    · exact hf _
    · rfl
  mem := rfl
  lineSlot := rfl
  flights := rfl

theorem keepsPage_setCtxState (s : State) (w k w' k' : Nat) (st : CtxState) : KeepsPage w k s (s.setCtxState w' k' st) := by
  refine KeepsPage.trans ?_ ((woken_setCtxState s w' k' st).keepsPage w k)
  exact keepsPage_modCtx s w k w' k' _ fun _ => rfl

theorem keepsPage_settled (s : State) (w k w' k' : Nat) : KeepsPage w k s (settled s w' k') := by
  refine KeepsPage.trans ?_ ((woken_settled s w' k').keepsPage w k)
  unfold offFabric
  split
  · exact keepsPage_modCtx s w k w' k' _ fun _ => rfl
  · exact (woken_refl s).keepsPage w k

/-! ### The save -/

/-- The page and the frames of context (w, k) are written with what is outstanding. -/
def withFrames (s : State) (w k : Nat) : State := saveFrame (s.modStrand w k (Strand.outstand (s.ctx w k).fault)) w k

/-- Its class T requests are under way, and nothing else of it is outstanding in the core. -/
def emptied (s : State) (w k : Nat) : State :=
  leaveRequests ((launchFlights (withFrames s w k) w k).modStrand w k Strand.shelve) w k

/-- The page and the frames of context (w, k) are written, and what that wakes. -/
def savedState (s : State) (w k : Nat) : State :=
  let s := touchLines (emptied s w k) (pagePA 4 k 0x40 / 64) (pagePA 4 k 0x1FF / 64) w
  { s with work := s.work ++ crowdedSpills s w k }

theorem contextSaved_stays {s : State} {w k : Nat} (h : (s.ctx w k).state ≠ .stopping ∨ storesHeld s w k = true) :
    contextSaved s w k = s := if_pos h

theorem contextSaved_eq {s : State} {w k : Nat} (hst : (s.ctx w k).state = .stopping) (hh : storesHeld s w k = false) :
    contextSaved s w k = settled (match (s.ctx w k).fault with
      | none => (savedState s w k).setCtxState w k .saved
      | some f => recordFault (savedState s w k) w k f) w k := by
  have stops : ¬ ((s.ctx w k).state ≠ .stopping ∨ storesHeld s w k = true) := by simp [hst, hh]
  refine (if_neg stops).trans (Eq.trans (b := match (s.ctx w k).fault with
    | none => settled ((savedState s w k).setCtxState w k .saved) w k
    | some f => settled (recordFault (savedState s w k) w k f) w k) rfl ?_)
  cases (s.ctx w k).fault <;> rfl

theorem performed_foldl {α : Type} (f : State → α → State) (h : ∀ s x, Performed s (f s x)) (l : List α) (s : State) :
    Performed s (l.foldl f s) := by
  induction l generalizing s with
  | nil => exact performed_refl s
  | cons x l ih => exact performed_trans (h s x) (ih _)

/-- The frames of a context's slices are written. -/
def writeFrames (s : State) (w k : Nat) : State :=
  let c := s.ctx w k
  c.slices.foldl (fun s t => performCells s 0 (c.saveFrame + t * 2 ^ 29) (frameSize c.elat) (frameCells c t)) s

theorem performed_writeFrames (s : State) (w k : Nat) : Performed s (writeFrames s w k) :=
  performed_foldl _ (fun _ _ => performed_performCells _ _ _ _ _) _ _

/-- Frames above the memory region leave its bytes as they are. -/
theorem readByte_writeFrames {s : State} {w k : Nat} (h : 2 ^ 51 ≤ (s.ctx w k).saveFrame) (slot : Nat) {a : Nat}
    (ha : isMem a = true) : readByte (writeFrames s w k) slot a = readByte s slot a := by
  unfold writeFrames
  refine List.foldlRecOn (motive := fun u => readByte u slot a = readByte s slot a) _ _ rfl fun u hu t _ => ?_
  exact (readByte_performCells_off u _ _ (Nat.le_trans h (Nat.le_add_right _ _)) slot ha).trans hu

theorem saveFrame_eq (s : State) (w k : Nat) : saveFrame s w k = (writeFrames s w k).modCtx w k fun c => { c with
    pcS := c.strand.pc, vlS := c.strand.vl, fflagsS := c.strand.fflags, xS := c.strand.x, virga :=
        c.strand.record.length } := rfl

theorem outstand_frame (f : Option FaultRec) (t : Strand) : ∃ ops vm, t.outstand f = { t with ops := ops, vm := vm } ∧
    ∀ o ∈ t.ops, o.kind ≠ 2 → o ∈ ops := by
  unfold Strand.outstand
  split
  · dsimp only
    split
    · refine ⟨_, _, rfl, fun o ho hk => List.mem_append_left _ (List.mem_filter.mpr ⟨ho, ?_⟩)⟩
      simp [hk]
    · exact ⟨t.ops, t.vm, rfl, fun o ho _ => ho⟩
  · exact ⟨t.ops, t.vm, rfl, fun o ho _ => ho⟩

/-- d is c but for its strand and the saved fields of its page. -/
def SavedFrom (c d : Ctx) : Prop :=
  d = { c with strand := d.strand, pcS := d.pcS, vlS := d.vlS, fflagsS := d.fflagsS, xS := d.xS, virga := d.virga }

theorem SavedFrom.trans {c d e : Ctx} (h : SavedFrom c d) (g : SavedFrom d e) : SavedFrom c e := by
  rw [SavedFrom, g, h]

theorem savedFrom_modCtx (s : State) (w k : Nat) (f : Ctx → Ctx) (hf : ∀ c, SavedFrom c (f c)) (w' k' : Nat) :
    SavedFrom (s.ctx w' k') ((s.modCtx w k f).ctx w' k') := by
  rw [State.ctx_modCtx]
  split
  · exact hf _
  · rfl

theorem savedFrom_refl (c : Ctx) : SavedFrom c c := rfl

theorem Woken.savedFrom {s t : State} (h : Woken s t) (w k : Nat) : SavedFrom (s.ctx w k) (t.ctx w k) := by
  rw [SavedFrom, h.ctxs]

theorem SameCtx.savedFrom {c d : Ctx} (h : SameCtx c d) : SavedFrom c d := by
  rw [SavedFrom, h]

theorem savedFrom_withFrames (s : State) (w k w' k' : Nat) : SavedFrom (s.ctx w' k') ((withFrames s w k).ctx w' k') := by
  have marked := savedFrom_modCtx s w k (fun c => { c with strand := c.strand.outstand (s.ctx w k).fault }) (fun _ => rfl) w' k'
  have written := (performed_writeFrames (s.modStrand w k (Strand.outstand (s.ctx w k).fault)) w k).ctxs w' k'
  rw [withFrames, saveFrame_eq]
  refine (marked.trans (SameCtx.savedFrom written)).trans ?_
  apply savedFrom_modCtx
  exact fun _ => rfl

/-- What the save of the page wakes. -/
theorem woken_savedState (s : State) (w k : Nat) : Woken (emptied s w k) (savedState s w k) :=
  woken_trans (woken_touchLines _ _ _ _) (woken_push _ _)

theorem savedFrom_savedState (s : State) (w k w' k' : Nat) : SavedFrom (s.ctx w' k') ((savedState s w k).ctx w' k') := by
  have shelved := savedFrom_modCtx (launchFlights (withFrames s w k) w k) w k (fun c => { c with strand := c.strand.shelve })
    (fun _ => rfl) w' k'
  exact ((savedFrom_withFrames s w k w' k').trans shelved).trans ((woken_savedState s w k).savedFrom w' k')

theorem emptied_device (s : State) (w k : Nat) : let u := writeFrames (s.modStrand w k (Strand.outstand (s.ctx w k).fault)) w k
    (emptied s w k).launches = u.launches ∧ (emptied s w k).mem = u.mem ∧ (emptied s w k).lineSlot = u.lineSlot ∧
    (emptied s w k).flights = (launchFlights (withFrames s w k) w k).flights := by
  simp only [emptied, leaveRequests, launchFlights, State.modStrand, State.modCtx, State.putCtx, withFrames, saveFrame_eq,
    and_self]

theorem launches_savedState (s : State) (w k : Nat) : (savedState s w k).launches = s.launches := by
  rw [(woken_savedState s w k).device]
  exact (emptied_device s w k).1.trans (performed_writeFrames _ w k).launches

/-- The strand that the frames show. -/
theorem strand_withFrames (s : State) (w k : Nat) : ∃ resv mon, ((withFrames s w k).ctx w k).strand =
    { (s.ctx w k).strand.outstand (s.ctx w k).fault with resv := resv, mon := mon } := by
  have written := (performed_writeFrames (s.modStrand w k (Strand.outstand (s.ctx w k).fault)) w k).ctxs w k
  rw [withFrames, saveFrame_eq, State.ctx_modCtx, if_pos rfl, written, State.modStrand, State.ctx_modCtx, if_pos rfl]
  exact ⟨_, _, rfl⟩

/-- The page shows the registers and counts the record, and the strand keeps no operation. -/
theorem savedPage_savedState (s : State) (w k : Nat) : ((savedState s w k).ctx w k).savedPage =
    ((s.ctx w k).strand.pc, (s.ctx w k).strand.vl, (s.ctx w k).strand.fflags, (s.ctx w k).strand.x,
      ((s.ctx w k).strand.outstand (s.ctx w k).fault).record.length, []) := by
  have written := (performed_writeFrames (s.modStrand w k (Strand.outstand (s.ctx w k).fault)) w k).ctxs w k
  obtain ⟨ops, vm, ho, -⟩ := outstand_frame (s.ctx w k).fault (s.ctx w k).strand
  refine ((woken_savedState s w k).keepsPage w k).saved.trans ?_
  have shelved : (emptied s w k).ctx w k = { (withFrames s w k).ctx w k with strand :=
      ((withFrames s w k).ctx w k).strand.shelve } :=
    (State.ctx_modCtx (launchFlights (withFrames s w k) w k) w k (fun c => { c with strand := c.strand.shelve }) w k).trans
      (if_pos rfl)
  rw [shelved, withFrames, saveFrame_eq, State.ctx_modCtx, if_pos rfl, written, State.modStrand, State.ctx_modCtx,
      if_pos rfl, ho]
  rfl

/-- The class T requests of a context that stops travel on. -/
theorem flights_savedState {s : State} {w k : Nat} {o : Op} (ho : o ∈ (s.ctx w k).strand.ops) (hc : o.cls = 1) (hk : o.kind ≠ 2)
    (hr : o.kind ≠ 0x11) (hd : o.done = false) (hq : o.queued = false) (hh : o.host = none) :
    (w, k, o) ∈ (savedState s w k).flights := by
  obtain ⟨resv, mon, hs⟩ := strand_withFrames s w k
  obtain ⟨ops, vm, he, hkeep⟩ := outstand_frame (s.ctx w k).fault (s.ctx w k).strand
  have listed : o ∈ ((withFrames s w k).ctx w k).strand.ops := by
    rw [hs, he]
    exact hkeep o ho hk
  rw [((woken_savedState s w k).keepsPage w k).flights, (emptied_device s w k).2.2.2]
  refine List.mem_append_right _ (List.mem_map.mpr ⟨o, List.mem_filter.mpr ⟨listed, ?_⟩, rfl⟩)
  simp [hc, hr, hd, hq, hh]

theorem readByte_savedState {s : State} {w k : Nat} (h : 2 ^ 51 ≤ (s.ctx w k).saveFrame) (slot : Nat) {a : Nat}
    (ha : isMem a = true) : readByte (savedState s w k) slot a = readByte s slot a := by
  obtain ⟨-, mem, lines, -⟩ := emptied_device s w k
  have woken := (woken_savedState s w k).keepsPage w k
  rw [readByte, woken.mem, woken.lineSlot, mem, lines]
  refine readByte_writeFrames (s := s.modStrand w k (Strand.outstand (s.ctx w k).fault)) ?_ slot ha
  rw [State.modStrand, State.ctx_modCtx, if_pos rfl]
  exact h

/-- The page of a context that has stopped, as a step leaves it. -/
def PageShown (s : State) (w k : Nat) (t : State) : Prop :=
  (t.ctx w k).pcS = (s.ctx w k).strand.pc ∧ (t.ctx w k).vlS = (s.ctx w k).strand.vl ∧
  (t.ctx w k).fflagsS = (s.ctx w k).strand.fflags ∧ (t.ctx w k).xS = (s.ctx w k).strand.x ∧
  (t.ctx w k).virga = ((s.ctx w k).strand.outstand (s.ctx w k).fault).record.length ∧
  (t.ctx w k).strand.ops = [] ∧
  (∀ o ∈ (s.ctx w k).strand.ops, o.cls = 1 → o.kind ≠ 2 → o.kind ≠ 0x11 → o.done = false → o.queued = false → o.host = none →
    (w, k, o) ∈ t.flights) ∧
  (2 ^ 51 ≤ (s.ctx w k).saveFrame → ∀ slot a, isMem a = true → readByte t slot a = readByte s slot a)

theorem pageShown {s t : State} {w k : Nat} (h : KeepsPage w k (savedState s w k) t) : PageShown s w k t := by
  have page := h.saved.trans (savedPage_savedState s w k)
  simp only [Ctx.savedPage, Prod.mk.injEq] at page
  obtain ⟨pc, vl, fflags, x, virga, ops⟩ := page
  refine ⟨pc, vl, fflags, x, virga, ops, fun o ho hc hk hr hd hq hh => ?_, fun hf slot a ha => ?_⟩
  · rw [h.flights]
    exact flights_savedState ho hc hk hr hd hq hh
  · rw [readByte, h.mem, h.lineSlot]
    exact readByte_savedState hf slot ha

/-! ### The record of a fault -/

/-- A context with the record of a fault. -/
def Ctx.recorded (f : FaultRec) (c : Ctx) : Ctx :=
  { c with
    state := if f.cause == .tagfail then .frozen else .faulted
    fseq := c.fseq + 1, fslot := f.fslot, cause := f.cause.code, fpc := f.fpc, felem := f.felem, progress := f.progress
    faddr := f.faddr, fault := none, heldState := 0 }

/-- A launch with its first fault. -/
def Launch.faulted (k : Nat) (x : Launch) : Launch := if x.fvalid then x else { x with fvalid := true, firstFault := k }

/-- The record stands in the page. -/
def recordStored (s : State) (w k : Nat) (f : FaultRec) : State :=
  (s.modCtx w k fun c => { c with
    fseq := c.fseq + 1, fslot := f.fslot, cause := f.cause.code, fpc := f.fpc, felem := f.felem,
    progress := f.progress, faddr := f.faddr, fault := none, heldState := 0 }).setCtxState w k
      (if f.cause == .tagfail then .frozen else .faulted)

/-- The record stands in the page, and the launch has its first fault. -/
def recordTaken (s : State) (w k : Nat) (f : FaultRec) : State :=
  let l := ((recordStored s w k f).ctx w k).launch
  if ((recordStored s w k f).launch w l).fvalid then recordStored s w k f
  else wakePage ((recordStored s w k f).modLaunch w l fun x => { x with fvalid := true, firstFault := k }) w 3 l 0x58

theorem recordFault_eq (s : State) (w k : Nat) (f : FaultRec) : recordFault s w k f =
    match handlerOf (recordTaken s w k f) w k with
    | some h => wakePage ((recordTaken s w k f).modCtx w h fun c => { c with lastFault := k, notify :=
        c.notify + 1 }) w 4 h 0x40
    | none =>
      if f.cause == .tagfail then recordTaken s w k f
      else killAll ((recordTaken s w k f).modLaunch w ((recordStored s w k f).ctx w k).launch fun x => { x with faultEnd :=
          true })
        w ((recordStored s w k f).ctx w k).launch false := rfl

/-- What a change wakes does not depend on how the table of contexts is laid out. -/
theorem Woken.of_ctx {a b t : State} (h : Woken a t) (hd : a = { b with ctxs := a.ctxs }) (hc : ∀ w k, a.ctx w k = b.ctx w k) :
    Woken b t where
  device := by rw [h.device, hd]
  queues := fun q => by
    have hq : a.queue q = b.queue q := by rw [State.queue, hd]; rfl
    exact hq ▸ h.queues q
  ctxs := fun w k => by rw [h.ctxs, hc]
  work := by
    obtain ⟨es, he⟩ := h.work
    exact ⟨es, by rw [he, hd]⟩

theorem woken_recordStored (s : State) (w k : Nat) (f : FaultRec) :
    Woken (s.modCtx w k (Ctx.recorded f)) (recordStored s w k f) := by
  refine (woken_setCtxState _ w k _).of_ctx rfl fun w' k' => ?_
  rw [State.ctx_modCtx, State.ctx_modCtx, State.ctx_modCtx]
  split <;> rfl

theorem launch_recordStored (s : State) (w k : Nat) (f : FaultRec) :
    ((recordStored s w k f).ctx w k).launch = (s.ctx w k).launch := by
  rw [(woken_recordStored s w k f).ctxs, State.ctx_modCtx, if_pos rfl]
  rfl

theorem savedFrom_recordTaken (s : State) (w k : Nat) (f : FaultRec) (w' k' : Nat) :
    SavedFrom ((s.modCtx w k (Ctx.recorded f)).ctx w' k') ((recordTaken s w k f).ctx w' k') := by
  have stored := (woken_recordStored s w k f).savedFrom w' k'
  unfold recordTaken
  extract_lets l
  split
  · exact stored
  · exact stored.trans ((woken_wakePage _ _ _ _ _).savedFrom w' k')

theorem keepsPage_modLaunch (s : State) (w k w' l : Nat) (f : Launch → Launch) : KeepsPage w k s (s.modLaunch w' l f) :=
  ⟨rfl, rfl, rfl, rfl⟩

theorem keepsPage_recordTaken (s : State) (w k : Nat) (f : FaultRec) : KeepsPage w k s (recordTaken s w k f) := by
  have stored : KeepsPage w k s (recordStored s w k f) :=
    (keepsPage_modCtx s w k w k (Ctx.recorded f) fun _ => rfl).trans ((woken_recordStored s w k f).keepsPage w k)
  unfold recordTaken
  extract_lets l
  split
  · exact stored
  · exact (stored.trans (keepsPage_modLaunch _ _ _ _ _ _)).trans ((woken_wakePage _ _ _ _ _).keepsPage w k)

theorem launch_recordTaken (s : State) (w k : Nat) (f : FaultRec) :
    (recordTaken s w k f).launch w (s.ctx w k).launch = (s.launch w (s.ctx w k).launch).faulted k := by
  have stored : (recordStored s w k f).launch w (s.ctx w k).launch = s.launch w (s.ctx w k).launch :=
    (woken_recordStored s w k f).launch w (s.ctx w k).launch
  rw [recordTaken, launch_recordStored, stored, Launch.faulted]
  split
  · exact stored
  · rw [wakePage, launch_touchLines, State.launch_modLaunch, if_pos rfl, stored]

/-! ### What a kill leaves of a record -/

/-- The record of a context's last fault. -/
def Ctx.faultShown (c : Ctx) : BitVec 32 × Nat × Nat × Nat × Nat × Nat × Nat :=
  (c.fseq, c.cause, c.fslot, c.fpc, c.felem, c.progress, c.faddr)

/-- A state that is as before, or that of a context that has ended. -/
def CtxState.Onward (a b : CtxState) : Prop := b = a ∨ b = .dead ∨ b = .empty

/-- From s to t contexts may have ended: every context keeps the record of its fault, and every launch its first fault. -/
structure Onward (s t : State) : Prop where
  records : ∀ w k, (t.ctx w k).faultShown = (s.ctx w k).faultShown
  states : ∀ w k, (s.ctx w k).state.Onward (t.ctx w k).state
  fvalid : ∀ w l, (t.launch w l).fvalid = (s.launch w l).fvalid
  firstFault : ∀ w l, (t.launch w l).firstFault = (s.launch w l).firstFault
  faultEnd : ∀ w l, (s.launch w l).faultEnd = true → (t.launch w l).faultEnd = true

theorem CtxState.onward_trans {a b c : CtxState} (h : a.Onward b) (g : b.Onward c) : a.Onward c := by
  rcases g with rfl | g
  · exact h
  · exact .inr g

theorem onward_refl (s : State) : Onward s s :=
  ⟨fun _ _ => rfl, fun _ _ => .inl rfl, fun _ _ => rfl, fun _ _ => rfl, fun _ _ h => h⟩

theorem onward_trans {a b c : State} (h : Onward a b) (g : Onward b c) : Onward a c where
  records w k := (g.records w k).trans (h.records w k)
  states w k := CtxState.onward_trans (h.states w k) (g.states w k)
  fvalid w l := (g.fvalid w l).trans (h.fvalid w l)
  firstFault w l := (g.firstFault w l).trans (h.firstFault w l)
  faultEnd w l e := g.faultEnd w l (h.faultEnd w l e)

theorem Woken.onward {s t : State} (h : Woken s t) : Onward s t where
  records w k := by rw [h.ctxs]; rfl
  states w k := by rw [h.ctxs]; exact .inl rfl
  fvalid w l := by rw [h.launch]
  firstFault w l := by rw [h.launch]
  faultEnd w l e := by rw [h.launch]; exact e

theorem onward_modCtx (s : State) (w k : Nat) (f : Ctx → Ctx) (hr : ∀ c : Ctx, (f c).faultShown = c.faultShown)
    (hs : ∀ c : Ctx, c.state.Onward (f c).state) : Onward s (s.modCtx w k f) where
  records w' k' := by
    rw [State.ctx_modCtx]
    split
    · exact hr _
    · rfl
  states w' k' := by
    rw [State.ctx_modCtx]
    split
    · exact hs _
    · exact .inl rfl
  fvalid _ _ := rfl
  firstFault _ _ := rfl
  faultEnd _ _ e := e

theorem onward_modLaunch (s : State) (w l : Nat) (f : Launch → Launch)
    (hf : ∀ x, (f x).fvalid = x.fvalid ∧ (f x).firstFault = x.firstFault ∧ (x.faultEnd = true → (f x).faultEnd = true)) :
    Onward s (s.modLaunch w l f) := by
  have at_ : ∀ w' l', (s.modLaunch w l f).launch w' l' = s.launch w' l' ∨ (s.modLaunch w l f).launch w' l' = f (s.launch w'
      l') := by
    intro w' l'
    rw [State.launch_modLaunch]
    split
    next h => right; rw [State.launch, State.launch, h]
    · exact .inl rfl
  refine ⟨fun _ _ => rfl, fun _ _ => .inl rfl, fun w' l' => ?_, fun w' l' => ?_, fun w' l' e => ?_⟩
  all_goals rcases at_ w' l' with h | h <;> rw [h]
  · exact (hf _).1
  · exact (hf _).2.1
  · exact e
  · exact (hf _).2.2 e

theorem onward_foldl {α : Type} (f : State → α → State) (h : ∀ s x, Onward s (f s x)) (l : List α) (s : State) :
    Onward s (l.foldl f s) := by
  induction l generalizing s with
  | nil => exact onward_refl s
  | cons x l ih => exact onward_trans (h s x) (ih _)

theorem onward_ends (s : State) (w k : Nat) (st : CtxState) (h : st = .dead ∨ st = .empty) : Onward s (s.setCtxState w k st) :=
  onward_trans (onward_modCtx s w k (fun c => { c with state :=
      st }) (fun _ => rfl) fun _ => .inr h) (woken_setCtxState s w k st).onward

theorem onward_settled (s : State) (w k : Nat) : Onward s (settled s w k) := by
  refine onward_trans ?_ (woken_settled s w k).onward
  unfold offFabric
  split
  · exact onward_modCtx s w k _ (fun _ => rfl) fun _ => .inl rfl
  · exact onward_refl s

theorem onward_releaseAlloc (s : State) (w core off size : Nat) : Onward s (releaseAlloc s w core off size) := by
  unfold releaseAlloc
  extract_lets g0 n
  split
  · exact ⟨fun _ _ => rfl, fun _ _ => .inl rfl, fun _ _ => rfl, fun _ _ => rfl, fun _ _ h => h⟩
  · exact ⟨fun _ _ => rfl, fun _ _ => .inl rfl, fun _ _ => rfl, fun _ _ => rfl, fun _ _ h => h⟩

theorem onward_wakePage (s : State) (w kind idx off : Nat) : Onward s (wakePage s w kind idx off) :=
    (woken_wakePage _ _ _ _ _).onward

theorem onward_push (s : State) (i : Instr) (as : List Nat) : Onward s (s.push i as) := (woken_push s [event i as]).onward

theorem onward_gangEnd (s : State) (w l g : Nat) : Onward s (gangEnd s w l g) := by
  unfold gangEnd
  extract_lets x gg first s1 s2 s3
  split
  · have h1 : Onward s s1 := onward_foldl _ (fun u k => onward_ends u w k _ (.inr rfl)) _ _
    have h2 : Onward s1 s2 := onward_foldl _ (fun u a => onward_releaseAlloc _ _ _ _ _) _ _
    have h3 : Onward s2 s3 := onward_modLaunch _ _ _ _ fun _ => ⟨rfl, rfl, id⟩
    exact onward_trans h1 (onward_trans h2 (onward_trans h3 (onward_trans (onward_wakePage _ _ _ _ _) (onward_push _ _ _))))
  · exact onward_refl s

theorem onward_launchEnd (s : State) (w l : Nat) : Onward s (launchEnd s w l) := by
  unfold launchEnd
  extract_lets x dead s1
  split
  · have h1 : Onward s s1 := onward_trans
      (onward_modLaunch s w l (fun x => { x with lstate := .ackwait }) fun _ => ⟨rfl, rfl, id⟩) (onward_wakePage _ _ _ _ _)
    split
    · exact onward_trans h1 (onward_push _ _ _)
    · exact h1
  · exact onward_refl s

/-- What a kill does to the context itself, before what has ended with it. -/
def discarded (s : State) (w k : Nat) : State :=
  let c := s.ctx w k
  let s := s.putCtx w k { c.halt with
    resident := false, fault := none, wait := none, ranAtSwitch := false, due := false, deadFaulted := c.state == .faulted
    strand := { c.halt.strand.discardOps with kids := [], anvil := none, va := [], vm := [], marks := [] } }
  let s := { s with
    sundogs := s.sundogs.filter fun d => d.tag / 2 ^ 18 != w * 2 ^ 14 + k
    flights := s.flights.filter fun x => !(x.1 == w && x.2.1 == k)
    hreqs := (s.hreqs.filter fun (e : Nat × HReq) => !(e.2.world == w && e.2.ctx == k && e.2.posted && !e.2.asking)).map
      fun (e : Nat × HReq) => if e.2.world = w ∧ e.2.ctx = k then (e.1, { e.2 with dropped := true }) else e }
  if c.state = .faulted then s.modLaunch w c.launch fun x => { x with faultEnd := true } else s

/-- A kill: the context is discarded and dead, and its gang and its launch may end with it. -/
theorem killCtx_eq (s : State) (w k : Nat) : killCtx s w k =
    let t := settled ((discarded s w k).setCtxState w k .dead) w k
    launchEnd (gangEnd { t with work := t.work ++ (s.ctx w k).freed (ctxKey w k) } w (s.ctx w k).launch (s.ctx w k).gang) w
      (s.ctx w k).launch := rfl

theorem onward_discarded (s : State) (w k : Nat) : Onward s (discarded s w k) := by
  have put : ∀ (u : State) (d : Ctx), d.faultShown = (u.ctx w k).faultShown → d.state = (u.ctx w k).state →
      Onward u (u.putCtx w k d) := by
    intro u d hr hs
    refine ⟨fun w' k' => ?_, fun w' k' => ?_, fun _ _ => rfl, fun _ _ => rfl, fun _ _ h => h⟩
    all_goals rw [State.ctx_putCtx]; split
    · next h => rw [hr, State.ctx, State.ctx, h]
    · rfl
    · next h => rw [hs, State.ctx, State.ctx, h]; exact .inl rfl
    · exact .inl rfl
  unfold discarded
  extract_lets c halted strand s1 s2
  have h1 : Onward s s1 := put _ _ rfl rfl
  have h2 : Onward s1 s2 := ⟨fun _ _ => rfl, fun _ _ => .inl rfl, fun _ _ => rfl, fun _ _ => rfl, fun _ _ h => h⟩
  split
  · exact onward_trans h1 (onward_trans h2 (onward_modLaunch _ _ _ _ fun _ => ⟨rfl, rfl, fun _ => rfl⟩))
  · exact onward_trans h1 h2

theorem onward_afterDead (s : State) (w k : Nat) : Onward ((discarded s w k).setCtxState w k .dead) (killCtx s w k) := by
  rw [killCtx_eq]
  extract_lets t
  exact onward_trans (onward_settled _ _ _) (onward_trans (woken_push t ((s.ctx w k).freed (ctxKey w k))).onward
    (onward_trans (onward_gangEnd _ _ _ _) (onward_launchEnd _ _ _)))

theorem onward_killCtx (s : State) (w k : Nat) : Onward s (killCtx s w k) :=
  onward_trans (onward_discarded s w k) (onward_trans (onward_ends _ w k _ (.inl rfl)) (onward_afterDead s w k))

/-- A context that has been killed has ended. -/
theorem killCtx_ends (s : State) (w k : Nat) : ((killCtx s w k).ctx w k).state = .dead ∨ ((killCtx s w k).ctx w k).state =
    .empty := by
  have dead : (((discarded s w k).setCtxState w k .dead).ctx w k).state = .dead := by
    rw [(woken_setCtxState _ w k .dead).ctxs, State.ctx_modCtx, if_pos rfl]
  have h := (onward_afterDead s w k).states w k
  rw [dead] at h
  rcases h with h | h
  · exact .inl h
  · exact h

/-- The visit of one context by KILL_ALL. -/
def killLive (w : Nat) (root : Bool) (s : State) (k : Nat) : State :=
  let st := (s.ctx w k).state
  if st = .dead ∨ st = .empty ∨ (st = .frozen ∧ !root) then s else killCtx s w k

/-- A launch whose gangs still to place are discarded. -/
def launchDiscarded (s : State) (w l : Nat) : State := s.modLaunch w l fun x => { x with discarded := true, held := false }

/-- Every bound context of a launch is visited. -/
def killVisits (s : State) (w l : Nat) (root : Bool) : State :=
  ((launchDiscarded s w l).ctxsOf w l).foldl (killLive w root) (launchDiscarded s w l)

theorem killAll_eq (s : State) (w l : Nat) (root : Bool) :
    killAll s w l root = launchEnd (wakePage (killVisits s w l root) w 3 l 0) w l := rfl

theorem onward_killLive (w : Nat) (root : Bool) (s : State) (k : Nat) : Onward s (killLive w root s k) := by
  unfold killLive
  extract_lets st
  split
  · exact onward_refl s
  · exact onward_killCtx s w k

theorem onward_killAll (s : State) (w l : Nat) (root : Bool) : Onward s (killAll s w l root) := by
  have discards : Onward s (launchDiscarded s w l) := onward_modLaunch _ _ _ _ fun _ => ⟨rfl, rfl, id⟩
  have visits : Onward _ (killVisits s w l root) := onward_foldl _ (onward_killLive w root) _ _
  rw [killAll_eq]
  exact onward_trans discards (onward_trans visits (onward_trans (onward_wakePage _ _ _ _ _) (onward_launchEnd _ _ _)))

/-- Of the contexts visited, one that had faulted has ended. -/
theorem foldl_killLive_ends {w k : Nat} (ks : List Nat) (s : State) (hk : k ∈ ks) (hs :
    CtxState.faulted.Onward (s.ctx w k).state) :
    ((ks.foldl (killLive w false) s).ctx w k).state = .dead ∨ ((ks.foldl (killLive w false) s).ctx w k).state = .empty := by
  induction ks generalizing s with
  | nil => cases hk
  | cons j ks ih =>
    by_cases hj : k = j
    · subst hj
      have visited : ((killLive w false s k).ctx w k).state = .dead ∨ ((killLive w false s k).ctx w k).state = .empty := by
        unfold killLive
        extract_lets st
        split
        next h =>
          rcases h with h | h | h
          · exact .inl h
          · exact .inr h
          · rcases hs with e | e | e <;> rw [show st = _ from e] at h <;> simp at h
        · exact killCtx_ends s w k
      have h := (onward_foldl _ (onward_killLive w false) ks (killLive w false s k)).states w k
      rcases h with h | h
      · exact h.symm ▸ visited
      · exact h
    · exact ih _ (List.mem_of_ne_of_mem hj hk) (CtxState.onward_trans hs ((onward_killLive w false s j).states w k))

theorem mem_of_tget_ne {α : Type} {d : α} {t : Tbl α} {j : Nat} (h : tget d t j ≠ d) : (j, tget d t j) ∈ t := by
  induction t with
  | nil => exact absurd rfl h
  | cons e t ih =>
    obtain ⟨i, v⟩ := e
    by_cases hi : i = j
    · subst hi
      simp [tget]
    · rw [tget, if_neg hi] at h ⊢
      exact List.mem_cons_of_mem _ (ih h)

/-- A context that is not EMPTY is bound. -/
theorem mem_ctxsOf {s : State} {w k : Nat} (hk : k < 16384) (h : (s.ctx w k).state ≠ .empty) :
    k ∈ s.ctxsOf w (s.ctx w k).launch := by
  have listed : (ctxKey w k, s.ctx w k) ∈ s.ctxs := mem_of_tget_ne fun e => h (congrArg Ctx.state e)
  refine List.mem_filter.mpr ⟨List.mem_filterMap.mpr ⟨_, List.mem_filter.mpr ⟨listed, ?_⟩, ?_⟩, by simp⟩
  · simp [ctxKey, hk]
  · rw [if_neg h]
    simp [ctxKey]

/-- A faulted context ends with its launch. -/
theorem killAll_ends {s : State} {w k : Nat} (hk : k < 16384) (h : (s.ctx w k).state = .faulted) :
    ((killAll s w (s.ctx w k).launch false).ctx w k).state = .dead ∨ ((killAll s w (s.ctx w k).launch false).ctx w k).state
        = .empty := by
  have listed : k ∈ (launchDiscarded s w (s.ctx w k).launch).ctxsOf w (s.ctx w k).launch :=
    mem_ctxsOf (s := launchDiscarded s w (s.ctx w k).launch) hk fun e => by
      have : (s.ctx w k).state = .empty := e
      rw [h] at this
      cases this
  have ended : ((killVisits s w (s.ctx w k).launch false).ctx w k).state = .dead ∨
      ((killVisits s w (s.ctx w k).launch false).ctx w k).state = .empty := foldl_killLive_ends _ _ listed (.inl h)
  rw [killAll_eq]
  generalize killVisits s w (s.ctx w k).launch false = v at ended ⊢
  rcases (onward_trans (onward_wakePage v w 3 (s.ctx w k).launch 0) (onward_launchEnd _ w (s.ctx w k).launch)).states w k
      with e | e
  · exact e.symm ▸ ended
  · exact e

/-! ### A stop ends -/

theorem SavedFrom.state {c d : Ctx} (h : SavedFrom c d) : d.state = c.state := by rw [h]
theorem SavedFrom.launch {c d : Ctx} (h : SavedFrom c d) : d.launch = c.launch := by rw [h]
theorem SavedFrom.notify {c d : Ctx} (h : SavedFrom c d) : d.notify = c.notify := by rw [h]
theorem SavedFrom.lastFault {c d : Ctx} (h : SavedFrom c d) : d.lastFault = c.lastFault := by rw [h]

theorem savedFrom_settled (s : State) (w k w' k' : Nat) :
    ∃ r, SavedFrom { s.ctx w' k' with resident := r } ((settled s w k).ctx w' k') := by
  have woken := (woken_settled s w k).savedFrom w' k'
  have off : ∃ r, { s.ctx w' k' with resident := r } = (offFabric s w k).ctx w' k' := by
    unfold offFabric
    split
    · rw [State.ctx_modCtx]
      split
      · exact ⟨_, rfl⟩
      · exact ⟨_, rfl⟩
    · exact ⟨_, rfl⟩
  obtain ⟨r, hr⟩ := off
  exact ⟨r, hr ▸ woken⟩

theorem state_settled (s : State) (w k w' k' : Nat) : ((settled s w k).ctx w' k').state = (s.ctx w' k').state := by
  obtain ⟨r, h⟩ := savedFrom_settled s w k w' k'
  rw [h]

theorem faultShown_settled (s : State) (w k w' k' : Nat) : ((settled s w k).ctx w' k').faultShown = (s.ctx w' k').faultShown :=
  (onward_settled s w k).records w' k'

/-- A context without a fault reads SAVED. -/
theorem contextSaved_saved {s : State} {w k : Nat} (hst : (s.ctx w k).state = .stopping) (hh : storesHeld s w k = false)
    (hf : (s.ctx w k).fault = none) :
    PageShown s w k (contextSaved s w k) ∧ ((contextSaved s w k).ctx w k).state = .saved ∧
      ((contextSaved s w k).ctx w k).fseq = (s.ctx w k).fseq := by
  rw [contextSaved_eq hst hh, hf]
  have page := (keepsPage_setCtxState (savedState s w k) w k w k .saved).trans (keepsPage_settled _ w k w k)
  have set := (woken_setCtxState (savedState s w k) w k .saved).ctxs w k
  rw [State.ctx_modCtx, if_pos rfl] at set
  refine ⟨pageShown page, ?_, ?_⟩
  · rw [state_settled, set]
  · obtain ⟨r, h⟩ := savedFrom_settled ((savedState s w k).setCtxState w k .saved) w k w k
    rw [h, set, savedFrom_savedState s w k w k]

/-- The state in which the record of a context that has stopped stands. -/
def stoppedFaulted (s : State) (w k : Nat) (f : FaultRec) : State := recordTaken (savedState s w k) w k f

theorem savedFrom_stoppedFaulted (s : State) (w k : Nat) (f : FaultRec) :
    SavedFrom ((s.ctx w k).recorded f) ((stoppedFaulted s w k f).ctx w k) := by
  have taken := savedFrom_recordTaken (savedState s w k) w k f w k
  rw [State.ctx_modCtx, if_pos rfl] at taken
  refine SavedFrom.trans ?_ taken
  rw [SavedFrom, savedFrom_savedState s w k w k]
  rfl

theorem savedFrom_stoppedFaulted_other {s : State} {w k w' k' : Nat} (f : FaultRec) (h : ctxKey w' k' ≠ ctxKey w k) :
    SavedFrom (s.ctx w' k') ((stoppedFaulted s w k f).ctx w' k') := by
  have taken := savedFrom_recordTaken (savedState s w k) w k f w' k'
  rw [State.ctx_modCtx, if_neg h] at taken
  exact (savedFrom_savedState s w k w' k').trans taken

theorem launch_savedState (s : State) (w k : Nat) : ((savedState s w k).ctx w k).launch = (s.ctx w k).launch := by
  rw [savedFrom_savedState s w k w k]

theorem launch_stoppedFaulted (s : State) (w k : Nat) (f : FaultRec) :
    (stoppedFaulted s w k f).launch w (s.ctx w k).launch = (s.launch w (s.ctx w k).launch).faulted k := by
  have h := launch_recordTaken (savedState s w k) w k f
  rw [launch_savedState] at h
  rw [stoppedFaulted, h, State.launch, launches_savedState]
  rfl

theorem ctxKey_ne {w h k : Nat} (hk : h ≠ k) : ctxKey w h ≠ ctxKey w k := by
  unfold ctxKey
  omega

theorem handlerOf_stoppedFaulted (s : State) (w k : Nat) (f : FaultRec) :
    handlerOf (stoppedFaulted s w k f) w k = handlerOf s w k := by
  have own : ((stoppedFaulted s w k f).ctx w k).hvalid = (s.ctx w k).hvalid ∧
      ((stoppedFaulted s w k f).ctx w k).handler = (s.ctx w k).handler := by
    rw [savedFrom_stoppedFaulted]
    exact ⟨rfl, rfl⟩
  unfold handlerOf
  dsimp only
  rw [own.1, own.2]
  by_cases hk : (s.ctx w k).handler = k
  · simp [hk]
  · rw [savedFrom_stoppedFaulted_other f (ctxKey_ne hk)]

/-- The record of the fault of a context that has stopped, as a step leaves it. -/
def RecordShown (s : State) (w k : Nat) (f : FaultRec) (t : State) : Prop :=
  (t.ctx w k).fseq = (s.ctx w k).fseq + 1 ∧ (t.ctx w k).cause = f.cause.code ∧ (t.ctx w k).fslot = f.fslot ∧
  (t.ctx w k).fpc = f.fpc ∧ (t.ctx w k).felem = f.felem ∧ (t.ctx w k).progress = f.progress ∧ (t.ctx w k).faddr = f.faddr ∧
  (t.launch w (s.ctx w k).launch).fvalid = true ∧
  ((s.launch w (s.ctx w k).launch).fvalid = false → (t.launch w (s.ctx w k).launch).firstFault = k)

theorem recordShown {s t : State} {w k : Nat} {f : FaultRec} (h : Onward (stoppedFaulted s w k f) t) :
    RecordShown s w k f t := by
  have shown := h.records w k
  rw [savedFrom_stoppedFaulted] at shown
  simp only [Ctx.faultShown, Ctx.recorded, Prod.mk.injEq] at shown
  obtain ⟨fseq, cause, fslot, fpc, felem, progress, faddr⟩ := shown
  refine ⟨fseq, cause, fslot, fpc, felem, progress, faddr, ?_, fun hv => ?_⟩
  · rw [h.fvalid, launch_stoppedFaulted, Launch.faulted]
    split
    next hv => exact hv
    · rfl
  · rw [h.firstFault, launch_stoppedFaulted, Launch.faulted, if_neg (by simp [hv])]

theorem contextSaved_faulted {s : State} {w k : Nat} {f : FaultRec} (hst : (s.ctx w k).state = .stopping)
    (hh : storesHeld s w k = false) (hf : (s.ctx w k).fault = some f) :
    contextSaved s w k = settled (recordFault (savedState s w k) w k f) w k := by
  rw [contextSaved_eq hst hh, hf]

theorem keepsPage_stoppedFaulted (s : State) (w k : Nat) (f : FaultRec) :
    KeepsPage w k (savedState s w k) (stoppedFaulted s w k f) :=
  keepsPage_recordTaken _ w k f

theorem state_stoppedFaulted (s : State) (w k : Nat) (f : FaultRec) :
    ((stoppedFaulted s w k f).ctx w k).state = if f.cause = .tagfail then .frozen else .faulted := by
  rw [savedFrom_stoppedFaulted]
  simp [Ctx.recorded]

/-- A context with a handler notifies it. -/
theorem contextSaved_handled {s : State} {w k h : Nat} {f : FaultRec} (hst : (s.ctx w k).state = .stopping)
    (hh : storesHeld s w k = false) (hf : (s.ctx w k).fault = some f) (hk : handlerOf s w k = some h)
    (hne : ctxKey w h ≠ ctxKey w k) :
    PageShown s w k (contextSaved s w k) ∧ RecordShown s w k f (contextSaved s w k) ∧
      ((contextSaved s w k).ctx w k).state = (if f.cause = .tagfail then .frozen else .faulted) ∧
      ((contextSaved s w k).ctx w h).notify = (s.ctx w h).notify + 1 ∧ ((contextSaved s w k).ctx w h).lastFault = k := by
  have hr : handlerOf (recordTaken (savedState s w k) w k f) w k = some h := (handlerOf_stoppedFaulted s w k f).trans hk
  rw [contextSaved_faulted hst hh hf, recordFault_eq, hr]
  let note := fun c : Ctx => { c with lastFault := k, notify := c.notify + 1 }
  have notified := woken_wakePage ((stoppedFaulted s w k f).modCtx w h note) w 4 h 0x40
  refine ⟨pageShown ?_, recordShown ?_, ?_, ?_⟩
  · exact (keepsPage_stoppedFaulted s w k f).trans ((keepsPage_modCtx _ w k w h note fun _ => rfl).trans
      ((notified.keepsPage w k).trans (keepsPage_settled _ _ _ _ _)))
  · exact onward_trans (onward_modCtx _ w h note (fun _ => rfl) fun _ => .inl rfl) (onward_trans notified.onward
      (onward_settled _ _ _))
  · have e := notified.savedFrom w k
    rw [State.ctx_modCtx, if_neg (Ne.symm hne)] at e
    rw [state_settled]
    exact e.state.trans (state_stoppedFaulted s w k f)
  · have e := notified.savedFrom w h
    rw [State.ctx_modCtx, if_pos rfl] at e
    obtain ⟨r, hs⟩ := savedFrom_settled (wakePage ((stoppedFaulted s w k f).modCtx w h note) w 4 h 0x40) w k w h
    have before : ((stoppedFaulted s w k f).ctx w h).notify = (s.ctx w h).notify :=
      (savedFrom_stoppedFaulted_other f hne).notify
    exact ⟨hs.notify.trans (e.notify.trans (congrArg (· + 1) before)), hs.lastFault.trans e.lastFault⟩

/-- A TAGFAIL without a handler leaves the context FROZEN. -/
theorem contextSaved_frozen {s : State} {w k : Nat} {f : FaultRec} (hst : (s.ctx w k).state = .stopping)
    (hh : storesHeld s w k = false) (hf : (s.ctx w k).fault = some f) (hk : handlerOf s w k = none) (ht : f.cause = .tagfail) :
    PageShown s w k (contextSaved s w k) ∧ RecordShown s w k f (contextSaved s w k) ∧
      ((contextSaved s w k).ctx w k).state = .frozen := by
  have hr : handlerOf (recordTaken (savedState s w k) w k f) w k = none := (handlerOf_stoppedFaulted s w k f).trans hk
  rw [contextSaved_faulted hst hh hf, recordFault_eq, hr]
  dsimp only
  rw [if_pos (by simp [ht])]
  refine ⟨pageShown ((keepsPage_stoppedFaulted s w k f).trans (keepsPage_settled _ _ _ _ _)),
    recordShown (onward_settled _ _ _), ?_⟩
  rw [state_settled]
  exact (state_stoppedFaulted s w k f).trans (if_pos ht)

/-- Any other fault without a handler ends the launch, and the context with it. -/
theorem contextSaved_ends {s : State} {w k : Nat} {f : FaultRec} (hst : (s.ctx w k).state = .stopping)
    (hh : storesHeld s w k = false) (hf : (s.ctx w k).fault = some f) (hk : handlerOf s w k = none) (ht : f.cause ≠ .tagfail)
    (hb : k < 16384) :
    RecordShown s w k f (contextSaved s w k) ∧
      (((contextSaved s w k).ctx w k).state = .dead ∨ ((contextSaved s w k).ctx w k).state = .empty) ∧
      ((contextSaved s w k).launch w (s.ctx w k).launch).faultEnd = true := by
  have hr : handlerOf (recordTaken (savedState s w k) w k f) w k = none := (handlerOf_stoppedFaulted s w k f).trans hk
  rw [contextSaved_faulted hst hh hf, recordFault_eq, hr, launch_recordStored, launch_savedState]
  dsimp only
  rw [if_neg (by simp [ht])]
  let ending := (stoppedFaulted s w k f).modLaunch w (s.ctx w k).launch fun x => { x with faultEnd := true }
  have marks : Onward (stoppedFaulted s w k f) ending := onward_modLaunch _ _ _ _ fun _ => ⟨rfl, rfl, fun _ => rfl⟩
  have rest : Onward ending (settled (killAll ending w (s.ctx w k).launch false) w k) :=
    onward_trans (onward_killAll _ _ _ _) (onward_settled _ _ _)
  have launch : (ending.ctx w k).launch = (s.ctx w k).launch := (savedFrom_stoppedFaulted s w k f).launch
  have faulted : (ending.ctx w k).state = .faulted := (state_stoppedFaulted s w k f).trans (if_neg ht)
  have ended := killAll_ends hb faulted
  rw [launch] at ended
  refine ⟨recordShown (onward_trans marks rest), ?_, rest.faultEnd _ _ ?_⟩
  · rw [state_settled]
    exact ended
  · rw [State.launch_modLaunch, if_pos rfl]

/-! ### A replay ends -/

theorem replayDone_stays {s : State} {w k : Nat} (h : (s.ctx w k).state ≠ .resuming ∨ (s.ctx w k).due = true) :
    replayDone s w k = s := if_pos h

/-- The strand of a context that has nothing to enter again but its record. -/
structure NothingEntered (t : Strand) : Prop where
  copies : t.copies = []
  va : t.va = []
  vm : t.vm = []

/-- Entering again changes pending registers and the held rows of an accumulator. -/
theorem reopened_nothingEntered {t : Strand} (h : NothingEntered t) :
    ∃ pend anvil, t.openCopies.endCopies.repend.liveHeld = { t with pend := pend, anvil := anvil } := by
  have opened : t.openCopies = t := by
    obtain ⟨copies, -, vm⟩ := h
    cases t
    simp only at copies vm
    subst copies vm
    rfl
  have ended : t.endCopies = t := by rw [Strand.endCopies, h.copies]; rfl
  exact ⟨_, _, by rw [opened, ended]; rfl⟩

theorem ctx_modStrand_same (s : State) (w k : Nat) (f : Strand → Strand) :
    (s.modStrand w k f).ctx w k = { s.ctx w k with strand := f (s.ctx w k).strand } := by
  rw [State.modStrand, State.ctx_modCtx, if_pos rfl]

/-- A context whose record has been entered again. -/
def reentered (u : State) (w k : Nat) : State :=
  let s := u.modStrand w k fun t => t.openCopies.endCopies.repend.liveHeld
  let s := if (s.ctx w k).strand.anvil.isSome then s.push .batchComplete [w, k] else s
  s.modCtx w k fun c => { c with heldState := 0 }

theorem ctx_reentered {u : State} {w k : Nat} (h : NothingEntered (u.ctx w k).strand) : ∃ pend anvil,
    (reentered u w k).ctx w k =
      { u.ctx w k with heldState := 0, strand := { (u.ctx w k).strand with pend := pend, anvil := anvil } } := by
  obtain ⟨pend, anvil, he⟩ := reopened_nothingEntered h
  refine ⟨pend, anvil, ?_⟩
  have pushed : ∀ (v : State) (p : Prop) [Decidable p] i as, (if p then v.push i as else v).ctx w k = v.ctx w k := by
    intro v p _ i as
    split <;> rfl
  unfold reentered
  extract_lets v
  have own : v.ctx w k = { u.ctx w k with strand := (u.ctx w k).strand.openCopies.endCopies.repend.liveHeld } :=
    ctx_modStrand_same u w k _
  rw [State.ctx_modCtx, if_pos rfl, pushed, own, he]

theorem replayEnds_eq {u : State} {w k : Nat} (h : NothingEntered (u.ctx w k).strand) : replayEnds u w k =
    if ((reentered u w k).ctx w k).wait.isSome then ((reentered u w k).setCtxState w k .waiting).push .waitSatisfied [w, k]
    else (reentered u w k).setCtxState w k .running := by
  obtain ⟨pend, anvil, he⟩ := reopened_nothingEntered h
  have own : (u.modStrand w k fun t => t.openCopies.endCopies.repend.liveHeld).ctx w k =
      { u.ctx w k with strand := { (u.ctx w k).strand with pend := pend, anvil := anvil } } := by
    rw [ctx_modStrand_same, he]
  have legal : ∀ features, (badConvoy features false (u.ctx w k).strand.va).or (badConvoy features true (u.ctx w
      k).strand.vm) = none := by
    intro features
    rw [h.va, h.vm]
    rfl
  unfold replayEnds
  dsimp only
  split
  next c j hb =>
    rw [own] at hb
    exact absurd (hb.symm.trans (legal _)) (by simp)
  · rfl

/-- With its record entered again, the context runs, or waits as its record says. -/
theorem replayEnds_nothingEntered {u : State} {w k : Nat} (h : NothingEntered (u.ctx w k).strand) :
    let c := u.ctx w k
    let d := (replayEnds u w k).ctx w k
    d.state = (if c.wait.isSome then .waiting else .running) ∧ d.heldState = 0 ∧ d.wait = c.wait ∧ d.strand.x = c.strand.x ∧
      d.strand.pc = c.strand.pc ∧ d.strand.v = c.strand.v ∧ d.strand.ops = c.strand.ops ∧
      (c.wait.isSome = true → event .waitSatisfied [w, k] ∈ (replayEnds u w k).work) := by
  obtain ⟨pend, anvil, own⟩ := ctx_reentered h
  have wait : ((reentered u w k).ctx w k).wait = (u.ctx w k).wait := by rw [own]
  have set : ∀ st, ((reentered u w k).setCtxState w k st).ctx w k = _ :=
      fun st => (woken_setCtxState (reentered u w k) w k st).ctxs w k
  simp only [State.ctx_modCtx, if_true, own] at set
  intro c d
  have hd : d = (replayEnds u w k).ctx w k := rfl
  rw [replayEnds_eq h, wait] at hd ⊢
  cases hw : (u.ctx w k).wait with
  | none =>
    rw [hw] at hd
    have e : d = ((reentered u w k).setCtxState w k .running).ctx w k := hd
    rw [e, set, show c.wait = none from hw]
    exact ⟨rfl, rfl, rfl, rfl, rfl, rfl, rfl, fun h => by cases h⟩
  | some x =>
    rw [hw] at hd
    have e : d = ((reentered u w k).setCtxState w k .waiting).ctx w k := hd
    rw [e, set, show c.wait = some x from hw]
    exact ⟨rfl, rfl, rfl, rfl, rfl, rfl, rfl, fun _ => List.mem_append_right _ (List.mem_singleton_self _)⟩

/-- The context from which a record is entered again. -/
def unqueued (s : State) (w k : Nat) : State :=
  s.modStrand w k fun t =>
    { t.markSent ((s.ctx w k).strand.ops.filter (·.queued)) with ops := t.ops.filter fun o => !o.queued }

theorem markSent_of_vm {t : Strand} (os : List Op) (h : t.vm = []) : t.markSent os = t := by
  rw [Strand.markSent, h]

theorem ctx_unqueued {s : State} {w k : Nat} (h : (s.ctx w k).strand.vm = []) : (unqueued s w k).ctx w k =
    { s.ctx w k with strand := { (s.ctx w k).strand with ops := (s.ctx w k).strand.ops.filter fun o => !o.queued } } := by
  rw [unqueued, ctx_modStrand_same, markSent_of_vm _ h]

/-- A replay that has entered its record again, with no class T request still under way, ends. -/
theorem replayDone_ends {s u : State} {w k : Nat} (hst : (s.ctx w k).state = .resuming) (hdue : (s.ctx w k).due = false)
    (hr : replayAll (unqueued s w k) w k ((s.ctx w k).strand.ops.filter (·.queued)) = (u, true))
    (hu : NothingEntered (u.ctx w k).strand) (hf : ∀ x ∈ u.flights, ¬ (x.1 = w ∧ x.2.1 = k)) :
    replayDone s w k = replayEnds u w k := by
  have resumes : ¬ ((s.ctx w k).state ≠ .resuming ∨ (s.ctx w k).due = true) := by simp [hst, hdue]
  have room : reenters u w k = true := by simp [reenters, Strand.entries, hu.va, hu.vm, convoysOf]
  have landed : u.flights.any (fun x => x.1 == w && x.2.1 == k) = false := by
    simp only [List.any_eq_false, Bool.and_eq_true, beq_iff_eq]
    exact hf
  unfold replayDone
  rw [if_neg resumes]
  dsimp only
  rw [show replayAll (s.modStrand w k _) w k _ = (u, true) from hr]
  simp [room, landed]

theorem replayDone_empty {s : State} {w k : Nat} (hst : (s.ctx w k).state = .resuming) (hdue : (s.ctx w k).due = false)
    (hq : NothingEntered (s.ctx w k).strand) (hf : ∀ x ∈ s.flights, ¬ (x.1 = w ∧ x.2.1 = k))
    (ho : ∀ o ∈ (s.ctx w k).strand.ops, o.queued = false) :
    (unqueued s w k).ctx w k = s.ctx w k ∧ replayDone s w k = replayEnds (unqueued s w k) w k := by
  have kept : (s.ctx w k).strand.ops.filter (fun o => !o.queued) = (s.ctx w k).strand.ops :=
    List.filter_eq_self.mpr fun o h => by simp [ho o h]
  have none_ : (s.ctx w k).strand.ops.filter (·.queued) = [] := List.filter_eq_nil_iff.mpr fun o h => by simp [ho o h]
  have same : (unqueued s w k).ctx w k = s.ctx w k := by rw [ctx_unqueued hq.vm, kept]
  exact ⟨same, replayDone_ends hst hdue (by rw [none_]; rfl) (same ▸ hq) hf⟩

/-- The wait that a record entry of a wait stands for. -/
def Op.waits (o : Op) : Wait := { kind := o.kind, operand := o.tag, reg := o.reg }

theorem replayOne_wait (s : State) (w k : Nat) {o : Op} (h : o.kind = 0x30 ∨ o.kind = 0x32 ∨ o.kind = 0x33) :
    replayOne s w k o = .next (s.modCtx w k fun c => { c with wait := some o.waits }) := by
  rcases h with h | h | h <;> simp [replayOne, h, Op.waits]

theorem replayDone_wait {s : State} {w k : Nat} {o : Op} (hst : (s.ctx w k).state = .resuming) (hdue : (s.ctx w k).due = false)
    (hq : NothingEntered (s.ctx w k).strand) (hf : ∀ x ∈ s.flights, ¬ (x.1 = w ∧ x.2.1 = k))
    (ho : (s.ctx w k).strand.ops = [o]) (hoq : o.queued = true) (hk : o.kind = 0x30 ∨ o.kind = 0x32 ∨ o.kind = 0x33) :
    let u := (unqueued s w k).modCtx w k fun c => { c with wait := some o.waits }
    u.ctx w k = { s.ctx w k with wait := some o.waits, strand := { (s.ctx w k).strand with ops := [] } } ∧
      replayDone s w k = replayEnds u w k := by
  intro u
  have own : u.ctx w k = { s.ctx w k with wait := some o.waits, strand := { (s.ctx w k).strand with ops := [] } } := by
    rw [show u = State.modCtx _ w k _ from rfl, State.ctx_modCtx, if_pos rfl, ctx_unqueued hq.vm, ho]
    simp [hoq]
  refine ⟨own, replayDone_ends hst hdue ?_ ?_ hf⟩
  · have queue : (s.ctx w k).strand.ops.filter (·.queued) = [o] := by simp [ho, hoq]
    rw [queue, replayAll, replayOne_wait _ _ _ (o := { o with queued := false }) hk]
    rfl
  · rw [own]
    exact ⟨hq.copies, hq.va, hq.vm⟩

/-- Settles O43: the stop by cases of the fault that is pending, the replay by what the record holds. -/
theorem savingAndReplay : Obligations.SavingAndReplay := by
  intro s w k c
  refine ⟨fun h => ⟨_, rfl, contextSaved_stays h⟩, fun hst hh => ⟨fun hf => ⟨_, rfl, contextSaved_saved hst hh hf⟩, fun f hf =>
    ⟨fun h hk hne => ⟨_, rfl, contextSaved_handled hst hh hf hk hne⟩, fun hk ht => ⟨_, rfl,
        contextSaved_frozen hst hh hf hk ht⟩,
      fun hk ht hb => ⟨_, rfl, contextSaved_ends hst hh hf hk ht hb⟩⟩⟩, fun h => ⟨_, rfl, replayDone_stays h⟩,
    fun hst hdue hc hva hvm hfl => ⟨fun ho hw => ?_, fun o ho hoq hk => ?_⟩⟩
  · obtain ⟨same, ends⟩ := replayDone_empty hst hdue ⟨hc, hva, hvm⟩ hfl ho
    obtain ⟨state, held, -, x, pc, v, ops, -⟩ := replayEnds_nothingEntered (u := unqueued s w k) (w := w) (k :=
        k) (same ▸ ⟨hc, hva, hvm⟩)
    rw [same] at state x pc v ops
    refine ⟨_, rfl, ?_⟩
    rw [show replayDone s (s.arg 0) (s.arg 1) = _ from ends]
    refine ⟨state.trans ?_, held, x, pc, v, ops, replayEnds_mem _ _ _⟩
    rw [hw]
    rfl
  · obtain ⟨own, ends⟩ := replayDone_wait hst hdue ⟨hc, hva, hvm⟩ hfl ho hoq hk
    let u := (unqueued s w k).modCtx w k fun c => { c with wait := some o.waits }
    have entered : NothingEntered (u.ctx w k).strand := by
      rw [own]
      exact ⟨hc, hva, hvm⟩
    obtain ⟨state, held, wait, -, pc, -, ops, work⟩ := replayEnds_nothingEntered entered
    rw [own] at state wait pc ops work
    refine ⟨_, rfl, ?_⟩
    rw [show replayDone s (s.arg 0) (s.arg 1) = _ from ends]
    exact ⟨state, held, wait, ops, work rfl, pc, replayEnds_mem _ _ _⟩

end Sys2Proof.Machine
end

section
/-!
PROOFS: a host's stores of BAR0 (04 R82, R83).
-/

namespace Sys2Proof.Machine

/-! ## Stores of BAR0 (04 R82, R83) -/

section
variable (s : State) (fn : Nat) {off : Nat}

theorem bar0Page_world (h : off / 4096 = 0) : bar0Page s fn off = some (1, fn) := if_pos h

theorem bar0Page_ready (h : off / 4096 = 1) :
    bar0Page s fn off = if (fn == 0 || (s.world fn).readygnt) = true then some (0, 0) else none := by
  simp only [bar0Page]
  rw [if_neg (by omega), if_pos h]

theorem bar0Page_checkpoint (h : off / 4096 = 2) : bar0Page s fn off = if (fn == 0) = true then some (9, 0) else none := by
  simp only [bar0Page]
  rw [if_neg (by omega), if_neg (by omega), if_pos h]

theorem bar0Page_power {c : Nat} (hc : c < 80) (h : off / 4096 = 0x10 + c) :
    bar0Page s fn off = if (fn == 0 || bit (s.world fn).pwrgnt c) = true then some (5, c) else none := by
  simp only [bar0Page]
  rw [if_neg (by omega), if_neg (by omega), if_neg (by omega), if_pos (by omega), show off / 4096 - 0x10 = c by omega]

theorem bar0Page_monitor {b : Nat} (hb : b < 168) (h : off / 4096 = 0x60 + b) :
    bar0Page s fn off = if (fn == 0 || bit (s.world fn).mongnt b) = true then some (6, b) else none := by
  simp only [bar0Page]
  rw [if_neg (by omega), if_neg (by omega), if_neg (by omega), if_neg (by omega), if_pos (by omega),
    show off / 4096 - 0x60 = b by omega]

theorem bar0Page_peer {p : Nat} (hp : p < 16) (h : off / 4096 = 0x110 + p) :
    bar0Page s fn off = if (fn == 0 || bit (s.world fn).plgnt p) = true then some (8, p) else none := by
  simp only [bar0Page]
  rw [if_neg (by omega), if_neg (by omega), if_neg (by omega), if_neg (by omega), if_neg (by omega), if_pos (by omega),
    show off / 4096 - 0x110 = p by omega]

theorem bar0Page_otherWorld (h : 0x201 ≤ off / 4096 ∧ off / 4096 ≤ 0x280) :
    bar0Page s fn off = if (fn == 0) = true then some (1, off / 4096 - 0x200) else none := by
  simp only [bar0Page]
  rw [if_neg (by omega), if_neg (by omega), if_neg (by omega), if_neg (by omega), if_neg (by omega), if_neg (by omega),
    if_neg (by omega), if_pos h]

theorem bar0Page_context {k : Nat} (hk : k < 16384) (h : off / 4096 = 0x4000 + k) :
    bar0Page s fn off = some (4, k) := by
  simp only [bar0Page]
  rw [if_neg (by omega), if_neg (by omega), if_neg (by omega), if_neg (by omega), if_neg (by omega), if_neg (by omega),
    if_neg (by omega), if_neg (by omega), if_neg (by omega), if_pos (by omega), show off / 4096 - 0x4000 = k by omega]

theorem bar0Page_queue {q : Nat} (hq : q < 32768) (h : off / 4096 = 0x8000 + q) :
    bar0Page s fn off = if ((s.queue q).owner == fn) = true then some (2, q) else none := by
  simp only [bar0Page]
  rw [if_neg (by omega), if_neg (by omega), if_neg (by omega), if_neg (by omega), if_neg (by omega), if_neg (by omega),
    if_neg (by omega), if_neg (by omega), if_neg (by omega), if_neg (by omega), if_pos (by omega),
    show off / 4096 - 0x8000 = q by omega]

theorem bar0Page_beyond (h : 2 ^ 28 ≤ off) : bar0Page s fn off = none := by
  simp only [bar0Page]
  rw [if_neg (by omega), if_neg (by omega), if_neg (by omega), if_neg (by omega), if_neg (by omega), if_neg (by omega),
    if_neg (by omega), if_neg (by omega), if_neg (by omega), if_neg (by omega), if_neg (by omega)]

end

/-- The control store that a host's store of BAR0 is, once it may go. -/
def barStore (s : State) (kind idx : Nat) : State :=
  writePage s (s.arg 0) true kind idx (s.arg 1 % 4096) (s.arg 2 % 2 ^ 64)

/-- A store of a page that is not present for the function is dropped. -/
theorem controlWordWrite_absent (s : State) (h : bar0Page s (s.arg 0) (s.arg 1) = none) :
    Answers .controlWordWrite s (· = s) := by
  refine ⟨_, rfl, ?_⟩
  simp only [h]

/-- So is a store that is not aligned, and one of a frozen function. -/
theorem controlWordWrite_dropped (s : State) (h : s.arg 1 % 8 ≠ 0 ∨ (s.world (s.arg 0)).fnFrozen = true) :
    Answers .controlWordWrite s (· = s) := by
  refine ⟨_, rfl, ?_⟩
  cases bar0Page s (s.arg 0) (s.arg 1) with
  | none => rfl
  | some page => exact if_pos h

section
variable {s : State} {kind idx : Nat} (hf : (s.world (s.arg 0)).fnFrozen = false) (ha : s.arg 1 % 8 = 0)
  (hp : bar0Page s (s.arg 0) (s.arg 1) = some (kind, idx))
include hf ha hp

theorem controlWordWrite_goes (hk : needsCore kind (s.arg 1 % 4096) = false) (hw : s.barWaits (s.arg 0) = false) :
    exec .controlWordWrite s = .next (barStore s kind idx) := by
  show execControlWordWrite s = _
  simp [execControlWordWrite, hp, ha, hf, hk, hw, barStore]

theorem controlWordWrite_waits (hk : needsCore kind (s.arg 1 % 4096) = true) (h : MustWait s) :
    Deferred .controlWordWrite s := by
  refine ⟨_, rfl, ?_⟩
  simp only [hp]
  rw [if_neg (by simp [ha, hf]), if_pos (.inl hk), serve_mustWait s _ h]

end

/-- A context's HANDLER is its page's alone; the page's lines wake. -/
theorem controlWordWrite_handler {s : State} {k : Nat} (hf : (s.world (s.arg 0)).fnFrozen = false) (ha : s.arg 1 % 8 = 0)
    (hw : s.barWaits (s.arg 0) = false) (hk : k < 16384) (hp : s.arg 1 / 4096 = 0x4000 + k) (ho : s.arg 1 % 4096 = 0x38) :
    let v := s.arg 2 % 2 ^ 64
    Answers .controlWordWrite s fun t =>
      (t.ctx (s.arg 0) k).hvalid = bit v 14 ∧ (t.ctx (s.arg 0) k).handler = v % 2 ^ 14 ∧
        Woken (s.modCtx (s.arg 0) k fun c => { c with hvalid := bit v 14, handler := v % 2 ^ 14 }) t := by
  intro v
  have goes := controlWordWrite_goes hf ha (bar0Page_context s _ hk hp) (by rw [ho]; rfl) hw
  have stores : barStore s 4 k =
      wakePage (s.modCtx (s.arg 0) k fun c => { c with hvalid := bit v 14, handler := v % 2 ^ 14 }) (s.arg 0) 4 k 0x38 := by
    have e : v % 2 ^ 14 = bits v 13 0 := by simp [bits]
    simp only [barStore, writePage, ho]
    rw [e]
    rfl
  have woken := woken_wakePage (s.modCtx (s.arg 0) k fun c => { c with hvalid := bit v 14, handler := v % 2 ^ 14 }) (s.arg 0) 4 k 0x38
  have page := woken.ctxs (s.arg 0) k
  rw [State.modCtx, State.ctx_putCtx_same] at page
  exact ⟨_, goes.trans (congrArg _ stores), congrArg Ctx.hvalid page, congrArg Ctx.handler page, woken⟩

/-- A monitor block's CTL: its enable and its freeze, and its bins cleared. -/
theorem controlWordWrite_monitor {s : State} {b : Nat} (hf : (s.world (s.arg 0)).fnFrozen = false) (ha : s.arg 1 % 8 = 0)
    (hw : s.barWaits (s.arg 0) = false) (hb : b < 168) (hp : s.arg 1 / 4096 = 0x60 + b) (ho : s.arg 1 % 4096 = 0)
    (hg : s.arg 0 = 0 ∨ bit (s.world (s.arg 0)).mongnt b = true) :
    let v := s.arg 2 % 2 ^ 64
    Answers .controlWordWrite s fun t =>
      OnlyAt s.monit t.monit b (let m := { s.monit b with freeze := bit v 2, en := bit v 0 }
        if bit v 1 = true then m.clear else m) ∧ Woken { s with monits := t.monits } t := by
  intro v
  have page : bar0Page s (s.arg 0) (s.arg 1) = some (6, b) :=
    (bar0Page_monitor s _ hb hp).trans (if_pos (by simpa using hg))
  have goes := controlWordWrite_goes hf ha page (by rw [ho]; rfl) hw
  have stores : barStore s 6 b = wakePage (s.modMonit b fun m => writeMonit m 0 v) (s.arg 0) 6 b 0 := by
    simp only [barStore, writePage, ho, storeWord, v]
  have woken := woken_wakePage (s.modMonit b fun m => writeMonit m 0 v) (s.arg 0) 6 b 0
  refine ⟨_, goes.trans (congrArg _ stores), fun j => ?_, ?_⟩
  · have at_j := State.monit_modMonit s b (fun m => writeMonit m 0 v) j
    exact at_j
  · exact woken

end Sys2Proof.Machine
end

section
/-!
PROOFS: what the host writes and reads, as the machine's inputs (04 R81 to R83).
-/

namespace Sys2Proof.Machine

/-! ## What the host sends (04 R81 to R83) -/

/-- Whatever the schedule and the inputs that follow, when input i comes next the machine answers a state of which P holds, and
of the state that has taken it off its inputs. -/
def Takes (s : State) (i : Input) (P : State → State → Prop) : Prop :=
  ∀ r rest, s.tripped = false → s.reads = [] → s.sched = .input :: r → s.inputs = i :: rest →
    ∃ t, step s = .next t ∧ P { s with sched := r, inputs := rest } t

theorem step_input {s : State} {r : List Turn} {rest : List Input} {i : Input} (ht : s.tripped = false)
    (hs : s.sched = .input :: r) (hi : s.inputs = i :: rest) :
    step s = answering (runInput exec { s with sched := r, inputs := rest } i) := by
  simp only [step, ht, hs, runTurn, hi]
  rfl

theorem answerReads_none {s : State} (h : s.reads = []) : answerReads s = s := by
  simp [answerReads, h]

/-- An input that is no step of the machine's own, and asks for no read that must wait. -/
theorem takes_of_takeInput {s : State} {i : Input} {P : State → State → Prop}
    (h : ∀ s0 : State, (∃ r rest, s0 = { s with sched := r, inputs := rest }) → s.reads = [] →
      inputStep s0 i = none ∧ (takeInput s0 i).reads = [] ∧ P s0 (takeInput s0 i)) : Takes s i P := by
  intro r rest ht hr hs hi
  obtain ⟨none, reads, post⟩ := h _ ⟨r, rest, rfl⟩ hr
  refine ⟨takeInput { s with sched := r, inputs := rest } i, ?_, post⟩
  rw [step_input ht hs hi, runInput, none]
  exact congrArg Host.Outcome.next (answerReads_none reads)

theorem barStep_aligned (s : State) (fn off : Nat) {data : List Nat} {whole : Bool} (secure : Nat)
    (h : data.length = 8 ∧ off % 8 = 0 ∧ whole = true) :
    barStep s fn 0 off data whole secure =
      some (event (if (bar0Page s fn off).isSome = true then .controlWordWrite else .bar0UnbackedWrite)
        [fn, off, natOf (data.map (BitVec.ofNat 8))]) := by
  simp only [barStep, if_true, if_pos h]
  rfl

theorem barStep_dropped (s : State) (fn off : Nat) {data : List Nat} {whole : Bool} (secure : Nat)
    (h : ¬ (data.length = 8 ∧ off % 8 = 0 ∧ whole = true)) : barStep s fn 0 off data whole secure = none := by
  simp only [barStep, if_true, if_neg h]

theorem inputStep_hostWrite_bar0 {s : State} {a fn off : Nat} (data : List Nat) (whole : Bool) (secure : Nat)
    (h : barOf s a = some (fn, 0, off)) :
    inputStep s (.hostWrite a data whole secure) = barStep s fn 0 off data whole secure := by
  simp [inputStep, h]

theorem takeInput_hostWrite_bar0 {s : State} {a fn off : Nat} (data : List Nat) (whole : Bool) (secure : Nat)
    (h : barOf s a = some (fn, 0, off)) : takeInput s (.hostWrite a data whole secure) = s := by
  simp [takeInput, h]

/-- A host's aligned write of eight bytes of BAR0 is a control store, or the write of a page that does not exist; any other
write of BAR0 is dropped. -/
theorem takes_hostWrite_bar0 {s : State} {a : Nat} (data : List Nat) (whole : Bool) (secure : Nat) {fn off : Nat}
    (h : barOf s a = some (fn, 0, off)) :
    Takes s (.hostWrite a data whole secure) fun s0 t =>
      let v := natOf (data.map (BitVec.ofNat 8))
      let i := if (bar0Page s fn off).isSome = true then Instr.controlWordWrite else .bar0UnbackedWrite
      if data.length = 8 ∧ off % 8 = 0 ∧ whole = true
        then ∃ u, exec i { s0 with ev := event i [fn, off, v] } = .next u ∧ t = answerReads u
        else t = s0 := by
  intro r rest ht hr hs hi
  have h0 : barOf { s with sched := r, inputs := rest } a = some (fn, 0, off) := h
  have page : bar0Page { s with sched := r, inputs := rest } fn off = bar0Page s fn off := rfl
  dsimp only
  rw [step_input ht hs hi, runInput, inputStep_hostWrite_bar0 data whole secure h0]
  by_cases aligned : data.length = 8 ∧ off % 8 = 0 ∧ whole = true
  · rw [barStep_aligned _ _ _ _ aligned, page]
    simp only [if_pos aligned]
    cases (bar0Page s fn off).isSome with
    | true => exact ⟨_, rfl, _, rfl, rfl⟩
    | false => exact ⟨_, rfl, _, rfl, rfl⟩
  · rw [barStep_dropped _ _ _ _ aligned]
    simp only [if_neg aligned]
    rw [takeInput_hostWrite_bar0 data whole secure h0]
    exact ⟨_, congrArg Host.Outcome.next (answerReads_none hr), rfl⟩

theorem hostReadNow_goes {s : State} {a fn b off : Nat} (m tag : Nat) (h : barOf s a = some (fn, b, off))
    (hw : s.barWaits fn = false) (hr : s.reads = []) :
    hostReadNow s a m tag = s.emit (.hostData tag (barRead s fn b off m)) := by
  simp [hostReadNow, h, hw, hr]

/-- What the host reads when nothing of its function waits. -/
theorem takes_hostRead {s : State} {a fn b off : Nat} (m tag : Nat) (h : barOf s a = some (fn, b, off))
    (hw : s.barWaits fn = false) :
    Takes s (.hostRead a m tag) fun s0 t => t = { s0 with out := s.out ++ [.hostData tag (barRead s fn b off m)] } := by
  refine takes_of_takeInput ?_
  rintro s0 ⟨r, rest, rfl⟩ hr
  have taken : takeInput { s with sched := r, inputs := rest } (.hostRead a m tag) = _ :=
    hostReadNow_goes (s := { s with sched := r, inputs := rest }) m tag h hw hr
  rw [taken]
  exact ⟨rfl, hr, rfl⟩

section
variable (s : State) (fn b off m : Nat)

/-- Zeros are read of BAR1, of a frozen function, and of what BAR0 does not hold. -/
theorem barRead_zeros (h : b = 1 ∨ (s.world fn).fnFrozen = true ∨
    (b = 0 ∧ (off % m ≠ 0 ∨ (m ≠ 4 ∧ m ≠ 8) ∨ bar0Page s fn off = none))) :
    barRead s fn b off m = (bytesOf m 0).map (·.toNat) := by
  unfold barRead
  cases hf : (s.world fn).fnFrozen with
  | true => rfl
  | false =>
    rcases h with rfl | hf' | ⟨rfl, h⟩
    case inl => rfl
    case inr.inl => simp [hf] at hf'
    case inr.inr =>
      dsimp only
      rw [if_neg (by decide)]
      by_cases aligned : (m = 4 ∨ m = 8) ∧ off % m = 0
      · have none : bar0Page s fn off = none := by
          obtain ⟨hm, ha⟩ := aligned
          rcases h with h | h | h
          · exact absurd ha h
          · omega
          · exact h
        rw [if_pos aligned, none]
        rfl
      · rw [if_neg aligned]
        rfl

theorem barRead_page {k i : Nat} (hf : (s.world fn).fnFrozen = false) (hp : bar0Page s fn off = some (k, i))
    (hm : m = 4 ∨ m = 8) (ha : off % m = 0) :
    barRead s fn 0 off m = (bytesOf m (readPage s fn k i (off % 4096) m)).map (·.toNat) := by
  simp only [barRead, hf, Bool.false_eq_true, if_false, hp, if_pos (And.intro hm ha)]

theorem barRead_vectors (hf : (s.world fn).fnFrozen = false) (ha : off % 4 = 0) :
    barRead s fn 2 off 4 = (bytesOf 4 (readBar4 s fn off)).map (·.toNat) := by
  have one : (List.range (4 / 4)).foldl (fun r j => r + readBar4 s fn (off + 4 * j) * 2 ^ (32 * j)) 0 = readBar4 s fn off := by
    simp [List.range_succ]
  simp only [barRead, hf, Bool.false_eq_true, if_false, if_pos ha, one]

end

section
variable (s : State) (n : Nat) {v : Nat}

theorem readBar4_data (hv : v < 2048) : readBar4 s n (16 * v + 8) = ((s.fn n).vec v).mdata % 2 ^ 32 := by
  simp only [readBar4]
  rw [if_pos (by omega), show (16 * v + 8) / 16 = v by omega, show (16 * v + 8) % 16 / 4 = 2 by omega]
  rfl

theorem readBar4_mask (hv : v < 2048) : readBar4 s n (16 * v + 12) = ((s.fn n).vec v).masked.toNat := by
  simp only [readBar4]
  rw [if_pos (by omega), show (16 * v + 12) / 16 = v by omega, show (16 * v + 12) % 16 / 4 = 3 by omega]
  rfl

theorem readBar4_coalescing : readBar4 s n (0xC000 + 8 * v) =
    ((s.fn n).vec v).hold + ((s.fn n).vec v).cntm1 * 2 ^ 16 := by
  simp only [readBar4]
  rw [if_neg (by omega), if_neg (by omega), if_pos (by omega), if_pos (by omega), show (0xC000 + 8 * v - 0xC000) / 8 = v by omega]

theorem readBar4_pending : readBar4 s n (0xC000 + 8 * v + 4) = ((s.fn n).vec v).pend := by
  simp only [readBar4]
  rw [if_neg (by omega), if_neg (by omega), if_pos (by omega), if_neg (by omega),
    show (0xC000 + 8 * v + 4 - 0xC000) / 8 = v by omega]

end

end Sys2Proof.Machine
end

section
/-!
PROOFS: the launch registers of BAR2 (04 R83, 06 R113).
-/

namespace Sys2Proof.Machine

/-! ## Stores of BAR2 (04 R83, 06 R113) -/

/-! ### What ends with an interface leaves ISTATE and the count of malformed packets as they are -/

/-- No queue's ISTATE has changed, nor its count of malformed packets. -/
def SameIface (s t : State) : Prop :=
  ∀ q, (t.queue q).istate = (s.queue q).istate ∧ (t.queue q).malformed = (s.queue q).malformed

theorem sameIface_refl (s : State) : SameIface s s := fun _ => ⟨rfl, rfl⟩

theorem sameIface_trans {a b c : State} (h : SameIface a b) (g : SameIface b c) : SameIface a c :=
  fun q => ⟨(g q).1.trans (h q).1, (g q).2.trans (h q).2⟩

theorem SameQueue.iface {x y : Queue} (h : SameQueue x y) : y.istate = x.istate ∧ y.malformed = x.malformed := by
  obtain ⟨_, rfl, -⟩ := h
  exact ⟨rfl, rfl⟩

/-- A step that changes no queue but by waking its line. -/
theorem sameIface_of_woken {s u t : State} (hu : u.queues = s.queues) (h : Woken u t) : SameIface s t := by
  intro q
  have e : u.queue q = s.queue q := congrArg (fun qs => tget Queue.zero qs q) hu
  rw [← e]
  exact (h.queues q).iface

theorem sameIface_ite {p : Prop} [Decidable p] {s a b : State} (ha : SameIface s a) (hb : SameIface s b) :
    SameIface s (if p then a else b) := by
  split <;> assumption

theorem sameIface_foldl {α : Type} {f : State → α → State} (h : ∀ u x, SameIface u (f u x)) (l : List α) (s : State) :
    SameIface s (l.foldl f s) := by
  induction l generalizing s with
  | nil => exact sameIface_refl s
  | cons x l ih => exact sameIface_trans (h s x) (ih _)

theorem sameIface_wakePage (s : State) (w kind idx off : Nat) : SameIface s (wakePage s w kind idx off) :=
  sameIface_of_woken rfl (woken_wakePage s w kind idx off)

theorem sameIface_setCtxState (s : State) (w k : Nat) (st : CtxState) : SameIface s (s.setCtxState w k st) :=
  sameIface_of_woken (u := s.modCtx w k fun c => { c with state := st }) rfl (woken_setCtxState s w k st)

theorem sameIface_settled (s : State) (w k : Nat) : SameIface s (settled s w k) :=
  sameIface_of_woken (by unfold offFabric; split <;> rfl) (woken_settled s w k)

theorem sameIface_releaseAlloc (s : State) (w core off size : Nat) : SameIface s (releaseAlloc s w core off size) :=
  sameIface_ite (sameIface_refl _) (sameIface_refl _)

theorem sameIface_launchEnd (s : State) (w l : Nat) : SameIface s (launchEnd s w l) := by
  refine sameIface_ite ?_ (sameIface_refl s)
  have ends : SameIface s (wakePage (s.modLaunch w l fun x => { x with lstate := .ackwait }) w 3 l 0) :=
    sameIface_wakePage (s.modLaunch w l fun x => { x with lstate := .ackwait }) w 3 l 0
  exact sameIface_trans ends (sameIface_ite (sameIface_refl _) (sameIface_refl _))

theorem sameIface_gangEnd (s : State) (w l g : Nat) : SameIface s (gangEnd s w l g) := by
  refine sameIface_ite ?_ (sameIface_refl s)
  have empties := sameIface_foldl (fun u k => sameIface_setCtxState u w k .empty) (tget Gang.zero (s.launch w l).gangs g).ctxs s
  have releases := fun u => sameIface_foldl (fun u (a : Nat × Nat) => sameIface_releaseAlloc u w a.1 a.2
    (tget Gang.zero (s.launch w l).gangs g).size) (tget Gang.zero (s.launch w l).gangs g).allocs u
  refine sameIface_trans (sameIface_trans empties (releases _)) ?_
  generalize List.foldl _ _ (tget Gang.zero (s.launch w l).gangs g).allocs = u
  exact sameIface_wakePage (u.modLaunch w l _) w 3 l 0

theorem sameIface_killCtx (s : State) (w k : Nat) : SameIface s (killCtx s w k) := by
  unfold killCtx
  extract_lets c halted strand s1 s2 s3 s4 s5
  have h1 : SameIface s s2 := fun _ => ⟨rfl, rfl⟩
  have h3 : SameIface s2 s3 := by
    unfold s3
    split
    · exact fun _ => ⟨rfl, rfl⟩
    · exact fun _ => ⟨rfl, rfl⟩
  have h4 : SameIface s3 s4 := sameIface_trans (sameIface_setCtxState s3 w k .dead) (sameIface_settled _ w k)
  have h5 : SameIface s4 s5 := sameIface_of_woken (u := s4) rfl (woken_push s4 _)
  have ends := sameIface_trans (sameIface_gangEnd s5 w c.launch c.gang) (sameIface_launchEnd _ w c.launch)
  exact sameIface_trans (sameIface_trans h1 h3) (sameIface_trans (sameIface_trans h4 h5) ends)

theorem sameIface_killAll (s : State) (w l : Nat) (root : Bool) : SameIface s (killAll s w l root) := by
  unfold killAll
  extract_lets s1 s2
  have h1 : SameIface s s1 := sameIface_refl s
  have h2 : SameIface s1 s2 :=
    sameIface_foldl (fun u k => sameIface_ite (sameIface_refl u) (sameIface_killCtx u w k)) _ _
  exact sameIface_trans (sameIface_trans h1 h2)
    (sameIface_trans (sameIface_wakePage s2 w 3 l 0) (sameIface_launchEnd _ w l))

theorem sameIface_killAllCmd (s : State) (w l : Nat) (root : Bool) : SameIface s (killAllCmd s w l root) :=
  sameIface_ite (sameIface_killAll (s.modLaunch w l fun x => { x with killed := x.killed || x.open }) w l root) (sameIface_refl s)

theorem sameIface_killCarried (s : State) (q : Nat) : SameIface s (killCarried s q) :=
  sameIface_foldl (fun u l => sameIface_killAllCmd u (s.queue q).owner l true) _ _

theorem sameIface_finishChild (s : State) (w q count word : Nat) : SameIface s (finishChild s w q count word) := by
  refine sameIface_foldl (fun u k => sameIface_ite ?_ (sameIface_refl u)) _ _
  dsimp only
  split
  · exact sameIface_ite (sameIface_refl _) (sameIface_refl _)
  · exact sameIface_refl _

theorem sameIface_discardPacket (s : State) (q : Nat) (spawn : Option Nat) : SameIface s (discardPacket s q spawn) := by
  cases spawn with
  | none => exact sameIface_refl s
  | some c => exact sameIface_finishChild s _ q c _

theorem sameIface_modQueue (s : State) (q : Nat) (f : Queue → Queue)
    (h : (f (s.queue q)).istate = (s.queue q).istate ∧ (f (s.queue q)).malformed = (s.queue q).malformed) :
    SameIface s (s.modQueue q f) := by
  intro j
  rw [State.queue_modQueue]
  split
  case isTrue hj => rw [hj]; exact h
  case isFalse => exact ⟨rfl, rfl⟩

theorem sameIface_kick (s : State) (q : Nat) : SameIface s (kick s q) := by
  unfold kick
  dsimp only
  split
  · exact sameIface_refl s
  · refine sameIface_ite (sameIface_refl s) ?_
    split
    · exact sameIface_refl s
    · exact sameIface_refl s
    · exact sameIface_modQueue s q (fun x => { x with cur := _, order := _ }) ⟨rfl, rfl⟩

theorem sameIface_nextPacket (s : State) (q : Nat) : SameIface s (nextPacket s q) :=
  sameIface_trans (sameIface_modQueue s q (fun x => { x with cur := none, waiting := false }) ⟨rfl, rfl⟩) (sameIface_kick _ q)

/-! ### What a queue shows after a change of its page -/

/-- A change of a queue's page wakes the page's lines. -/
theorem woken_onQueue (s : State) (q : Nat) (f : Queue → Queue) : Woken (s.modQueue q f) (s.onQueue q f) :=
  woken_touchLines _ _ _ _

theorem iface_onQueue (s : State) (q : Nat) (f : Queue → Queue) :
    ((s.onQueue q f).queue q).istate = (f (s.queue q)).istate ∧
      ((s.onQueue q f).queue q).malformed = (f (s.queue q)).malformed := by
  have h := ((woken_onQueue s q f).queues q).iface
  rwa [State.queue_modQueue, if_pos rfl] at h

/-- An interface that has failed is in ERROR, and its malformed packets are counted as before. -/
theorem interfaceError_iface (s : State) (q : Nat) :
    ((interfaceError s q).queue q).istate = 3 ∧ ((interfaceError s q).queue q).malformed = (s.queue q).malformed := by
  have marks := iface_onQueue s q fun x => { x with istate := 3 }
  unfold interfaceError
  extract_lets x s1
  have onwards : SameIface s1 (match x.cur with
      | some p => if p.kind = 2 ∧ p.armed then nextPacket (discardPacket s1 q p.spawn) q else s1
      | none => s1) := by
    split
    · exact sameIface_ite (sameIface_trans (sameIface_discardPacket s1 q _) (sameIface_nextPacket _ q)) (sameIface_refl s1)
    · exact sameIface_refl s1
  exact ⟨(onwards q).1.trans marks.1, (onwards q).2.trans marks.2⟩

theorem toError_iface (s : State) (q : Nat) :
    ((toError s q).queue q).istate = 3 ∧ ((toError s q).queue q).malformed = (s.queue q).malformed := by
  obtain ⟨istate, malformed⟩ := interfaceError_iface (killCarried s q) q
  exact ⟨istate, malformed.trans (sameIface_killCarried s q q).2⟩

/-! ### The launch registers -/

theorem launchRegisterWrite_waits {s : State} (hw : s.barWaits (s.arg 0) = true) (h : MustWait s) :
    Deferred .launchRegisterWrite s :=
  ⟨_, congrArg Host.Outcome.next ((if_pos hw).trans (serve_mustWait s _ h)), rfl⟩

theorem launchRegisterWrite_goes {s : State} (hw : s.barWaits (s.arg 0) = false) :
    exec .launchRegisterWrite s = .next (launchWrite s (s.arg 0) (s.arg 1) (s.arg 2) (s.arg 3) s.ev.data) :=
  congrArg Host.Outcome.next (if_neg (by simp [hw]))

@[simp] theorem State.queue_push (s : State) (i : Instr) (as : List Nat) (q : Nat) : (s.push i as).queue q = s.queue q := rfl

/-- The packet at the head of an interface: the one taken now runs as soon as what is ahead of it allows. -/
theorem kick_inline {s : State} {q : Nat} {dws : List Word} {secure : Bool} {spawn : Option Nat} {r : List QSrc}
    (hc : (s.queue q).cur = none) (hr : (s.queue q).ringerr = false) (ho : (s.queue q).order = .inl dws secure spawn :: r) :
    kick s q = (s.modQueue q fun x => { x with
      cur := some { Packet.new dws true secure spawn with barred := (Packet.new dws true secure spawn).behind s q }
      order := r }).push (kindStep (Packet.new dws true secure spawn)) [q] := by
  simp [kick, hc, hr, ho]

theorem kick_ringError {s : State} {q : Nat} (hc : (s.queue q).cur = none) (hr : (s.queue q).ringerr = true) :
    kick s q = s := by
  simp [kick, hc, hr]

section
variable (s : State) (q : Nat) (dws : List Word) (secure : Bool)

theorem appendInline_full (h : 8 ≤ (s.queue q).inlines) :
    appendInline s q dws secure none =
      s.onQueue q fun x => { x with overflow := Nat.min (2 ^ 32 - 1) (x.overflow + 1) } := by
  simp only [← satInc_eq_min]
  exact if_pos h

/-- A queue with one more packet appended to it. -/
def Queue.append (x : Queue) (dws : List Word) (secure : Bool) : Queue :=
  { x with order := x.order ++ [.inl dws secure none], appended := x.appended + 1 }

theorem appendInline_room (h : (s.queue q).inlines < 8) :
    appendInline s q dws secure none =
      if (s.queue q).cur.isNone ∧ (s.queue q).order.isEmpty then kick (s.onQueue q fun x => x.append dws secure) q
      else s.onQueue q fun x => x.append dws secure :=
  if_neg (Nat.not_le.mpr h)

/-- Behind another packet it waits for its turn. -/
theorem appendInline_queued (h : (s.queue q).inlines < 8)
    (hb : (s.queue q).cur.isSome = true ∨ (s.queue q).order ≠ [] ∨ (s.queue q).ringerr = true) :
    appendInline s q dws secure none = s.onQueue q fun x => x.append dws secure := by
  rw [appendInline_room s q dws secure h]
  split
  case isTrue first =>
    obtain ⟨hc, ho⟩ := first
    have hr : (s.queue q).ringerr = true := by
      rcases hb with hb | hb | hb
      · rw [Option.isNone_iff_eq_none.mp hc] at hb
        cases hb
      · exact absurd (List.isEmpty_iff.mp ho) hb
      · exact hb
    obtain ⟨c, e, hcur⟩ := (woken_onQueue s q fun x => x.append dws secure).queues q
    rw [State.queue_modQueue, if_pos rfl] at e hcur
    refine kick_ringError ?_ ?_
    · rcases hcur with rfl | ⟨p, _, hp, -⟩
      · rw [e]
        exact Option.isNone_iff_eq_none.mp hc
      · have : (s.queue q).cur = some p := hp
        rw [Option.isNone_iff_eq_none.mp hc] at this
        cases this
    · rw [e]
      exact hr
  case isFalse => rfl

/-- Alone, it is the one that the interface takes up. -/
def Queue.takesUp (x : Queue) (s : State) (q : Nat) (dws : List Word) (secure : Bool) : Queue :=
  { x with
    order := [], appended := x.appended + 1
    cur := some { Packet.new dws true secure none with barred := (Packet.new dws true secure none).behind s q } }

theorem behind_onQueue (p : Packet) (f : Queue → Queue) (h : (f (s.queue q)).owner = (s.queue q).owner) :
    p.behind (s.onQueue q f) q = p.behind s q := by
  have owner : ((s.onQueue q f).queue q).owner = (s.queue q).owner := by
    obtain ⟨_, e, -⟩ := (woken_onQueue s q f).queues q
    rw [e, State.queue_modQueue, if_pos rfl]
    exact h
  have launches : openLaunches (s.onQueue q f) q = openLaunches s q := by
    simp only [openLaunches, owner]
    rfl
  rw [Packet.behind, Packet.behind, launches]

theorem appendInline_alone (h : (s.queue q).inlines < 8) (hc : (s.queue q).cur = none) (ho : (s.queue q).order = [])
    (hr : (s.queue q).ringerr = false) :
    event (kindStep (Packet.new dws true secure none)) [q] ∈ (appendInline s q dws secure none).work ∧
      Woken (s.modQueue q fun _ => (s.queue q).takesUp s q dws secure) (appendInline s q dws secure none) := by
  have woken := woken_onQueue s q fun x => x.append dws secure
  have same : (s.onQueue q fun x => x.append dws secure).queue q = (s.queue q).append dws secure := by
    obtain ⟨c, e, hcur⟩ := woken.queues q
    rw [State.queue_modQueue, if_pos rfl] at e hcur
    rw [e]
    rcases hcur with rfl | ⟨p, _, hp, -⟩
    · rfl
    · have : (s.queue q).cur = some p := hp
      rw [hc] at this
      cases this
  have kicked := kick_inline (s := s.onQueue q fun x => x.append dws secure) (q := q) (dws := dws) (secure := secure)
    (spawn := none) (r := []) (by rw [same]; exact hc) (by rw [same]; exact hr)
    (by rw [same, Queue.append, ho, List.nil_append])
  rw [appendInline_room s q dws secure h, if_pos ⟨by rw [hc]; rfl, by rw [ho]; rfl⟩, kicked, behind_onQueue s q _ _ rfl]
  refine ⟨List.mem_append_right _ (List.mem_singleton_self _), rfl, fun j => ?_, woken.ctxs, ?_⟩
  · rw [State.queue_push, State.queue_modQueue, State.queue_modQueue]
    split
    case isTrue => rw [same]; exact SameQueue.refl _
    case isFalse hj =>
      have others := woken.queues j
      rwa [State.queue_modQueue, if_neg hj] at others
  · obtain ⟨es, e⟩ := woken.work
    exact ⟨es ++ [event (kindStep (Packet.new dws true secure none)) [q]],
      (congrArg (· ++ [event (kindStep (Packet.new dws true secure none)) [q]]) e).trans (List.append_assoc ..)⟩

end

/-! ### A write of a launch register -/

section
variable {s : State} {fn off whole secure : Nat} {dws : List Nat}

theorem launchWrite_dropped (h : (s.world fn).fnFrozen = true ∨ 32768 ≤ off / 64) :
    launchWrite s fn off whole secure dws = s := if_pos h

variable (hf : (s.world fn).fnFrozen = false) (hq : off / 64 < 32768)
include hf hq

theorem launchWrite_foreign (ho : (s.queue (off / 64)).owner ≠ fn)
    (hr : ¬ ((s.queue (off / 64)).istate = 2 ∧ (s.world (s.queue (off / 64)).owner).conf = true)) :
    launchWrite s fn off whole secure dws =
      s.onQueue (off / 64) fun x => { x with malformed := Nat.min (2 ^ 32 - 1) (x.malformed + 1) } := by
  simp only [← satInc_eq_min, launchWrite]
  rw [if_neg (by simp [hf]; omega), if_pos ho, if_neg (by simpa using hr)]

theorem launchWrite_foreign_runs (ho : (s.queue (off / 64)).owner ≠ fn)
    (hr : (s.queue (off / 64)).istate = 2 ∧ (s.world (s.queue (off / 64)).owner).conf = true) :
    launchWrite s fn off whole secure dws = toError
      (s.onQueue (off / 64) fun x => { x with malformed := Nat.min (2 ^ 32 - 1) (x.malformed + 1) }) (off / 64) := by
  simp only [← satInc_eq_min, launchWrite]
  rw [if_neg (by simp [hf]; omega), if_pos ho, if_pos (by simpa using hr)]

variable (ho : (s.queue (off / 64)).owner = fn)
include ho

theorem launchWrite_malformed (hm : ¬ (whole ≠ 0 ∧ off % 64 = 0 ∧ dws.length = 8)) :
    launchWrite s fn off whole secure dws =
      s.onQueue (off / 64) fun x => { x with malformed := Nat.min (2 ^ 32 - 1) (x.malformed + 1) } := by
  simp only [← satInc_eq_min, launchWrite]
  rw [if_neg (by simp [hf]; omega), if_neg (by simp [ho]), if_pos (by omega)]

variable (hm : whole ≠ 0 ∧ off % 64 = 0 ∧ dws.length = 8)
include hm

theorem launchWrite_insecure (hr : (s.queue (off / 64)).istate = 2 ∧ (s.world (s.queue (off / 64)).owner).conf = true)
    (hs : secure = 2) : launchWrite s fn off whole secure dws = toError s (off / 64) := by
  simp only [launchWrite]
  rw [if_neg (by simp [hf]; omega), if_neg (by simp [ho]), if_neg (by omega), if_pos (by simpa [hs] using hr)]

theorem launchWrite_appends
    (hr : ¬ (((s.queue (off / 64)).istate = 2 ∧ (s.world (s.queue (off / 64)).owner).conf = true) ∧ secure = 2)) :
    launchWrite s fn off whole secure dws =
      appendInline s (off / 64) (dws.map (BitVec.ofNat 64)) (secure == 1) none := by
  simp only [launchWrite]
  rw [if_neg (by simp [hf]; omega), if_neg (by simp [ho]), if_neg (by omega), if_neg (by simpa using hr)]

end

end Sys2Proof.Machine
end

section
/-!
PROOFS: requests to the host, and their translations (04 R85, R86).
-/

namespace Sys2Proof.Machine

/-! ## Requests to the host (04 R85, R86) -/

/-! ### The list of requests -/

theorem find?_tset {α : Type} (k : Nat) (v : α) (t : Tbl α) (j : Nat) :
    (tset k v t).find? (fun e : Nat × α => e.1 == j) = if j = k then some (k, v) else t.find? fun e => e.1 == j := by
  induction t with
  | nil =>
    by_cases h : j = k
    · simp [tset, h]
    · simp [tset, h, Ne.symm h]
  | cons e t ih =>
    obtain ⟨i, w⟩ := e
    simp only [tset]
    by_cases h : j = k
    · subst h
      rw [if_pos rfl] at ih ⊢
      split
      · simp
      · split
        · simp
        · rw [List.find?_cons_of_neg (by simpa using Ne.symm ‹_›)]
          exact ih
    · rw [if_neg h] at ih ⊢
      split
      · rw [List.find?_cons_of_neg (by simpa using Ne.symm h)]
      · split
        next e => rw [List.find?_cons_of_neg (by simpa using Ne.symm h), List.find?_cons_of_neg (by simpa [← e] using Ne.symm h)]
        · rw [List.find?_cons, List.find?_cons, ih]

/-- A request put on the list is the one of its id, and no other request changes. -/
theorem hreq_of_tset {s t : State} {id : Nat} {y : HReq} (h : t.hreqs = tset id y s.hreqs) :
    t.hreq id = some y ∧ ∀ j, j ≠ id → t.hreq j = s.hreq j := by
  refine ⟨?_, fun j hj => ?_⟩
  · rw [State.hreq, h, find?_tset, if_pos rfl]; rfl
  · rw [State.hreq, h, find?_tset, if_neg hj]; rfl

theorem mem_of_hreq {s : State} {id : Nat} {r : HReq} (h : s.hreq id = some r) : (id, r) ∈ s.hreqs := by
  obtain ⟨e, he, rfl⟩ := Option.map_eq_some_iff.mp h
  have hid : e.1 = id := by simpa using List.find?_some he
  rw [← hid]
  exact List.mem_of_find?_eq_some he

theorem not_mem_terase {α : Type} (id : Nat) (t : Tbl α) : ∀ e ∈ terase id 1 t, e.1 ≠ id := by
  intro e he
  have := (List.mem_filter.mp he).2
  simp only [Bool.or_eq_true, decide_eq_true_eq] at this
  omega

/-! ### Page requests that wait -/

/-- Only what stands among the requests goes out. -/
theorem nextPage_spec (s : State) (w : Nat) :
    nextPage s w = { s with hreqs := (nextPage s w).hreqs, fns := (nextPage s w).fns, out := (nextPage s w).out } ∧
      ∀ n, (∀ e ∈ s.hreqs, e.1 ≠ n) → ∀ e ∈ (nextPage s w).hreqs, e.1 ≠ n := by
  unfold nextPage
  split
  next id r found =>
    have old : ∀ n, (∀ e ∈ s.hreqs, e.1 ≠ n) → ∀ y, ∀ e ∈ tset id y s.hreqs, e.1 ≠ n := by
      intro n hn y e he
      rcases mem_tset id y _ e he with rfl | he
      · exact hn (id, r) (List.mem_of_find?_eq_some found)
      · exact hn e he
    unfold askPage
    split
    · exact ⟨rfl, fun n hn => old n hn _⟩
    · exact ⟨rfl, fun n hn => old n hn _⟩
  · exact ⟨rfl, fun n hn => hn⟩

theorem nextPage_none {s : State} (w : Nat) (h : ∀ e ∈ s.hreqs, e.2.asking = true → e.2.refused = false) : nextPage s w = s := by
  have none : s.hreqs.find? (fun (e : Nat × HReq) => e.2.asking && e.2.refused && e.2.world == w) = none := by
    refine List.find?_eq_none.mpr fun e he => ?_
    cases ha : e.2.asking with
    | false => simp
    | true => simp [h e he ha]
  simp only [nextPage, none]

/-! ### A request ends -/

/-- A request that ends is listed no more; no byte and no context changes, but that the streams try again. -/
theorem endRequest_spec {s : State} (id : Nat) (r : HReq) (h : s.heldW = []) :
    (endRequest s id r).hreqs = terase id 1 s.hreqs ∧ (endRequest s id r).mem = s.mem ∧
      ∀ w k, (endRequest s id r).ctx w k = { s.ctx w k with strand := (s.ctx w k).strand.unhold } := by
  unfold endRequest
  extract_lets s1 s2 s3
  have e2 : s2 = { s1 with work := s2.work } := by unfold s2; split <;> rfl
  have e3 : s3 = { s2 with work := s3.work } := by unfold s3; split <;> rfl
  have e : s3 = { s with hreqs := terase id 1 s.hreqs, work := s3.work } :=
    e3.trans (congrArg (fun u : State => { u with work := s3.work }) e2)
  have held : s3.heldW = [] := (congrArg State.heldW e).trans h
  rw [unholdAll_eq s3 held, e]
  refine ⟨rfl, rfl, fun w k => ?_⟩
  exact tget_map Ctx.zero (fun c : Ctx => { c with strand := c.strand.unhold }) rfl s.ctxs _

/-- What the fault of a load or an AtomicOp leaves: the access traps with TRANS, and its request is over. -/
structure RequestFaulted (n : Nat) (r : HReq) (o : Op) (s t : State) : Prop where
  state : (t.ctx r.world r.ctx).state = .stopping
  gone  : ∀ e ∈ t.hreqs, e.1 ≠ n
  mem   : t.mem = s.mem
  fault : ∃ f, (t.ctx r.world r.ctx).fault = some f ∧ f.cause = .trans ∧ f.faddr = o.addr

theorem opFault_trans {s : State} {w k : Nat} {o : Op} (hl : (s.ctx w k).state.live = true) (hk : o.kind = 1 ∨ o.kind = 0x10) :
    ∃ f, f.cause = .trans ∧ f.faddr = o.addr ∧ opFault s w k o .trans = takeFault s w k f := by
  have notAhead : (s.ctx w k).strand.ahead o = false := by rcases hk with hk | hk <;> simp [Strand.ahead, hk]
  have notElement : o.elementAsk = false := by rcases hk with hk | hk <;> simp [Op.elementAsk, hk]
  have notAgain : o.again = false := by rcases hk with hk | hk <;> simp [Op.again, hk]
  have addr : o.faultAddr = o.addr := by rcases hk with hk | hk <;> simp [Op.faultAddr, hk]
  refine ⟨_, ?_, ?_, by
    rw [opFault]
    dsimp only
    rw [if_neg (by simp [notAhead]), if_neg (by simp [notElement]), if_pos (.inl hl), notAgain, if_neg (by decide)]⟩
  · rfl
  · exact addr

/-- A context's request is no parser's. -/
theorem isRing_false {r : HReq} (h : r.ctx < 16384) : r.isRing = false := by
  simp only [HReq.isRing, Bool.and_eq_false_iff]
  exact .inl (beq_false_of_ne (by omega))

section
variable {s : State} {n : Nat} {r : HReq} {o : Op} (hr : s.hreq n = some r) (hd : r.dropped = false) (hp : r.posted = false)
  (hx : r.ctx < 16384) (ho : opOfRequest s n r = some o) (hh : s.heldW = [])
include hr hd hp hx ho hh

theorem requestFails_faults (hl : (s.ctx r.world r.ctx).state.live = true) (hk : o.kind = 1 ∨ o.kind = 0x10) :
    RequestFaulted n r o s (requestFails s n) := by
  obtain ⟨hreqs, mem, ctx⟩ := endRequest_spec n r hh
  obtain ⟨f, cause, faddr, fault⟩ := opFault_trans (s := endRequest s n r) (w := r.world) (k := r.ctx) (o := o)
    (by rw [ctx]; exact hl) hk
  have fails : requestFails s n = takeFault (endRequest s n r) r.world r.ctx f := by
    have notEngine : ¬ (o.kind = 4 ∨ o.kind = 6) := by omega
    simp only [requestFails, hr, hd, hp, isRing_false hx, ho, Bool.false_eq_true, if_false, if_neg notEngine]
    exact fault
  obtain ⟨⟨ev, device⟩, -, page⟩ := takeFault_live (endRequest s n r) r.world r.ctx f (by rw [cause]; decide) (by rw [ctx]; exact hl)
  have mine := page r.world r.ctx
  dsimp only at mine
  rw [if_pos rfl] at mine
  rw [fails]
  refine ⟨?_, ?_, ?_, f, ?_, cause, faddr⟩
  · rw [mine]
  · rw [congrArg State.hreqs device]
    exact hreqs ▸ not_mem_terase n s.hreqs
  · exact (congrArg State.mem device).trans mem
  · rw [mine]

/-- The three answers that end a load's or an AtomicOp's request without its data. -/
theorem request_faults (hl : (s.ctx r.world r.ctx).state.live = true) (hk : o.kind = 1 ∨ o.kind = 0x10) (hn : n = s.arg 0) :
    (r.asking = true → r.refused = false → s.arg 1 = 0 ∨ r.retried = true →
      Answers .prgResponse s (RequestFaulted n r o s)) ∧
    (s.arg 1 = 0 → r.asking = false → Answers .hostCompletion s (RequestFaulted n r o s)) ∧
    (r.asking = false → Answers .hostRequestTimeout s (RequestFaulted n r o s)) := by
  subst hn
  have fails := requestFails_faults hr hd hp hx ho hh hl hk
  refine ⟨fun ha hf hs => ?_, fun hs ha => ?_, fun ha => ?_⟩
  · have e : prgResponse s (s.arg 0) (s.arg 1 != 0) =
        nextPage (requestFails (s.modFn r.world fun f => { f with prgs := f.prgs - 1 }) (s.arg 0)) r.world := by
      have notAgain : ¬ ((s.arg 1 != 0) = true ∧ (!r.retried) = true) := by
        rintro ⟨h1, h2⟩
        rcases hs with hs | hs
        · simp [hs] at h1
        · simp [hs] at h2
      simp only [prgResponse, hr, ha, hf, hd, Bool.not_true, Bool.false_eq_true, or_self, if_false, if_neg notAgain]
    have fails' := requestFails_faults (s := s.modFn r.world fun f => { f with prgs := f.prgs - 1 }) hr hd hp hx ho hh hl hk
    obtain ⟨device, gone⟩ := nextPage_spec
      (requestFails (s.modFn r.world fun f => { f with prgs := f.prgs - 1 }) (s.arg 0)) r.world
    obtain ⟨state, gone', mem, f, fault, cause, faddr⟩ := fails'
    have ctx : ∀ t : State, (nextPage t r.world).ctx r.world r.ctx = t.ctx r.world r.ctx := by
      intro t
      rw [(nextPage_spec t r.world).1]
      rfl
    refine ⟨_, rfl, ?_⟩
    rw [e]
    exact ⟨by rw [ctx]; exact state, gone _ gone', (congrArg State.mem device).trans mem, f, by rw [ctx]; exact fault, cause, faddr⟩
  · have e : hostCompletion s (s.arg 0) (s.arg 1 != 0) s.ev.data = requestFails s (s.arg 0) := by
      simp [hostCompletion, hr, ha, hp, hs]
    exact ⟨_, congrArg Host.Outcome.next e, fails⟩
  · refine ⟨_, rfl, ?_⟩
    simp only [hr, ha, hp, Bool.false_eq_true, or_self, if_false]
    exact fails

/-- A load's data reach its register, and the operation is over. -/
theorem hostCompletion_loads (hn : n = s.arg 0) (hs : s.arg 1 ≠ 0) (ha : r.asking = false)
    (ht : (s.ctx r.world r.ctx).state.takes = true) (hk : o.kind = 1) (hz : o.reg ≠ 0)
    (hw : (s.ctx r.world r.ctx).strand.pend.any (fun p => p.reg == o.reg && p.tok == 4 * o.id + 1) = true) :
    Answers .hostCompletion s fun t => (∀ e ∈ t.hreqs, e.1 ≠ n) ∧ t.mem = s.mem ∧
      (t.ctx r.world r.ctx).strand.ops = (s.ctx r.world r.ctx).strand.ops.filter (fun x => x.id != o.id) ∧
      ∀ j, (t.ctx r.world r.ctx).strand.rx j = if j = o.reg then
        extend (o.func % 8) (natOf ((List.range r.len).map fun i => BitVec.ofNat 8 (nth 0 s.ev.data i)))
        else (s.ctx r.world r.ctx).strand.rx j := by
  subst hn
  obtain ⟨hreqs, mem, ctx⟩ := endRequest_spec (s.arg 0) r hh
  have noScale : scaleWaits s r.world r.ctx o = false := by simp [scaleWaits, hk]
  have e : hostCompletion s (s.arg 0) (s.arg 1 != 0) s.ev.data = giveData (endRequest s (s.arg 0) r) r.world r.ctx o
      (natOf ((List.range r.len).map fun i => BitVec.ofNat 8 (nth 0 s.ev.data i))) := by
    simp [hostCompletion, hr, ha, hp, hs, hd, noScale, isRing_false hx, ho, ht, hk]
  refine ⟨_, congrArg Host.Outcome.next e, ?_⟩
  simp only [giveData, hk]
  refine ⟨hreqs ▸ not_mem_terase _ s.hreqs, mem, ?_, fun j => ?_⟩
  · simp only [State.modStrand, State.ctx_modCtx, if_true, ctx, Strand.settle, Strand.unhold, hw, Strand.dropOp]
    rw [Strand.wx_frame]
  · simp only [State.modStrand, State.ctx_modCtx, if_true, ctx, Strand.settle, Strand.unhold, hw, Strand.dropOp]
    have reg := Strand.rx_wx { (s.ctx r.world r.ctx).strand with vaHold := false, vmHold := false } o.reg
      (extend (o.func % 8) (natOf ((List.range r.len).map fun i => BitVec.ofNat 8 (nth 0 s.ev.data i)))) j
    refine Eq.trans reg ?_
    by_cases hj : j = o.reg
    · rw [if_pos ⟨hj, hj ▸ hz⟩, if_pos hj]
    · rw [if_neg (fun h => hj h.1), if_neg hj]
      rfl

end

/-! ### Translations -/

/-- From s to t request n of the list has become y; no other request has changed. -/
def PutsRequest (n : Nat) (y : HReq) (s t : State) : Prop :=
  t.hreq n = some y ∧ ∀ id, id ≠ n → t.hreq id = s.hreq id

/-- What a request asks with when it asks for its translation. -/
def HReq.asks (r : HReq) : Tlp := { fn := r.world, pasid := r.pasid, translated := false, addr := r.addr }

/-- A translation joins those that its function holds. -/
def State.cacheTranslation (s : State) (r : HReq) : State :=
  s.modFn r.world fun f => { f with
    atc := if f.atc.contains (r.pasid, r.addr / 4096) then f.atc else f.atc ++ [(r.pasid, r.addr / 4096)] }

theorem mem_cacheTranslation (s : State) (r : HReq) : (r.pasid, r.addr / 4096) ∈ ((s.cacheTranslation r).fn r.world).atc := by
  simp only [State.cacheTranslation, State.fn_modFn, if_true]
  split
  case isTrue h => simpa using h
  case isFalse => simp

section
variable {s : State} {n : Nat} {r : HReq} (hr : s.hreq n = some r) (hd : r.dropped = false) (ha : r.asking = true)
include hr hd ha

/-! What each answer does to a request that asks. -/

theorem hostTranslation_comes (hp : r.posted = false) (hst : r.stale = false) (hg : r.tag = none) :
    hostTranslation s n true =
      ({ s.cacheTranslation r with hreqs := tset n { r with asking := false, translated := true } s.hreqs } : State).emit
        (.hostRead { r.asks with translated := true } r.len n) := by
  have holds : ((s.cacheTranslation r).fn r.world).holds r.pasid r.addr = true := by
    simpa [Fn.holds] using mem_cacheTranslation s r
  have message : requestMsg (s.cacheTranslation r) n r = .hostRead { r.asks with translated := true } r.len n := by
    simp only [requestMsg, hg, tlp, holds]
    rfl
  rw [← message, hostTranslation, hr]
  dsimp only
  rw [if_neg (by simp [ha]), if_neg (by simp [hd]), if_pos rfl, if_neg (by simp [hst]), if_neg (by simp [hp])]
  rfl

theorem hostTranslation_stale (hst : r.stale = true) : hostTranslation s n true = askTranslation s n r := by
  rw [hostTranslation, hr]
  dsimp only
  rw [if_neg (by simp [ha]), if_neg (by simp [hd]), if_pos rfl, if_pos hst]

theorem hostTranslation_refused (ht : r.retried = false) (hpri : (s.fn r.world).priOn = true)
    (hroom : pageRoom s r.world = true) :
    hostTranslation s n false =
      (({ s with hreqs := tset n { r with refused := false } s.hreqs } : State).modFn r.world fun f =>
        { f with prgs := f.prgs + 1 }).emit (.pageAsk r.asks n) := by
  rw [hostTranslation, hr]
  dsimp only
  rw [if_neg (by simp [ha]), if_neg (by simp [hd]), if_neg (by decide), if_pos (by simp [hpri, ht])]
  exact if_pos hroom

theorem prgResponse_asks (hf : r.refused = false) (ht : r.retried = false) :
    prgResponse s n true = nextPage
      (askTranslation (s.modFn r.world fun f => { f with prgs := f.prgs - 1 }) n { r with retried := true }) r.world := by
  rw [prgResponse, hr]
  dsimp only
  rw [if_neg (by simp [ha, hf]), if_neg (by simp [hd]), if_pos (by simp [ht])]

/-- After its page has come, a request asks for its translation once more. -/
theorem prgResponse_retries (hn : n = s.arg 0) (hf : r.refused = false) (ht : r.retried = false) (hs : s.arg 1 ≠ 0)
    (hnone : ∀ e ∈ s.hreqs, e.2.asking = true → e.2.refused = false) :
    Answers .prgResponse s fun t =>
      t = { s with hreqs := t.hreqs, fns := t.fns, out := s.out ++ [.atsAsk r.asks n] } ∧
        PutsRequest n { r with retried := true, stale := false } s t ∧
        OnlyAt s.fn t.fn r.world { s.fn r.world with prgs := (s.fn r.world).prgs - 1 } := by
  subst hn
  have record : { r with retried := true, stale := false } =
      { r with retried := true, asking := true, stale := false, refused := false } := by rw [← ha, ← hf]
  have asks := prgResponse_asks hr hd ha hf ht
  rw [nextPage_none _ fun e he => by
    rcases mem_tset _ _ _ e he with rfl | he
    · exact fun _ => rfl
    · exact hnone e he] at asks
  have answer : exec .prgResponse s = .next (prgResponse s (s.arg 0) true) :=
    congrArg (fun b => Host.Outcome.next (prgResponse s (s.arg 0) b)) (bne_iff_ne.mpr hs)
  refine ⟨_, answer.trans (congrArg _ asks), rfl, ?_, ?_⟩
  · rw [record]; exact hreq_of_tset rfl
  · exact State.fn_modFn s r.world fun f => { f with prgs := f.prgs - 1 }

/-- A translation that comes is cached, and the request goes out with it. -/
theorem takes_translation (hp : r.posted = false) (hst : r.stale = false) (hg : r.tag = none) :
    Takes s (.translation n true) fun s0 t =>
      t = { s0 with hreqs := t.hreqs, fns := t.fns,
                    out := s.out ++ [.hostRead { r.asks with translated := true } r.len n] } ∧
        PutsRequest n { r with asking := false, translated := true } s t ∧ (r.pasid, r.addr / 4096) ∈ (t.fn r.world).atc := by
  refine takes_of_takeInput ?_
  rintro s0 ⟨sched, rest, rfl⟩ hreads
  have taken : takeInput { s with sched := sched, inputs := rest } (.translation n true) = _ :=
    hostTranslation_comes (s := { s with sched := sched, inputs := rest }) hr hd ha hp hst hg
  rw [taken]
  exact ⟨rfl, hreads, rfl, hreq_of_tset rfl, mem_cacheTranslation s r⟩

/-- One that an invalidation has overtaken is asked for again. -/
theorem takes_translation_stale (hst : r.stale = true) :
    Takes s (.translation n true) fun s0 t =>
      t = { s0 with hreqs := t.hreqs, out := s.out ++ [.atsAsk r.asks n] } ∧
        PutsRequest n { r with stale := false, refused := false } s t := by
  have record : { r with stale := false, refused := false } =
      { r with asking := true, stale := false, refused := false } := by rw [← ha]
  refine takes_of_takeInput ?_
  rintro s0 ⟨sched, rest, rfl⟩ hreads
  have taken : takeInput { s with sched := sched, inputs := rest } (.translation n true) = _ :=
    hostTranslation_stale (s := { s with sched := sched, inputs := rest }) hr hd ha hst
  rw [taken, record]
  exact ⟨rfl, hreads, rfl, hreq_of_tset rfl⟩

/-- One that is refused asks for its page. -/
theorem takes_translation_refused (ht : r.retried = false) (hpri : (s.fn r.world).priOn = true)
    (hroom : pageRoom s r.world = true) :
    Takes s (.translation n false) fun s0 t =>
      t = { s0 with hreqs := t.hreqs, fns := t.fns, out := s.out ++ [.pageAsk r.asks n] } ∧
        PutsRequest n { r with refused := false } s t ∧
        OnlyAt s.fn t.fn r.world { s.fn r.world with prgs := (s.fn r.world).prgs + 1 } := by
  refine takes_of_takeInput ?_
  rintro s0 ⟨sched, rest, rfl⟩ hreads
  have taken : takeInput { s with sched := sched, inputs := rest } (.translation n false) = _ :=
    hostTranslation_refused (s := { s with sched := sched, inputs := rest }) hr hd ha ht hpri hroom
  rw [taken]
  exact ⟨rfl, hreads, rfl, hreq_of_tset rfl, State.fn_modFn s r.world fun f => { f with prgs := f.prgs + 1 }⟩

end

/-- An answer to a request that is over changes nothing. -/
theorem answers_noRequest {s : State} (h : s.hreq (s.arg 0) = none) :
    Answers .prgResponse s (· = s) ∧ Answers .hostCompletion s (· = s) ∧ Answers .hostRequestTimeout s (· = s) := by
  refine ⟨⟨_, rfl, ?_⟩, ⟨_, rfl, ?_⟩, ⟨_, rfl, ?_⟩⟩
  · simp only [prgResponse, h]
  · simp only [hostCompletion, h]
  · simp only [h]

end Sys2Proof.Machine
end

section
/-!
PROOFS: invalidations of host translations (04 R88).
-/

namespace Sys2Proof.Machine

/-! ## Invalidations (04 R88) -/

theorem hostWriteRefusal_logs (s : State) : Answers .hostWriteRefusal s fun t => t = { s with fns := t.fns } ∧
    OnlyAt s.fn t.fn (s.arg 0) { s.fn (s.arg 0) with aer := (s.fn (s.arg 0)).aer ++ [s.arg 1] } :=
  ⟨_, rfl, rfl, State.fn_modFn s (s.arg 0) fun f => { f with aer := f.aer ++ [s.arg 1] }⟩

/-- The outstanding requests that use a translation of the range. -/
theorem mem_requestsIn (s : State) (w lo hi id : Nat) : id ∈ requestsIn s w lo hi ↔
    ∃ r, (id, r) ∈ s.hreqs ∧ r.world = w ∧ r.translated = true ∧ lo < r.addr + Nat.max 1 r.len ∧ r.addr < hi := by
  rw [requestsIn, List.mem_filterMap]
  constructor
  · rintro ⟨⟨i, r⟩, hm, he⟩
    dsimp only at he
    split at he
    case isTrue hr =>
      cases he
      exact ⟨r, hm, hr⟩
    case isFalse => cases he
  · rintro ⟨r, hm, hr⟩
    exact ⟨(id, r), hm, if_pos hr⟩

theorem atsInvalidationRequest_full {s : State} (h : 32 ≤ s.invals.length) : Answers .atsInvalidationRequest s (· = s) :=
  ⟨_, rfl, if_pos h⟩

/-- What an invalidation of a range leaves of a function: its cached translations of other pages. -/
def Fn.invalidated (f : Fn) (lo hi : Nat) : Fn :=
  { f with atc := f.atc.filter fun p => decide (p.2 * 4096 + 4096 ≤ lo) || decide (hi ≤ p.2 * 4096) }

theorem atsInvalidationRequest_stands {s : State} (h : s.invals.length < 32) :
    let n := s.arg 0
    let lo := s.arg 1
    let hi := s.arg 2
    Answers .atsInvalidationRequest s fun t =>
      t = { s with fns := t.fns, invals := t.invals, hreqs := t.hreqs, work := s.work ++ [event .atsInvalidationCompletion []] } ∧
      OnlyAt s.fn t.fn n { s.fn n with atc := (t.fn n).atc } ∧
      (∀ p, p ∈ (t.fn n).atc ↔ p ∈ (s.fn n).atc ∧ (p.2 * 4096 + 4096 ≤ lo ∨ hi ≤ p.2 * 4096)) ∧
      (t.hreqs = s.hreqs.map fun (e : Nat × HReq) => (e.1,
        if e.2.world = n ∧ e.2.asking = true ∧ lo ≤ e.2.addr ∧ e.2.addr < hi then { e.2 with stale := true } else e.2)) ∧
      ∃ ids, t.invals = s.invals ++ [{ fn := n, lo := lo, hi := hi, reqs := ids }] ∧
        ∀ id, id ∈ ids ↔ ∃ r, (id, r) ∈ s.hreqs ∧ r.world = n ∧ r.translated = true ∧
          lo < r.addr + Nat.max 1 r.len ∧ r.addr < hi := by
  intro n lo hi
  refine ⟨_, congrArg Host.Outcome.next (if_neg (Nat.not_le.mpr h)), rfl, ?_, ?_, rfl, _, rfl, mem_requestsIn s n lo hi⟩
  · have fns : ∀ m, (s.modFn n fun f => f.invalidated lo hi).fn m = _ := State.fn_modFn s n fun f => f.invalidated lo hi
    have mine := fns n
    rw [if_pos rfl] at mine
    intro m
    refine (fns m).trans ?_
    split
    · exact congrArg (fun f : Fn => { s.fn n with atc := f.atc }) mine.symm
    · rfl
  · intro p
    have mine : (s.modFn n fun f => f.invalidated lo hi).fn n = (s.fn n).invalidated lo hi := by
      rw [State.fn_modFn, if_pos rfl]
    show p ∈ ((s.modFn n fun f => f.invalidated lo hi).fn n).atc ↔ _
    rw [mine, Fn.invalidated, List.mem_filter]
    simp

theorem atsInvalidationCompletion_none {s : State} (h : s.invals = []) : Answers .atsInvalidationCompletion s (· = s) := by
  refine ⟨_, rfl, ?_⟩
  simp only [h]

section
variable {s : State} {v : Inval} {rest : List Inval} (h : s.invals = v :: rest)
include h

theorem atsInvalidationCompletion_waits (hw : ∃ id ∈ v.reqs, ∃ e ∈ s.hreqs, e.1 = id) :
    Answers .atsInvalidationCompletion s (· = s) := by
  refine ⟨_, rfl, ?_⟩
  simp only [h]
  exact if_pos (by simpa using hw)

theorem atsInvalidationCompletion_ends (hw : ∀ id ∈ v.reqs, ∀ e ∈ s.hreqs, e.1 ≠ id) :
    Answers .atsInvalidationCompletion s fun t =>
      t = { s with invals := rest, out := s.out ++ [.inval v.fn v.lo v.hi], work := t.work } ∧
      (rest ≠ [] → event .atsInvalidationCompletion [] ∈ t.work) := by
  refine ⟨_, rfl, ?_⟩
  have none : ¬ (v.reqs.any fun id => s.hreqs.any fun (e : Nat × HReq) => e.1 == id) = true := by
    intro stands
    obtain ⟨id, hid, stands⟩ := List.any_eq_true.mp stands
    obtain ⟨e, he, same⟩ := List.any_eq_true.mp stands
    exact hw id hid e he (by simpa using same)
  simp only [h]
  rw [if_neg none]
  cases rest with
  | nil => exact ⟨rfl, fun h => absurd rfl h⟩
  | cons w r => exact ⟨rfl, fun _ => List.mem_append_right _ (List.mem_singleton_self _)⟩

end

end Sys2Proof.Machine
end

section
/-!
PROOFS: interrupt vectors, their masks and their holds (04 R89 to R91).
-/

namespace Sys2Proof.Machine

/-! ## Vectors (04 R89 to R91) -/

/-- A vector whose message has gone out. -/
def Vec.sent (y : Vec) : Vec := { y with pend := 0, pba := false }

/-- A vector's message. -/
def vecMsg (s : State) (n v : Nat) : Out := .msix n v ((s.fn n).vec v).maddr ((s.fn n).vec v).mdata

/-- From s to t vector v of function n has become y and the function mask f, and the messages `out` have gone out. -/
def VecSet (n v : Nat) (out : List Out) (f : Bool) (y : Vec) (s t : State) : Prop :=
  t = { s with fns := t.fns, out := s.out ++ out } ∧
    OnlyAt s.fn t.fn n { s.fn n with vecs := (t.fn n).vecs, fnMask := f } ∧ OnlyAt (s.fn n).vec (t.fn n).vec v y

theorem fn_modVec (s : State) (n v : Nat) (f : Vec → Vec) (m : Nat) : (s.modVec n v f).fn m =
    if m = n then { s.fn n with vecs := tset v (f ((s.fn n).vec v)) (s.fn n).vecs } else s.fn m :=
  State.fn_modFn s n _ m

theorem vecSet_modVec (s : State) (n v : Nat) (f : Vec → Vec) :
    VecSet n v [] (s.fn n).fnMask (f ((s.fn n).vec v)) s (s.modVec n v f) := by
  have mine := fn_modVec s n v f n
  rw [if_pos rfl] at mine
  refine ⟨?_, fun m => ?_, fun j => ?_⟩
  · rw [List.append_nil]; rfl
  · rw [mine]
    exact fn_modVec s n v f m
  · rw [mine]
    exact tget_tset Vec.zero v _ _ j

theorem vecSet_sendVec (s : State) (n v : Nat) :
    VecSet n v [vecMsg s n v] (s.fn n).fnMask ((s.fn n).vec v).sent s (sendVec s n v) := by
  obtain ⟨-, fns, vecs⟩ := vecSet_modVec s n v Vec.sent
  exact ⟨rfl, fns, vecs⟩

theorem vecSet_refl (s : State) (n v : Nat) : VecSet n v [] (s.fn n).fnMask ((s.fn n).vec v) s s := by
  refine ⟨?_, fun m => ?_, fun j => ?_⟩
  · rw [List.append_nil]
  · split
    case isTrue h => rw [h]
    case isFalse => rfl
  · split
    case isTrue h => rw [h]
    case isFalse => rfl

section
variable {s t u : State} {n v : Nat} {out out' : List Out} {f f' : Bool} {y y' : Vec}

theorem VecSet.mask (h : VecSet n v out f y s t) : (t.fn n).fnMask = f := by
  obtain ⟨-, fns, -⟩ := h
  have mine := fns n
  rw [if_pos rfl] at mine
  exact congrArg Fn.fnMask mine

theorem VecSet.vec (h : VecSet n v out f y s t) : (t.fn n).vec v = y := by
  obtain ⟨-, -, vecs⟩ := h
  exact (vecs v).trans (if_pos rfl)

theorem VecSet.iod0 (h : VecSet n v out f y s t) : t.iod0 = s.iod0 := by rw [h.1]

theorem VecSet.trans (h : VecSet n v out f y s t) (g : VecSet n v out' f' y' t u) : VecSet n v (out ++ out') f' y' s u := by
  obtain ⟨e1, fns1, vecs1⟩ := h
  obtain ⟨e2, fns2, vecs2⟩ := g
  have mine1 := fns1 n
  have mine2 := fns2 n
  rw [if_pos rfl] at mine1 mine2
  refine ⟨?_, fun m => ?_, fun j => ?_⟩
  · rw [e2, e1, List.append_assoc]
  · rw [fns2 m, mine1]
    split
    · rfl
    case isFalse hm => rw [fns1 m, if_neg hm]
  · rw [vecs2 j]
    split
    · rfl
    case isFalse hj => rw [vecs1 j, if_neg hj]

end

/-! ### A vector is looked at -/

section
variable {s : State} {n v : Nat}

theorem checkVec_idle (h : ((s.fn n).vec v).pend = 0) : checkVec s n v = s := if_pos h

theorem checkVec_masked (h : 0 < ((s.fn n).vec v).pend) (hm : (s.fn n).fnMask = true ∨ ((s.fn n).vec v).masked = true) :
    checkVec s n v = s.modVec n v fun x => { x with pba := true } := by
  unfold checkVec
  dsimp only
  rw [if_neg (by omega), if_pos (by simpa [masked] using hm)]

/-- Its messages have reached their number, or its hold is over. -/
def Vec.due (y : Vec) (now : Nat) : Prop := y.cntm1 + 1 ≤ y.pend ∨ 100 * y.hold ≤ now - y.t0

theorem checkVec_due (h : 0 < ((s.fn n).vec v).pend) (hf : (s.fn n).fnMask = false) (hm : ((s.fn n).vec v).masked = false)
    (hd : ((s.fn n).vec v).due s.iod0) : checkVec s n v = sendVec s n v := by
  unfold checkVec
  dsimp only
  rw [if_neg (by omega), if_neg (by simp [masked, hf, hm])]
  exact if_pos hd

theorem checkVec_early (hf : (s.fn n).fnMask = false) (hm : ((s.fn n).vec v).masked = false)
    (hd : ¬ ((s.fn n).vec v).due s.iod0) : checkVec s n v = s := by
  unfold checkVec
  dsimp only
  split
  · rfl
  · rw [if_neg (by simp [masked, hf, hm])]
    exact if_neg hd

theorem unmaskVec_sends (h : 0 < ((s.fn n).vec v).pend) (hf : (s.fn n).fnMask = false) (hm : ((s.fn n).vec v).masked = false) :
    unmaskVec s n v = sendVec s n v := if_pos ⟨h, by simp [masked, hf, hm]⟩

theorem unmaskVec_rests (h : ((s.fn n).vec v).pend = 0 ∨ (s.fn n).fnMask = true ∨ ((s.fn n).vec v).masked = true) :
    unmaskVec s n v = s := by
  refine if_neg ?_
  rintro ⟨pend, open_⟩
  simp only [masked, Bool.not_eq_true', Bool.or_eq_false_iff] at open_
  obtain ⟨hf, hm⟩ := open_
  rcases h with h | h | h
  · omega
  · simp [hf] at h
  · simp [hm] at h

end

/-! ### One vector's mask, and its coalescing -/

section
variable (s : State)

theorem msixUnmask_sends (h2 : s.arg 2 = 0) (hp : 0 < ((s.fn (s.arg 0)).vec (s.arg 1)).pend)
    (hk : (s.fn (s.arg 0)).fnMask = false) :
    Answers .msixUnmask s (VecSet (s.arg 0) (s.arg 1) [vecMsg s (s.arg 0) (s.arg 1)] (s.fn (s.arg 0)).fnMask
      (Vec.sent { (s.fn (s.arg 0)).vec (s.arg 1) with masked := false }) s) := by
  have opens := vecSet_modVec s (s.arg 0) (s.arg 1) fun x => { x with masked := false }
  refine ⟨_, congrArg Host.Outcome.next (if_pos h2), ?_⟩
  rw [unmaskVec_sends (by rw [opens.vec]; exact hp) (opens.mask.trans hk) (by rw [opens.vec])]
  have sends := opens.trans (vecSet_sendVec _ (s.arg 0) (s.arg 1))
  rwa [vecMsg, opens.vec, opens.mask] at sends

theorem msixUnmask_rests (h2 : s.arg 2 = 0)
    (h : ((s.fn (s.arg 0)).vec (s.arg 1)).pend = 0 ∨ (s.fn (s.arg 0)).fnMask = true) :
    Answers .msixUnmask s (VecSet (s.arg 0) (s.arg 1) [] (s.fn (s.arg 0)).fnMask
      { (s.fn (s.arg 0)).vec (s.arg 1) with masked := false } s) := by
  have opens := vecSet_modVec s (s.arg 0) (s.arg 1) fun x => { x with masked := false }
  refine ⟨_, congrArg Host.Outcome.next (if_pos h2), ?_⟩
  rw [unmaskVec_rests (by
    rw [opens.vec, opens.mask]
    rcases h with h | h
    · exact .inl h
    · exact .inr (.inl h))]
  exact opens

theorem vectorMask_masks (h2 : s.arg 2 = 0) :
    Answers .vectorMask s (VecSet (s.arg 0) (s.arg 1) [] (s.fn (s.arg 0)).fnMask
      (let x := (s.fn (s.arg 0)).vec (s.arg 1)
       { x with masked := true, pba := x.pba || decide (0 < x.pend) }) s) := by
  have masks := vecSet_modVec s (s.arg 0) (s.arg 1) fun x => { x with masked := true }
  refine ⟨_, congrArg Host.Outcome.next (if_pos h2), ?_⟩
  by_cases hp : ((s.fn (s.arg 0)).vec (s.arg 1)).pend = 0
  · rw [checkVec_idle (by rw [masks.vec]; exact hp)]
    have pba : (((s.fn (s.arg 0)).vec (s.arg 1)).pba || decide (0 < ((s.fn (s.arg 0)).vec (s.arg 1)).pend)) =
        ((s.fn (s.arg 0)).vec (s.arg 1)).pba := by simp [hp]
    dsimp only
    rw [pba]
    exact masks
  · rw [checkVec_masked (by rw [masks.vec]; exact Nat.pos_of_ne_zero hp) (.inr (by rw [masks.vec]))]
    have marks := masks.trans (vecSet_modVec _ (s.arg 0) (s.arg 1) fun x => { x with pba := true })
    rw [masks.vec, masks.mask] at marks
    simp only [decide_eq_true (Nat.pos_of_ne_zero hp), Bool.or_true]
    exact marks

/-- A vector with its coalescing rewritten. -/
def Vec.coalesced (x : Vec) (v : Nat) : Vec := { x with cntm1 := bits v 23 16, hold := Nat.min (bits v 9 0) 1000 }

theorem exec_coalesceWrite : exec .coalesceWrite s =
    .next (checkVec (s.modVec (s.arg 0) (s.arg 1) fun y => y.coalesced (s.arg 2)) (s.arg 0) (s.arg 1)) := rfl

theorem coalesceWrite_rests
    (h : ((s.fn (s.arg 0)).vec (s.arg 1)).pend = 0 ∨ ((s.fn (s.arg 0)).fnMask = false ∧
      ((s.fn (s.arg 0)).vec (s.arg 1)).masked = false ∧ ¬ (((s.fn (s.arg 0)).vec (s.arg 1)).coalesced (s.arg 2)).due s.iod0)) :
    Answers .coalesceWrite s (VecSet (s.arg 0) (s.arg 1) [] (s.fn (s.arg 0)).fnMask
      (((s.fn (s.arg 0)).vec (s.arg 1)).coalesced (s.arg 2)) s) := by
  have writes := vecSet_modVec s (s.arg 0) (s.arg 1) fun y => y.coalesced (s.arg 2)
  refine ⟨_, exec_coalesceWrite s, ?_⟩
  rcases h with h | ⟨hk, hm, hd⟩
  · rw [checkVec_idle (by rw [writes.vec]; exact h)]
    exact writes
  · rw [checkVec_early (writes.mask.trans hk) (by rw [writes.vec]; exact hm) (by rw [writes.vec, writes.iod0]; exact hd)]
    exact writes

theorem coalesceWrite_masked (hp : 0 < ((s.fn (s.arg 0)).vec (s.arg 1)).pend)
    (h : (s.fn (s.arg 0)).fnMask = true ∨ ((s.fn (s.arg 0)).vec (s.arg 1)).masked = true) :
    Answers .coalesceWrite s (VecSet (s.arg 0) (s.arg 1) [] (s.fn (s.arg 0)).fnMask
      { ((s.fn (s.arg 0)).vec (s.arg 1)).coalesced (s.arg 2) with pba := true } s) := by
  have writes := vecSet_modVec s (s.arg 0) (s.arg 1) fun y => y.coalesced (s.arg 2)
  refine ⟨_, exec_coalesceWrite s, ?_⟩
  rw [checkVec_masked (by rw [writes.vec]; exact hp) (by rw [writes.vec, writes.mask]; exact h)]
  have marks := writes.trans (vecSet_modVec _ (s.arg 0) (s.arg 1) fun x => { x with pba := true })
  rwa [writes.vec, writes.mask] at marks

theorem coalesceWrite_sends (hp : 0 < ((s.fn (s.arg 0)).vec (s.arg 1)).pend) (hk : (s.fn (s.arg 0)).fnMask = false)
    (hm : ((s.fn (s.arg 0)).vec (s.arg 1)).masked = false)
    (hd : (((s.fn (s.arg 0)).vec (s.arg 1)).coalesced (s.arg 2)).due s.iod0) :
    Answers .coalesceWrite s (VecSet (s.arg 0) (s.arg 1) [vecMsg s (s.arg 0) (s.arg 1)] (s.fn (s.arg 0)).fnMask
      (((s.fn (s.arg 0)).vec (s.arg 1)).coalesced (s.arg 2)).sent s) := by
  have writes := vecSet_modVec s (s.arg 0) (s.arg 1) fun y => y.coalesced (s.arg 2)
  refine ⟨_, exec_coalesceWrite s, ?_⟩
  rw [checkVec_due (by rw [writes.vec]; exact hp) (writes.mask.trans hk) (by rw [writes.vec]; exact hm)
    (by rw [writes.vec, writes.iod0]; exact hd)]
  have sends := writes.trans (vecSet_sendVec _ (s.arg 0) (s.arg 1))
  rwa [vecMsg, writes.vec, writes.mask] at sends

end

/-! ### A function's mask -/

/-- Looking at vectors in turn, where each look does the same to its vector and to no other, and a second one nothing more. -/
theorem vec_foldl {f : State → Nat → State} {g : Vec → Vec} {n : Nat} {b : Bool} (hg : ∀ y, g (g y) = g y)
    (h : ∀ u v, (u.fn n).fnMask = b → ((f u v).fn n).fnMask = b ∧ OnlyAt (u.fn n).vec ((f u v).fn n).vec v (g ((u.fn n).vec v)))
    (l : List Nat) (s : State) (hs : (s.fn n).fnMask = b) :
    ((l.foldl f s).fn n).fnMask = b ∧
      ∀ j, ((l.foldl f s).fn n).vec j = if j ∈ l then g ((s.fn n).vec j) else (s.fn n).vec j := by
  induction l generalizing s with
  | nil => exact ⟨hs, fun j => rfl⟩
  | cons v l ih =>
    obtain ⟨mask, vecs⟩ := h s v hs
    obtain ⟨mask', vecs'⟩ := ih (f s v) mask
    refine ⟨mask', fun j => ?_⟩
    rw [List.foldl_cons, vecs' j, vecs j]
    by_cases hj : j = v
    · subst hj
      simp only [if_true, List.mem_cons, true_or, hg, ite_self]
    · simp only [List.mem_cons, hj, false_or, if_false]

/-- Every vector of the function has had its look: one that is not listed has nothing pending. -/
theorem vec_foldl_all {f : State → Nat → State} {g : Vec → Vec} {n : Nat} {b : Bool} (hg : ∀ y, g (g y) = g y)
    (hz : g Vec.zero = Vec.zero)
    (h : ∀ u v, (u.fn n).fnMask = b → ((f u v).fn n).fnMask = b ∧ OnlyAt (u.fn n).vec ((f u v).fn n).vec v (g ((u.fn n).vec v)))
    (s : State) (hs : (s.fn n).fnMask = b) (j : Nat) :
    ((((s.fn n).vecs.map (·.1)).foldl f s).fn n).vec j = g ((s.fn n).vec j) := by
  rw [(vec_foldl hg h _ s hs).2 j]
  split
  · rfl
  case isFalse absent =>
    have zero : (s.fn n).vec j = Vec.zero :=
      tget_not_listed Vec.zero _ j fun e he hj => absent (List.mem_map.mpr ⟨e, he, hj⟩)
    rw [zero, hz]

/-- What an open function does to a vector: it sends what it holds. -/
def Vec.opened (y : Vec) : Vec := if 0 < y.pend ∧ y.masked = false then y.sent else y

/-- What a masked function does to a vector: what it holds shows in the PBA. -/
def Vec.shut (y : Vec) : Vec := { y with pba := y.pba || decide (0 < y.pend) }

theorem Vec.opened_opened (y : Vec) : y.opened.opened = y.opened := by
  unfold Vec.opened
  split
  · rfl
  · rfl

theorem Vec.shut_shut (y : Vec) : y.shut.shut = y.shut := by
  show ({ y with pba := (y.pba || decide (0 < y.pend)) || decide (0 < y.pend) } : Vec) = y.shut
  rw [Bool.or_assoc, Bool.or_self]
  rfl

theorem VectorsSeen.iod0 {s t : State} (h : VectorsSeen s t) : t.iod0 = s.iod0 := by rw [h]
theorem VectorsSeen.mem {s t : State} (h : VectorsSeen s t) : t.mem = s.mem := by rw [h]

theorem vectorsSeen_unmaskVec (s : State) (n v : Nat) : VectorsSeen s (unmaskVec s n v) := by
  unfold unmaskVec
  split
  · rfl
  · rfl

theorem unmaskVec_opens {n : Nat} {u : State} (v : Nat) (hu : (u.fn n).fnMask = false) :
    ∃ out, VecSet n v out false ((u.fn n).vec v).opened u (unmaskVec u n v) := by
  unfold Vec.opened
  split
  case isTrue h =>
    rw [unmaskVec_sends h.1 hu h.2]
    exact ⟨_, hu ▸ vecSet_sendVec u n v⟩
  case isFalse h =>
    rw [unmaskVec_rests (by
      cases hm : ((u.fn n).vec v).masked with
      | true => exact .inr (.inr rfl)
      | false => exact .inl (by simp only [hm, and_true] at h; omega))]
    exact ⟨[], hu ▸ vecSet_refl u n v⟩

theorem checkVec_shuts {n : Nat} {u : State} (v : Nat) (hu : (u.fn n).fnMask = true) :
    VecSet n v [] true ((u.fn n).vec v).shut u (checkVec u n v) := by
  by_cases hp : ((u.fn n).vec v).pend = 0
  · have same : ((u.fn n).vec v).shut = (u.fn n).vec v := by
      have pba : (((u.fn n).vec v).pba || decide (0 < ((u.fn n).vec v).pend)) = ((u.fn n).vec v).pba := by simp [hp]
      rw [Vec.shut, pba]
    rw [checkVec_idle hp, same]
    exact hu ▸ vecSet_refl u n v
  · have marked : ((u.fn n).vec v).shut = { (u.fn n).vec v with pba := true } := by
      simp [Vec.shut, Nat.pos_of_ne_zero hp]
    rw [checkVec_masked (Nat.pos_of_ne_zero hp) (.inl hu), marked]
    exact hu ▸ vecSet_modVec u n v fun x => { x with pba := true }

/-- The function mask changed, before any vector has been looked at. -/
def State.setFnMask (s : State) (n : Nat) (b : Bool) : State := s.modFn n fun f => { f with fnMask := b }

theorem fn_setFnMask (s : State) (n : Nat) (b : Bool) : (s.setFnMask n b).fn n = { s.fn n with fnMask := b } :=
  (State.fn_modFn s n _ n).trans (if_pos rfl)

theorem msixUnmask_function (s : State) (h2 : s.arg 2 ≠ 0) : Answers .msixUnmask s fun t =>
    (t.fn (s.arg 0)).fnMask = false ∧ t.iod0 = s.iod0 ∧ t.mem = s.mem ∧
      ∀ j, (t.fn (s.arg 0)).vec j = ((s.fn (s.arg 0)).vec j).opened := by
  refine ⟨_, congrArg Host.Outcome.next (if_neg h2), ?_⟩
  have looks : ∀ u v, (u.fn (s.arg 0)).fnMask = false → ((unmaskVec u (s.arg 0) v).fn (s.arg 0)).fnMask = false ∧
      OnlyAt (u.fn (s.arg 0)).vec ((unmaskVec u (s.arg 0) v).fn (s.arg 0)).vec v ((u.fn (s.arg 0)).vec v).opened := by
    intro u v hu
    obtain ⟨out, h⟩ := unmaskVec_opens v hu
    exact ⟨h.mask, h.2.2⟩
  have mask : ((s.setFnMask (s.arg 0) false).fn (s.arg 0)).fnMask = false := by rw [fn_setFnMask]
  have same : ∀ j, ((s.setFnMask (s.arg 0) false).fn (s.arg 0)).vec j = (s.fn (s.arg 0)).vec j := by
    intro j; rw [fn_setFnMask]; rfl
  have seen : VectorsSeen (s.setFnMask (s.arg 0) false) _ := vectorsSeen_foldl
    (((s.setFnMask (s.arg 0) false).fn (s.arg 0)).vecs.map (·.1)) (s.setFnMask (s.arg 0) false)
    fun u v => vectorsSeen_unmaskVec u (s.arg 0) v
  refine ⟨(vec_foldl Vec.opened_opened looks _ _ mask).1, seen.iod0, seen.mem, fun j => ?_⟩
  exact (vec_foldl_all Vec.opened_opened rfl looks _ mask j).trans (congrArg Vec.opened (same j))

theorem vectorMask_function (s : State) (h2 : s.arg 2 ≠ 0) : Answers .vectorMask s fun t =>
    (t.fn (s.arg 0)).fnMask = true ∧ t.out = s.out ∧ t.mem = s.mem ∧
      ∀ j, (t.fn (s.arg 0)).vec j = ((s.fn (s.arg 0)).vec j).shut := by
  refine ⟨_, congrArg Host.Outcome.next (if_neg h2), ?_⟩
  have looks : ∀ u v, (u.fn (s.arg 0)).fnMask = true → ((checkVec u (s.arg 0) v).fn (s.arg 0)).fnMask = true ∧
      OnlyAt (u.fn (s.arg 0)).vec ((checkVec u (s.arg 0) v).fn (s.arg 0)).vec v ((u.fn (s.arg 0)).vec v).shut := by
    intro u v hu
    have h := checkVec_shuts v hu
    exact ⟨h.mask, h.2.2⟩
  have mask : ((s.setFnMask (s.arg 0) true).fn (s.arg 0)).fnMask = true := by rw [fn_setFnMask]
  have same : ∀ j, ((s.setFnMask (s.arg 0) true).fn (s.arg 0)).vec j = (s.fn (s.arg 0)).vec j := by
    intro j; rw [fn_setFnMask]; rfl
  have silent : ∀ l : List Nat, ∀ u : State, (u.fn (s.arg 0)).fnMask = true →
      (l.foldl (fun u v => checkVec u (s.arg 0) v) u).out = u.out := by
    intro l
    induction l with
    | nil => exact fun _ _ => rfl
    | cons v l ih =>
      intro u hu
      have h := checkVec_shuts v hu
      exact (ih _ h.mask).trans (by rw [h.1, List.append_nil])
  have seen : VectorsSeen (s.setFnMask (s.arg 0) true) _ := vectorsSeen_foldl
    (((s.setFnMask (s.arg 0) true).fn (s.arg 0)).vecs.map (·.1)) (s.setFnMask (s.arg 0) true)
    fun u v => vectorsSeen_checkVec u (s.arg 0) v
  refine ⟨(vec_foldl Vec.shut_shut looks _ _ mask).1, silent _ _ mask, seen.mem, fun j => ?_⟩
  exact (vec_foldl_all Vec.shut_shut rfl looks _ mask j).trans (congrArg Vec.shut (same j))

/-! ## A hold that ends (04 R90, R91) -/

/-- How a vector y, masked or not, may stand once vectors have been looked at: as before, or masked with its PBA bit set, or sent. -/
inductive VecGoes (masked : Bool) (msg : Out) (out : List Out) (y : Vec) : Vec → Prop where
  | stays : VecGoes masked msg out y y
  | shows : masked = true → 0 < y.pend → VecGoes masked msg out y { y with pba := true }
  | sends : masked = false → 0 < y.pend → msg ∈ out → VecGoes masked msg out y y.sent

/-- From s to t vectors have been looked at, maybe more than once. -/
structure VecRun (s t : State) : Prop where
  mask : ∀ m, (t.fn m).fnMask = (s.fn m).fnMask
  out  : ∃ more, t.out = s.out ++ more
  vecs : ∀ m j, VecGoes (masked s m j) (vecMsg s m j) t.out ((s.fn m).vec j) ((t.fn m).vec j)

theorem vecRun_refl (s : State) : VecRun s s := ⟨fun _ => rfl, ⟨[], by simp⟩, fun _ _ => .stays⟩

/-- One look at a vector, as what it does to that vector. -/
theorem vecRun_of_vecSet {s t : State} {n v : Nat} {out : List Out} {y : Vec}
    (h : VecSet n v out (s.fn n).fnMask y s t) (hy : VecGoes (masked s n v) (vecMsg s n v) t.out ((s.fn n).vec v) y) :
    VecRun s t := by
  obtain ⟨device, fns, vecs⟩ := h
  have mine := fns n
  rw [if_pos rfl] at mine
  refine ⟨fun m => ?_, ⟨out, by rw [device]⟩, fun m j => ?_⟩
  · rw [fns m]
    split
    case isTrue hm => rw [hm]
    case isFalse => rfl
  · by_cases hm : m = n
    · subst hm
      rw [vecs j]
      split
      case isTrue hj => rw [hj]; exact hy
      case isFalse => exact .stays
    · rw [fns m, if_neg hm]
      exact .stays

theorem vecRun_trans {a b c : State} (h : VecRun a b) (g : VecRun b c) : VecRun a c := by
  obtain ⟨mask1, ⟨o1, out1⟩, vecs1⟩ := h
  obtain ⟨mask2, ⟨o2, out2⟩, vecs2⟩ := g
  refine ⟨fun m => (mask2 m).trans (mask1 m), ⟨o1 ++ o2, by rw [out2, out1, List.append_assoc]⟩, fun m j => ?_⟩
  have first := vecs1 m j
  have second := vecs2 m j
  simp only [masked, vecMsg, mask1 m] at second
  generalize hy' : (b.fn m).vec j = y' at first second
  generalize (c.fn m).vec j = y'' at second
  cases first with
  | stays => exact second
  | shows hm hp =>
    cases second with
    | stays => exact .shows hm hp
    | shows => exact .shows hm hp
    | sends hm' => exact absurd (hm.symm.trans hm') (by decide)
  | sends hm hp hmsg =>
    cases second with
    | stays => exact .sends hm hp (by rw [out2]; exact List.mem_append_left _ hmsg)
    | shows _ hp' => exact absurd hp' (Nat.lt_irrefl 0)
    | sends _ hp' => exact absurd hp' (Nat.lt_irrefl 0)

theorem vecRun_foldl {α : Type} {f : State → α → State} (h : ∀ u x, VecRun u (f u x)) (l : List α) (s : State) :
    VecRun s (l.foldl f s) := by
  induction l generalizing s with
  | nil => exact vecRun_refl s
  | cons x l ih => exact vecRun_trans (h s x) (ih _)

theorem vecRun_checkVec (s : State) (n v : Nat) : VecRun s (checkVec s n v) := by
  by_cases hp : 0 < ((s.fn n).vec v).pend
  · by_cases hm : (s.fn n).fnMask = true ∨ ((s.fn n).vec v).masked = true
    · rw [checkVec_masked hp hm]
      exact vecRun_of_vecSet (vecSet_modVec s n v fun x => { x with pba := true }) (.shows (by simpa [masked] using hm) hp)
    · simp only [not_or, Bool.not_eq_true] at hm
      obtain ⟨hf, hm⟩ := hm
      by_cases hd : ((s.fn n).vec v).due s.iod0
      · rw [checkVec_due hp hf hm hd]
        exact vecRun_of_vecSet (vecSet_sendVec s n v)
          (.sends (by simp [masked, hf, hm]) hp (List.mem_append_right _ (List.mem_singleton_self _)))
      · rw [checkVec_early hf hm hd]
        exact vecRun_refl s
  · rw [checkVec_idle (by omega)]
    exact vecRun_refl s

theorem vecRun_checkVecs (s : State) : VecRun s (checkVecs s) :=
  vecRun_foldl (fun u (v : Nat × Nat) => vecRun_checkVec u v.1 v.2) _ s

theorem vecRun_runTo (s : State) (due : Nat) : VecRun s (runTo s due) :=
  vecRun_trans (b := { s with iod0 := Nat.max s.iod0 due }) ⟨fun _ => rfl, ⟨[], by simp⟩, fun _ _ => .stays⟩ (vecRun_checkVecs _)

/-! ### Where a look leaves a vector -/

/-- A vector y that holds messages stands as a look at tick `now` leaves it. -/
structure Looked (now : Nat) (s t : State) (m j : Nat) : Prop where
  shut  : masked s m j = true → (t.fn m).vec j = { (s.fn m).vec j with pba := true }
  ended : masked s m j = false → ((s.fn m).vec j).due now → (t.fn m).vec j = ((s.fn m).vec j).sent ∧ vecMsg s m j ∈ t.out

/-- A look after others. -/
theorem looked_checkVec {s u : State} (h : VecRun s u) {m j : Nat} (hp : 0 < ((s.fn m).vec j).pend) :
    Looked u.iod0 s (checkVec u m j) m j := by
  have goes := h.vecs m j
  have mask := h.mask m
  generalize hy : (u.fn m).vec j = y at goes
  constructor
  · intro hm
    have shut : ∀ b, y = { (s.fn m).vec j with pba := b } →
        ((checkVec u m j).fn m).vec j = { (s.fn m).vec j with pba := true } := by
      rintro b rfl
      rw [checkVec_masked (by rw [hy]; exact hp) (by rw [hy, mask]; simpa [masked] using hm)]
      have marks := vecSet_modVec u m j fun x => { x with pba := true }
      rw [hy] at marks
      exact marks.vec
    cases goes with
    | stays => exact shut _ rfl
    | shows => exact shut true rfl
    | sends hm' => exact absurd (hm.symm.trans hm') (by decide)
  · intro hm hd
    cases goes with
    | stays =>
      have hopen : (s.fn m).fnMask = false ∧ ((s.fn m).vec j).masked = false := by simpa [masked] using hm
      obtain ⟨hf, hm'⟩ := hopen
      rw [checkVec_due (by rw [hy]; exact hp) (mask.trans hf) (by rw [hy]; exact hm') (by rw [hy]; exact hd)]
      have sends := vecSet_sendVec u m j
      have msg : vecMsg u m j = vecMsg s m j := by rw [vecMsg, hy, vecMsg]
      rw [hy, msg] at sends
      refine ⟨sends.vec, ?_⟩
      rw [sends.1]
      exact List.mem_append_right _ (List.mem_singleton_self _)
    | shows hm' => exact absurd (hm.symm.trans hm') (by decide)
    | sends _ _ hmsg =>
      rw [checkVec_idle (by rw [hy]; rfl)]
      exact ⟨hy, hmsg⟩

/-- More looks leave it so. -/
theorem looked_onward {now : Nat} {s t u : State} {m j : Nat} (h : Looked now s t m j) (hr : VecRun s t) (g : VecRun t u) :
    Looked now s u m j := by
  have goes := g.vecs m j
  have mask := hr.mask m
  constructor
  · intro hm
    have hm' : masked t m j = true := by
      rw [masked, mask, h.shut hm]
      exact hm
    rw [h.shut hm, hm'] at goes
    generalize (u.fn m).vec j = y at goes ⊢
    cases goes with
    | stays => rfl
    | shows => rfl
    | sends hm'' => cases hm''
  · intro hm hd
    obtain ⟨sent, hmsg⟩ := h.ended hm hd
    obtain ⟨more, out⟩ := g.out
    rw [sent] at goes
    generalize (u.fn m).vec j = y at goes ⊢
    cases goes with
    | stays => exact ⟨rfl, by rw [out]; exact List.mem_append_left _ hmsg⟩
    | shows _ hp => exact absurd hp (Nat.lt_irrefl 0)
    | sends _ hp => exact absurd hp (Nat.lt_irrefl 0)

/-- Every vector that holds messages is among those that are looked at. -/
theorem mem_checked {s : State} {m j : Nat} (hp : 0 < ((s.fn m).vec j).pend) :
    (m, j) ∈ s.fns.flatMap fun (e : Nat × Fn) => e.2.vecs.map fun v => (e.1, v.1) := by
  have vecNe : (s.fn m).vec j ≠ Vec.zero := fun e => by rw [e] at hp; exact absurd hp (Nat.lt_irrefl 0)
  have fnNe : s.fn m ≠ Fn.zero := fun e => vecNe (by rw [e]; rfl)
  exact List.mem_flatMap.mpr ⟨_, mem_of_tget_ne fnNe, List.mem_map.mpr ⟨_, mem_of_tget_ne vecNe, rfl⟩⟩

theorem looked_checkVecs {s u : State} (h : VecRun s u) {m j : Nat} (hp : 0 < ((s.fn m).vec j).pend)
    (hu : 0 < ((u.fn m).vec j).pend) : Looked u.iod0 s (checkVecs u) m j := by
  obtain ⟨before, after, e⟩ := List.append_of_mem (mem_checked hu)
  unfold checkVecs
  rw [e, List.foldl_append, List.foldl_cons]
  have run := vecRun_foldl (fun u (v : Nat × Nat) => vecRun_checkVec u v.1 v.2)
  have seen : VectorsSeen u _ := vectorsSeen_foldl before u fun u (v : Nat × Nat) => vectorsSeen_checkVec u v.1 v.2
  have reached := vecRun_trans h (run before u)
  rw [← seen.iod0]
  exact looked_onward (looked_checkVec reached hp) (vecRun_trans reached (vecRun_checkVec _ m j)) (run after _)

/-- So it is where the message has already gone. -/
theorem looked_of_idle {now : Nat} {s t : State} (h : VecRun s t) {m j : Nat} (hp : 0 < ((s.fn m).vec j).pend)
    (ht : ((t.fn m).vec j).pend = 0) : Looked now s t m j := by
  have goes := h.vecs m j
  generalize hy : (t.fn m).vec j = y at goes ht
  cases goes with
  | stays => omega
  | shows => exact absurd ht (Nat.ne_of_gt hp)
  | sends hm _ hmsg => exact ⟨fun hm' => absurd (hm.symm.trans hm') (by decide), fun _ _ => ⟨hy, hmsg⟩⟩

/-! ### The counter advances -/

theorem iod0_le_holds (l : List Nat) (s : State) : s.iod0 ≤ (l.foldl runTo s).iod0 := by
  induction l generalizing s with
  | nil => exact Nat.le_refl _
  | cons due l ih =>
    have first : s.iod0 ≤ (runTo s due).iod0 := by rw [runTo_iod0]; exact Nat.le_max_left _ _
    exact Nat.le_trans first (ih _)

/-- The holds on the way to a tick leave the counter on its way to it. -/
theorem iod0_holds (s : State) (T : Nat) : Nat.max ((holdEnds s T).foldl runTo s).iod0 T = Nat.max s.iod0 T := by
  have ran := (ran_holds (T := Nat.max s.iod0 T) (holdEnds s T) s (Nat.le_max_left _ _)
    fun due h => Nat.le_trans (holdEnds_le s T due h) (Nat.le_max_right _ _)).2
  have from_ := iod0_le_holds (holdEnds s T) s
  show max _ _ = max _ _
  change _ ≤ max _ _ at ran
  omega

theorem advanceIod0_frame (s : State) (T : Nat) : advanceIod0 s T =
    { s with fns := (advanceIod0 s T).fns, out := (advanceIod0 s T).out, iod0 := Nat.max s.iod0 T } := by
  have ran := (ran_holds (T := Nat.max s.iod0 T) (holdEnds s T) s (Nat.le_max_left _ _)
    fun due h => Nat.le_trans (holdEnds_le s T due h) (Nat.le_max_right _ _)).1
  have last := runTo_frame ((holdEnds s T).foldl runTo s) T
  rw [iod0_holds] at last
  rw [advanceIod0_eq]
  generalize (holdEnds s T).foldl runTo s = u at ran last
  exact last.trans (congrArg
    (fun v : State => { v with fns := (runTo u T).fns, out := (runTo u T).out, iod0 := Nat.max s.iod0 T }) ran)

theorem looked_advanceIod0 (s : State) (T : Nat) :
    VecRun s (advanceIod0 s T) ∧
      ∀ m j, 0 < ((s.fn m).vec j).pend → Looked (Nat.max s.iod0 T) s (advanceIod0 s T) m j := by
  have holds := vecRun_foldl vecRun_runTo (holdEnds s T) s
  have now := iod0_holds s T
  rw [advanceIod0_eq, runTo]
  generalize (holdEnds s T).foldl runTo s = u at holds now
  have reached : VecRun s { u with iod0 := Nat.max u.iod0 T } := ⟨holds.mask, holds.out, holds.vecs⟩
  have last := vecRun_checkVecs { u with iod0 := Nat.max u.iod0 T }
  refine ⟨vecRun_trans reached last, fun m j hp => ?_⟩
  rcases Nat.eq_zero_or_pos ((u.fn m).vec j).pend with idle | holdsSome
  · exact looked_onward (looked_of_idle reached hp idle) reached last
  · rw [← now]
    exact looked_checkVecs reached hp holdsSome

/-- What a hold's end leaves: it and every other that has ended by then has sent its message. -/
theorem holdExpiry_sends {s : State} (hp : 0 < ((s.fn (s.arg 0)).vec (s.arg 1)).pend) :
    let n := s.arg 0
    let v := s.arg 1
    let x := (s.fn n).vec v
    Answers .holdExpiry s fun t => let now := Nat.max s.iod0 (x.t0 + 100 * x.hold)
      t = { s with fns := t.fns, out := t.out, iod0 := now } ∧ (∃ sent, t.out = s.out ++ sent) ∧
      ((s.fn n).fnMask = false → x.masked = false → (t.fn n).vec v = x.sent ∧ vecMsg s n v ∈ t.out) ∧
      ((s.fn n).fnMask = true ∨ x.masked = true → (t.fn n).vec v = { x with pba := true }) ∧
      ∀ m j, let y := (s.fn m).vec j
        0 < y.pend → (s.fn m).fnMask = false → y.masked = false → y.t0 + 100 * y.hold ≤ now → (t.fn m).vec j = y.sent := by
  intro n v x
  obtain ⟨run, looked⟩ := looked_advanceIod0 s (x.t0 + 100 * x.hold)
  have ended : ∀ m j, 0 < ((s.fn m).vec j).pend → (s.fn m).fnMask = false → ((s.fn m).vec j).masked = false →
      ((s.fn m).vec j).t0 + 100 * ((s.fn m).vec j).hold ≤ Nat.max s.iod0 (x.t0 + 100 * x.hold) →
      ((advanceIod0 s (x.t0 + 100 * x.hold)).fn m).vec j = ((s.fn m).vec j).sent ∧
        vecMsg s m j ∈ (advanceIod0 s (x.t0 + 100 * x.hold)).out := by
    intro m j hy hf hm hd
    exact (looked m j hy).ended (by simp [masked, hf, hm]) (.inr (by omega))
  refine ⟨_, congrArg Host.Outcome.next (if_neg (Nat.ne_of_gt hp)), advanceIod0_frame s _, run.out, ?_, ?_, ?_⟩
  · exact fun hf hm => ended n v hp hf hm (Nat.le_max_right _ _)
  · exact fun hm => (looked n v hp).shut (by simpa [masked] using hm)
  · exact fun m j hy hf hm hd => (ended m j hy hf hm hd).1

theorem holdExpiry_none {s : State} (hp : ((s.fn (s.arg 0)).vec (s.arg 1)).pend = 0) : Answers .holdExpiry s (· = s) :=
  ⟨_, congrArg Host.Outcome.next (if_pos hp), rfl⟩

end Sys2Proof.Machine
end

section
/-!
PROOFS: the host's events.
-/

namespace Sys2Proof.Machine

/-! ## The host's events, together -/

/-- A host's store of BAR0 (04 R82, R83). -/
theorem hostEvents_bar0 (s : State) :
    let n := s.arg 0
    let off := s.arg 1
    let v := s.arg 2 % 2 ^ 64
    let x := s.world n
    let own := fun (p : Nat) => off / 4096 = p
    let drops := Answers .controlWordWrite s (· = s)
    (x.fnFrozen = true ∨ off % 8 ≠ 0 ∨ 2 ^ 28 ≤ off → drops) ∧
    (∀ c, c < 80 → own (0x10 + c) → n ≠ 0 → bit x.pwrgnt c = false → drops) ∧
    (∀ b, b < 168 → own (0x60 + b) → n ≠ 0 → bit x.mongnt b = false → drops) ∧
    (∀ p, p < 16 → own (0x110 + p) → n ≠ 0 → bit x.plgnt p = false → drops) ∧
    (own 1 → n ≠ 0 → x.readygnt = false → drops) ∧
    (∀ p, p = 2 ∨ (0x201 ≤ p ∧ p ≤ 0x280) → own p → n ≠ 0 → drops) ∧
    (∀ q, q < 32768 → own (0x8000 + q) → (s.queue q).owner ≠ n → drops) ∧
    (x.fnFrozen = false → off % 8 = 0 → s.barWaits n = false →
      (∀ k, k < 16384 → own (0x4000 + k) → off % 4096 = 0x38 → Answers .controlWordWrite s fun t =>
        (t.ctx n k).hvalid = bit v 14 ∧ (t.ctx n k).handler = v % 2 ^ 14 ∧
        Woken (s.modCtx n k fun c => { c with hvalid := bit v 14, handler := v % 2 ^ 14 }) t) ∧
      (∀ b, b < 168 → own (0x60 + b) → off % 4096 = 0 → n = 0 ∨ bit x.mongnt b = true → Answers .controlWordWrite s fun t =>
        OnlyAt s.monit t.monit b (let m := { s.monit b with freeze := bit v 2, en := bit v 0 }
          if bit v 1 = true then m.clear else m) ∧ Woken { s with monits := t.monits } t)) ∧
    (x.fnFrozen = false → off = 8 → MustWait s → Deferred .controlWordWrite s) := by
  intro n off v x own drops
  have absent : bar0Page s n off = none → drops := controlWordWrite_absent s
  refine ⟨?frozen, ?power, ?monitor, ?peer, ?ready, ?worlds, ?queue, fun hf ha hw => ⟨?handler, ?control⟩, ?core⟩
  case frozen =>
    rintro (h | h | h)
    · exact controlWordWrite_dropped s (.inr h)
    · exact controlWordWrite_dropped s (.inl h)
    · exact absent (bar0Page_beyond s n h)
  case power => exact fun c hc hp hn hg => absent ((bar0Page_power s n hc hp).trans (if_neg (by simp [hn, x, hg])))
  case monitor => exact fun b hb hp hn hg => absent ((bar0Page_monitor s n hb hp).trans (if_neg (by simp [hn, x, hg])))
  case peer => exact fun p hb hp hn hg => absent ((bar0Page_peer s n hb hp).trans (if_neg (by simp [hn, x, hg])))
  case ready => exact fun hp hn hg => absent ((bar0Page_ready s n hp).trans (if_neg (by simp [hn, x, hg])))
  case worlds =>
    rintro p (rfl | h) hp hn
    · exact absent ((bar0Page_checkpoint s n hp).trans (if_neg (by simp [hn])))
    · exact absent ((bar0Page_otherWorld s n (by rw [show off / 4096 = p from hp]; exact h)).trans (if_neg (by simp [hn])))
  case queue => exact fun q hq hp ho => absent ((bar0Page_queue s n hq hp).trans (if_neg (by simpa using ho)))
  case handler => exact fun k hk hp ho => controlWordWrite_handler hf ha hw hk hp ho
  case control => exact fun b hb hp ho hg => controlWordWrite_monitor hf ha hw hb hp ho hg
  case core =>
    intro hf ho h
    have ho : s.arg 1 = 8 := ho
    exact controlWordWrite_waits hf (by rw [ho]) (bar0Page_world s n (by show s.arg 1 / 4096 = 0; rw [ho])) (by rw [ho]; rfl) h

/-- What the host reads of BAR0, BAR1 and BAR2 (04 R81, R83, R89). -/
theorem hostEvents_reads (s : State) (a m tag fn off b : Nat) (h : barOf s a = some (fn, b, off)) (hw : s.barWaits fn = false) :
    let gives := fun (v : Nat) => Takes s (.hostRead a m tag) fun s0 t =>
      t = { s0 with out := s.out ++ [.hostData tag ((bytesOf m v).map (·.toNat))] }
    (b = 1 ∨ (s.world fn).fnFrozen = true ∨ (b = 0 ∧ (off % m ≠ 0 ∨ (m ≠ 4 ∧ m ≠ 8) ∨ bar0Page s fn off = none)) → gives 0) ∧
    (∀ k i, b = 0 → (s.world fn).fnFrozen = false → bar0Page s fn off = some (k, i) → m = 4 ∨ m = 8 → off % m = 0 →
      gives (readPage s fn k i (off % 4096) m)) ∧
    (∀ v, b = 2 → (s.world fn).fnFrozen = false → m = 4 → v < 2048 → let y := (s.fn fn).vec v
      (off = 16 * v + 8 → gives (0 + y.mdata % 2 ^ 32)) ∧ (off = 16 * v + 12 → gives y.masked.toNat) ∧
      (off = 0xC000 + 8 * v → gives (y.hold + y.cntm1 * 2 ^ 16)) ∧ (off = 0xC000 + 8 * v + 4 → gives y.pend)) := by
  intro gives
  have given : ∀ v, barRead s fn b off m = (bytesOf m v).map (·.toNat) → gives v := by
    intro v hv
    have taken := takes_hostRead m tag h hw
    rw [hv] at taken
    exact taken
  refine ⟨fun hz => given 0 (barRead_zeros s fn b off m hz), ?_, ?_⟩
  · rintro k i rfl hf hp hm ha
    exact given _ (barRead_page s fn off m hf hp hm ha)
  · rintro v rfl hf rfl hv
    have vector : off % 4 = 0 → ∀ y, readBar4 s fn off = y → gives y := by
      rintro ha _ rfl
      exact given _ (barRead_vectors s fn off hf ha)
    refine ⟨?_, ?_, ?_, ?_⟩
    · rintro rfl
      exact vector (by omega) _ (by rw [Nat.zero_add]; exact readBar4_data s fn hv)
    · rintro rfl
      exact vector (by omega) _ (readBar4_mask s fn hv)
    · rintro rfl
      exact vector (by omega) _ (readBar4_coalescing s fn)
    · rintro rfl
      exact vector (by omega) _ (readBar4_pending s fn)

/-- A write of a launch register (04 R83, 06 R113). -/
theorem hostEvents_bar2 (s : State) :
    let n := s.arg 0
    let q := s.arg 1 / 64
    let x := s.queue q
    let runs := x.istate = 2 ∧ (s.world x.owner).conf = true
    let dws := s.ev.data.map (BitVec.ofNat 64)
    let queues := fun (y : Queue) => Answers .launchRegisterWrite s (Woken (s.modQueue q fun _ => y))
    let bad := { x with malformed := Nat.min (2 ^ 32 - 1) (x.malformed + 1) }
    let packet := QSrc.inl dws (s.arg 3 == 1) none
    let p := Packet.new dws true (s.arg 3 == 1) none
    let whole := s.arg 2 ≠ 0 ∧ s.arg 1 % 64 = 0 ∧ s.ev.data.length = 8
    (s.barWaits n = true → MustWait s → Deferred .launchRegisterWrite s) ∧
    (s.barWaits n = false →
      ((s.world n).fnFrozen = true ∨ 32768 ≤ q → Answers .launchRegisterWrite s (· = s)) ∧
      ((s.world n).fnFrozen = false → q < 32768 →
       (x.owner ≠ n → ¬ runs → queues bad) ∧
       (x.owner ≠ n → runs → Answers .launchRegisterWrite s fun t => (t.queue q).istate = 3 ∧
         (t.queue q).malformed = bad.malformed) ∧
       (x.owner = n → ¬ whole → queues bad) ∧
       (x.owner = n → whole → runs → s.arg 3 = 2 → Answers .launchRegisterWrite s fun t => (t.queue q).istate = 3) ∧
       (x.owner = n → whole → ¬ (runs ∧ s.arg 3 = 2) → 8 ≤ x.inlines →
         queues { x with overflow := Nat.min (2 ^ 32 - 1) (x.overflow + 1) }) ∧
       (x.owner = n → whole → ¬ (runs ∧ s.arg 3 = 2) → x.inlines < 8 →
         x.cur.isSome = true ∨ x.order ≠ [] ∨ x.ringerr = true →
         queues { x with order := x.order ++ [packet], appended := x.appended + 1 }) ∧
       (x.owner = n → whole → ¬ (runs ∧ s.arg 3 = 2) → x.inlines < 8 → x.cur = none → x.order = [] → x.ringerr = false →
         Answers .launchRegisterWrite s fun t => event (kindStep p) [q] ∈ t.work ∧ Woken (s.modQueue q fun _ =>
           { x with order := [], appended := x.appended + 1, cur := some { p with barred := p.behind s q } }) t))) := by
  intro n q x runs dws queues bad packet p whole
  refine ⟨launchRegisterWrite_waits, fun hw => ?_⟩
  have goes := launchRegisterWrite_goes hw
  have onQueue : ∀ f : Queue → Queue, launchWrite s n (s.arg 1) (s.arg 2) (s.arg 3) s.ev.data = s.onQueue q f → queues (f x) :=
    fun f h => ⟨_, goes.trans (congrArg _ h), woken_onQueue s q f⟩
  refine ⟨fun h => ⟨_, goes, launchWrite_dropped h⟩, fun hf hq => ⟨?_, ?_, ?_, ?_, ?_, ?_, ?_⟩⟩
  · exact fun ho hr => onQueue _ (launchWrite_foreign hf hq ho hr)
  · intro ho hr
    refine ⟨_, goes.trans (congrArg _ (launchWrite_foreign_runs hf hq ho hr)), ?_⟩
    obtain ⟨istate, malformed⟩ := toError_iface
      (s.onQueue q fun x => { x with malformed := Nat.min (2 ^ 32 - 1) (x.malformed + 1) }) q
    exact ⟨istate, malformed.trans (iface_onQueue s q _).2⟩
  · exact fun ho hm => onQueue _ (launchWrite_malformed hf hq ho hm)
  · intro ho hm hr hs
    exact ⟨_, goes.trans (congrArg _ (launchWrite_insecure hf hq ho hm hr hs)), (toError_iface s q).1⟩
  · exact fun ho hm hr hi =>
      onQueue _ ((launchWrite_appends hf hq ho hm hr).trans (appendInline_full s q dws (s.arg 3 == 1) hi))
  · exact fun ho hm hr hi hb => onQueue (fun x => x.append dws (s.arg 3 == 1))
      ((launchWrite_appends hf hq ho hm hr).trans (appendInline_queued s q dws (s.arg 3 == 1) hi hb))
  · exact fun ho hm hr hi hc hx he => ⟨_, goes.trans (congrArg _ (launchWrite_appends hf hq ho hm hr)),
      appendInline_alone s q dws (s.arg 3 == 1) hi hc hx he⟩

/-- The answers to a request of the host's (04 R85, R86). -/
theorem hostEvents_requests (s : State) (r : HReq) (hr : s.hreq (s.arg 0) = some r) (hd : r.dropped = false) :
    let n := s.arg 0
    let c := s.ctx r.world r.ctx
    let asks := { fn := r.world, pasid := r.pasid, translated := false, addr := r.addr : Tlp }
    let puts := fun (t : State) (y : HReq) => t.hreq n = some y ∧ ∀ id, id ≠ n → t.hreq id = s.hreq id
    (r.asking = true → r.refused = false → r.retried = false → s.arg 1 ≠ 0 →
      (∀ e ∈ s.hreqs, e.2.asking = true → e.2.refused = false) → Answers .prgResponse s fun t =>
      t = { s with hreqs := t.hreqs, fns := t.fns, out := s.out ++ [.atsAsk asks n] } ∧
      puts t { r with retried := true, stale := false } ∧
      OnlyAt s.fn t.fn r.world { s.fn r.world with prgs := (s.fn r.world).prgs - 1 }) ∧
    (r.asking = true → r.posted = false → r.stale = false → r.tag = none → Takes s (.translation n true) fun s0 t =>
      t = { s0 with hreqs := t.hreqs, fns := t.fns,
                    out := s.out ++ [.hostRead { asks with translated := true } r.len n] } ∧
      puts t { r with asking := false, translated := true } ∧ (r.pasid, r.addr / 4096) ∈ (t.fn r.world).atc) ∧
    (r.asking = true → r.stale = true → Takes s (.translation n true) fun s0 t =>
      t = { s0 with hreqs := t.hreqs, out := s.out ++ [.atsAsk asks n] } ∧ puts t { r with stale := false, refused := false }) ∧
    (r.asking = true → r.retried = false → (s.fn r.world).priOn = true → pageRoom s r.world = true →
      Takes s (.translation n false) fun s0 t =>
      t = { s0 with hreqs := t.hreqs, fns := t.fns, out := s.out ++ [.pageAsk asks n] } ∧ puts t { r with refused := false } ∧
      OnlyAt s.fn t.fn r.world { s.fn r.world with prgs := (s.fn r.world).prgs + 1 }) ∧
    ∀ o, r.posted = false → r.ctx < 16384 → opOfRequest s n r = some o →
      (c.state.live = true → s.heldW = [] → o.kind = 1 ∨ o.kind = 0x10 →
        ∀ i ∈ [Instr.prgResponse, .hostCompletion, .hostRequestTimeout],
          (i = .hostCompletion → s.arg 1 = 0 ∧ r.asking = false) → (i = .hostRequestTimeout → r.asking = false) →
          (i = .prgResponse → r.asking = true ∧ r.refused = false ∧ (s.arg 1 = 0 ∨ r.retried = true)) →
          Answers i s fun t => (t.ctx r.world r.ctx).state = .stopping ∧ (∀ e ∈ t.hreqs, e.1 ≠ n) ∧ t.mem = s.mem ∧
            ∃ f, (t.ctx r.world r.ctx).fault = some f ∧ f.cause = .trans ∧ f.faddr = o.addr) ∧
      (s.arg 1 ≠ 0 → r.asking = false → c.state.takes = true → s.heldW = [] → o.kind = 1 →
        c.strand.pend.any (fun p => p.reg == o.reg && p.tok == 4 * o.id + 1) = true → o.reg ≠ 0 →
        Answers .hostCompletion s fun t => (∀ e ∈ t.hreqs, e.1 ≠ n) ∧ t.mem = s.mem ∧
          (t.ctx r.world r.ctx).strand.ops = c.strand.ops.filter (fun x => x.id != o.id) ∧
          ∀ j, (t.ctx r.world r.ctx).strand.rx j = if j = o.reg then
            extend (o.func % 8) (natOf ((List.range r.len).map fun i => BitVec.ofNat 8 (nth 0 s.ev.data i)))
            else c.strand.rx j) := by
  intro n c asks puts
  refine ⟨?_, ?_, ?_, ?_, fun o hp hx ho => ⟨?_, ?_⟩⟩
  · exact fun ha hf ht hs hnone => prgResponse_retries hr hd ha rfl hf ht hs hnone
  · exact fun ha hp hst hg => takes_translation hr hd ha hp hst hg
  · exact fun ha hst => takes_translation_stale hr hd ha hst
  · exact fun ha ht hpri hroom => takes_translation_refused hr hd ha ht hpri hroom
  · intro hl hh hk i hi hcompletion htimeout hresponse
    obtain ⟨response, completion, timeout⟩ := request_faults hr hd hp hx ho hh hl hk rfl
    have shown : ∀ t, RequestFaulted n r o s t → (t.ctx r.world r.ctx).state = .stopping ∧ (∀ e ∈ t.hreqs, e.1 ≠ n) ∧
        t.mem = s.mem ∧ ∃ f, (t.ctx r.world r.ctx).fault = some f ∧ f.cause = .trans ∧ f.faddr = o.addr :=
      fun t ⟨state, gone, mem, fault⟩ => ⟨state, gone, mem, fault⟩
    have answered : ∀ i, Answers i s (RequestFaulted n r o s) → Answers i s _ := fun i ⟨t, e, h⟩ => ⟨t, e, shown t h⟩
    simp only [List.mem_cons, List.not_mem_nil, or_false] at hi
    rcases hi with rfl | rfl | rfl
    · obtain ⟨ha, hf, hs⟩ := hresponse rfl
      exact answered _ (response ha hf hs)
    · obtain ⟨hs, ha⟩ := hcompletion rfl
      exact answered _ (completion hs ha)
    · exact answered _ (timeout (htimeout rfl))
  · exact fun hs ha ht hh hk hw hz => hostCompletion_loads hr hd hp hx ho hh rfl hs ha ht hk hz hw

/-- Interrupt vectors: masks, coalescing, holds (04 R89 to R91). -/
theorem hostEvents_vectors (s : State) :
    let n := s.arg 0
    let v := s.arg 1
    let x := (s.fn n).vec v
    let vecs := fun (i : Instr) (out : List Out) (f : Bool) (y : Vec) => Answers i s (VecSet n v out f y s)
    let keep := (s.fn n).fnMask
    (s.arg 2 = 0 →
      (0 < x.pend → keep = false → vecs .msixUnmask [vecMsg s n v] keep (Vec.sent { x with masked := false })) ∧
      (x.pend = 0 ∨ keep = true → vecs .msixUnmask [] keep { x with masked := false }) ∧
      vecs .vectorMask [] keep { x with masked := true, pba := x.pba || decide (0 < x.pend) }) ∧
    (s.arg 2 ≠ 0 →
      (Answers .msixUnmask s fun t => (t.fn n).fnMask = false ∧ t.iod0 = s.iod0 ∧ t.mem = s.mem ∧
        ∀ j, (t.fn n).vec j = ((s.fn n).vec j).opened) ∧
      (Answers .vectorMask s fun t => (t.fn n).fnMask = true ∧ t.out = s.out ∧ t.mem = s.mem ∧
        ∀ j, (t.fn n).vec j = ((s.fn n).vec j).shut)) ∧
    (let y := x.coalesced (s.arg 2)
     (x.pend = 0 ∨ (keep = false ∧ x.masked = false ∧ ¬ y.due s.iod0) → vecs .coalesceWrite [] keep y) ∧
     (0 < x.pend → keep = true ∨ x.masked = true → vecs .coalesceWrite [] keep { y with pba := true }) ∧
     (0 < x.pend → keep = false → x.masked = false → y.due s.iod0 → vecs .coalesceWrite [vecMsg s n v] keep y.sent)) ∧
    (x.pend = 0 → Answers .holdExpiry s (· = s)) ∧
    (0 < x.pend → Answers .holdExpiry s fun t => let now := Nat.max s.iod0 (x.t0 + 100 * x.hold)
      t = { s with fns := t.fns, out := t.out, iod0 := now } ∧ (∃ sent, t.out = s.out ++ sent) ∧
      (keep = false → x.masked = false → (t.fn n).vec v = x.sent ∧ vecMsg s n v ∈ t.out) ∧
      (keep = true ∨ x.masked = true → (t.fn n).vec v = { x with pba := true }) ∧
      ∀ m j, let y := (s.fn m).vec j
        0 < y.pend → (s.fn m).fnMask = false → y.masked = false → y.t0 + 100 * y.hold ≤ now → (t.fn m).vec j = y.sent) :=
  ⟨fun h2 => ⟨msixUnmask_sends s h2, msixUnmask_rests s h2, vectorMask_masks s h2⟩,
    fun h2 => ⟨msixUnmask_function s h2, vectorMask_function s h2⟩,
    ⟨coalesceWrite_rests s, coalesceWrite_masked s, coalesceWrite_sends s⟩, holdExpiry_none, holdExpiry_sends⟩

/-- Settles O44: each event of the host's, by the part of the device that it reaches. -/
theorem hostEvents : Obligations.HostEvents := by
  unfold Obligations.HostEvents
  intro s n inputs
  refine ⟨⟨_, rfl, rfl⟩, hostEvents_bar0 s, ?writes, ?reads, hostEvents_bar2 s, ?requests, ?ended, hostWriteRefusal_logs s,
    ?invalidations, hostEvents_vectors s⟩
  case writes => exact fun a data whole secure fn off h => takes_hostWrite_bar0 data whole secure h
  case reads => exact fun a m tag fn off b h hw => hostEvents_reads s a m tag fn off b h hw
  case requests => exact fun r hr hd => hostEvents_requests s r hr hd
  case ended =>
    intro h i hi
    obtain ⟨response, completion, timeout⟩ := answers_noRequest h
    simp only [List.mem_cons, List.not_mem_nil, or_false] at hi
    rcases hi with rfl | rfl | rfl
    · exact response
    · exact completion
    · exact timeout
  case invalidations =>
    exact ⟨atsInvalidationRequest_full, atsInvalidationRequest_stands, atsInvalidationCompletion_none,
      fun v rest h => ⟨atsInvalidationCompletion_waits h, atsInvalidationCompletion_ends h⟩⟩

end Sys2Proof.Machine
end

section
/-!
PROOFS: the resets, and a world number that the device has not (04 R93). The log's WRITE of a world's state names the word by its
physical address (`pagePA`), of which `place` reads bits 51 to 0: the page of world 2^40 is that of world 0.
-/

namespace Sys2Proof.Machine

/-- World 2^40, which the device has not, is listed as ACTIVE; world 0 is FREE, and its interface 0 is locked. The policy core
serves its part of a PF's reset. -/
def strayWorld : State := { State.reset with
  worlds := [(2 ^ 40, { World.zero with wstate := 2 })]
  queues := [(0, { Queue.zero with istate := 1 })]
  core := { Core.zero with up := true }
  ev := event .pfFlr [1] }

/-- Destroying world 2^40 takes world 0 out of FREE, so that its function is not reset. -/
theorem strayWorld_locked (t : State) (h : exec .pfFlr strayWorld = .next t) : (t.queue 0).istate = 1 := by
  cases h
  decide

/-- Refutes O45: the clause of the resets for the interfaces of FREE worlds speaks of every state, and so of one that lists a world
of a number from 129 on. World 2^40 is ACTIVE in `strayWorld`, its destruction writes DESTROYING into the page of world 0, and no
interface of world 0, which was FREE, is then unlocked. -/
theorem not_worldEvents : ¬ Obligations.WorldEvents := by
  unfold Obligations.WorldEvents
  intro h
  obtain ⟨-, -, resets, -⟩ := h strayWorld
  obtain ⟨-, goes⟩ := resets .pfFlr (List.mem_cons_self ..)
  obtain ⟨-, served⟩ := goes fun e => nomatch e
  obtain ⟨t, ht, -, unlocked, -⟩ := served [] ⟨rfl, .inl ⟨rfl, rfl⟩⟩
  have free : ∀ e ∈ strayWorld.worlds, e.1 = (strayWorld.queue 0).owner → e.2.wstate = 0 := by decide
  exact absurd ((strayWorld_locked t ht).symm.trans (unlocked 0 free).1) (by decide)

end Sys2Proof.Machine
end

section
/-!
PROOFS: the parser, and the context number of the ring's reader (06 R115). The reader stands in its requests as context 16384 of
its world, and `ctxKey` gives that number to context 0 of the next world.
-/

namespace Sys2Proof.Machine

/-- A VLDB4 block under host request 0, its scale at address 0 still to be loaded. -/
def scaleOp : Op := { Op.zero with kind := 2, func := 16, host := some 0 }

/-- Request 0 reads the ring slot of interface 0 for world 0, which is ACTIVE and has its table region behind a link that
retrains. Context 0 of world 1 has an operation under the same request. -/
def strayReader : State := { State.reset with
  portMgrp := 1
  mlinks := [(0, { Link.zero with retraining := true })]
  worlds := [(0, { World.zero with wstate := 2 })]
  queues := [(0, { Queue.zero with fetch := some 0 })]
  ctxs := [(ctxKey 1 0, { Ctx.zero with strand := { Strand.zero with ops := [scaleOp] } })]
  hreqs := [(0, { HReq.zero with ctx := 16384, len := 64 })]
  ev := event .hostCompletion [0, 1] }

/-- The completion waits for the scale, and the request stands. -/
theorem strayReader_waits (t : State) (h : exec .hostCompletion strayReader = .next t) : (t.hreq 0).isSome = true := by
  cases h
  decide

/-- Refutes O48: the clause for a ring slot that the host answers speaks of every state, and so of one in which a strand's
operation goes by the name of the ring's request. In `strayReader` one does; the walk for its scale waits at a port, and the
completion of the ring's read is parked with it, so that the request stands and no packet is in hand. -/
theorem not_packetParser : ¬ Obligations.PacketParser := by
  unfold Obligations.PacketParser
  intro h
  obtain ⟨-, -, answered, -⟩ := h strayReader
  obtain ⟨t, ht, -, gone, -⟩ := answered { HReq.zero with ctx := 16384, len := 64 } rfl rfl rfl rfl rfl rfl (by decide) rfl rfl
  have stands := strayReader_waits t ht
  rw [show t.hreq 0 = none from gone] at stands
  cases stands

end Sys2Proof.Machine
end

section
/-!
PROOFS: the policy core's log (06 R123), and changes of one record.
-/

namespace Sys2Proof.Machine

/-! ## Records of the log -/

/-- A record changes the log alone: it follows the records that the log ends with, where the ring holds them all. -/
theorem log_spec (s : State) (r : WalRec) : ∃ l, s.log r = { s with wal := l } ∧
    ∀ rs : List WalRec, rs.length < walRing → rs <:+ s.wal → rs ++ [r] <:+ l := by
  refine ⟨_, rfl, fun rs room ⟨before, h⟩ => ⟨before.drop ((s.wal ++ [r]).length - walRing), ?_⟩⟩
  simp only [← h, List.append_assoc]
  refine (List.drop_append_of_le_length ?_).symm
  simp only [List.length_append, List.length_singleton]
  omega

/-- Every record of a list is written. -/
def logAll {α : Type} (f : α → WalRec) (xs : List α) (s : State) : State := xs.foldl (fun s x => s.log (f x)) s

theorem logAll_spec {α : Type} (f : α → WalRec) (xs : List α) (s : State) : ∃ l, logAll f xs s = { s with wal := l } ∧
    ∀ rs : List WalRec, rs.length + xs.length ≤ walRing → rs <:+ s.wal → rs ++ xs.map f <:+ l := by
  induction xs generalizing s with
  | nil => exact ⟨s.wal, rfl, fun rs _ h => by rwa [List.map_nil, List.append_nil]⟩
  | cons x xs ih =>
    obtain ⟨first, hf, gf⟩ := log_spec s (f x)
    obtain ⟨others, ho, go⟩ := ih { s with wal := first }
    refine ⟨others, by rw [logAll, List.foldl_cons, ← logAll, hf, ho], fun rs room h => ?_⟩
    rw [List.length_cons] at room
    have written := go (rs ++ [f x]) (by simp only [List.length_append, List.length_singleton]; omega) (gf rs (by omega) h)
    rwa [List.append_assoc] at written

/-- The record of a WRITE: address, old and new value. -/
def writeRec (id : Nat) (x : Nat × Nat × Nat) : WalRec := .write id x.1 x.2.1 x.2.2

/-- The records of a transaction of one step. -/
def onceRecs (id kind arg : Nat) (ws : List (Nat × Nat × Nat)) : List WalRec :=
  .begin_ id kind arg :: ws.map (writeRec id) ++ [.commit id, .fin id]

theorem logOnce_eq (s : State) (kind arg : Nat) (ws : List (Nat × Nat × Nat)) :
    s.logOnce kind arg ws =
      ((logAll (writeRec s.core.nextId) ws (s.beginTxn kind arg)).log (.commit s.core.nextId)).log (.fin s.core.nextId) := rfl

/-- A transaction of one step takes the next name and writes its records, and changes nothing else. -/
theorem logOnce_spec (s : State) (kind arg : Nat) (ws : List (Nat × Nat × Nat)) :
    ∃ l, s.logOnce kind arg ws = { s with wal := l, core := { s.core with nextId := s.core.nextId + 1 } } ∧
      (ws.length + 3 ≤ walRing → onceRecs s.core.nextId kind arg ws <:+ l) := by
  let id := s.core.nextId
  let core := { s.core with nextId := id + 1 }
  obtain ⟨l0, h0, g0⟩ := log_spec s (.begin_ id kind arg)
  have began : s.beginTxn kind arg = { s with wal := l0, core := core } := by rw [State.beginTxn, h0]
  obtain ⟨l1, h1, g1⟩ := logAll_spec (writeRec id) ws { s with wal := l0, core := core }
  obtain ⟨l2, h2, g2⟩ := log_spec { s with wal := l1, core := core } (.commit id)
  obtain ⟨l3, h3, g3⟩ := log_spec { s with wal := l2, core := core } (.fin id)
  refine ⟨l3, by rw [logOnce_eq, began, h1, h2, h3], fun room => ?_⟩
  have b := g0 [] (by simp only [List.length_nil]; omega) List.nil_suffix
  have w := g1 _ (by simp; omega) b
  have c := g2 _ (by simp; omega) w
  have e := g3 _ (by simp; omega) c
  simpa [onceRecs] using e

/-! ## Changes of one record -/

theorem onlyAt_modFn (s : State) (n : Nat) (f : Fn → Fn) : OnlyAt s.fn (s.modFn n f).fn n (f (s.fn n)) :=
  State.fn_modFn s n f

theorem onlyAt_modWorld (s : State) (w : Nat) (f : World → World) : OnlyAt s.world (s.modWorld w f).world w (f (s.world w)) :=
  State.world_modWorld s w f

theorem onlyAt_modPeer (s : State) (n : Nat) (f : Peer → Peer) : OnlyAt s.peer (s.modPeer n f).peer n (f (s.peer n)) :=
  State.peer_modPeer s n f

/-- Two changes of a queue in turn are one. -/
theorem modQueue_modQueue (s : State) (q : Nat) (f g : Queue → Queue) :
    (s.modQueue q f).modQueue q g = s.modQueue q fun _ => g (f (s.queue q)) := by
  simp only [State.modQueue, State.queue, tget_tset, if_true, tset_tset]

/-- What a change of a queue's record wakes is woken behind a later change of it. -/
theorem woken_modQueue {a t : State} (h : Woken a t) (q : Nat) (f : Queue → Queue)
    (hf : ∀ x y, SameQueue x y → SameQueue (f x) (f y)) : Woken (a.modQueue q f) (t.modQueue q f) where
  device := congrArg (fun u : State => { u with queues := (t.modQueue q f).queues }) h.device
  queues j := by
    rw [State.queue_modQueue, State.queue_modQueue]
    split
    · exact hf _ _ (h.queues q)
    · exact h.queues j
  ctxs := h.ctxs
  work := h.work

theorem woken_wal {a t : State} (h : Woken a t) : t.wal = a.wal := by rw [h.device]

theorem woken_emit {a t : State} (h : Woken a t) (o : Out) : Woken (a.emit o) (t.emit o) where
  device := by
    have out : t.out = a.out := by rw [h.device]
    simp only [State.emit, out]
    exact congrArg (fun u : State => { u with out := a.out ++ [o] }) h.device
  queues := h.queues
  ctxs := h.ctxs
  work := h.work

end Sys2Proof.Machine
end

section
/-!
PROOFS: what ends with an interface (05 R101): the launches that it carries are killed, and its packets are dropped.
-/

namespace Sys2Proof.Machine

/-! ## Launches that end, and queues that only wake -/

/-- A launch has been killed, has lost its undispatched gangs, or is open, after it was before. -/
def Launch.Onward (x y : Launch) : Prop :=
  (x.killed = true → y.killed = true) ∧ (x.discarded = true → y.discarded = true) ∧ (x.open = true → y.open = true)

theorem Launch.onward_refl (x : Launch) : x.Onward x := ⟨id, id, id⟩

/-- From s to t launches may have ended: no queue has changed but by waking, and every launch is on its way to its end. -/
structure Winding (s t : State) : Prop where
  queues : ∀ q, SameQueue (s.queue q) (t.queue q)
  launches : ∀ w l, (s.launch w l).Onward (t.launch w l)

theorem winding_refl (s : State) : Winding s s := ⟨fun _ => .refl _, fun _ _ => Launch.onward_refl _⟩

theorem winding_trans {a b c : State} (h : Winding a b) (g : Winding b c) : Winding a c where
  queues q := (h.queues q).trans (g.queues q)
  launches w l :=
    let ⟨hk, hd, ho⟩ := h.launches w l
    let ⟨gk, gd, go⟩ := g.launches w l
    ⟨gk ∘ hk, gd ∘ hd, go ∘ ho⟩

/-- The queues and the launches are as before. -/
theorem winding_of_same {s t : State} (hq : t.queues = s.queues) (hl : t.launches = s.launches) : Winding s t where
  queues q := by
    rw [show t.queue q = s.queue q from congrArg (fun qs => tget Queue.zero qs q) hq]
    exact .refl _
  launches w l := by
    rw [show t.launch w l = s.launch w l from congrArg (fun ls => tget Launch.zero ls _) hl]
    exact Launch.onward_refl _

/-- What wakes behind a state with the same queues and launches. -/
theorem winding_of_woken {s u t : State} (hq : u.queues = s.queues) (hl : u.launches = s.launches) (h : Woken u t) :
    Winding s t :=
  winding_trans (winding_of_same hq hl) ⟨h.queues, fun w l => h.launch w l ▸ Launch.onward_refl _⟩

theorem winding_modLaunch (s : State) (w l : Nat) (f : Launch → Launch) (hf : ∀ x : Launch, x.Onward (f x)) :
    Winding s (s.modLaunch w l f) where
  queues _ := .refl _
  launches w' l' := by
    rw [State.launch_modLaunch]
    split
    · next h =>
      rw [show s.launch w' l' = s.launch w l from congrArg (tget Launch.zero s.launches) h]
      exact hf _
    · exact Launch.onward_refl _

theorem winding_ite {p : Prop} [Decidable p] {s a b : State} (ha : Winding s a) (hb : Winding s b) :
    Winding s (if p then a else b) := by
  split <;> assumption

theorem winding_foldl {α : Type} {f : State → α → State} (h : ∀ u x, Winding u (f u x)) (l : List α) (s : State) :
    Winding s (l.foldl f s) := by
  induction l generalizing s with
  | nil => exact winding_refl s
  | cons x l ih => exact winding_trans (h s x) (ih _)

theorem winding_wakePage (s : State) (w kind idx off : Nat) : Winding s (wakePage s w kind idx off) :=
  winding_of_woken rfl rfl (woken_wakePage s w kind idx off)

theorem winding_push (s : State) (i : Instr) (as : List Nat) : Winding s (s.push i as) :=
  winding_of_woken rfl rfl (woken_push s [event i as])

theorem winding_setCtxState (s : State) (w k : Nat) (st : CtxState) : Winding s (s.setCtxState w k st) :=
  winding_of_woken (u := s.modCtx w k fun c => { c with state := st }) rfl rfl (woken_setCtxState s w k st)

theorem winding_settled (s : State) (w k : Nat) : Winding s (settled s w k) :=
  winding_of_woken (by unfold offFabric; split <;> rfl) (by unfold offFabric; split <;> rfl) (woken_settled s w k)

/-! ## A kill -/

theorem winding_launchEnd (s : State) (w l : Nat) : Winding s (launchEnd s w l) := by
  unfold launchEnd
  extract_lets x dead s1
  have ends : Winding s (s.modLaunch w l fun x => { x with lstate := .ackwait }) :=
    winding_modLaunch s w l _ fun x => ⟨id, id, fun _ => by simp [Launch.open]⟩
  have h1 : Winding s s1 := winding_trans ends (winding_wakePage _ w 3 l 0)
  exact winding_ite (winding_ite (winding_trans h1 (winding_push s1 _ _)) h1) (winding_refl s)

theorem winding_releaseAlloc (s : State) (w core off size : Nat) : Winding s (releaseAlloc s w core off size) :=
  winding_ite (winding_of_same rfl rfl) (winding_of_same rfl rfl)

theorem winding_gangEnd (s : State) (w l g : Nat) : Winding s (gangEnd s w l g) := by
  unfold gangEnd
  extract_lets x gg first s1 s2 s3
  have h1 : Winding s s1 := winding_foldl (fun u k => winding_setCtxState u w k .empty) _ _
  have h2 : Winding s1 s2 := winding_foldl (fun u a => winding_releaseAlloc u w _ _ _) _ _
  have h3 : Winding s2 s3 := winding_modLaunch s2 w l _ fun _ => ⟨id, id, id⟩
  have h4 := winding_trans (winding_wakePage s3 w 3 l 0) (winding_push _ .dispatchDecision [])
  exact winding_ite (winding_trans (winding_trans h1 h2) (winding_trans h3 h4)) (winding_refl s)

theorem winding_discarded (s : State) (w k : Nat) : Winding s (discarded s w k) := by
  unfold discarded
  extract_lets c halted strand s1 s2
  have h2 : Winding s s2 := winding_of_same rfl rfl
  exact winding_ite (winding_trans h2 (winding_modLaunch s2 w _ _ fun _ => ⟨id, id, id⟩)) h2

theorem winding_killCtx (s : State) (w k : Nat) : Winding s (killCtx s w k) := by
  rw [killCtx_eq]
  extract_lets t
  have dead : Winding s t := winding_trans (winding_discarded s w k)
    (winding_trans (winding_setCtxState _ w k .dead) (winding_settled _ w k))
  have freed : Winding t { t with work := t.work ++ (s.ctx w k).freed (ctxKey w k) } := winding_of_woken rfl rfl (woken_push t _)
  exact winding_trans (winding_trans dead freed) (winding_trans (winding_gangEnd _ w _ _) (winding_launchEnd _ w _))

theorem winding_killLive (w : Nat) (root : Bool) (s : State) (k : Nat) : Winding s (killLive w root s k) :=
  winding_ite (winding_refl s) (winding_killCtx s w k)

theorem winding_killAll_visits (s : State) (w l : Nat) (root : Bool) :
    Winding (launchDiscarded s w l) (killAll s w l root) := by
  rw [killAll_eq]
  exact winding_trans (winding_foldl (winding_killLive w root) _ _)
    (winding_trans (winding_wakePage _ w 3 l 0) (winding_launchEnd _ w l))

theorem winding_killAllCmd (s : State) (w l : Nat) (root : Bool) : Winding s (killAllCmd s w l root) := by
  have kills : Winding s (s.modLaunch w l fun x => { x with killed := x.killed || x.open }) :=
    winding_modLaunch s w l _ fun x => ⟨fun h => by simp [h], id, id⟩
  have discards : Winding _ (launchDiscarded (s.modLaunch w l fun x => { x with killed := x.killed || x.open }) w l) :=
    winding_modLaunch _ w l _ fun _ => ⟨id, fun _ => rfl, id⟩
  exact winding_ite (winding_trans kills (winding_trans discards (winding_killAll_visits _ w l root))) (winding_refl s)

/-- KILL_ALL of an open launch kills it and discards its undispatched gangs (03 R61, 08 R155). -/
theorem killAllCmd_kills {s : State} {w l : Nat} (root : Bool) (h : (s.launch w l).open = true) :
    ((killAllCmd s w l root).launch w l).killed = true ∧ ((killAllCmd s w l root).launch w l).discarded = true := by
  have numbered : (s.launch w l).numbered = true := by simp [Launch.numbered, h]
  rw [killAllCmd, if_pos numbered]
  obtain ⟨killed, discarded, -⟩ :=
    (winding_killAll_visits (s.modLaunch w l fun x => { x with killed := x.killed || x.open }) w l root).launches w l
  exact ⟨killed (by simp [launchDiscarded, h]), discarded (by simp [launchDiscarded])⟩

theorem winding_killCarried (s : State) (q : Nat) : Winding s (killCarried s q) :=
  winding_foldl (fun u l => winding_killAllCmd u (s.queue q).owner l true) _ _

/-- Of the launches that are killed in turn, an open one has been killed. -/
theorem foldl_killAllCmd_kills {w l : Nat} (ls : List Nat) (s : State) (hl : l ∈ ls) (h : (s.launch w l).open = true) :
    let t := ls.foldl (fun s l => killAllCmd s w l true) s
    (t.launch w l).killed = true ∧ (t.launch w l).discarded = true := by
  induction ls generalizing s with
  | nil => cases hl
  | cons j ls ih =>
    by_cases hj : l = j
    · subst hj
      obtain ⟨killed, discarded⟩ := killAllCmd_kills (w := w) true h
      obtain ⟨hk, hd, -⟩ :=
        (winding_foldl (fun u l => winding_killAllCmd u w l true) ls (killAllCmd s w l true)).launches w l
      exact ⟨hk killed, hd discarded⟩
    · exact ih _ (List.mem_of_ne_of_mem hj hl) (((winding_killAllCmd s w j true).launches w l).2.2 h)

/-! ## Packets that are dropped -/

/-- Children of strands have been told of an end: strands and the work have changed, and the contexts keep their states. -/
structure ChildrenTold (s t : State) : Prop where
  device : t = { s with ctxs := t.ctxs, work := t.work }
  states : ∀ w k, (t.ctx w k).state = (s.ctx w k).state

theorem childrenTold_refl (s : State) : ChildrenTold s s := ⟨rfl, fun _ _ => rfl⟩

theorem childrenTold_trans {a b c : State} (h : ChildrenTold a b) (g : ChildrenTold b c) : ChildrenTold a c where
  device := by rw [g.device, h.device]
  states w k := (g.states w k).trans (h.states w k)

theorem childrenTold_push (s : State) (i : Instr) (as : List Nat) : ChildrenTold s (s.push i as) := ⟨rfl, fun _ _ => rfl⟩

theorem childrenTold_modStrand (s : State) (w k : Nat) (f : Strand → Strand) : ChildrenTold s (s.modStrand w k f) where
  device := rfl
  states w' k' := by
    rw [State.modStrand, State.ctx_modCtx]
    split <;> rfl

theorem childrenTold_foldl {α : Type} {f : State → α → State} (h : ∀ u x, ChildrenTold u (f u x)) (l : List α) (s : State) :
    ChildrenTold s (l.foldl f s) := by
  induction l generalizing s with
  | nil => exact childrenTold_refl s
  | cons x l ih => exact childrenTold_trans (h s x) (ih _)

theorem childrenTold_finishChild (s : State) (w q count word : Nat) : ChildrenTold s (finishChild s w q count word) := by
  refine childrenTold_foldl (fun u k => ?_) _ s
  dsimp only
  split
  · have kept := childrenTold_modStrand u w k fun t => { t with kids := t.kids.map fun c =>
      if c.q = q ∧ c.count = count then { c with done := some word } else c }
    split
    · split
      · exact childrenTold_trans kept (childrenTold_push _ _ _)
      · exact kept
    · exact kept
  · exact childrenTold_refl u

theorem childrenTold_discardPacket (s : State) (q : Nat) (spawn : Option Nat) : ChildrenTold s (discardPacket s q spawn) := by
  cases spawn with
  | none => exact childrenTold_refl s
  | some c => exact childrenTold_finishChild s _ q c _

/-- An interface without packets (05 R101): HEAD stands at TAIL. -/
def Queue.dropped (x : Queue) : Queue := { x with order := [], cur := none, waiting := false, head := x.tail, fetch := none }

/-- Packets are dropped: the queue's record is emptied, and the launches stay. -/
theorem dropPackets_spec (s : State) (q : Nat) :
    (dropPackets s q).queue q = (s.queue q).dropped ∧ ∀ w l, (dropPackets s q).launch w l = s.launch w l := by
  unfold dropPackets
  extract_lets x gone s1 s2
  have h1 : s1.queue q = (s.queue q).dropped := by
    have emptied := (woken_onQueue s q Queue.dropped).queues q
    rw [State.queue_modQueue, if_pos rfl] at emptied
    obtain ⟨c, h, hc | ⟨p, b, hp, -⟩⟩ := emptied
    · exact h.trans (by rw [hc])
    · cases hp
  have h2 : ChildrenTold s1 s2 := by
    unfold s2
    split
    · exact childrenTold_discardPacket s1 q _
    · exact childrenTold_refl s1
  have told := childrenTold_trans h2 (childrenTold_foldl (fun u c => childrenTold_discardPacket u q (some c)) gone s2)
  rw [told.device]
  exact ⟨h1, fun w l => (woken_onQueue s q Queue.dropped).launch w l⟩

theorem openLaunches_modQueue (s : State) (q : Nat) (f : Queue → Queue) (h : ∀ x : Queue, (f x).owner = x.owner) :
    openLaunches (s.modQueue q f) q = openLaunches s q := by
  simp only [openLaunches, State.queue_modQueue, if_true, h, State.modQueue_launches]

/-- An interface that is unlocked (05 R101). -/
def Queue.unlocked (x : Queue) : Queue := { x with istate := 0, nonce := none }

theorem stopInterface_eq (s : State) (q : Nat) :
    stopInterface s q = dropPackets (killCarried (s.modQueue q Queue.unlocked) q) q := rfl

/-- An interface stops (05 R101): it is unlocked and empty, and its open launches have been killed. -/
theorem stopInterface_spec (s : State) (q : Nat) :
    let t := stopInterface s q
    ((t.queue q).istate = 0 ∧ (t.queue q).nonce = none ∧ (t.queue q).order = [] ∧ (t.queue q).cur = none ∧
      (t.queue q).head = (t.queue q).tail) ∧
    ∀ l ∈ openLaunches s q, (s.launch (s.queue q).owner l).open = true →
      (t.launch (s.queue q).owner l).killed = true ∧ (t.launch (s.queue q).owner l).discarded = true := by
  let u := s.modQueue q Queue.unlocked
  have unlocked : u.queue q = (s.queue q).unlocked := by rw [State.queue_modQueue, if_pos rfl]
  have owner : (u.queue q).owner = (s.queue q).owner := by rw [unlocked, Queue.unlocked]
  have carries : openLaunches u q = openLaunches s q := openLaunches_modQueue s q Queue.unlocked fun _ => rfl
  obtain ⟨queue, launch⟩ := dropPackets_spec (killCarried u q) q
  obtain ⟨c, carried, -⟩ := (winding_killCarried u q).queues q
  rw [stopInterface_eq]
  refine ⟨?_, fun l hl ho => ?_⟩
  · rw [queue, carried, unlocked]
    exact ⟨rfl, rfl, rfl, rfl, rfl⟩
  · rw [launch, killCarried, owner]
    have carried : l ∈ openLaunches u q := (congrArg (l ∈ ·) carries).mpr hl
    exact foldl_killAllCmd_kills (openLaunches u q) u carried ho

end Sys2Proof.Machine
end

section
/-!
PROOFS: the responder on the mailboxes (05 R101, R103, R106; 08 R141). A request that is served answers once, and the order of
the steps, the session and the interface's function decide whether it answers the error.
-/

namespace Sys2Proof.Machine

/-! ## Which requests are served -/

section
variable {e : Instr} {s : State} {f : State → State} {P : State → Prop} {n : Nat}

/-- While the core restarts a request changes nothing and has no answer (06 R125). -/
theorem answers_unserved (he : exec e s = served s f) (down : s.core.up = false) : Answers e s (· = s) :=
  ⟨s, by rw [he, served, down]; rfl, rfl⟩

theorem answers_served (he : exec e s = served s f) (up : s.core.up = true) (h : P (f s)) : Answers e s P :=
  ⟨f s, by rw [he, served, if_pos up], h⟩

/-- A request whose turn has come. -/
theorem answers_afterStep (he : exec e s = served s fun s => afterStep s (s.arg 0) n f) (up : s.core.up = true)
    (turn : n ≤ (s.fn (s.arg 0)).spdm) (h : P (f s)) : Answers e s P :=
  answers_served he up (by rwa [afterStep, if_neg (Nat.not_lt.mpr turn)])

/-- A request out of turn. -/
theorem answers_early (he : exec e s = served s fun s => afterStep s (s.arg 0) n f) (up : s.core.up = true)
    (early : (s.fn (s.arg 0)).spdm < n) : Answers e s (· = s.answer (s.arg 0) 0 []) :=
  answers_served he up (by rw [afterStep, if_pos early])

/-- A request of a secured session about an interface, on the mailbox of its function or of the PF (05 R101). -/
theorem answers_tdisp (he : exec e s = tdisp s f) (up : s.core.up = true) (safe : secured s (s.arg 0) (s.arg 1) = true)
    (own : s.arg 0 = 0 ∨ s.arg 0 = (s.queue (s.arg 2)).owner) (h : P (f s)) : Answers e s P :=
  answers_served (he.trans (by rw [tdisp])) up (by rwa [if_pos ⟨safe, own⟩])

theorem answers_tdisp_unserved (he : exec e s = tdisp s f) (down : s.core.up = false) : Answers e s (· = s) :=
  answers_unserved (he.trans (by rw [tdisp])) down

theorem answers_tdisp_refused (he : exec e s = tdisp s f) (up : s.core.up = true)
    (no : ¬ (secured s (s.arg 0) (s.arg 1) = true ∧ (s.arg 0 = 0 ∨ s.arg 0 = (s.queue (s.arg 2)).owner))) :
    Answers e s (· = s.answer (s.arg 0) 0 []) :=
  answers_served (he.trans (by rw [tdisp])) up (by rw [if_neg no])

end

/-! ## Room in the log -/

/-- A transaction of up to 256 writes fits the log. -/
theorem writes_room {n : Nat} (h : n ≤ 256) : n + 3 ≤ walRing := by
  have room : 259 ≤ walRing := by decide
  omega

theorem oneWrite_room (x : Nat × Nat × Nat) : [x].length + 3 ≤ walRing := writes_room (by simp)

/-! ## Answers -/

/-- Request e answers a code with values, and nothing else changes. -/
def Replies (e : Instr) (s : State) (code : Nat) (data : List Nat) : Prop :=
  Answers e s (· = s.answer (s.arg 0) code data)

/-- Request e answers a code with values, and the mailbox's function is g after it. -/
def FnReplies (e : Instr) (s : State) (g : Fn) (code : Nat) (data : List Nat) : Prop :=
  Answers e s fun t => t = ({ s with fns := t.fns } : State).answer (s.arg 0) code data ∧ OnlyAt s.fn t.fn (s.arg 0) g

theorem fnReplies_of_modFn {e : Instr} {s : State} {code : Nat} {data : List Nat} (f : Fn → Fn)
    (h : Answers e s (· = (s.modFn (s.arg 0) f).answer (s.arg 0) code data)) :
    FnReplies e s (f (s.fn (s.arg 0))) code data := by
  obtain ⟨t, ht, rfl⟩ := h
  exact ⟨_, ht, rfl, onlyAt_modFn s (s.arg 0) f⟩

/-- The requests before a session and the step that each needs (05 R103). -/
def exchangeSteps : List (Instr × Nat) :=
  [(.getVersion, 0), (.getCapabilities, 1), (.negotiateAlgorithms, 2), (.getDigests, 3), (.getCertificate, 3), (.challenge, 3),
    (.getMeasurements, 3), (.keyExchange, 3)]

/-- The requests of a session that name no interface. -/
def sessionRequests : List Instr := [.keyUpdate, .endSession, .setStreamKey, .setQuantumTable, .getQuantumTable]

/-- The requests about an interface (05 R101). -/
def interfaceRequests : List Instr :=
  [.lockInterfaceRequest, .startInterfaceRequest, .stopInterfaceRequest, .getDeviceInterfaceReport, .getDeviceInterfaceState]

/-- Numbers below n are taken by sessions, and n is free. -/
theorem find?_freeSession {xs : List Session} {n : Nat} (lt : n < 4) (taken : ∀ m, m < n → ∃ x ∈ xs, x.id = m)
    (free : ∀ x ∈ xs, x.id ≠ n) : (List.range 4).find? (fun m => !(xs.any fun x => x.id == m)) = some n := by
  refine List.find?_range_eq_some.mpr ⟨by simpa using free, List.mem_range.mpr lt, fun m hm => by simpa using taken m hm⟩

section
variable {s : State}

theorem requests_unserved (down : s.core.up = false) :
    ∀ e ∈ exchangeSteps.map (·.1) ++ .finish :: sessionRequests ++ interfaceRequests, Answers e s (· = s) := by
  simp only [exchangeSteps, sessionRequests, interfaceRequests, List.map_cons, List.map_nil, List.cons_append, List.nil_append,
    List.forall_mem_cons]
  exact ⟨answers_unserved (execGetVersion.eq_def s) down,
    answers_unserved (execGetCapabilities.eq_def s) down,
    answers_unserved (execNegotiateAlgorithms.eq_def s) down,
    answers_unserved (execGetDigests.eq_def s) down,
    answers_unserved (execGetCertificate.eq_def s) down,
    answers_unserved (execChallenge.eq_def s) down,
    answers_unserved (execGetMeasurements.eq_def s) down,
    answers_unserved (execKeyExchange.eq_def s) down,
    answers_unserved (execFinish.eq_def s) down,
    answers_unserved (execKeyUpdate.eq_def s) down,
    answers_unserved (execEndSession.eq_def s) down,
    answers_unserved (execSetStreamKey.eq_def s) down,
    answers_unserved (execSetQuantumTable.eq_def s) down,
    answers_unserved (execGetQuantumTable.eq_def s) down,
    answers_tdisp_unserved (execLockInterfaceRequest.eq_def s) down,
    answers_tdisp_unserved (execStartInterfaceRequest.eq_def s) down,
    answers_tdisp_unserved (execStopInterfaceRequest.eq_def s) down,
    answers_tdisp_unserved (execGetDeviceInterfaceReport.eq_def s) down,
    answers_tdisp_unserved (execGetDeviceInterfaceState.eq_def s) down,
    nofun⟩

variable (up : s.core.up = true)
include up

/-- Before its step a request answers the error. -/
theorem exchangeSteps_early : ∀ e ∈ exchangeSteps, (s.fn (s.arg 0)).spdm < e.2 → Replies e.1 s 0 [] := by
  simp only [exchangeSteps, List.forall_mem_cons]
  exact ⟨fun h => absurd h (Nat.not_lt_zero _),
    answers_early (execGetCapabilities.eq_def s) up,
    answers_early (execNegotiateAlgorithms.eq_def s) up,
    answers_early (execGetDigests.eq_def s) up,
    answers_early (execGetCertificate.eq_def s) up,
    answers_early (execChallenge.eq_def s) up,
    answers_early (execGetMeasurements.eq_def s) up,
    answers_early (execKeyExchange.eq_def s) up,
    nofun⟩

/-! ## Before a session -/

theorem getVersion_replies : FnReplies .getVersion s { s.fn (s.arg 0) with spdm := 1 } 1 [0x12, 0x13] :=
  fnReplies_of_modFn (fun f => { f with spdm := 1 }) (answers_served (execGetVersion.eq_def s) up rfl)

theorem getCapabilities_replies (turn : 1 ≤ (s.fn (s.arg 0)).spdm) :
    FnReplies .getCapabilities s { s.fn (s.arg 0) with spdm := Nat.max (s.fn (s.arg 0)).spdm 2 } 2 [0, 0] :=
  fnReplies_of_modFn (fun f => { f with spdm := Nat.max f.spdm 2 })
    (answers_afterStep (execGetCapabilities.eq_def s) up turn rfl)

theorem negotiateAlgorithms_replies (turn : 2 ≤ (s.fn (s.arg 0)).spdm)
    (offer : s.arg 1 = 1 ∧ s.arg 2 = 1 ∧ s.arg 3 = 1 ∧ s.arg 4 = 1) :
    FnReplies .negotiateAlgorithms s { s.fn (s.arg 0) with spdm := 3 } 3 [1, 1, 1, 1] :=
  fnReplies_of_modFn (fun f => { f with spdm := 3 })
    (answers_afterStep (execNegotiateAlgorithms.eq_def s) up turn (if_pos offer))

theorem negotiateAlgorithms_refuses (turn : 2 ≤ (s.fn (s.arg 0)).spdm)
    (offer : ¬ (s.arg 1 = 1 ∧ s.arg 2 = 1 ∧ s.arg 3 = 1 ∧ s.arg 4 = 1)) : Replies .negotiateAlgorithms s 0 [] :=
  answers_afterStep (execNegotiateAlgorithms.eq_def s) up turn (if_neg offer)

section
variable (turn : 3 ≤ (s.fn (s.arg 0)).spdm)
include turn

theorem getDigests_replies : Replies .getDigests s 4 [Config.sha256 Config.certificate] :=
  answers_afterStep (execGetDigests.eq_def s) up turn rfl

theorem slotZero_replies (slot : s.arg 1 = 0) :
    Replies .getCertificate s 5 Config.certificate ∧ Replies .challenge s 6 (Config.signature [s.arg 2]) :=
  ⟨answers_afterStep (execGetCertificate.eq_def s) up turn (if_pos slot),
    answers_afterStep (execChallenge.eq_def s) up turn (if_pos slot)⟩

theorem otherSlot_refuses (slot : s.arg 1 ≠ 0) : Replies .getCertificate s 0 [] ∧ Replies .challenge s 0 [] :=
  ⟨answers_afterStep (execGetCertificate.eq_def s) up turn (if_neg slot),
    answers_afterStep (execChallenge.eq_def s) up turn (if_neg slot)⟩

theorem getMeasurements_world (block : s.arg 1 = 4) : Replies .getMeasurements s 7 (measure4 (s.world (s.arg 0))) :=
  answers_afterStep (execGetMeasurements.eq_def s) up turn (if_pos block)

theorem getMeasurements_device (one : 1 ≤ s.arg 1) (three : s.arg 1 ≤ 3) :
    Replies .getMeasurements s 7 (Config.measurement (s.arg 1)) :=
  answers_afterStep (execGetMeasurements.eq_def s) up turn ((if_neg (by omega)).trans (if_pos ⟨one, three⟩))

theorem getMeasurements_refuses (block : s.arg 1 = 0 ∨ 4 < s.arg 1) : Replies .getMeasurements s 0 [] :=
  answers_afterStep (execGetMeasurements.eq_def s) up turn ((if_neg (by omega)).trans (if_neg (by omega)))

theorem keyExchange_replies {n : Nat} (lt : n < 4) (taken : ∀ m, m < n → ∃ x ∈ (s.fn (s.arg 0)).sessions, x.id = m)
    (free : ∀ x ∈ (s.fn (s.arg 0)).sessions, x.id ≠ n) :
    Answers .keyExchange s fun t =>
      t = ({ s with fns := t.fns, fresh := s.fresh + 1 } : State).answer (s.arg 0) 8 [n, Config.keyShare s.fresh] ∧
      OnlyAt s.fn t.fn (s.arg 0) { s.fn (s.arg 0) with
        sessions := (s.fn (s.arg 0)).sessions ++ [{ id := n, secured := false, keys := 0 }] } := by
  refine answers_afterStep (execKeyExchange.eq_def s) up turn ?_
  simp only [find?_freeSession lt taken free]
  exact ⟨rfl, onlyAt_modFn s (s.arg 0) fun f => { f with sessions := f.sessions ++ [⟨n, false, 0⟩] }⟩

theorem keyExchange_refuses (taken : ∀ m, m < 4 → ∃ x ∈ (s.fn (s.arg 0)).sessions, x.id = m) :
    Replies .keyExchange s 0 [] := by
  refine answers_afterStep (execKeyExchange.eq_def s) up turn ?_
  have none_ : (List.range 4).find? (fun m => !((s.fn (s.arg 0)).sessions.any fun x => x.id == m)) = none := by
    simpa [List.find?_eq_none] using taken
  simp only [none_]

end

/-! ## The end of an exchange (05 R103) -/

theorem finish_refuses (closed : ¬ (s.fn (s.arg 0)).sessions.any (fun x => x.id == s.arg 1 && !x.secured) = true) :
    Replies .finish s 0 [] :=
  answers_served (execFinish.eq_def s) up (if_pos (by simpa using closed))

section
variable (opened : (s.fn (s.arg 0)).sessions.any (fun x => x.id == s.arg 1 && !x.secured) = true)
include opened

theorem finish_ends (bad : s.arg 2 = 0) : FnReplies .finish s { s.fn (s.arg 0) with
    sessions := (s.fn (s.arg 0)).sessions.filter fun x => x.id != s.arg 1 } 0 [] :=
  fnReplies_of_modFn (fun f => { f with sessions := f.sessions.filter fun x => x.id != s.arg 1 })
    (answers_served (execFinish.eq_def s) up ((if_neg (by simp [opened])).trans (if_pos bad)))

theorem finish_secures (good : s.arg 2 ≠ 0) : FnReplies .finish s { s.fn (s.arg 0) with
    sessions := (s.fn (s.arg 0)).sessions.map fun x => if x.id = s.arg 1 then { x with secured := true } else x } 9 [s.arg 1] :=
  fnReplies_of_modFn (fun f => { f with
      sessions := f.sessions.map fun x => if x.id = s.arg 1 then { x with secured := true } else x })
    (answers_served (execFinish.eq_def s) up ((if_neg (by simp [opened])).trans (if_neg good)))

end

/-! ## In a session -/

/-- Without the secured session each of its requests is refused. -/
theorem sessionRequests_refused (insecure : ¬ secured s (s.arg 0) (s.arg 1) = true) :
    ∀ e ∈ sessionRequests ++ interfaceRequests, Replies e s 0 [] := by
  have no : ¬ (secured s (s.arg 0) (s.arg 1) = true ∧ (s.arg 0 = 0 ∨ s.arg 0 = (s.queue (s.arg 2)).owner)) :=
    fun h => insecure h.1
  simp only [sessionRequests, interfaceRequests, List.cons_append, List.nil_append, List.forall_mem_cons]
  exact ⟨answers_served (execKeyUpdate.eq_def s) up (if_neg insecure),
    answers_served (execEndSession.eq_def s) up (if_neg insecure),
    answers_served (execSetStreamKey.eq_def s) up (if_neg fun h => insecure h.1),
    answers_served (execSetQuantumTable.eq_def s) up (if_neg fun h => insecure h.2.1),
    answers_served (execGetQuantumTable.eq_def s) up (if_neg fun h => insecure h.2),
    answers_tdisp_refused (execLockInterfaceRequest.eq_def s) up no,
    answers_tdisp_refused (execStartInterfaceRequest.eq_def s) up no,
    answers_tdisp_refused (execStopInterfaceRequest.eq_def s) up no,
    answers_tdisp_refused (execGetDeviceInterfaceReport.eq_def s) up no,
    answers_tdisp_refused (execGetDeviceInterfaceState.eq_def s) up no, nofun⟩

/-- On the mailbox of another function a request about an interface is refused. -/
theorem interfaceRequests_refused (pf : s.arg 0 ≠ 0) (other : s.arg 0 ≠ (s.queue (s.arg 2)).owner) :
    ∀ e ∈ interfaceRequests, Replies e s 0 [] := by
  have no : ¬ (secured s (s.arg 0) (s.arg 1) = true ∧ (s.arg 0 = 0 ∨ s.arg 0 = (s.queue (s.arg 2)).owner)) :=
    fun h => h.2.elim pf other
  simp only [interfaceRequests, List.forall_mem_cons]
  exact ⟨answers_tdisp_refused (execLockInterfaceRequest.eq_def s) up no,
    answers_tdisp_refused (execStartInterfaceRequest.eq_def s) up no,
    answers_tdisp_refused (execStopInterfaceRequest.eq_def s) up no,
    answers_tdisp_refused (execGetDeviceInterfaceReport.eq_def s) up no,
    answers_tdisp_refused (execGetDeviceInterfaceState.eq_def s) up no, nofun⟩

theorem setStreamKey_refuses (no : 256 ≤ s.arg 2 ∨ (s.world (s.arg 0)).wstate ≠ 2) : Replies .setStreamKey s 0 [] :=
  answers_served (execSetStreamKey.eq_def s) up (if_neg fun h => no.elim (Nat.not_le.mpr h.2.1) (· h.2.2))

section
variable (safe : secured s (s.arg 0) (s.arg 1) = true)
include safe

theorem keyUpdate_replies : FnReplies .keyUpdate s { s.fn (s.arg 0) with
    sessions := (s.fn (s.arg 0)).sessions.map fun x => if x.id = s.arg 1 then { x with keys := x.keys + 1 } else x }
    10 [s.arg 1] :=
  fnReplies_of_modFn (fun f => { f with
      sessions := f.sessions.map fun x => if x.id = s.arg 1 then { x with keys := x.keys + 1 } else x })
    (answers_served (execKeyUpdate.eq_def s) up (if_pos safe))

theorem endSession_replies : FnReplies .endSession s { s.fn (s.arg 0) with
    sessions := (s.fn (s.arg 0)).sessions.filter fun x => x.id != s.arg 1 } 11 [s.arg 1] :=
  fnReplies_of_modFn (fun f => { f with sessions := f.sessions.filter fun x => x.id != s.arg 1 })
    (answers_served (execEndSession.eq_def s) up (if_pos safe))

theorem setStreamKey_replies (stream : s.arg 2 < 256) (active : (s.world (s.arg 0)).wstate = 2) :
    Answers .setStreamKey s fun t =>
      t = ({ s with worlds := t.worlds, wal := t.wal, core := { s.core with nextId := s.core.nextId + 1 } } : State).answer
        (s.arg 0) 17 [] ∧
      Logged t (onceRecs s.core.nextId txKeys (s.arg 0) [(corePA s (keyAt (s.arg 0) (s.arg 2)),
        (tget (0, 0) (s.world (s.arg 0)).streams (s.arg 2)).1, s.arg 3)]) ∧
      OnlyAt s.world t.world (s.arg 0) { s.world (s.arg 0) with
        streams := tset (s.arg 2) (s.arg 3, 0) (s.world (s.arg 0)).streams } := by
  refine answers_served (execSetStreamKey.eq_def s) up ?_
  obtain ⟨l, logged, recs⟩ := logOnce_spec s txKeys (s.arg 0) [(corePA s (keyAt (s.arg 0) (s.arg 2)),
    (tget (0, 0) (s.world (s.arg 0)).streams (s.arg 2)).1, s.arg 3)]
  rw [if_pos ⟨safe, stream, active⟩]
  simp only [logged]
  exact ⟨rfl, recs (oneWrite_room _),
    onlyAt_modWorld s (s.arg 0) fun x => { x with streams := tset (s.arg 2) (s.arg 3, 0) x.streams }⟩

end
end

end Sys2Proof.Machine
end

section
/-!
PROOFS: requests of a secured session about the quantum table (08 R141) and about interfaces (05 R101).
-/

namespace Sys2Proof.Machine

/-! ## The quantum table -/

/-- An entry that may stand in the quantum table (08 R141). -/
def EntryGood (e : Nat) : Prop := e % 256 ≤ 128 ∧ 1000 ≤ bits e 63 32 ∧ bits e 31 8 = 0

theorem bits_low_byte (e : Nat) : bits e 7 0 = e % 256 := by
  simp [bits]

theorem quantumEntryOk_iff (e : Nat) : quantumEntryOk e = true ↔ EntryGood e := by
  simp [quantumEntryOk, EntryGood, bits_low_byte, and_assoc]

/-- A SET_QUANTUM_TABLE that the responder takes: from the PF, as many good entries as it says. -/
def TableGood (s : State) : Prop :=
  s.arg 0 = 0 ∧ 1 ≤ s.arg 2 ∧ s.arg 2 ≤ 256 ∧ s.ev.data.length = s.arg 2 ∧ ∀ e ∈ s.ev.data, EntryGood e

/-- The writes of a SET_QUANTUM_TABLE: each entry, its old value and its new one. -/
def tableWrites (s : State) : List (Nat × Nat × Nat) :=
  (List.range (s.arg 2)).map fun j =>
    (corePA s (entryAt j), entryWord (nth (0, 0) (s.quantum.next.getD s.quantum.table) j), nth 0 s.ev.data j)

theorem execSetQuantumTable_takes (s : State) :
    (s.arg 0 = 0 ∧ secured s (s.arg 0) (s.arg 1) = true ∧ 1 ≤ s.arg 2 ∧ s.arg 2 ≤ 256 ∧ s.ev.data.length = s.arg 2 ∧
      s.ev.data.all quantumEntryOk = true) ↔ TableGood s ∧ secured s (s.arg 0) (s.arg 1) = true := by
  simp only [TableGood, List.all_eq_true, quantumEntryOk_iff]
  tauto

section
variable {s : State} (up : s.core.up = true) (safe : secured s (s.arg 0) (s.arg 1) = true)
include up

theorem setQuantumTable_refuses (no : ¬ TableGood s) : Replies .setQuantumTable s 0 [] :=
  answers_served (execSetQuantumTable.eq_def s) up (if_neg fun h => no ((execSetQuantumTable_takes s).mp h).1)

theorem getQuantumTable_refuses (other : s.arg 0 ≠ 0) : Replies .getQuantumTable s 0 [] :=
  answers_served (execGetQuantumTable.eq_def s) up (if_neg fun h => other h.1)

include safe

theorem setQuantumTable_replies (good : TableGood s) :
    Answers .setQuantumTable s fun t =>
      (t = ({ s with wal := t.wal, core := { s.core with nextId := s.core.nextId + 1 },
                     quantum := { s.quantum with next := some (s.ev.data.map fun e => (e % 256, bits e 63 32)) } } : State).answer
        (s.arg 0) 18 []) ∧
      Logged t (.begin_ s.core.nextId txTable 0 :: ((List.range (s.arg 2)).map fun j =>
        .write s.core.nextId (corePA s (entryAt j)) (entryWord (nth (0, 0) (s.quantum.next.getD s.quantum.table) j))
          (nth 0 s.ev.data j)) ++ [.commit s.core.nextId, .fin s.core.nextId]) := by
  refine answers_served (execSetQuantumTable.eq_def s) up ?_
  obtain ⟨l, logged, recs⟩ := logOnce_spec s txTable 0 (tableWrites s)
  rw [if_pos ((execSetQuantumTable_takes s).mpr ⟨good, safe⟩)]
  rw [onceRecs, tableWrites, List.map_map, List.length_map, List.length_range] at recs
  rw [tableWrites] at logged
  simp only [logged, bits_low_byte]
  obtain ⟨-, -, few, -⟩ := good
  exact ⟨rfl, recs (writes_room few)⟩

theorem getQuantumTable_replies (pf : s.arg 0 = 0) : Replies .getQuantumTable s 19 (s.quantum.table.map entryWord) :=
  answers_served (execGetQuantumTable.eq_def s) up (if_pos ⟨pf, safe⟩)

end

/-! ## Interfaces (05 R101) -/

/-- What LOCK asks of a queue's translation context (05 R100). -/
theorem lockable_iff (s : State) (x : Queue) : lockable s x = true ↔
    inRegion s x.owner x.root = true ∧ x.vector < 2048 ∧ (x.pasidv = true → (s.fn x.owner).pasidOn = true) := by
  cases hv : x.pasidv <;> simp [lockable, assignable, hv, and_assoc]

/-- A queue at another state of its interface, as a transaction moves it there. -/
def Queue.movedTo (n : Nat) (x : Queue) : Queue := { x with istate := n, nonce := if n = 0 then none else x.nonce }

/-- An interface moves to a state as a transaction of one step (06 R123). -/
theorem interfaceTo_spec (s : State) (kind q n : Nat) : ∃ l,
    onceRecs s.core.nextId kind q [(pagePA 2 q 0, (s.queue q).istate, n)] <:+ l ∧
    Woken (({ s with wal := l, core := { s.core with nextId := s.core.nextId + 1 } } : State).modQueue q (Queue.movedTo n))
      (interfaceTo s kind q n) := by
  obtain ⟨l, logged, recs⟩ := logOnce_spec s kind q [(pagePA 2 q 0, (s.queue q).istate, n)]
  refine ⟨l, recs (oneWrite_room _), ?_⟩
  rw [interfaceTo, logged]
  exact woken_onQueue _ q (Queue.movedTo n)

/-- The nonce of an interface is set or used up. -/
def Queue.withNonce (z : Option Nat) (x : Queue) : Queue := { x with nonce := z }

theorem sameQueue_withNonce (z : Option Nat) (x y : Queue) (h : SameQueue x y) :
    SameQueue (x.withNonce z) (y.withNonce z) := by
  obtain ⟨c, rfl, hc⟩ := h
  exact ⟨c, rfl, hc⟩

/-- An interface moves by a request: state and nonce change in one transaction of the log, and the mailbox is answered. -/
theorem interfaceTo_replies (s : State) (q n fresh : Nat) (z : Option Nat) (mb code : Nat) (data : List Nat) :
    let t := (((interfaceTo { s with fresh := fresh } txTdisp q n).modQueue q (Queue.withNonce z)).answer mb code data)
    Woken (({ s.modQueue q fun _ => { s.queue q with istate := n, nonce := z } with
        fresh := fresh, wal := t.wal, core := { s.core with nextId := s.core.nextId + 1 } } : State).answer mb code data) t ∧
    Logged t (onceRecs s.core.nextId txTdisp q [(pagePA 2 q 0, (s.queue q).istate, n)]) := by
  obtain ⟨l, recs, moved⟩ := interfaceTo_spec { s with fresh := fresh } txTdisp q n
  have replied := woken_emit (woken_modQueue moved q (Queue.withNonce z) (sameQueue_withNonce z)) (.reply mb code data)
  rw [modQueue_modQueue] at replied
  intro t
  have wal : t.wal = l := woken_wal replied
  rw [wal, Logged, wal]
  exact ⟨replied, recs⟩

section
variable {s : State} (up : s.core.up = true) (safe : secured s (s.arg 0) (s.arg 1) = true)
  (own : s.arg 0 = 0 ∨ s.arg 0 = (s.queue (s.arg 2)).owner)
include up safe own

/-- What a LOCK or a START leaves: the queue y, in a transaction of the log, and an answer. -/
def QueueReplies (e : Instr) (s : State) (y : Queue) (code : Nat) (data : List Nat) (fresh : Nat) : Prop :=
  Answers e s fun t =>
    Woken (({ s.modQueue (s.arg 2) fun _ => y with
        fresh := fresh, wal := t.wal, core := { s.core with nextId := s.core.nextId + 1 } } : State).answer (s.arg 0) code data) t ∧
    Logged t (onceRecs s.core.nextId txTdisp (s.arg 2)
      [(pagePA 2 (s.arg 2) 0, (s.queue (s.arg 2)).istate, y.istate)])

theorem lockInterfaceRequest_replies (unlocked : (s.queue (s.arg 2)).istate = 0)
    (may : lockable s (s.queue (s.arg 2)) = true) :
    QueueReplies .lockInterfaceRequest s
      { s.queue (s.arg 2) with istate := 1, nonce := some (Config.startNonce s.fresh) } 12 [Config.startNonce s.fresh]
      (s.fresh + 1) := by
  refine answers_tdisp (execLockInterfaceRequest.eq_def s) up safe own ?_
  rw [if_pos ⟨unlocked, may⟩]
  exact interfaceTo_replies s (s.arg 2) 1 (s.fresh + 1) _ _ _ _

theorem lockInterfaceRequest_refuses
    (no : (s.queue (s.arg 2)).istate ≠ 0 ∨ ¬ lockable s (s.queue (s.arg 2)) = true) :
    Replies .lockInterfaceRequest s 0 [] :=
  answers_tdisp (execLockInterfaceRequest.eq_def s) up safe own (if_neg fun h => no.elim (· h.1) (· h.2))

theorem startInterfaceRequest_replies (locked : (s.queue (s.arg 2)).istate = 1)
    (nonce : (s.queue (s.arg 2)).nonce = some (s.arg 3)) :
    QueueReplies .startInterfaceRequest s { s.queue (s.arg 2) with istate := 2, nonce := none } 13 [] s.fresh := by
  refine answers_tdisp (execStartInterfaceRequest.eq_def s) up safe own ?_
  rw [if_pos ⟨locked, nonce⟩]
  exact interfaceTo_replies s (s.arg 2) 2 s.fresh _ _ _ _

theorem startInterfaceRequest_refuses
    (no : (s.queue (s.arg 2)).istate ≠ 1 ∨ (s.queue (s.arg 2)).nonce ≠ some (s.arg 3)) :
    Replies .startInterfaceRequest s 0 [] :=
  answers_tdisp (execStartInterfaceRequest.eq_def s) up safe own (if_neg fun h => no.elim (· h.1) (· h.2))

theorem stopInterfaceRequest_replies :
    Answers .stopInterfaceRequest s fun t =>
      (t.queue (s.arg 2)).istate = 0 ∧ (t.queue (s.arg 2)).nonce = none ∧ (t.queue (s.arg 2)).order = [] ∧
      (t.queue (s.arg 2)).cur = none ∧ (t.queue (s.arg 2)).head = (t.queue (s.arg 2)).tail ∧
      .reply (s.arg 0) 14 [] ∈ t.out ∧
      ∀ l ∈ openLaunches s (s.arg 2), (s.launch (s.queue (s.arg 2)).owner l).open = true → l < 1024 →
        (t.launch (s.queue (s.arg 2)).owner l).killed = true ∧ (t.launch (s.queue (s.arg 2)).owner l).discarded = true := by
  refine answers_tdisp (execStopInterfaceRequest.eq_def s) up safe own ?_
  obtain ⟨l, logged, -⟩ := logOnce_spec s txTdisp (s.arg 2) [(pagePA 2 (s.arg 2) 0, (s.queue (s.arg 2)).istate, 0)]
  simp only [logged]
  obtain ⟨⟨unlocked, nonce, order, cur, head⟩, killed⟩ := stopInterface_spec
    { s with wal := l, core := { s.core with nextId := s.core.nextId + 1 } } (s.arg 2)
  exact ⟨unlocked, nonce, order, cur, head, List.mem_append_right _ (List.mem_singleton_self _),
    fun l hl ho _ => killed l hl ho⟩

theorem interfaceReports_refused (error : (s.queue (s.arg 2)).istate = 3) :
    Replies .getDeviceInterfaceReport s 0 [] ∧ Replies .getDeviceInterfaceState s 0 [] :=
  ⟨answers_tdisp (execGetDeviceInterfaceReport.eq_def s) up safe own (if_pos error),
    answers_tdisp (execGetDeviceInterfaceState.eq_def s) up safe own (if_pos error)⟩

theorem interfaceReports_reply (sound : (s.queue (s.arg 2)).istate ≠ 3) :
    Replies .getDeviceInterfaceReport s 15 [(s.queue (s.arg 2)).owner, pagePA 2 (s.arg 2) 0, s.arg 2 * 64,
      (s.world (s.queue (s.arg 2)).owner).conf.toNat, (s.world (s.queue (s.arg 2)).owner).fmask] ∧
    Replies .getDeviceInterfaceState s 16 [(s.queue (s.arg 2)).istate] :=
  ⟨answers_tdisp (execGetDeviceInterfaceReport.eq_def s) up safe own (if_neg sound),
    answers_tdisp (execGetDeviceInterfaceState.eq_def s) up safe own (if_neg sound)⟩

end

/-! ## All messages -/

/-- Settles O46: each request is served by its own case of the responder, a transaction's records end the log, and a move of an
interface wakes what waits for its page. -/
theorem deviceSecurityMessages : Obligations.DeviceSecurityMessages := by
  unfold Obligations.DeviceSecurityMessages
  intro s
  refine ⟨requests_unserved, fun up => ⟨exchangeSteps_early up, getVersion_replies up, getCapabilities_replies up,
    negotiateAlgorithms_replies up, negotiateAlgorithms_refuses up, fun turn => ?authenticated, finish_refuses up,
    fun opened => ⟨finish_ends up opened, finish_secures up opened⟩, sessionRequests_refused up, fun safe => ?session⟩⟩
  case authenticated =>
    exact ⟨getDigests_replies up turn, slotZero_replies up turn, otherSlot_refuses up turn, getMeasurements_world up turn,
      getMeasurements_device up turn, getMeasurements_refuses up turn, fun n => keyExchange_replies up turn,
      keyExchange_refuses up turn⟩
  case session =>
    refine ⟨keyUpdate_replies up safe, endSession_replies up safe, setStreamKey_replies up safe, setStreamKey_refuses up,
      ⟨setQuantumTable_replies up safe, setQuantumTable_refuses up⟩, getQuantumTable_replies up safe, getQuantumTable_refuses up,
      interfaceRequests_refused up, fun own => ?interface⟩
    case interface =>
      have context := lockable_iff s (s.queue (s.arg 2))
      exact ⟨fun unlocked may => lockInterfaceRequest_replies up safe own unlocked (context.mpr may),
        fun no => lockInterfaceRequest_refuses up safe own (no.imp_right fun h may => h (context.mp may)),
        startInterfaceRequest_replies up safe own, startInterfaceRequest_refuses up safe own,
        stopInterfaceRequest_replies up safe own, interfaceReports_refused up safe own, interfaceReports_reply up safe own⟩

end Sys2Proof.Machine
end

section
/-!
PROOFS: inbound requests of peer links (05 R109, 01 R22, 10 R204).
-/

namespace Sys2Proof.Machine

/-! ## A message to a peer, and the fields that waking keeps -/

/-- What a message does to its link and to the output is the same in every state with that link and that output. -/
theorem sendPeer_frame {s u : State} (links : u.plinks = s.plinks) (out : u.out = s.out) (n : Nat) (m : PeerMsg) :
    sendPeer u n m = { u with plinks := (sendPeer s n m).plinks, out := (sendPeer s n m).out } := by
  unfold sendPeer pumpPeer
  simp only [State.plink, State.modPlink, links, out]
  split
  · next h => simp only [h, if_true, ← out]
  · next h => simp only [h, if_false, Bool.false_eq_true]

/-- What is woken does not depend on the links of the peers. -/
theorem woken_withLinks {a t : State} (h : Woken a t) (links : Tbl Link) (out : List Out) :
    Woken { a with plinks := links, out := out } { t with plinks := links, out := out } where
  device := congrArg (fun u : State => { u with plinks := links, out := out }) h.device
  queues := h.queues
  ctxs := h.ctxs
  work := h.work

/-- What is woken behind a change of one link's page. -/
theorem woken_modPeer {s t : State} {n : Nat} {f : Peer → Peer} (h : Woken (s.modPeer n f) t) :
    OnlyAt s.peer t.peer n (f (s.peer n)) ∧ Woken { s with peers := t.peers } t := by
  have peers : t.peers = (s.modPeer n f).peers := by rw [h.device]
  have start : ({ s with peers := t.peers } : State) = s.modPeer n f := by rw [peers]; rfl
  exact ⟨fun j => (congrArg (fun ps => tget Peer.zero ps j) peers).trans (onlyAt_modPeer s n f j), start ▸ h⟩

/-! ## The judgement of a request -/

/-- The link takes requests. -/
def LinkUp (s : State) (n : Nat) : Prop := (s.peer n).pfrozen = false ∧ bit s.ready.plink n = true

/-- A request for len bytes at offset o stays inside the window of the link and the ranges of its world. -/
def InWindow (s : State) (n o len : Nat) : Prop :=
  let p := s.peer n
  let pa := p.inbase * 4096 + o
  p.inen = true ∧ o + len ≤ p.insize * 4096 ∧ inRanges (s.world p.inworld) pa = true ∧
    inRanges (s.world p.inworld) (pa + len - 1) = true

/-- The physical address of offset o of a link's window. -/
def windowPA (s : State) (n o : Nat) : Nat := (s.peer n).inbase * 4096 + o

section
variable {s : State} {n o len : Nat} {write : Bool}

theorem inbound_dead (down : ¬ LinkUp s n) : inbound s n o len write = .dead := by
  refine if_pos ?_
  cases hf : (s.peer n).pfrozen <;> simp_all [LinkUp]

theorem linkUp_not_dead (up : LinkUp s n) : ¬ ((s.peer n).pfrozen = true ∨ (!bit s.ready.plink n) = true) := by
  simp [up.1, up.2]

theorem inbound_bad (up : LinkUp s n) (outside : ¬ InWindow s n o len) : inbound s n o len write = .bad := by
  refine (if_neg (linkUp_not_dead up)).trans (if_pos ?_)
  by_contra no
  simp only [not_or, Bool.not_eq_true, Bool.not_eq_false', Nat.not_lt] at no
  exact outside no

theorem inWindow_not_bad (inside : InWindow s n o len) :
    ¬ ((!(s.peer n).inen) = true ∨ o + len > (s.peer n).insize * 4096 ∨
      (!inRanges (s.world (s.peer n).inworld) ((s.peer n).inbase * 4096 + o)) = true ∨
      (!inRanges (s.world (s.peer n).inworld) ((s.peer n).inbase * 4096 + o + len - 1)) = true) := by
  obtain ⟨enabled, window, first, last⟩ := inside
  simp [enabled, window, first, last]

variable (up : LinkUp s n) (inside : InWindow s n o len)
include up inside

theorem inbound_drop (gone : memReady s (windowPA s n o) = false) : inbound s n o len write = .drop :=
  (if_neg (linkUp_not_dead up)).trans ((if_neg (inWindow_not_bad inside)).trans
    (if_pos (by rw [show memReady s ((s.peer n).inbase * 4096 + o) = false from gone]; rfl)))

theorem inbound_ready (ready : memReady s (windowPA s n o) = true) : inbound s n o len write =
    if write && tableRange s (windowPA s n o) len then .table else .ok (windowPA s n o) :=
  (if_neg (linkUp_not_dead up)).trans ((if_neg (inWindow_not_bad inside)).trans
    (if_neg (by rw [show memReady s ((s.peer n).inbase * 4096 + o) = true from ready]; decide)))

end

/-! ## Requests that are not performed -/

/-- How instruction e carries out a judgement of a request of len bytes other than to perform it; msg is the answer to a
request that is dropped. -/
structure Judges (e : Instr) (s : State) (len : Nat) (write : Bool) (msg : PeerMsg) : Prop where
  dead  : inbound s (s.arg 0) (s.arg 1) len write = .dead → Answers e s (· = s)
  bad   : inbound s (s.arg 0) (s.arg 1) len write = .bad → Answers e s (· = freezePeer s (s.arg 0) (s.arg 1))
  drop  : inbound s (s.arg 0) (s.arg 1) len write = .drop →
    Answers e s (· = sendPeer (dropInbound s (s.arg 0) false) (s.arg 0) msg)
  table : write = true → inbound s (s.arg 0) (s.arg 1) len write = .table →
    Answers e s (· = sendPeer (dropInbound s (s.arg 0) true) (s.arg 0) msg)

theorem judges_inboundRemoteStore (s : State) : Judges .inboundRemoteStore s (s.arg 2) true (.refuse (s.arg 4)) where
  dead h := ⟨_, congrArg Host.Outcome.next (by rw [h]), rfl⟩
  bad h := ⟨_, congrArg Host.Outcome.next (by rw [h]), rfl⟩
  drop h := ⟨_, congrArg Host.Outcome.next (by rw [h]), rfl⟩
  table _ h := ⟨_, congrArg Host.Outcome.next (by rw [h]), rfl⟩

theorem judges_inboundCopyWrite (s : State) (some_ : s.ev.data.length ≠ 0) :
    Judges .inboundCopyWrite s s.ev.data.length true (.drop (s.arg 2)) := by
  have present : ¬ (s.ev.data.map (BitVec.ofNat 8)).isEmpty = true := by simpa using some_
  have length : (s.ev.data.map (BitVec.ofNat 8)).length = s.ev.data.length := List.length_map _
  exact {
    dead := fun h => ⟨_, congrArg Host.Outcome.next ((if_neg present).trans (by rw [length, h])), rfl⟩
    bad := fun h => ⟨_, congrArg Host.Outcome.next ((if_neg present).trans (by rw [length, h])), rfl⟩
    drop := fun h => ⟨_, congrArg Host.Outcome.next ((if_neg present).trans (by rw [length, h])), rfl⟩
    table := fun _ h => ⟨_, congrArg Host.Outcome.next ((if_neg present).trans (by rw [length, h])), rfl⟩ }

theorem judges_inboundCopyRead (s : State) (some_ : s.arg 2 ≠ 0) :
    Judges .inboundCopyRead s (s.arg 2) false (.drop (s.arg 3)) where
  dead h := ⟨_, congrArg Host.Outcome.next ((if_neg some_).trans (by rw [h])), rfl⟩
  bad h := ⟨_, congrArg Host.Outcome.next ((if_neg some_).trans (by rw [h])), rfl⟩
  drop h := ⟨_, congrArg Host.Outcome.next ((if_neg some_).trans (by rw [h])), rfl⟩
  table h := nomatch h

/-- A request that is dropped is counted. -/
def Peer.dropped (table : Bool) (p : Peer) : Peer :=
  if table then { p with tbldrop := Nat.min (2 ^ 64 - 1) (p.tbldrop + 1) }
  else { p with indrop := Nat.min (2 ^ 64 - 1) (p.indrop + 1) }

theorem woken_dropInbound (s : State) (n : Nat) (table : Bool) :
    Woken (s.modPeer n (Peer.dropped table)) (dropInbound s n table) := by
  have counts : s.modPeer n (Peer.dropped table) = s.modPeer n fun p =>
      if table then { p with tbldrop := satInc 64 p.tbldrop } else { p with indrop := satInc 64 p.indrop } := by
    simp only [satInc_eq_min]
    rfl
  rw [counts]
  exact woken_wakePage _ _ _ _ _

/-- A request that is dropped: the count, and the answer (05 R109). -/
theorem dropInbound_sendPeer (s : State) (n : Nat) (table : Bool) (m : PeerMsg) :
    let t := sendPeer (dropInbound s n table) n m
    OnlyAt s.peer t.peer n ((s.peer n).dropped table) ∧
    Woken { s with peers := t.peers, plinks := (sendPeer s n m).plinks, out := (sendPeer s n m).out } t := by
  have counted := woken_dropInbound s n table
  have links : (dropInbound s n table).plinks = s.plinks := by rw [counted.device]; rfl
  have out : (dropInbound s n table).out = s.out := by rw [counted.device]; rfl
  obtain ⟨count, woken⟩ := woken_modPeer counted
  dsimp only
  rw [sendPeer_frame links out]
  exact ⟨count, woken_withLinks woken (sendPeer s n m).plinks (sendPeer s n m).out⟩

end Sys2Proof.Machine
end

section
/-!
PROOFS: peer links that freeze, requests that are performed, and the answers to remote stores (05 R109, 10 R204, 08 R155).
-/

namespace Sys2Proof.Machine

/-! ## Remote stores that are settled -/

/-- A launch that one of its remote stores leaves, lost or not. -/
def Launch.settledOne (lost : Bool) (x : Launch) : Launch :=
  { x with peerpend := x.peerpend - 1, lost := x.lost + lost.toNat }

/-- A remote store is settled (08 R155): it leaves the record and its launch's count, and a launch that waited for it ends. -/
theorem settleRemote_spec (s : State) (r : Remote) (lost : Bool) :
    let u := { s with remotes := s.remotes.filter fun x => x.id != r.id }.modLaunch r.world r.launch (Launch.settledOne lost)
    Woken u (settleRemote s r lost) ∧
    ((s.launch r.world r.launch).lstate = .ackwait → (s.launch r.world r.launch).peerpend ≤ 1 →
      event .launchDone [r.world, r.launch] ∈ (settleRemote s r lost).work) := by
  intro u
  have counts : settleRemote s r lost =
      let v := wakePage u r.world 3 r.launch 0x40
      if (v.launch r.world r.launch).lstate = .ackwait ∧ (v.launch r.world r.launch).peerpend = 0 then
        v.push .launchDone [r.world, r.launch] else v := by
    cases lost <;> rfl
  have woken := woken_wakePage u r.world 3 r.launch 0x40
  have launch : (wakePage u r.world 3 r.launch 0x40).launch r.world r.launch = (s.launch r.world r.launch).settledOne lost := by
    rw [woken.launch, State.launch_modLaunch, if_pos rfl]
    rfl
  rw [counts]
  dsimp only
  refine ⟨woken_ite (woken_trans woken (woken_push _ [event .launchDone [r.world, r.launch]])) woken, fun waits last => ?_⟩
  have none_left : (s.launch r.world r.launch).peerpend - 1 = 0 := by omega
  rw [launch, if_pos ⟨waits, none_left⟩]
  exact List.mem_append_right _ (List.mem_singleton_self _)

theorem settleRemote_remotes (s : State) (r : Remote) (lost : Bool) :
    (settleRemote s r lost).remotes = s.remotes.filter fun x => x.id != r.id := by
  rw [(settleRemote_spec s r lost).1.device]
  rfl

/-- Remote stores have been settled: launches have counted them, and the pages of launches have woken what watches them. -/
def RemotesSettled (s t : State) : Prop :=
  t = { s with remotes := t.remotes, launches := t.launches, ctxs := t.ctxs, queues := t.queues, work := t.work }

theorem remotesSettled_trans {a b c : State} (h : RemotesSettled a b) (g : RemotesSettled b c) : RemotesSettled a c := by
  rw [RemotesSettled] at *
  rw [g, h]

theorem remotesSettled_ready {s t : State} (h : RemotesSettled s t) : t.ready = s.ready := by
  rw [RemotesSettled] at h
  rw [h]

theorem remotesSettled_settleRemote (s : State) (r : Remote) (lost : Bool) : RemotesSettled s (settleRemote s r lost) := by
  rw [RemotesSettled, (settleRemote_spec s r lost).1.device]
  rfl

/-- Remote stores that are lost in turn: each has left the record. -/
theorem foldl_settleRemote (rs : List Remote) (s : State) :
    let t := rs.foldl (fun s r => settleRemote s r true) s
    RemotesSettled s t ∧ ∀ x ∈ t.remotes, x ∈ s.remotes ∧ ∀ r ∈ rs, x.id ≠ r.id := by
  induction rs generalizing s with
  | nil => exact ⟨rfl, fun x hx => ⟨hx, nofun⟩⟩
  | cons r rs ih =>
    obtain ⟨device, left⟩ := ih (settleRemote s r true)
    refine ⟨remotesSettled_trans (remotesSettled_settleRemote s r true) device, fun x hx => ?_⟩
    obtain ⟨stood, others⟩ := left x hx
    rw [settleRemote_remotes, List.mem_filter] at stood
    exact ⟨stood.1, List.forall_mem_cons.mpr ⟨by simpa using stood.2, others⟩⟩

theorem loseRemotes_spec (s : State) (n : Nat) :
    RemotesSettled s (loseRemotes s n) ∧ ∀ r ∈ (loseRemotes s n).remotes, r.link ≠ n := by
  unfold loseRemotes
  extract_lets u
  obtain ⟨device, left⟩ := foldl_settleRemote (u.remotes.filter fun r => r.link == n) u
  refine ⟨device, fun r hr onLink => ?_⟩
  obtain ⟨stood, others⟩ := left r hr
  exact others r (List.mem_filter.mpr ⟨stood, by simpa using onLink⟩) rfl

/-! ## Links that freeze and thaw -/

/-- A link that an unauthorised request has frozen. -/
def Peer.frozenAt (o : Nat) (p : Peer) : Peer :=
  { p with pfrozen := true, violcnt := Nat.min (2 ^ 64 - 1) (p.violcnt + 1), violoff := o }

/-- The readiness word's plink field with a link's bit set or cleared. -/
def Ready.withPlink (n : Nat) (b : Bool) (r : Ready) : Ready := { r with plink := setBit r.plink n b }

/-- t is s but for readiness, remote stores, launches, and what waking changes. -/
def LinkFrame (s t : State) : Prop :=
  t = { s with ready := t.ready, remotes := t.remotes, launches := t.launches, ctxs := t.ctxs, queues := t.queues,
               work := t.work, parked := t.parked }

theorem linkFrame_trans {a b c : State} (h : LinkFrame a b) (g : LinkFrame b c) : LinkFrame a c := by
  rw [LinkFrame] at *
  rw [g, h]

theorem linkFrame_fields {s t : State} (h : LinkFrame s t) :
    t.peers = s.peers ∧ t.portPlink = s.portPlink ∧ t.heldW = s.heldW ∧ t.mem = s.mem ∧ t.out = s.out := by
  rw [LinkFrame] at h
  rw [h]
  exact ⟨rfl, rfl, rfl, rfl, rfl⟩

theorem linkFrame_of_woken {s t : State} (h : Woken s t) : LinkFrame s t := by
  rw [LinkFrame, h.device]

theorem linkFrame_of_remotesSettled {s t : State} (h : RemotesSettled s t) : LinkFrame s t := by
  rw [RemotesSettled] at h
  rw [LinkFrame, h]

theorem linkFrame_withReady (s : State) (r : Ready) : LinkFrame s (s.withReady r) := by
  unfold State.withReady
  split <;> rfl

/-- A readiness event of one link's bit. -/
theorem readyEvent_plink (s : State) (n : Nat) (b : Bool) :
    Woken (s.withReady (s.ready.withPlink n b)) (s.readyEvent (Ready.withPlink n b)) ∧
    LinkFrame s (s.readyEvent (Ready.withPlink n b)) ∧
    (s.readyEvent (Ready.withPlink n b)).ready.plink = setBit s.ready.plink n b := by
  have woken := readyEvent_spec s (Ready.withPlink n b)
  refine ⟨woken, linkFrame_trans (linkFrame_withReady s _) (linkFrame_of_woken woken), ?_⟩
  rw [woken.device, State.withReady]
  split
  · next same => exact (congrArg Ready.plink same).symm
  · rfl

/-- The freeze of a link as one chain of changes. -/
theorem freezePeer_eq (s : State) (n o : Nat) :
    let e := (wakePage (s.modPeer n (Peer.frozenAt o)) 0 8 n 0).readyEvent (Ready.withPlink n false)
    freezePeer s n o = unholdAll (loseRemotes { e with portPlink := setBit e.portPlink n false } n) := by
  rw [freezePeer]
  simp only [satInc_eq_min]
  rfl

/-- An unauthorised request freezes its link (05 R109). -/
theorem freezePeer_spec (s : State) (n o : Nat) (settled : s.heldW = []) :
    let t := freezePeer s n o
    OnlyAt s.peer t.peer n ((s.peer n).frozenAt o) ∧ Sets s.ready.plink t.ready.plink n false ∧
    Sets s.portPlink t.portPlink n false ∧ (∀ r ∈ t.remotes, r.link ≠ n) ∧ t.mem = s.mem ∧ t.out = s.out := by
  intro t
  let a := wakePage (s.modPeer n (Peer.frozenAt o)) 0 8 n 0
  have woken : Woken (s.modPeer n (Peer.frozenAt o)) a := woken_wakePage _ 0 8 n 0
  obtain ⟨-, framed, plink⟩ := readyEvent_plink a n false
  let e := a.readyEvent (Ready.withPlink n false)
  have toEvent : LinkFrame (s.modPeer n (Peer.frozenAt o)) e := linkFrame_trans (linkFrame_of_woken woken) framed
  let c : State := { e with portPlink := setBit e.portPlink n false }
  obtain ⟨lost, remotes⟩ := loseRemotes_spec c n
  obtain ⟨peers1, port1, held1, mem1, out1⟩ := linkFrame_fields toEvent
  obtain ⟨-, -, held, -⟩ := linkFrame_fields (linkFrame_of_remotesSettled lost)
  have nothing : (loseRemotes c n).heldW = [] := held.trans (held1.trans settled)
  have ends : t = wakeAll (loseRemotes c n) := (freezePeer_eq s n o).trans (unholdAll_eq _ nothing)
  have kept : LinkFrame c t := ends ▸ linkFrame_trans (linkFrame_of_remotesSettled lost) rfl
  obtain ⟨peers2, port2, -, mem2, out2⟩ := linkFrame_fields kept
  have lostReady : (loseRemotes c n).ready = c.ready := remotesSettled_ready lost
  have ready : t.ready = e.ready := (congrArg State.ready ends).trans lostReady
  have port : c.portPlink = setBit s.portPlink n false := congrArg (setBit · n false) port1
  refine ⟨fun j => ?_, ?_, ?_, fun r hr => remotes r ?_, mem2.trans mem1, out2.trans out1⟩
  · exact (congrArg (fun ps => tget Peer.zero ps j) (peers2.trans peers1)).trans (onlyAt_modPeer s n (Peer.frozenAt o) j)
  · rw [ready, plink]
    exact setBit_sets s.ready.plink n false
  · rw [port2, port]
    exact setBit_sets s.portPlink n false
  · exact (congrArg State.remotes ends) ▸ hr

end Sys2Proof.Machine
end

section
/-!
PROOFS: links that thaw, requests that are performed, and the freeze of a function (05 R108, R109, 01 R22, 10 R204, 08 R155).
-/

namespace Sys2Proof.Machine

/-! ## Links that thaw -/

/-- The readiness word after an event, by the word before it (01 R453). -/
def Ready.counted (old new : Ready) : Ready := if new = old then old else { new with gen := old.gen + 1 }

theorem withReady_eq (s : State) (r : Ready) : s.withReady r = { s with ready := s.ready.counted r } := by
  unfold State.withReady Ready.counted
  split <;> rfl

/-- Ports and readiness as given, and no request that waits. -/
def State.opened (s : State) (ports : Nat) (r : Ready) : State := { s with portPlink := ports, ready := r, parked := [] }

theorem woken_opened {a t : State} (h : Woken a t) (ports : Nat) (r : Ready) : Woken (a.opened ports r) (t.opened ports r) where
  device := congrArg (State.opened · ports r) h.device
  queues := h.queues
  ctxs := h.ctxs
  work := h.work

/-- A link that is no longer frozen. -/
def Peer.thawed (p : Peer) : Peer := { p with pfrozen := false }

theorem peerUnfreeze_idle {s : State} {n : Nat} (h : (s.peer n).pfrozen = false) : peerUnfreeze s n = s :=
  if_pos (by rw [h]; rfl)

theorem peerUnfreeze_failed {s : State} {n : Nat} (frozen : (s.peer n).pfrozen = true) (failed : (s.plink n).failed = true) :
    peerUnfreeze s n = wakePage (s.modPeer n Peer.thawed) 0 8 n 0 :=
  (if_neg (by rw [frozen]; decide)).trans (if_pos failed)

theorem peerUnfreeze_opens {s : State} {n : Nat} (frozen : (s.peer n).pfrozen = true) (sound : (s.plink n).failed = false) :
    let a := wakePage (s.modPeer n Peer.thawed) 0 8 n 0
    peerUnfreeze s n = unholdAll
      (({ a with portPlink := setBit a.portPlink n true } : State).readyEvent (Ready.withPlink n true)) :=
  (if_neg (by rw [frozen]; decide)).trans (if_neg fun failed => Bool.false_ne_true (sound.symm.trans failed))

/-- UNFREEZE of a link that has not failed: it is ready again, and whatever waited tries again (05 R109). -/
theorem peerUnfreeze_spec {s : State} {n : Nat} (frozen : (s.peer n).pfrozen = true) (sound : (s.plink n).failed = false)
    (settled : s.heldW = []) :
    let t := peerUnfreeze s n
    OnlyAt s.peer t.peer n (s.peer n).thawed ∧ Sets s.ready.plink t.ready.plink n true ∧
    Sets s.portPlink t.portPlink n true ∧
    Woken { s.withReady { s.ready with plink := t.ready.plink } with
      peers := t.peers, portPlink := t.portPlink, parked := [] } t := by
  intro t
  let a := wakePage (s.modPeer n Peer.thawed) 0 8 n 0
  let c : State := { a with portPlink := setBit a.portPlink n true }
  let e := c.readyEvent (Ready.withPlink n true)
  have paged : Woken (s.modPeer n Peer.thawed) a := woken_wakePage _ 0 8 n 0
  obtain ⟨evented, framed, plink⟩ := readyEvent_plink c n true
  obtain ⟨-, -, held, -⟩ := linkFrame_fields framed
  have ends : t = wakeAll e := (peerUnfreeze_opens frozen sound).trans (unholdAll_eq e (held.trans settled))
  let ports := setBit s.portPlink n true
  let ready := s.ready.counted (s.ready.withPlink n true)
  have first : Woken ((s.modPeer n Peer.thawed).opened ports ready) (a.opened ports ready) := woken_opened paged ports ready
  have eventAt : Woken { c with ready := ready } e := withReady_eq c _ ▸ evented
  have ports1 : e.portPlink = ports := by rw [eventAt.device]; rfl
  have ready1 : e.ready = ready := by rw [eventAt.device]
  have second : Woken (a.opened ports ready) (e.opened ports ready) := woken_opened eventAt ports ready
  have same : ({ e with parked := [] } : State) = e.opened ports ready := by rw [← ports1, ← ready1]; rfl
  have third : Woken (e.opened ports ready) t := ends ▸ same ▸ (woken_wakeAll e).1
  have woken := woken_trans (woken_trans first second) third
  have peers : t.peers = (s.modPeer n Peer.thawed).peers := by rw [woken.device]; rfl
  have ports2 : t.portPlink = ports := by rw [woken.device]; rfl
  have plink2 : t.ready.plink = setBit s.ready.plink n true := (congrArg (fun u => u.ready.plink) ends).trans plink
  have start : { s.withReady { s.ready with plink := t.ready.plink } with
      peers := t.peers, portPlink := t.portPlink, parked := [] } = (s.modPeer n Peer.thawed).opened ports ready := by
    rw [peers, ports2, plink2, withReady_eq]
    rfl
  refine ⟨fun j => ?_, plink2 ▸ setBit_sets _ _ _, ports2 ▸ setBit_sets _ _ _, start ▸ woken⟩
  exact (congrArg (fun ps => tget Peer.zero ps j) peers).trans (onlyAt_modPeer s n Peer.thawed j)

/-! ## Requests that are performed -/

/-- The write of a peer's request, as a port holds it: it is acknowledged once it performs. -/
def peerWrite (s : State) (n pa id : Nat) (data : List Byte) : HeldW :=
  { world := (s.peer n).inworld, ctx := 16384, slot := keySlot s (s.peer n).inworld, pa := pa, data := data, ack := some (n, id) }

/-- A held write of a peer performs, and is acknowledged (10 R204). -/
theorem performHeld_peerWrite (s u : State) (n pa id : Nat) (data : List Byte) :
    performHeld u (peerWrite s n pa id data) =
      sendPeer (performWrite u (keySlot s (s.peer n).inworld) pa data) n (.ack id) := by
  rw [performHeld, peerWrite]
  exact if_neg fun stops => Nat.lt_irrefl 16384 stops.1

section
variable {s : State} {n w pa id : Nat} {data : List Byte}

/-- The request waits where the write queue is full or a strand's reservation holds the granule (01 R19, 15 R299). -/
theorem inboundWrite_keeps (keeps : queueFull s pa data.length = true ∨ unitHeld s pa data.length = true) :
    inboundWrite s n w pa id data = parkRequest s n s.ev :=
  if_pos (by simpa using keeps)

theorem inboundWrite_waits (free : ¬ (queueFull s pa data.length = true ∨ unitHeld s pa data.length = true))
    (waits : writeWaits s pa data.length = true) : ∃ es, inboundWrite s n (s.peer n).inworld pa id data =
      { s with heldW := s.heldW ++ [peerWrite s n pa id data], work := es } :=
  ⟨_, (if_neg (by simpa using free)).trans ((if_pos waits).trans (if_pos waits))⟩

theorem inboundWrite_performs (free : ¬ (queueFull s pa data.length = true ∨ unitHeld s pa data.length = true))
    (goes : writeWaits s pa data.length = false) :
    inboundWrite s n w pa id data = sendPeer (performWrite s (keySlot s w) pa data) n (.ack id) := by
  have clear : ¬ writeWaits s pa data.length = true := by simp [goes]
  have posted (h : HeldW) (at_ : h.pa = pa) (bytes : h.data = data) : postHeld s h = performWrite s h.slot pa data := by
    rw [postHeld, at_, bytes, if_neg clear]
  exact (if_neg (by simpa using free)).trans ((if_neg clear).trans (by rw [posted _ rfl rfl]))

/-- A write that performs reaches memory, and its acknowledgement goes to the peer's link (05 R109, 10 R204). -/
theorem performWrite_sendPeer (s : State) (slot : Nat) (fits : pa + data.length ≤ 2 ^ 51) (n : Nat) (m : PeerMsg) :
    let t := sendPeer (performWrite s slot pa data) n m
    BytesWritten s t slot pa data ∧ OtherLines s t pa data.length ∧ t.plinks = (sendPeer s n m).plinks ∧
      t.out = (sendPeer s n m).out ∧ t.peers = s.peers := by
  have performed := (performed_performWrite s slot pa data).device
  have links : (performWrite s slot pa data).plinks = s.plinks := by rw [performed]
  have out : (performWrite s slot pa data).out = s.out := by rw [performed]
  have peers : (performWrite s slot pa data).peers = s.peers := by rw [performed]
  dsimp only
  rw [sendPeer_frame links out]
  exact ⟨performWrite_bytesWritten s slot pa data (.inl fits), performWrite_otherLines s slot pa data (.inl fits), rfl, rfl,
    peers⟩

end

/-- A write of a peer that its window and the tables admit: it performs and is acknowledged, or it waits. -/
theorem inboundWrite_answers {e : Instr} {s : State} {pa id : Nat} {data : List Byte}
    (he : exec e s = .next (inboundWrite s (s.arg 0) (s.peer (s.arg 0)).inworld pa id data)) (fits : pa + data.length ≤ 2 ^ 51) :
    let n := s.arg 0
    let slot := keySlot s (s.peer n).inworld
    let keeps := queueFull s pa data.length = true ∨ unitHeld s pa data.length = true
    (keeps → Answers e s (· = parkRequest s n s.ev)) ∧
    (¬ keeps → writeWaits s pa data.length = false → Answers e s fun t =>
      BytesWritten s t slot pa data ∧ OtherLines s t pa data.length ∧ t.plinks = (sendPeer s n (.ack id)).plinks ∧
        t.out = (sendPeer s n (.ack id)).out ∧ t.peers = s.peers) ∧
    (¬ keeps → writeWaits s pa data.length = true → Answers e s fun t =>
      t = { s with heldW := s.heldW ++ [peerWrite s n pa id data], work := t.work } ∧
      ∀ u : State, performHeld u (peerWrite s n pa id data) = sendPeer (performWrite u slot pa data) n (.ack id)) := by
  refine ⟨fun keeps => ⟨_, he, inboundWrite_keeps keeps⟩, fun free goes => ⟨_, he, ?_⟩, fun free waits => ⟨_, he, ?_⟩⟩
  · rw [inboundWrite_performs free goes]
    exact performWrite_sendPeer s _ fits _ _
  · obtain ⟨es, held⟩ := inboundWrite_waits free waits
    rw [held]
    exact ⟨rfl, fun u => performHeld_peerWrite s u _ _ _ _⟩

section
variable {s : State} {pa : Nat}

theorem inboundRemoteStore_performs (ok : inbound s (s.arg 0) (s.arg 1) (s.arg 2) true = .ok pa)
    (sound : writeTagFails s (keySlot s (s.peer (s.arg 0)).inworld) pa (s.arg 2) = false) :
    exec .inboundRemoteStore s = .next
      (inboundWrite s (s.arg 0) (s.peer (s.arg 0)).inworld pa (s.arg 4) (bytesOf (s.arg 2) (s.arg 3))) :=
  congrArg Host.Outcome.next (by simp only [ok, sound, Bool.false_eq_true, if_false])

theorem inboundCopyWrite_performs
    (some_ : s.ev.data.map (BitVec.ofNat 8) ≠ [])
    (ok : inbound s (s.arg 0) (s.arg 1) (s.ev.data.map (BitVec.ofNat 8)).length true = .ok pa)
    (sound : writeTagFails s (keySlot s (s.peer (s.arg 0)).inworld) pa (s.ev.data.map (BitVec.ofNat 8)).length = false) :
    exec .inboundCopyWrite s = .next
      (inboundWrite s (s.arg 0) (s.peer (s.arg 0)).inworld pa (s.arg 2) (s.ev.data.map (BitVec.ofNat 8))) :=
  congrArg Host.Outcome.next ((if_neg (by simpa using some_)).trans (by simp only [ok, sound, Bool.false_eq_true, if_false]))

section
variable (some_ : s.arg 2 ≠ 0) (ok : inbound s (s.arg 0) (s.arg 1) (s.arg 2) false = .ok pa)
include some_ ok

/-- A read whose port is busy waits (01 R22). -/
theorem inboundCopyRead_waits (busy : portBusy s pa (s.arg 2) = true) :
    Answers .inboundCopyRead s (· = parkRequest s (s.arg 0) s.ev) :=
  ⟨_, congrArg Host.Outcome.next ((if_neg some_).trans (by simp only [ok, busy, if_true])), rfl⟩

/-- A read returns its bytes (01 R20). -/
theorem inboundCopyRead_returns (open_ : portBusy s pa (s.arg 2) = false)
    (sound : tagFails s (keySlot s (s.peer (s.arg 0)).inworld) pa (s.arg 2) = false) :
    Answers .inboundCopyRead s (· = sendPeer s (s.arg 0) (.data (s.arg 3)
      ((readBytes s (keySlot s (s.peer (s.arg 0)).inworld) pa (s.arg 2)).map (·.toNat)))) :=
  ⟨_, congrArg Host.Outcome.next ((if_neg some_).trans (by simp only [ok, open_, sound, Bool.false_eq_true, if_false])), rfl⟩

end
end

/-! ## INWORLD -/

/-- A write of INEN and INWORLD (05 R109): a confidential world is refused. -/
theorem inworldWrite_spec (s : State) (n v : Nat) :
    let t := inworldWrite s n v
    t = { s with peers := t.peers } ∧ OnlyAt s.peer t.peer n { s.peer n with
      inen := bit v 8
      inworld := if (s.world (v % 256)).conf = true ∧ (s.world (v % 256)).wstate ≠ 0 then (s.peer n).inworld else v % 256 } := by
  refine ⟨rfl, ?_⟩
  rw [← bits_low_byte]
  exact onlyAt_modPeer s n _

/-! ## Answers to remote stores (10 R204, 08 R155) -/

section
variable {s : State} {n id : Nat} {lost : Bool}

theorem find?_remote_none (unknown : ∀ r ∈ s.remotes, r.id ≠ id ∨ r.link ≠ n) :
    s.remotes.find? (fun r => r.id == id && r.link == n) = none := by
  refine List.find?_eq_none.mpr fun r hr => ?_
  have other := unknown r hr
  simp only [Bool.and_eq_true, beq_iff_eq]
  tauto

/-- An answer that nothing waits for changes nothing. -/
theorem remoteAnswer_unknown (unknown : ∀ r ∈ s.remotes, r.id ≠ id ∨ r.link ≠ n) (idle : ∀ e ∈ s.hreqs, e.1 ≠ id) :
    remoteAnswer s n id lost = s := by
  rw [remoteAnswer, find?_remote_none unknown]
  refine if_neg fun waits => ?_
  obtain ⟨e, he, named⟩ := List.any_eq_true.mp waits
  exact idle e he (beq_iff_eq.mp named)

/-- An answer to a part of a copy chunk completes it (21 R385). -/
theorem remoteAnswer_copy (unknown : ∀ r ∈ s.remotes, r.id ≠ id ∨ r.link ≠ n) (asked : ∃ e ∈ s.hreqs, e.1 = id) :
    remoteAnswer s n id lost = s.push .hostCompletion [id, (!lost).toNat] := by
  rw [remoteAnswer, find?_remote_none unknown]
  exact if_pos (by simpa using asked)

/-- An answer to a remote store settles it. -/
theorem remoteAnswer_settles {r : Remote} (known : s.remotes.find? (fun r => r.id == id && r.link == n) = some r) :
    let t := remoteAnswer s n id lost
    t.remotes = s.remotes.filter (fun x => x.id != id) ∧
    (∀ w l, t.launch w l = if launchKey w l = launchKey r.world r.launch then
      (s.launch r.world r.launch).settledOne lost else s.launch w l) ∧
    ((s.launch r.world r.launch).lstate = .ackwait → (s.launch r.world r.launch).peerpend ≤ 1 →
      event .launchDone [r.world, r.launch] ∈ t.work) ∧
    Woken { s with remotes := t.remotes, launches := t.launches } t := by
  have settles : remoteAnswer s n id lost = settleRemote s r lost := by rw [remoteAnswer, known]
  have named : r.id = id := by
    have found := List.find?_some known
    simp only [Bool.and_eq_true, beq_iff_eq] at found
    exact found.1
  obtain ⟨woken, done⟩ := settleRemote_spec s r lost
  dsimp only
  rw [settles, settleRemote_remotes, named]
  refine ⟨rfl, fun w l => ?_, done, ?_⟩
  · rw [woken.launch, State.launch_modLaunch]
    rfl
  · have launches : (settleRemote s r lost).launches =
        (s.modLaunch r.world r.launch (Launch.settledOne lost)).launches := by rw [woken.device]; rfl
    rw [launches, ← named]
    exact woken

end

end Sys2Proof.Machine
end

section
/-!
PROOFS: the freeze of a function (05 R108), and all of the inbound requests.
-/

namespace Sys2Proof.Machine

/-! ## Interfaces that go to ERROR -/

/-- What an interface's way to ERROR leaves alone: the functions, the worlds, the launches, and how every context stands. -/
structure Undisturbed (s t : State) : Prop where
  fns      : t.fns = s.fns
  worlds   : t.worlds = s.worlds
  launches : t.launches = s.launches
  states   : ∀ w k, (t.ctx w k).state = (s.ctx w k).state

theorem undisturbed_refl (s : State) : Undisturbed s s := ⟨rfl, rfl, rfl, fun _ _ => rfl⟩

theorem undisturbed_trans {a b c : State} (h : Undisturbed a b) (g : Undisturbed b c) : Undisturbed a c where
  fns := g.fns.trans h.fns
  worlds := g.worlds.trans h.worlds
  launches := g.launches.trans h.launches
  states w k := (g.states w k).trans (h.states w k)

theorem undisturbed_of_woken {s t : State} (h : Woken s t) : Undisturbed s t where
  fns := by rw [h.device]
  worlds := by rw [h.device]
  launches := by rw [h.device]
  states w k := by rw [h.ctxs w k]

theorem undisturbed_of_childrenTold {s t : State} (h : ChildrenTold s t) : Undisturbed s t where
  fns := by rw [h.device]
  worlds := by rw [h.device]
  launches := by rw [h.device]
  states := h.states

theorem undisturbed_modQueue (s : State) (q : Nat) (f : Queue → Queue) : Undisturbed s (s.modQueue q f) :=
  ⟨rfl, rfl, rfl, fun _ _ => rfl⟩

theorem undisturbed_push (s : State) (i : Instr) (as : List Nat) : Undisturbed s (s.push i as) :=
  ⟨rfl, rfl, rfl, fun _ _ => rfl⟩

theorem undisturbed_kick (s : State) (q : Nat) : Undisturbed s (kick s q) := by
  unfold kick
  dsimp only
  split
  · exact undisturbed_push s _ _
  · split
    · exact undisturbed_refl s
    · split
      · exact undisturbed_refl s
      · exact undisturbed_push s _ _
      · exact undisturbed_trans (undisturbed_modQueue s q _) (undisturbed_push _ _ _)

theorem undisturbed_nextPacket (s : State) (q : Nat) : Undisturbed s (nextPacket s q) :=
  undisturbed_trans (undisturbed_modQueue s q _) (undisturbed_kick _ q)

/-- An interface in ERROR. -/
def Queue.erred (x : Queue) : Queue := { x with istate := 3 }

/-- An interface goes to ERROR, and its WAITVALUE that waits is discarded (05 R101, 06 R119). -/
theorem interfaceError_spec (s : State) (q : Nat) :
    Undisturbed s (interfaceError s q) ∧ SameIface (s.modQueue q Queue.erred) (interfaceError s q) := by
  have marked : Woken (s.modQueue q Queue.erred) (s.onQueue q Queue.erred) := woken_onQueue s q Queue.erred
  have first : Undisturbed s (s.onQueue q Queue.erred) :=
    undisturbed_trans (undisturbed_modQueue s q Queue.erred) (undisturbed_of_woken marked)
  have erred : SameIface (s.modQueue q Queue.erred) (s.onQueue q Queue.erred) := sameIface_of_woken rfl marked
  have discards (p : Packet) :
      let t := nextPacket (discardPacket (s.onQueue q Queue.erred) q p.spawn) q
      Undisturbed s t ∧ SameIface (s.modQueue q Queue.erred) t :=
    ⟨undisturbed_trans first (undisturbed_trans
        (undisturbed_of_childrenTold (childrenTold_discardPacket _ q p.spawn)) (undisturbed_nextPacket _ q)),
      sameIface_trans erred (sameIface_trans (sameIface_discardPacket _ q p.spawn) (sameIface_nextPacket _ q))⟩
  unfold interfaceError
  dsimp only
  split
  · split
    · exact discards _
    · exact ⟨first, erred⟩
  · exact ⟨first, erred⟩

/-- An interface stays in ERROR while others go there. -/
theorem interfaceError_keeps {s : State} {q : Nat} (j : Nat) (h : (s.queue q).istate = 3) :
    ((interfaceError s j).queue q).istate = 3 := by
  rw [((interfaceError_spec s j).2 q).1, State.queue_modQueue]
  split
  · rfl
  · exact h

theorem undisturbed_foldl_interfaceError (qs : List Nat) (s : State) : Undisturbed s (qs.foldl interfaceError s) := by
  induction qs generalizing s with
  | nil => exact undisturbed_refl s
  | cons q qs ih => exact undisturbed_trans (interfaceError_spec s q).1 (ih _)

theorem foldl_interfaceError_keeps {q : Nat} (qs : List Nat) (s : State) (h : (s.queue q).istate = 3) :
    ((qs.foldl interfaceError s).queue q).istate = 3 := by
  induction qs generalizing s with
  | nil => exact h
  | cons j qs ih => exact ih _ (interfaceError_keeps j h)

theorem foldl_interfaceError_istate {q : Nat} (qs : List Nat) (s : State) (hq : q ∈ qs) :
    ((qs.foldl interfaceError s).queue q).istate = 3 := by
  induction qs generalizing s with
  | nil => cases hq
  | cons j qs ih =>
    rcases List.mem_cons.mp hq with rfl | hq
    · exact foldl_interfaceError_keeps qs _ (interfaceError_iface s q).1
    · exact ih _ hq

/-! ## A function that freezes -/

/-- A world's function that is frozen. -/
def World.frozen (x : World) : World := { x with fnFrozen := true }

/-- A function's stream whose integrity has failed. -/
def Fn.violated (stream : Nat) (f : Fn) : Fn := { f with insecure := f.insecure ++ [stream] }

/-- The violation of an IDE stream freezes its function (05 R108). -/
theorem ideIntegrityFailure_freezes (s : State) : Answers .ideIntegrityFailure s fun t =>
    (t.world (s.arg 0)).fnFrozen = true ∧ (t.fn (s.arg 0)).insecure = (s.fn (s.arg 0)).insecure ++ [s.arg 1] ∧
    (∀ q, q < 32768 → (s.queue q).owner = s.arg 0 → (t.queue q).istate = 3) ∧ t.launches = s.launches ∧
    ∀ w k, (t.ctx w k).state = (s.ctx w k).state := by
  let n := s.arg 0
  let u := (s.modFn n (Fn.violated (s.arg 1))).modWorld n World.frozen
  let v := wakePage u 0 1 n 0
  have woken : Woken u v := woken_wakePage u 0 1 n 0
  have before := undisturbed_of_woken woken
  have after := undisturbed_foldl_interfaceError (ownedQueues v n) v
  have whole := undisturbed_trans before after
  refine ⟨(ownedQueues v n).foldl interfaceError v, rfl, ?_, ?_, fun q few owns => ?_, whole.launches, whole.states⟩
  · have world := (congrArg (fun ws => tget World.zero ws n) whole.worlds).trans
      (onlyAt_modWorld (s.modFn n (Fn.violated (s.arg 1))) n World.frozen n)
    exact (congrArg World.fnFrozen world).trans (by rw [if_pos rfl]; rfl)
  · have fn := (congrArg (fun fs => tget Fn.zero fs n) whole.fns).trans (onlyAt_modFn s n (Fn.violated (s.arg 1)) n)
    exact (congrArg Fn.insecure fn).trans (by rw [if_pos rfl]; rfl)
  · refine foldl_interfaceError_istate _ v (List.mem_filter.mpr ⟨List.mem_range.mpr few, beq_iff_eq.mpr ?_⟩)
    obtain ⟨c, same, -⟩ := woken.queues q
    rw [same]
    exact owns

/-! ## All inbound requests -/

/-- What becomes of a request that is not performed, in every form. -/
theorem inbound_refusals {e : Instr} {s : State} {len : Nat} {write : Bool} {msg : PeerMsg} (judges : Judges e s len write msg) :
    let n := s.arg 0
    let o := s.arg 1
    let sent := sendPeer s n msg
    (¬ LinkUp s n → Answers e s (· = s)) ∧
    (LinkUp s n → ¬ InWindow s n o len → s.heldW = [] → Answers e s fun t =>
      OnlyAt s.peer t.peer n ((s.peer n).frozenAt o) ∧ Sets s.ready.plink t.ready.plink n false ∧
      Sets s.portPlink t.portPlink n false ∧ (∀ r ∈ t.remotes, r.link ≠ n) ∧ t.mem = s.mem ∧ t.out = s.out) ∧
    (LinkUp s n → InWindow s n o len → memReady s (windowPA s n o) = false → Answers e s fun t =>
      OnlyAt s.peer t.peer n ((s.peer n).dropped false) ∧
      Woken { s with peers := t.peers, plinks := sent.plinks, out := sent.out } t) ∧
    (LinkUp s n → InWindow s n o len → memReady s (windowPA s n o) = true → write = true →
      tableRange s (windowPA s n o) len = true → Answers e s fun t =>
        OnlyAt s.peer t.peer n ((s.peer n).dropped true) ∧
        Woken { s with peers := t.peers, plinks := sent.plinks, out := sent.out } t) := by
  refine ⟨fun down => judges.dead (inbound_dead down), fun up outside settled => ?_, fun up inside gone => ?_,
    fun up inside ready writes table => ?_⟩
  · obtain ⟨t, ht, rfl⟩ := judges.bad (inbound_bad up outside)
    exact ⟨_, ht, freezePeer_spec s _ _ settled⟩
  · obtain ⟨t, ht, rfl⟩ := judges.drop (inbound_drop up inside gone)
    exact ⟨_, ht, dropInbound_sendPeer s _ false msg⟩
  · obtain ⟨t, ht, rfl⟩ := judges.table writes
      ((inbound_ready up inside ready).trans (if_pos (by rw [writes, table]; rfl)))
    exact ⟨_, ht, dropInbound_sendPeer s _ true msg⟩

/-- The answers to remote stores, acknowledgements and refusals alike. -/
theorem remoteAnswers {e : Instr} {s : State} {lost : Bool} (he : exec e s = .next (remoteAnswer s (s.arg 0) (s.arg 1) lost)) :
    let n := s.arg 0
    let id := s.arg 1
    ((∀ r ∈ s.remotes, r.id ≠ id ∨ r.link ≠ n) →
      ((∀ x ∈ s.hreqs, x.1 ≠ id) → Answers e s (· = s)) ∧
      ((∃ x ∈ s.hreqs, x.1 = id) → Answers e s (· = s.push .hostCompletion [id, (!lost).toNat]))) ∧
    ∀ r, s.remotes.find? (fun r => r.id == id && r.link == n) = some r → Answers e s fun t =>
      t.remotes = s.remotes.filter (fun x => x.id != id) ∧
      (∀ w l, t.launch w l = if launchKey w l = launchKey r.world r.launch then
        (s.launch r.world r.launch).settledOne lost else s.launch w l) ∧
      ((s.launch r.world r.launch).lstate = .ackwait → (s.launch r.world r.launch).peerpend ≤ 1 →
        event .launchDone [r.world, r.launch] ∈ t.work) ∧
      Woken { s with remotes := t.remotes, launches := t.launches } t :=
  ⟨fun unknown => ⟨fun idle => ⟨_, he, remoteAnswer_unknown unknown idle⟩,
    fun asked => ⟨_, he, remoteAnswer_copy unknown asked⟩⟩, fun _ known => ⟨_, he, remoteAnswer_settles known⟩⟩

/-- Settles O40: each form of request goes the way of its judgement (`inbound`), a write that its port keeps performs later as
the same write would now, and what is sent depends on the link alone. -/
theorem peerRequests : Obligations.PeerRequests := by
  unfold Obligations.PeerRequests
  intro s
  refine ⟨?refusals, ?writes, fun some_ up inside ready => ?reads, ?idle, ?failed, ?thawed, ?inworld, ?settled,
    ideIntegrityFailure_freezes s⟩
  case refusals =>
    exact List.forall_mem_cons.mpr ⟨fun _ => inbound_refusals (judges_inboundRemoteStore s),
      List.forall_mem_cons.mpr ⟨fun some_ => inbound_refusals (judges_inboundCopyWrite s some_),
        List.forall_mem_singleton.mpr fun some_ => inbound_refusals (judges_inboundCopyRead s some_)⟩⟩
  case writes =>
    have admitted {len : Nat} (up : LinkUp s (s.arg 0)) (inside : InWindow s (s.arg 0) (s.arg 1) len)
        (ready : memReady s (windowPA s (s.arg 0) (s.arg 1)) = true)
        (table : tableRange s (windowPA s (s.arg 0) (s.arg 1)) len = false) :
        inbound s (s.arg 0) (s.arg 1) len true = .ok (windowPA s (s.arg 0) (s.arg 1)) :=
      (inbound_ready up inside ready).trans (if_neg (by rw [table]; decide))
    refine List.forall_mem_cons.mpr ⟨fun some_ up inside fits ready table sound => ?_,
      List.forall_mem_singleton.mpr fun some_ up inside fits ready table sound => ?_⟩
    · rw [bytesOf_length] at inside table sound
      exact inboundWrite_answers (inboundRemoteStore_performs (admitted up inside ready table) sound) fits
    · exact inboundWrite_answers (inboundCopyWrite_performs some_ (admitted up inside ready table) sound) fits
  case reads =>
    have ok : inbound s (s.arg 0) (s.arg 1) (s.arg 2) false = .ok (windowPA s (s.arg 0) (s.arg 1)) :=
      inbound_ready up inside ready
    exact ⟨inboundCopyRead_waits some_ ok, inboundCopyRead_returns some_ ok⟩
  case idle => exact fun idle => ⟨_, rfl, peerUnfreeze_idle idle⟩
  case failed =>
    refine fun frozen failed => ⟨_, rfl, ?_⟩
    rw [peerUnfreeze_failed frozen failed]
    exact woken_modPeer (woken_wakePage _ 0 8 _ 0)
  case thawed => exact fun frozen sound settled => ⟨_, rfl, peerUnfreeze_spec frozen sound settled⟩
  case inworld => exact ⟨_, rfl, inworldWrite_spec s _ _⟩
  case settled =>
    exact List.forall_mem_cons.mpr ⟨remoteAnswers (lost := false) rfl,
      List.forall_mem_singleton.mpr (remoteAnswers (lost := true) rfl)⟩

end Sys2Proof.Machine
end

section
/-!
PROOFS: the policy core restarts and recovers by its log (06 R122 to R125).
-/

namespace Sys2Proof.Machine

/-! ## What the policy core's own work leaves alone -/

/-- From s to u the policy core has worked for itself: whether it serves, what waits for it, PCGEN, the checkpoint, the quantum
and every context's state are as before, interfaces have at most woken, and follow-up steps have been added. -/
structure Underway (s u : State) : Prop where
  up         : u.core.up = s.core.up
  recovering : u.core.recovering = s.core.recovering
  pcgen      : u.pcgen = s.pcgen
  deferred   : u.deferred = s.deferred
  ckpt       : u.ckpt = s.ckpt
  quantum    : u.quantum = s.quantum
  states     : ∀ w k, (u.ctx w k).state = (s.ctx w k).state
  queues     : ∀ q, SameQueue (s.queue q) (u.queue q)
  work       : ∃ es, u.work = s.work ++ es

theorem underway_refl (s : State) : Underway s s :=
  ⟨rfl, rfl, rfl, rfl, rfl, rfl, fun _ _ => rfl, fun _ => .refl _, [], (List.append_nil _).symm⟩

theorem underway_trans {a b c : State} (h : Underway a b) (g : Underway b c) : Underway a c where
  up := g.up.trans h.up
  recovering := g.recovering.trans h.recovering
  pcgen := g.pcgen.trans h.pcgen
  deferred := g.deferred.trans h.deferred
  ckpt := g.ckpt.trans h.ckpt
  quantum := g.quantum.trans h.quantum
  states w k := (g.states w k).trans (h.states w k)
  queues q := (h.queues q).trans (g.queues q)
  work := by
    obtain ⟨e1, h1⟩ := h.work
    obtain ⟨e2, h2⟩ := g.work
    exact ⟨e1 ++ e2, by rw [h2, h1, List.append_assoc]⟩

theorem underway_of_woken {s t : State} (h : Woken s t) : Underway s t where
  up := by rw [h.device]
  recovering := by rw [h.device]
  pcgen := by rw [h.device]
  deferred := by rw [h.device]
  ckpt := by rw [h.device]
  quantum := by rw [h.device]
  states w k := by rw [h.ctxs]
  queues := h.queues
  work := h.work

theorem underway_of_performed {s t : State} (h : Performed s t) : Underway s t where
  up := by rw [h.device]
  recovering := by rw [h.device]
  pcgen := by rw [h.device]
  deferred := by rw [h.device]
  ckpt := by rw [h.device]
  quantum := by rw [h.device]
  states w k := by rw [h.ctxs w k]
  queues := h.queues
  work := h.work

/-- A state with other worlds, another log, and other names and values to come. -/
def State.withRecords (s : State) (ws : Tbl World) (l : List WalRec) (id fresh : Nat) : State :=
  { s with worlds := ws, wal := l, core := { s.core with nextId := id }, fresh := fresh }

theorem underway_withRecords (s : State) (ws : Tbl World) (l : List WalRec) (id fresh : Nat) :
    Underway s (s.withRecords ws l id fresh) :=
  ⟨rfl, rfl, rfl, rfl, rfl, rfl, fun _ _ => rfl, fun _ => .refl _, [], (List.append_nil _).symm⟩

/-- Those that wait for the core are the same. -/
theorem Underway.waiting {s u : State} (h : Underway s u) : u.waiting = s.waiting := by
  simp only [State.waiting, h.deferred, h.states]

/-! ## World 0 is made again -/

/-- World 0 is FREE and the memory of its seed map is ready (05, assumption 26). -/
def Remade (s : State) : Prop := (s.world 0).wstate = 0 ∧ bit s.ready.mgrp 0 = true

theorem bootWorld0_stays {s : State} (h : ¬ Remade s) : bootWorld0 s = s := if_neg fun g => h g.2

/-- World 0 as the core makes it (05): all memory below the protected region, and a fresh scrambler key. -/
def World.made (s : State) (x : World) : World :=
  { x with
    fmask := 0x1F, tregion := 0, ranges := [(0, 6 * s.ready.grpBytes / 2 ^ 30 - 1)] ++ List.replicate 7 (0, 0), wstate := 2
    scrambler := Config.scramblerKey s.fresh }

theorem performed_writeSeed (s : State) (w : Nat) : Performed s (writeSeed s w) := performed_performCells _ _ _ _ _

theorem bootWorld0_eq {s : State} (up : s.core.up = true) (h : Remade s) : ∃ l, bootWorld0 s =
    writeSeed (s.withRecords (s.modWorld 0 (World.made s)).worlds l (s.core.nextId + 1) (s.fresh + 1)) 0 := by
  obtain ⟨l, logged, -⟩ := logOnce_spec s txCreate 0 [(pagePA 1 0 0, 0, 2)]
  refine ⟨l, ?_⟩
  rw [bootWorld0, if_pos ⟨up, h⟩, logged]
  rfl

/-- The world that is made keeps its count of WCMD stores; the rest is the core's own work. -/
theorem bootWorld0_makes {s : State} (up : s.core.up = true) (h : Remade s) :
    Underway s (bootWorld0 s) ∧ ((bootWorld0 s).world 0).wstate = 2 ∧
      ((bootWorld0 s).world 0).wcmdCnt = (s.world 0).wcmdCnt := by
  obtain ⟨l, boots⟩ := bootWorld0_eq up h
  rw [boots]
  have kept := underway_withRecords s (s.modWorld 0 (World.made s)).worlds l (s.core.nextId + 1) (s.fresh + 1)
  have seeded := performed_writeSeed (s.withRecords (s.modWorld 0 (World.made s)).worlds l (s.core.nextId + 1) (s.fresh + 1)) 0
  have made : (writeSeed _ 0).world 0 = (s.world 0).made s :=
    (congrArg (fun ws => tget World.zero ws 0) seeded.worlds).trans (onlyAt_modWorld s 0 (World.made s) 0)
  exact ⟨underway_trans kept (underway_of_performed seeded), congrArg World.wstate made, (congrArg World.wcmdCnt made).trans rfl⟩

theorem underway_bootWorld0 {s : State} (up : s.core.up = true) : Underway s (bootWorld0 s) := by
  by_cases h : Remade s
  · exact (bootWorld0_makes up h).1
  · rw [bootWorld0_stays h]
    exact underway_refl s

/-! ## Service resumes (06 R124, R125) -/

/-- The steps with which a checkpoint or a restore goes on (07 R130). -/
def Ckpt.steps (e : Ckpt) : List Event :=
  match e.estate with
  | 1 => [event .ckptStopped []]
  | 2 => [event .ckptDieshardsDone []]
  | 3 => (e.op.elim [] fun o => o.left.map fun p => event .ckptPageCopied [p]) ++ [event .ckptMemshardsDone []]
  | 4 => [event .ckptManifestDone []]
  | 5 => [event .restoreDone []]
  | _ => []

/-- The step with which the end of a quantum that waited goes on (08 R142). -/
def Quantum.steps (z : Quantum) : List Event := if z.deferred then [event .quantumEnd []] else []

/-- The core serves again. -/
def State.serving (s : State) : State :=
  { s with core := { s.core with up := true, recovering := false }, pcgen := s.pcgen + 1 }

/-- The checkpoint and the end of the quantum go on. -/
def State.goesOn (s : State) : State :=
  { s with quantum := { s.quantum with deferred := false }, work := s.work ++ s.ckpt.steps ++ s.quantum.steps }

theorem resumeCkpt_eq (s : State) : resumeCkpt s = { s with work := s.work ++ s.ckpt.steps } := by
  unfold resumeCkpt Ckpt.steps
  generalize s.ckpt.estate = n
  match n with
  | 3 => cases s.ckpt.op <;> simp
  | 0 | n + 6 => simp
  | 1 | 2 | 4 | 5 => rfl

theorem goesOn_eq (s : State) : State.goesOn s =
    (let u := resumeCkpt s
     if u.quantum.deferred then { u with quantum := { u.quantum with deferred := false } }.push .quantumEnd [] else u) := by
  rw [resumeCkpt_eq]
  cases h : s.quantum.deferred <;> simp [State.goesOn, Quantum.steps, State.push, h]
  rw [← h]

theorem resumeService_eq (s : State) : resumeService s =
    (touchLines (bootWorld0 s.serving).goesOn (pagePA 2 0 0 / 64) (pagePA 2 32767 0xFFF / 64) 0).drain := by
  rw [goesOn_eq]
  rfl

theorem woken_drain (s : State) : Woken s s.drain := by
  obtain ⟨es, h⟩ := drain_frame s
  rw [h]
  exact woken_push s es

theorem woken_resumeService (s : State) : Woken (bootWorld0 s.serving).goesOn (resumeService s) := by
  rw [resumeService_eq]
  exact woken_trans (woken_touchLines _ _ _ _) (woken_drain _)

/-- While the core serves, the oldest store that waits is tried. -/
theorem drain_tries {s : State} (up : s.core.up = true) {e : Event} {r : List Waiter} (h : s.waiting = .ev e :: r) :
    e ∈ s.drain.work := by
  rw [State.drain, h]
  dsimp only
  split
  · exact List.mem_append_right _ (List.mem_singleton_self e)
  · next no => simpa [up] using no

/-- From s to t service has resumed (06 R125). -/
def Resumes (s t : State) : Prop :=
  t.core.up = true ∧ t.core.recovering = false ∧ t.pcgen = s.pcgen + 1 ∧ t.deferred = s.deferred ∧
    (∃ es, t.work = s.work ++ es) ∧ ∀ e r, s.waiting = .ev e :: r → e ∈ t.work

/-- Service resumes also after the core's own work. -/
theorem Underway.resumes {s u t : State} (h : Underway s u) (g : Resumes u t) : Resumes s t := by
  obtain ⟨up, rec, pcgen, deferred, ⟨es, work⟩, tried⟩ := g
  obtain ⟨es', work'⟩ := h.work
  exact ⟨up, rec, by rw [pcgen, h.pcgen], deferred.trans h.deferred, ⟨es' ++ es, by rw [work, work', List.append_assoc]⟩,
    fun e r first => tried e r (h.waiting.trans first)⟩

theorem resumeService_resumes (s : State) : Resumes s (resumeService s) := by
  have boots : Underway s.serving (bootWorld0 s.serving) := underway_bootWorld0 rfl
  have woken := woken_resumeService s
  obtain ⟨es, more⟩ := woken.work
  obtain ⟨es', booted⟩ := boots.work
  refine ⟨?_, ?_, ?_, ?_, ⟨es' ++ (s.ckpt.steps ++ s.quantum.steps ++ es), ?_⟩, fun e r first => ?_⟩
  · rw [woken.device]
    exact boots.up
  · rw [woken.device]
    exact boots.recovering
  · rw [woken.device]
    exact boots.pcgen
  · rw [woken.device]
    exact boots.deferred
  · rw [more, State.goesOn, booted, boots.ckpt, boots.quantum]
    simp [State.serving]
  · have touched := underway_of_woken
      (woken_touchLines (bootWorld0 s.serving).goesOn (pagePA 2 0 0 / 64) (pagePA 2 32767 0xFFF / 64) 0)
    rw [resumeService_eq]
    exact drain_tries (touched.up.trans boots.up) (touched.waiting.trans (boots.waiting.trans first))

/-- The checkpoint stays as it is, the end of the quantum waits no longer, and interfaces only wake. -/
theorem resumeService_keeps (s : State) :
    (resumeService s).ckpt = s.ckpt ∧ (resumeService s).quantum = { s.quantum with deferred := false } ∧
      ∀ q, SameQueue (s.queue q) ((resumeService s).queue q) := by
  have boots : Underway s.serving (bootWorld0 s.serving) := underway_bootWorld0 rfl
  have woken := woken_resumeService s
  refine ⟨?_, ?_, fun q => (boots.queues q).trans (woken.queues q)⟩
  · rw [woken.device]
    exact boots.ckpt
  · rw [woken.device]
    exact congrArg (fun z : Quantum => { z with deferred := false }) boots.quantum

/-- What waited for the core goes on. -/
theorem resumeService_steps (s : State) : ∀ e ∈ s.ckpt.steps ++ s.quantum.steps, e ∈ (resumeService s).work := by
  intro e he
  have boots : Underway s.serving (bootWorld0 s.serving) := underway_bootWorld0 rfl
  obtain ⟨es, more⟩ := (woken_resumeService s).work
  rw [more, State.goesOn, boots.ckpt, boots.quantum, List.append_assoc _ _ (Quantum.steps _)]
  exact List.mem_append_left _ (List.mem_append_right _ he)

theorem resumeService_stays {s : State} (h : ¬ Remade s) :
    (resumeService s).mem = s.mem ∧ (resumeService s).worlds = s.worlds ∧ (resumeService s).wal = s.wal := by
  have woken := woken_resumeService s
  rw [bootWorld0_stays (s := s.serving) h] at woken
  rw [woken.device]
  exact ⟨rfl, rfl, rfl⟩

theorem resumeService_remakes {s : State} (h : Remade s) :
    ((resumeService s).world 0).wstate = 2 ∧ ((resumeService s).world 0).wcmdCnt = (s.world 0).wcmdCnt := by
  rw [State.world, (woken_resumeService s).device]
  exact (bootWorld0_makes (s := s.serving) rfl h).2

/-! ## Recovery (06 R124) -/

/-- Only checkpoints and restores are open, which are paused (assumption 67). -/
def Paused (s : State) : Prop := ∀ x ∈ s.openTxns, x.2.1 = txCkpt ∨ x.2.1 = txRestore

theorem pausedTxn_iff (kind : Nat) : pausedTxn kind = true ↔ kind = txCkpt ∨ kind = txRestore := by
  simp [pausedTxn]

theorem recovered_iff (s : State) : recovered s = true ↔ Paused s := by
  simp only [recovered, List.all_eq_true, pausedTxn_iff, Paused]

/-- The core recovers. -/
def State.recovery (s : State) : State := { s with core := { s.core with recovering := true, verified := true } }

section
variable {s : State} {failed : Nat}

theorem recover_idle (h : s.core.up = true ∨ bit s.ready.iod 0 = false) : recover s failed = s :=
  if_pos (by simpa using h)

variable (down : s.core.up = false) (ready : bit s.ready.iod 0 = true)
include down ready

theorem recover_continues (h : s.core.recovering = true) :
    recover s failed = if recovered s then resumeService s else s := by
  rw [recover, if_neg (by simp [down, ready]), if_pos h]

theorem recover_unverified (h : s.core.recovering = false) (bad : failed ≠ 0) :
    recover s failed = { s with core := { s.core with verified := false } } := by
  rw [recover, if_neg (by simp [down, ready]), if_neg (by simp [h]), if_pos bad]

theorem recover_begins (h : s.core.recovering = false) :
    recover s 0 = (let u := s.openTxns.foldl recoverTxn s.recovery
      if recovered u then resumeService u else u) := by
  rw [recover, if_neg (by simp [down, ready]), if_neg (by simp [h]), if_neg (by simp)]
  rfl

end

/-- What is paused is left to the service. -/
theorem foldl_recoverTxn_paused (xs : List (Nat × Nat × Nat)) (s : State)
    (h : ∀ x ∈ xs, x.2.1 = txCkpt ∨ x.2.1 = txRestore) : xs.foldl recoverTxn s = s := by
  induction xs with
  | nil => rfl
  | cons x xs ih =>
    have paused : recoverTxn s x = s := if_pos ((pausedTxn_iff _).mpr (h x (List.mem_cons_self ..)))
    rw [List.foldl_cons, paused]
    exact ih fun y hy => h y (List.mem_cons_of_mem _ hy)

/-- With nothing open but what is paused, service resumes at once. -/
theorem recover_serves {s : State} {failed : Nat} (down : s.core.up = false) (ready : bit s.ready.iod 0 = true)
    (goes : s.core.recovering = true ∨ failed = 0) (paused : Paused s) :
    recover s failed = resumeService s ∨ recover s failed = resumeService s.recovery := by
  cases again : s.core.recovering with
  | true =>
    rw [recover_continues down ready again, if_pos ((recovered_iff s).mpr paused)]
    exact .inl rfl
  | false =>
    obtain rfl : failed = 0 := goes.resolve_left fun h => nomatch again.symm.trans h
    rw [recover_begins down ready again, foldl_recoverTxn_paused _ _ paused]
    exact .inr (if_pos ((recovered_iff s.recovery).mpr paused))

/-- From s to t service has resumed behind what was paused. -/
def ServiceBack (s t : State) : Prop :=
  Resumes s t ∧ t.ckpt = s.ckpt ∧ t.quantum = { s.quantum with deferred := false } ∧
    (∀ q, SameQueue (s.queue q) (t.queue q)) ∧
    (s.quantum.deferred = true → event .quantumEnd [] ∈ t.work) ∧
    (s.ckpt.estate = 1 → event .ckptStopped [] ∈ t.work) ∧
    (s.ckpt.estate = 2 → event .ckptDieshardsDone [] ∈ t.work) ∧
    (∀ o, s.ckpt.estate = 3 → s.ckpt.op = some o → event .ckptMemshardsDone [] ∈ t.work ∧
      ∀ p ∈ o.left, event .ckptPageCopied [p] ∈ t.work) ∧
    (s.ckpt.estate = 4 → event .ckptManifestDone [] ∈ t.work) ∧
    (s.ckpt.estate = 5 → event .restoreDone [] ∈ t.work) ∧
    (¬ Remade s → t.mem = s.mem ∧ t.worlds = s.worlds ∧ t.wal = s.wal) ∧
    (Remade s → (t.world 0).wstate = 2 ∧ (t.world 0).wcmdCnt = (s.world 0).wcmdCnt)

theorem resumeService_back (s : State) : ServiceBack s (resumeService s) := by
  obtain ⟨ckpt, quantum, queues⟩ := resumeService_keeps s
  have checkpoint (e : Event) (he : e ∈ s.ckpt.steps) := resumeService_steps s e (List.mem_append_left _ he)
  have ended (e : Event) (he : e ∈ s.quantum.steps) := resumeService_steps s e (List.mem_append_right _ he)
  refine ⟨resumeService_resumes s, ckpt, quantum, queues, fun h => ended _ ?_, fun h => checkpoint _ ?_,
    fun h => checkpoint _ ?_, fun o h op => ⟨checkpoint _ ?_, fun p hp => checkpoint _ ?_⟩, fun h => checkpoint _ ?_,
    fun h => checkpoint _ ?_, resumeService_stays, resumeService_remakes⟩
  · simp [Quantum.steps, h]
  · simp [Ckpt.steps, h]
  · simp [Ckpt.steps, h]
  · simp [Ckpt.steps, h]
  · simp only [Ckpt.steps, h, op, Option.elim_some]
    exact List.mem_append_left _ (List.mem_map_of_mem hp)
  · simp [Ckpt.steps, h]
  · simp [Ckpt.steps, h]

/-! ## One transaction that a restart has interrupted -/

theorem place_worldPage (s : State) {w : Nat} (hw : w < 129) : place s (pagePA 1 w 0) = .page 1 w 0 := by
  have region : bits (pagePA 1 w 0) 51 48 = 9 := by simp only [bits, pagePA]; omega
  have kind : bits (pagePA 1 w 0) 47 40 = 1 := by simp only [bits, pagePA]; omega
  have index : bits (pagePA 1 w 0) 39 12 = w := by simp only [bits, pagePA]; omega
  have offset : bits (pagePA 1 w 0) 11 0 = 0 := by simp only [bits, pagePA]; omega
  simp [place, region, kind, index, offset, pageCount, hw]

/-- A world whose state word takes a value (05 R96). -/
def World.withState (v : Nat) (x : World) : World := { x with wstate := v % 8, conf := bit v 8 }

theorem woken_writeStateWord (s : State) {w : Nat} (hw : w < 129) (v : Nat) :
    Woken (s.modWorld w (World.withState v)) (writeStateWord s (pagePA 1 w 0) v) := by
  rw [writeStateWord, place_worldPage s hw]
  exact woken_wakePage _ 0 1 w 0

theorem log_eq {s : State} (r : WalRec) (room : s.wal.length < walRing) : s.log r = { s with wal := s.wal ++ [r] } := by
  have kept : s.wal.length + 1 - walRing = 0 := by omega
  simp [State.log, kept]

/-- The fresh keys of a world are zeroised. -/
def World.keyless (x : World) : World := { x with scrambler := 0, streams := [] }

theorem underway_modWorld (s : State) (w : Nat) (f : World → World) : Underway s (s.modWorld w f) :=
  underway_withRecords s (s.modWorld w f).worlds s.wal s.core.nextId s.fresh

theorem underway_writeStateWord (s : State) {w : Nat} (hw : w < 129) (v : Nat) :
    Underway s (writeStateWord s (pagePA 1 w 0) v) :=
  underway_trans (underway_modWorld s w _) (underway_of_woken (woken_writeStateWord s hw v))

theorem onlyAt_writeStateWord (s : State) {w : Nat} (hw : w < 129) (v : Nat) :
    OnlyAt s.world (writeStateWord s (pagePA 1 w 0) v).world w ((s.world w).withState v) := by
  intro j
  rw [State.world, (woken_writeStateWord s hw v).device]
  exact onlyAt_modWorld s w (World.withState v) j

theorem wal_writeStateWord (s : State) {w : Nat} (hw : w < 129) (v : Nat) :
    (writeStateWord s (pagePA 1 w 0) v).wal = s.wal :=
  (woken_wal (woken_writeStateWord s hw v)).trans rfl

section
variable {s : State} {id w old new n : Nat}

theorem recovery_undoes (h : s.wal = [.begin_ id txCreate w, .write id (pagePA 1 w 0) old new, .step id 1]) :
    s.openTxns.foldl recoverTxn s.recovery = undoTxn s.recovery id txCreate w := by
  have begun : s.openTxns = [(id, txCreate, w)] := by simp [State.openTxns, h]
  simp [begun, recoverTxn, pausedTxn, State.recovery, h, txCreate, txCkpt, txRestore]

theorem recovery_redoes (h : s.wal = [.begin_ id txDestroy w, .write id (pagePA 1 w 0) old new, .commit id, .step id n]) :
    s.openTxns.foldl recoverTxn s.recovery = redoTxn s.recovery id txDestroy w := by
  have begun : s.openTxns = [(id, txDestroy, w)] := by simp [State.openTxns, h]
  simp [begun, recoverTxn, pausedTxn, State.recovery, h, txDestroy, txCkpt, txRestore]

/-- A destruction that has committed is redone: the world has its new state, and the destruction goes on. -/
theorem redoTxn_destroy (h : s.wal = [.begin_ id txDestroy w, .write id (pagePA 1 w 0) old new, .commit id, .step id n]) :
    redoTxn s id txDestroy w = (writeStateWord s (pagePA 1 w 0) new).push .destroyComplete [w] := by
  have writes : writesOf s id = [(pagePA 1 w 0, old, new)] := by simp [writesOf, h]
  rw [redoTxn, writes]
  rfl

variable (hw : w < 129)
include hw

/-- A creation that has not committed is undone: the world has its old state, and its fresh keys are gone. -/
theorem undoTxn_create (h : s.wal = [.begin_ id txCreate w, .write id (pagePA 1 w 0) old new, .step id 1]) :
    let t := undoTxn s id txCreate w
    Underway s t ∧ t.wal = s.wal ++ [.fin id] ∧ OnlyAt s.world t.world w ((s.world w).withState old).keyless := by
  have writes : writesOf s id = [(pagePA 1 w 0, old, new)] := by simp [writesOf, h]
  let u := writeStateWord s (pagePA 1 w 0) old
  have undoes : undoTxn s id txCreate w = (u.modWorld w World.keyless).log (.fin id) := by
    rw [undoTxn, writes]
    rfl
  have wal : u.wal = s.wal := wal_writeStateWord s hw old
  have room : s.wal.length < walRing := by
    have few : 3 < walRing := by decide
    simpa [h] using few
  have logged : (u.modWorld w World.keyless).log (.fin id) =
      u.withRecords (u.modWorld w World.keyless).worlds (s.wal ++ [.fin id]) u.core.nextId u.fresh := by
    rw [log_eq _ (by rwa [State.modWorld_wal, wal]), State.modWorld_wal, wal]
    rfl
  intro t
  rw [show t = _ from undoes.trans logged]
  refine ⟨underway_trans (underway_writeStateWord s hw old) (underway_withRecords u _ _ _ _), rfl, fun j => ?_⟩
  refine (onlyAt_modWorld u w World.keyless j).trans ?_
  rw [onlyAt_writeStateWord s hw old j, onlyAt_writeStateWord s hw old w, if_pos rfl]
  split <;> rfl

/-- The creation is undone, and service resumes (06 R124). -/
theorem recover_undoes (down : s.core.up = false) (ready : bit s.ready.iod 0 = true) (fresh : s.core.recovering = false)
    (made : (s.world 0).wstate ≠ 0) (other : w ≠ 0)
    (h : s.wal = [.begin_ id txCreate w, .write id (pagePA 1 w 0) old new, .step id 1]) :
    let t := recover s 0
    Resumes s t ∧ t.wal = s.wal ++ [.fin id] ∧
      OnlyAt s.world t.world w { s.world w with wstate := old % 8, conf := bit old 8, scrambler := 0, streams := [] } := by
  let u := undoTxn s.recovery id txCreate w
  obtain ⟨underway, wal, world⟩ : Underway s.recovery u ∧ u.wal = s.wal ++ [.fin id] ∧
    OnlyAt s.world u.world w ((s.world w).withState old).keyless := undoTxn_create (s := s.recovery) hw h
  have finished : recovered u = true := (recovered_iff u).mpr (by simp [Paused, State.openTxns, wal, h])
  have served : recover s 0 = resumeService u := by
    rw [recover_begins down ready fresh, recovery_undoes h]
    exact if_pos finished
  have unmade : ¬ Remade u := fun g => made ((congrArg World.wstate ((world 0).trans (if_neg (Ne.symm other)))).symm.trans g.1)
  obtain ⟨-, worlds, log⟩ := resumeService_stays unmade
  have resumes : Resumes s.recovery (resumeService u) := underway.resumes (resumeService_resumes u)
  intro t
  rw [show t = _ from served]
  refine ⟨resumes, log.trans wal, fun j => ?_⟩
  exact (congrArg (fun ws => tget World.zero ws j) worlds).trans (world j)

/-- The destruction goes on, and service does not resume before its end (06 R124). -/
theorem recover_redoes (down : s.core.up = false) (ready : bit s.ready.iod 0 = true) (fresh : s.core.recovering = false)
    (h : s.wal = [.begin_ id txDestroy w, .write id (pagePA 1 w 0) old new, .commit id, .step id n]) :
    let t := recover s 0
    t.core.up = false ∧ t.core.recovering = true ∧ event .destroyComplete [w] ∈ t.work ∧ t.pcgen = s.pcgen ∧ t.wal = s.wal ∧
      OnlyAt s.world t.world w { s.world w with wstate := new % 8, conf := bit new 8 } := by
  let u := writeStateWord s.recovery (pagePA 1 w 0) new
  have underway : Underway s.recovery u := underway_writeStateWord s.recovery hw new
  have wal : u.wal = s.wal := wal_writeStateWord s.recovery hw new
  have unfinished : ¬ recovered (u.push .destroyComplete [w]) = true := by
    have log : (u.push .destroyComplete [w]).wal = s.wal := wal
    rw [recovered_iff]
    simp [Paused, State.openTxns, log, h, txDestroy, txCkpt, txRestore]
  have stands : recover s 0 = u.push .destroyComplete [w] := by
    rw [recover_begins down ready fresh, recovery_redoes h, redoTxn_destroy (s := s.recovery) h]
    exact if_neg unfinished
  intro t
  rw [show t = _ from stands]
  exact ⟨underway.up.trans down, underway.recovering, List.mem_append_right _ (List.mem_singleton_self _), underway.pcgen, wal,
    onlyAt_writeStateWord s.recovery hw new⟩

end

/-! ## The watchdog and the recovery -/

/-- Settles O49: the watchdog's reset, and the recovery by what it finds: nothing to recover, only what is paused, a creation
to undo, or a destruction to redo. -/
theorem policyCore : Obligations.PolicyCore := by
  unfold Obligations.PolicyCore
  intro s
  refine ⟨⟨_, rfl, rfl⟩, fun idle => ⟨_, rfl, recover_idle idle⟩, fun down ready => ⟨fun again open_ => ⟨_, rfl, ?open_⟩,
    fun first bad => ⟨_, rfl, recover_unverified down ready first bad⟩, fun goes paused => ?paused,
    fun id w old new hw first verified made => ⟨fun other h => ⟨_, rfl, ?undone⟩, fun n h => ⟨_, rfl, ?redone⟩⟩⟩⟩
  case open_ => exact (recover_continues down ready again).trans (if_neg fun h => open_ ((recovered_iff s).mp h))
  case paused =>
    rcases recover_serves down ready goes paused with h | h
    · exact ⟨_, congrArg Host.Outcome.next h, resumeService_back s⟩
    · exact ⟨_, congrArg Host.Outcome.next h, resumeService_back s.recovery⟩
  case undone =>
    rw [verified]
    exact recover_undoes hw down ready first made other h
  case redone =>
    rw [verified]
    exact recover_redoes hw down ready first h

end Sys2Proof.Machine
end

section
/-!
PROOFS: what ends with an interface leaves the log as it is, and where the interface then stands (05 R101, 06 R113).
-/

namespace Sys2Proof.Machine

/-! ## The end of an interface writes no record of the log -/

theorem wal_ite {l : List WalRec} {p : Prop} [Decidable p] {a b : State} (ha : a.wal = l) (hb : b.wal = l) :
    (if p then a else b).wal = l := by
  split <;> assumption

theorem foldl_wal {α : Type} {f : State → α → State} (h : ∀ s x, (f s x).wal = s.wal) (l : List α) (s : State) :
    (l.foldl f s).wal = s.wal := by
  induction l generalizing s with
  | nil => rfl
  | cons x l ih => rw [List.foldl_cons, ih, h]

theorem wakePage_wal (s : State) (w kind idx off : Nat) : (wakePage s w kind idx off).wal = s.wal := rfl

theorem setCtxState_wal (s : State) (w k : Nat) (st : CtxState) : (s.setCtxState w k st).wal = s.wal :=
  (woken_wal (woken_setCtxState s w k st)).trans rfl

theorem settled_wal (s : State) (w k : Nat) : (settled s w k).wal = s.wal :=
  (woken_wal (woken_settled s w k)).trans (wal_ite rfl rfl)

theorem launchEnd_wal (s : State) (w l : Nat) : (launchEnd s w l).wal = s.wal := by
  unfold launchEnd
  extract_lets x dead s1
  have ended : s1.wal = s.wal := wakePage_wal _ w 3 l 0
  exact wal_ite (wal_ite ended ended) rfl

theorem releaseAlloc_wal (s : State) (w core off size : Nat) : (releaseAlloc s w core off size).wal = s.wal :=
  wal_ite rfl rfl

theorem gangEnd_wal (s : State) (w l g : Nat) : (gangEnd s w l g).wal = s.wal := by
  unfold gangEnd
  extract_lets x gg first s1 s2 s3
  have emptied : s1.wal = s.wal := foldl_wal (fun u k => setCtxState_wal u w k .empty) _ _
  have released : s2.wal = s1.wal := foldl_wal (fun u a => releaseAlloc_wal u w _ _ _) _ _
  have woken : (wakePage s3 w 3 l 0).wal = s2.wal := wakePage_wal s3 w 3 l 0
  exact wal_ite (woken.trans (released.trans emptied)) rfl

theorem killCtx_wal (s : State) (w k : Nat) : (killCtx s w k).wal = s.wal := by
  have gone : (discarded s w k).wal = s.wal := wal_ite rfl rfl
  have dead := (settled_wal ((discarded s w k).setCtxState w k .dead) w k).trans (setCtxState_wal _ w k .dead)
  rw [killCtx_eq]
  exact (launchEnd_wal _ w _).trans ((gangEnd_wal _ w _ _).trans (dead.trans gone))

theorem killAll_wal (s : State) (w l : Nat) (root : Bool) : (killAll s w l root).wal = s.wal := by
  have visited : (killVisits s w l root).wal = s.wal :=
    foldl_wal (f := killLive w root) (fun u k => wal_ite rfl (killCtx_wal u w k)) _ (launchDiscarded s w l)
  rw [killAll_eq]
  exact (launchEnd_wal _ w l).trans ((wakePage_wal _ w 3 l 0).trans visited)

theorem killCarried_wal (s : State) (q : Nat) : (killCarried s q).wal = s.wal :=
  foldl_wal (fun u l => wal_ite (killAll_wal (u.modLaunch _ l _) _ l true) rfl) _ s

theorem ChildrenTold.wal {s t : State} (h : ChildrenTold s t) : t.wal = s.wal := by rw [h.device]

theorem ChildrenTold.queue {s t : State} (h : ChildrenTold s t) (q : Nat) : t.queue q = s.queue q := by
  rw [State.queue, h.device]
  rfl

theorem dropPackets_wal (s : State) (q : Nat) : (dropPackets s q).wal = s.wal := by
  unfold dropPackets
  extract_lets x gone s1 s2
  have told : s2.wal = s1.wal := by
    unfold s2
    split
    · exact (childrenTold_discardPacket s1 q _).wal
    · rfl
  have emptied : s1.wal = s.wal := (woken_wal (woken_onQueue s q Queue.dropped)).trans rfl
  exact (foldl_wal (fun u c => (childrenTold_discardPacket u q (some c)).wal) gone s2).trans (told.trans emptied)

theorem stopInterface_wal (s : State) (q : Nat) : (stopInterface s q).wal = s.wal := by
  rw [stopInterface_eq, dropPackets_wal, killCarried_wal, State.modQueue_wal]

/-! ## Where the interface then stands -/

/-- An interface that has stopped is unlocked and without packets, and all else of it is as before (05 R101). -/
theorem stopInterface_queue (s : State) (q : Nat) : (stopInterface s q).queue q = (s.queue q).unlocked.dropped := by
  obtain ⟨c, carried, -⟩ := (winding_killCarried (s.modQueue q Queue.unlocked) q).queues q
  rw [stopInterface_eq, (dropPackets_spec _ q).1, carried, State.queue_modQueue, if_pos rfl]
  rfl

/-- An interface in ERROR, with its packets and its wait as they are given. -/
def Queue.erredWith (x : Queue) (c : Option Packet) (o : List QSrc) (b : Bool) : Queue :=
  { x with istate := 3, cur := c, order := o, waiting := b }

theorem kick_queue (s : State) (q : Nat) : ∃ c o, (kick s q).queue q = { s.queue q with cur := c, order := o } := by
  unfold kick
  dsimp only
  split
  · exact ⟨_, _, rfl⟩
  · split
    · exact ⟨_, _, rfl⟩
    · split
      · exact ⟨_, _, rfl⟩
      · exact ⟨_, _, rfl⟩
      · simp only [State.queue_push, State.queue_modQueue, if_true]
        exact ⟨_, _, rfl⟩

theorem nextPacket_queue (s : State) (q : Nat) :
    ∃ c o, (nextPacket s q).queue q = { s.queue q with cur := c, order := o, waiting := false } := by
  obtain ⟨c, o, h⟩ := kick_queue (s.modQueue q fun x => { x with cur := none, waiting := false }) q
  rw [State.queue_modQueue, if_pos rfl] at h
  exact ⟨c, o, h⟩

theorem interfaceError_queue (s : State) (q : Nat) :
    ∃ c o b, (interfaceError s q).queue q = (s.queue q).erredWith c o b := by
  obtain ⟨c, marked, -⟩ := (woken_onQueue s q Queue.erred).queues q
  rw [State.queue_modQueue, if_pos rfl] at marked
  have stands : ∃ c o b, (s.onQueue q Queue.erred).queue q = (s.queue q).erredWith c o b := ⟨_, _, _, marked⟩
  unfold interfaceError
  dsimp only
  split
  · next p _ =>
    split
    · obtain ⟨c, o, next⟩ := nextPacket_queue (discardPacket (s.onQueue q Queue.erred) q p.spawn) q
      rw [(childrenTold_discardPacket (s.onQueue q Queue.erred) q p.spawn).queue, marked] at next
      exact ⟨c, o, false, next⟩
    · exact stands
  · exact stands

/-- A violation takes the interface to ERROR, and leaves its configuration (06 R112). -/
theorem toError_queue (s : State) (q : Nat) : ∃ c o b, (toError s q).queue q = (s.queue q).erredWith c o b := by
  obtain ⟨d, carried, -⟩ := (winding_killCarried s q).queues q
  obtain ⟨c, o, b, h⟩ := interfaceError_queue (killCarried s q) q
  exact ⟨c, o, b, by rw [toError, h, carried]; rfl⟩

end Sys2Proof.Machine
end

section
/-!
PROOFS: QCMD (06 R113), and stores that the policy core performs (06 R125).
-/

namespace Sys2Proof.Machine

/-! ## A store that goes -/

/-- Where a store may go, it does what it does, and the next that waits may be tried. -/
theorem serve_goes {s : State} {r : List Waiter} (go : MayGo s r) (f : State → State) :
    ∃ es, s.serve f = { f { s with deferred := r } with work := (f { s with deferred := r }).work ++ es } := by
  rw [serve_mayGo s f r go]
  obtain ⟨-, ⟨none_, rfl⟩ | some_⟩ := go
  · rw [if_pos none_]
    exact ⟨[], by rw [List.append_nil]⟩
  · rw [if_neg (by rw [some_]; exact List.cons_ne_nil _ _)]
    exact drain_frame _

theorem answers_goes {e : Instr} {s : State} {f : State → State} {r : List Waiter} {P : State → Prop}
    (he : exec e s = .next (s.serve f)) (go : MayGo s r)
    (h : ∀ es, P { f { s with deferred := r } with work := (f { s with deferred := r }).work ++ es }) : Answers e s P := by
  obtain ⟨es, served⟩ := serve_goes go f
  exact ⟨_, he, by rw [served]; exact h es⟩

theorem deferred_mustWait {e : Instr} {s : State} {f : State → State} (he : exec e s = .next (s.serve f)) (h : MustWait s) :
    Deferred e s :=
  ⟨_, he, serve_mustWait s f h⟩

/-! ## What QCMD does -/

/-- A queue page that shows one more QCMD store and its result (06 R113). -/
def Queue.counted (n : Nat) (x : Queue) : Queue := { x with qcmdCnt := x.qcmdCnt + 1, qcmdStat := n }

theorem sameQueue_counted (n : Nat) (x y : Queue) (h : SameQueue x y) : SameQueue (x.counted n) (y.counted n) := by
  obtain ⟨c, rfl, hc⟩ := h
  exact ⟨c, rfl, hc⟩

/-- An interface without a packet in hand has none to test. -/
theorem SameQueue.idle {x y : Queue} (h : SameQueue x y) (hc : x.cur = none) : y = x := by
  obtain ⟨c, rfl, rfl | ⟨p, b, hp, -⟩⟩ := h
  · rfl
  · cases hc.symm.trans hp

theorem woken_qcmdResult (s : State) (q n : Nat) : Woken (s.modQueue q (Queue.counted n)) (qcmdResult s q n) :=
  woken_wakePage _ 0 2 q 0

section
variable {s : State} {q v : Nat}

theorem qcmd_other {who : Nat} (h : who ≠ 0) : qcmd s q v who = s := if_pos h

theorem qcmd_confidential (h : (s.world (s.queue q).owner).conf = true) : qcmd s q v 0 = qcmdResult s q 2 := by
  simp [qcmd, h]

theorem assignable_iff (x : Queue) : assignable s x = true ↔ inRegion s x.owner x.root = true ∧ x.vector < 2048 := by
  simp [assignable]

variable (open_ : (s.world (s.queue q).owner).conf = false)
include open_

theorem qcmd_start_again (h : (s.queue q).istate ≠ 0) : qcmd s q 1 0 = qcmdResult s q 1 := by
  simp [qcmd, open_, h]

theorem qcmd_starts (h : (s.queue q).istate = 0)
    (good : (s.world (s.queue q).owner).wstate = 2 ∧ assignable s (s.queue q) = true) :
    qcmd s q 1 0 = qcmdResult (interfaceTo s txQcmd q 2) q 0 := by
  simp [qcmd, open_, h, good]

theorem qcmd_start_denied (h : (s.queue q).istate = 0)
    (bad : ¬ ((s.world (s.queue q).owner).wstate = 2 ∧ assignable s (s.queue q) = true)) :
    qcmd s q 1 0 = qcmdResult s q 2 := by
  simp only [qcmd, open_, h]
  simp [bad]

theorem qcmd_unlocks : qcmd s q 2 0 =
    qcmdResult (stopInterface (s.logOnce txQcmd q [(pagePA 2 q 0, (s.queue q).istate, 0)]) q) q 0 := by
  simp [qcmd, open_]

theorem qcmd_unknown (h1 : v ≠ 1) (h2 : v ≠ 2) : qcmd s q v 0 = qcmdResult s q 1 := by
  simp [qcmd, open_, h1, h2]

end

/-! ## The answers of QCMD -/

/-- A QCMD store has gone: the interface is y, its page counts the store and shows result n, the log ends with rs and has not
changed where rs is empty, and nothing else changes. -/
def QcmdAnswers (e : Instr) (s : State) (r : List Waiter) (q : Nat) (y : Queue) (n : Nat) (rs : List WalRec) : Prop :=
  Answers e s fun t =>
    Woken { s.modQueue q (fun _ => { y with qcmdCnt := (s.queue q).qcmdCnt + 1, qcmdStat := n }) with
      deferred := r, wal := t.wal, core := t.core } t ∧
    (rs = [] → t.wal = s.wal ∧ t.core = s.core) ∧ Logged t rs

section
variable {e : Instr} {s : State} {r : List Waiter} {f : State → State} {q n : Nat} (he : exec e s = .next (s.serve f))
  (go : MayGo s r)
include he go

theorem answers_foreign (h : f { s with deferred := r } = { s with deferred := r }) :
    Answers e s fun t => t = { s with deferred := r, work := t.work } :=
  answers_goes he go fun es => by rw [h]

/-- A store that changes nothing but what the page shows of it. -/
theorem qcmdAnswers_shown (h : f { s with deferred := r } = qcmdResult { s with deferred := r } q n) :
    QcmdAnswers e s r q (s.queue q) n [] := by
  refine answers_goes he go fun es => ?_
  rw [h]
  exact ⟨woken_trans (woken_qcmdResult { s with deferred := r } q n) (woken_push _ es), fun _ => ⟨rfl, rfl⟩, List.nil_suffix⟩

/-- A START that is DONE. -/
theorem qcmdAnswers_started (unlocked : (s.queue q).istate = 0)
    (h : f { s with deferred := r } = qcmdResult (interfaceTo { s with deferred := r } txQcmd q 2) q 0) :
    QcmdAnswers e s r q { s.queue q with istate := 2 } 0
      [.begin_ s.core.nextId txQcmd q, .write s.core.nextId (pagePA 2 q 0) 0 2, .commit s.core.nextId, .fin s.core.nextId] := by
  refine answers_goes he go fun es => ?_
  obtain ⟨l, recs, moved⟩ := interfaceTo_spec { s with deferred := r } txQcmd q 2
  have counted := woken_modQueue moved q (Queue.counted 0) (sameQueue_counted 0)
  rw [modQueue_modQueue] at counted
  have woken := woken_trans counted (woken_trans (woken_qcmdResult _ q 0) (woken_push _ es))
  have wal := woken_wal woken
  have core := congrArg State.core woken.device
  rw [h]
  refine ⟨?_, nofun, ?_⟩
  · rw [wal, core]
    exact woken
  · rw [Logged, wal]
    rwa [show (({ s with deferred := r } : State).queue q).istate = 0 from unlocked] at recs

/-- An UNLOCK, which is DONE in every state of the interface. -/
theorem unlock_answers
    (h : f { s with deferred := r } = qcmdResult (stopInterface (({ s with deferred := r } : State).logOnce txQcmd q
      [(pagePA 2 q 0, (s.queue q).istate, 0)]) q) q 0) :
    Answers e s fun t => (t.queue q).istate = 0 ∧ (t.queue q).nonce = none ∧ (t.queue q).order = [] ∧
      (t.queue q).cur = none ∧ (t.queue q).head = (t.queue q).tail ∧ (t.queue q).qcmdCnt = (s.queue q).qcmdCnt + 1 ∧
      (t.queue q).qcmdStat = 0 ∧
      Logged t (onceRecs s.core.nextId txQcmd q [(pagePA 2 q 0, (s.queue q).istate, 0)]) := by
  refine answers_goes he go fun es => ?_
  obtain ⟨l, logged, recs⟩ := logOnce_spec { s with deferred := r } txQcmd q [(pagePA 2 q 0, (s.queue q).istate, 0)]
  rw [h, logged]
  let u : State := { s with deferred := r, wal := l, core := { s.core with nextId := s.core.nextId + 1 } }
  have stopped : (stopInterface u q).queue q = (s.queue q).unlocked.dropped := stopInterface_queue u q
  have shown := (woken_qcmdResult (stopInterface u q) q 0).queues q
  rw [State.queue_modQueue, if_pos rfl, stopped] at shown
  have page : (qcmdResult (stopInterface u q) q 0).queue q = (s.queue q).unlocked.dropped.counted 0 := shown.idle rfl
  have wal : (qcmdResult (stopInterface u q) q 0).wal = l := stopInterface_wal u q
  generalize qcmdResult (stopInterface u q) q 0 = t at page wal ⊢
  have records : Logged t (onceRecs s.core.nextId txQcmd q [(pagePA 2 q 0, (s.queue q).istate, 0)]) := by
    rw [Logged, wal]
    exact recs (oneWrite_room _)
  exact ⟨congrArg Queue.istate page, congrArg Queue.nonce page, congrArg Queue.order page, congrArg Queue.cur page,
    (congrArg Queue.head page).trans (congrArg Queue.tail page).symm, congrArg Queue.qcmdCnt page,
    congrArg Queue.qcmdStat page, records⟩

end

/-! ## The three commands -/

/-- START, UNLOCK and the values that name no command. -/
def qcmdEvents : List Instr := [.start, .unlock, .qcmdIgnored]

/-- The world whose mapping a QCMD store comes through. -/
def qcmdWho (s : State) (e : Instr) : Nat := if e = .qcmdIgnored then s.arg 2 else s.arg 1

/-- Each is a QCMD store of some value that the policy core serves. -/
theorem qcmdEvents_serve (s : State) : ∀ e ∈ qcmdEvents, ∃ v f, exec e s = .next (s.serve f) ∧
    ∀ r, f { s with deferred := r } = qcmd { s with deferred := r } (s.arg 0) v (qcmdWho s e) :=
  List.forall_mem_cons.mpr ⟨⟨1, _, rfl, fun _ => rfl⟩, List.forall_mem_cons.mpr ⟨⟨2, _, rfl, fun _ => rfl⟩,
    List.forall_mem_singleton.mpr ⟨if s.arg 1 = 3 then 3 else 0, _, rfl, fun _ => rfl⟩⟩⟩

theorem qcmdEvents_wait {s : State} (h : MustWait s) : ∀ e ∈ qcmdEvents, Deferred e s := by
  intro e he
  obtain ⟨v, f, served, -⟩ := qcmdEvents_serve s e he
  exact deferred_mustWait served h

/-- Only world 0's mapping commands, and nobody commands an interface of a confidential world. -/
theorem qcmdEvents_denied {s : State} {r : List Waiter} (go : MayGo s r) : ∀ e ∈ qcmdEvents,
    (qcmdWho s e ≠ 0 → Answers e s fun t => t = { s with deferred := r, work := t.work }) ∧
    (qcmdWho s e = 0 → (s.world (s.queue (s.arg 0)).owner).conf = true →
      QcmdAnswers e s r (s.arg 0) (s.queue (s.arg 0)) 2 []) := by
  intro e he
  obtain ⟨v, f, served, does⟩ := qcmdEvents_serve s e he
  have done := does r
  refine ⟨fun other => answers_foreign served go (done.trans (qcmd_other other)), fun root conf => ?_⟩
  rw [root] at done
  exact qcmdAnswers_shown served go (done.trans (qcmd_confidential conf))

section
variable {s : State} {r : List Waiter} (go : MayGo s r) (open_ : (s.world (s.queue (s.arg 0)).owner).conf = false)
include go open_

/-- START is IGNORED where the interface is not unlocked, and otherwise DONE or DENIED by its owner's state, ROOT and VECTOR. -/
theorem start_answers (root : s.arg 1 = 0) :
    let q := s.arg 0
    let x := s.queue q
    let good := (s.world x.owner).wstate = 2 ∧ inRegion s x.owner x.root = true ∧ x.vector < 2048
    (x.istate ≠ 0 → QcmdAnswers .start s r q x 1 []) ∧
    (x.istate = 0 → good → QcmdAnswers .start s r q { x with istate := 2 } 0
      [.begin_ s.core.nextId txQcmd q, .write s.core.nextId (pagePA 2 q 0) 0 2, .commit s.core.nextId, .fin s.core.nextId]) ∧
    (x.istate = 0 → ¬ good → QcmdAnswers .start s r q x 2 []) := by
  intro q x good
  let u : State := { s with deferred := r }
  have command : qcmd u q 1 (s.arg 1) = qcmd u q 1 0 := congrArg (qcmd u q 1) root
  have context : good ↔ (s.world x.owner).wstate = 2 ∧ assignable u x = true := and_congr_right' (assignable_iff x).symm
  exact ⟨fun again => qcmdAnswers_shown rfl go (command.trans (qcmd_start_again open_ again)),
    fun unlocked may => qcmdAnswers_started rfl go unlocked (command.trans (qcmd_starts open_ unlocked (context.mp may))),
    fun unlocked bad => qcmdAnswers_shown rfl go
      (command.trans (qcmd_start_denied open_ unlocked fun may => bad (context.mpr may)))⟩

theorem qcmdIgnored_answers (root : s.arg 2 = 0) : QcmdAnswers .qcmdIgnored s r (s.arg 0) (s.queue (s.arg 0)) 1 [] := by
  let u : State := { s with deferred := r }
  have unknown : ∀ v : Nat, v = 1 ∨ v = 2 → (if s.arg 1 = 3 then 3 else 0) ≠ v := by
    intro v hv
    split <;> omega
  exact qcmdAnswers_shown rfl go ((congrArg (qcmd u (s.arg 0) _) root).trans
    (qcmd_unknown open_ (unknown 1 (.inl rfl)) (unknown 2 (.inr rfl))))

end

end Sys2Proof.Machine
end

section
/-!
PROOFS: the owner's stores of a queue page: OWNER, the locked fields, TAIL and RINGERR (06 R110 to R115).
-/

namespace Sys2Proof.Machine

theorem onlyAt_modQueue (s : State) (q : Nat) (f : Queue → Queue) : OnlyAt s.queue (s.modQueue q f).queue q (f (s.queue q)) :=
  State.queue_modQueue s q f

theorem mayConfigure_iff (s : State) (q who : Nat) : mayConfigure s q who = true ↔ who = 0 ∨ who = (s.queue q).owner := by
  simp [mayConfigure]

/-! ## Locked fields -/

/-- The locked fields of a doubleword as a store gives them (06 R112). -/
def Queue.withLocked (off v : Nat) (x : Queue) : Queue :=
  if off = 0x18 then { x with root := v }
  else if off = 0x20 then { x with pasid := bits v 19 0, pasidv := bit v 20 }
  else { x with vector := bits v 26 16 }

/-- Its fields that are never locked, which world 0's mapping alone writes. -/
def Queue.withFree (off v who : Nat) (x : Queue) : Queue :=
  if off = 0x28 ∧ who = 0 then { x with preempt := bit v 11, priocap := bits v 10 8 } else x

section
variable {s : State} {q off v who : Nat}

theorem lockedWrite_foreign (h : ¬ (who = 0 ∨ who = (s.queue q).owner)) : lockedWrite s q off v who = s := by
  rw [← mayConfigure_iff] at h
  simp [lockedWrite, h]

variable (may : who = 0 ∨ who = (s.queue q).owner)
include may

theorem lockedWrite_unlocked (h : (s.queue q).istate = 0) : lockedWrite s q off v who =
    s.modQueue q fun _ => ((s.queue q).withLocked off v).withFree off v who := by
  rw [lockedWrite, (mayConfigure_iff s q who).mpr may]
  exact if_pos h

theorem lockedWrite_idle (locked : (s.queue q).istate ≠ 0)
    (h : (s.queue q).withLocked off v = s.queue q ∨ (s.queue q).istate = 3) :
    lockedWrite s q off v who = s.modQueue q fun _ => (s.queue q).withFree off v who := by
  rw [lockedWrite, (mayConfigure_iff s q who).mpr may]
  exact (if_neg locked).trans (if_pos h)

theorem lockedWrite_violates (locked : (s.queue q).istate ≠ 0) (changes : (s.queue q).withLocked off v ≠ s.queue q)
    (sound : (s.queue q).istate ≠ 3) : lockedWrite s q off v who = toError s q := by
  rw [lockedWrite, (mayConfigure_iff s q who).mpr may]
  exact (if_neg locked).trans (if_neg fun h => h.elim changes sound)

end

/-! ## TAIL and RINGERR -/

theorem kick_ring {s : State} {q : Nat} {r : List QSrc} (hc : (s.queue q).cur = none) (hr : (s.queue q).ringerr = false)
    (ho : (s.queue q).order = .ring :: r) : kick s q = s.push .ringPacketRead [q] := by
  simp [kick, hc, hr, ho]

/-- Packets between HEAD and a value of TAIL (06 R114). -/
def Queue.ahead (x : Queue) (v : Nat) : Nat := (v % 2 ^ 32 + 2 ^ 32 - x.head.toNat) % 2 ^ 32

/-- Packets between HEAD and TAIL. -/
def Queue.standing (x : Queue) : Nat := (x.tail - x.head).toNat

/-- Packets that the ring holds; RLOG2 = 0 is no ring (assumption 58). -/
def Queue.room (x : Queue) : Nat := if x.rlog2 = 0 then 0 else 2 ^ x.rlog2

/-- A queue whose TAIL has advanced. -/
def Queue.grown (v : Nat) (x : Queue) : Queue :=
  { x with
    tail := BitVec.ofNat 32 (v % 2 ^ 32), order := x.order ++ List.replicate (x.ahead v - x.standing) .ring
    appended := x.appended + (x.ahead v - x.standing) }

section
variable {s : State} {q v who : Nat}

theorem tailStore_foreign (h : ¬ (who = 0 ∨ who = (s.queue q).owner)) : tailStore s q v who = s := by
  rw [← mayConfigure_iff] at h
  simp [tailStore, h]

variable (may : who = 0 ∨ who = (s.queue q).owner)
include may

/-- TAIL moves within the ring, stands, or the store is malformed. -/
theorem tailStore_eq : tailStore s q v who =
    if (s.queue q).ahead v > (s.queue q).room ∨ (s.queue q).ahead v < (s.queue q).standing then
      s.onQueue q fun x => { x with malformed := satInc 32 x.malformed }
    else if (s.queue q).ahead v = (s.queue q).standing then s
    else if (s.queue q).cur.isNone ∧ (s.queue q).order.isEmpty then kick (s.modQueue q fun _ => (s.queue q).grown v) q
    else s.modQueue q fun _ => (s.queue q).grown v := by
  rw [tailStore, (mayConfigure_iff s q who).mpr may]
  exact if_neg Bool.false_ne_true

theorem tailStore_malformed (h : (s.queue q).room < (s.queue q).ahead v ∨ (s.queue q).ahead v < (s.queue q).standing) :
    tailStore s q v who = s.onQueue q fun x => { x with malformed := Nat.min (2 ^ 32 - 1) (x.malformed + 1) } := by
  simp only [← satInc_eq_min]
  rw [tailStore_eq may, if_pos h]

variable (fits : (s.queue q).ahead v ≤ (s.queue q).room)
include fits

theorem tailStore_same (h : (s.queue q).ahead v = (s.queue q).standing) : tailStore s q v who = s := by
  rw [tailStore_eq may, if_neg (not_or.mpr ⟨Nat.not_lt.mpr fits, Nat.not_lt.mpr h.ge⟩), if_pos h]

theorem tailStore_advances (h : (s.queue q).standing < (s.queue q).ahead v) : tailStore s q v who =
    if (s.queue q).cur.isNone ∧ (s.queue q).order.isEmpty then kick (s.modQueue q fun _ => (s.queue q).grown v) q
    else s.modQueue q fun _ => (s.queue q).grown v := by
  rw [tailStore_eq may, if_neg (not_or.mpr ⟨Nat.not_lt.mpr fits, Nat.not_lt.mpr h.le⟩), if_neg h.ne']

/-- Behind other packets, or a slot that has failed, the new ones wait. -/
theorem tailStore_queues (h : (s.queue q).standing < (s.queue q).ahead v)
    (behind : (s.queue q).cur.isSome = true ∨ (s.queue q).order ≠ [] ∨ (s.queue q).ringerr = true) :
    tailStore s q v who = s.modQueue q fun _ => (s.queue q).grown v := by
  rw [tailStore_advances may fits h]
  split
  · next alone =>
    obtain ⟨idle, empty⟩ := alone
    have none_ := Option.isNone_iff_eq_none.mp idle
    have failed : (s.queue q).ringerr = true :=
      (behind.resolve_left (by simp [none_])).resolve_left (not_not.mpr (List.isEmpty_iff.mp empty))
    refine kick_ringError ?_ ?_
    · rw [State.queue_modQueue, if_pos rfl]
      exact none_
    · rw [State.queue_modQueue, if_pos rfl]
      exact failed
  · rfl

/-- Where nothing is ahead of them the first is read. -/
theorem tailStore_reads (h : (s.queue q).standing < (s.queue q).ahead v) (idle : (s.queue q).cur = none)
    (empty : (s.queue q).order = []) (sound : (s.queue q).ringerr = false) :
    tailStore s q v who = (s.modQueue q fun _ => (s.queue q).grown v).push .ringPacketRead [q] := by
  obtain ⟨k, more⟩ := Nat.exists_eq_add_of_lt h
  have count : (s.queue q).ahead v - (s.queue q).standing = k + 1 := by omega
  rw [tailStore_advances may fits h, if_pos ⟨by rw [idle]; rfl, by rw [empty]; rfl⟩]
  refine kick_ring (r := List.replicate k .ring) ?_ ?_ ?_
  all_goals rw [State.queue_modQueue, if_pos rfl, Queue.grown]
  · exact idle
  · exact sound
  · rw [empty, count]
    rfl

end

theorem ringerrClear_idle {s : State} {q who : Nat} (h : ¬ (who = 0 ∨ who = (s.queue q).owner) ∨ (s.queue q).ringerr = false) :
    ringerrClear s q who = s := by
  rw [← mayConfigure_iff] at h
  exact if_neg fun ⟨may, failed⟩ => h.elim (· may) fun sound => Bool.false_ne_true (sound.symm.trans failed)

/-- The slot whose read has failed is read again (06 R115). -/
theorem ringerrClear_reads {s : State} {q who : Nat} {r : List QSrc} (may : who = 0 ∨ who = (s.queue q).owner)
    (failed : (s.queue q).ringerr = true) (idle : (s.queue q).cur = none) (slot : (s.queue q).order = .ring :: r) :
    ringerrClear s q who = (s.modQueue q fun x => { x with ringerr := false }).push .ringPacketRead [q] := by
  rw [ringerrClear, if_pos ⟨(mayConfigure_iff s q who).mpr may, failed⟩]
  refine kick_ring (r := r) ?_ ?_ ?_
  all_goals rw [State.queue_modQueue, if_pos rfl]
  · exact idle
  · exact slot

end Sys2Proof.Machine
end

section
/-!
PROOFS: a host's control stores (03 R51, R52; 04 R81), and all stores of queue pages.
-/

namespace Sys2Proof.Machine

/-- A store for the policy core, or behind one of the same function, is served in its turn. -/
theorem controlWordWrite_serves {s : State} {kind idx : Nat} (hf : (s.world (s.arg 0)).fnFrozen = false)
    (ha : s.arg 1 % 8 = 0) (hp : bar0Page s (s.arg 0) (s.arg 1) = some (kind, idx))
    (h : needsCore kind (s.arg 1 % 4096) = true ∨ s.barWaits (s.arg 0) = true) :
    exec .controlWordWrite s = .next (s.serve fun u =>
      writePage u (s.arg 0) true kind idx (s.arg 1 % 4096) (u.arg 2 % 2 ^ 64)) := by
  show execControlWordWrite s = _
  simp only [execControlWordWrite, hp]
  rw [if_neg (by simp [ha, hf]), if_pos h]

theorem setCap_cap (p : Power) (v : Nat) : (p.setCap v).cap = v := by
  unfold Power.setCap Power.bound Power.begin
  split
  · split <;> rfl
  · rfl

/-- A store of CAP with world-root rights (02 R35). -/
theorem writePage_cap (s : State) (w c v : Nat) : ((writePage s w true 5 c 0x10 v).pow c).cap = v % 8 := by
  have page : (writePage s w true 5 c 0x10 v).pow c = (s.pow c).setCap (v % 8) :=
    (pow_onPow s c (fun p => p.setCap (v % 8)) c).trans (if_pos rfl)
  rw [page, setCap_cap]

/-- The table region of a FREE world, through world 0's mapping (05 R96). -/
theorem writePage_tregion {s : State} {n : Nat} (free : (s.world n).wstate = 0) (v : Nat) :
    ((writePage s 0 true 1 n 0x20 v).world n).tregion = bits v 51 21 := by
  have stored : storeWord s 0 true 1 n 0x20 v = s.modWorld n fun x => { x with tregion := bits v 51 21 } := by
    show writeWorld s 0 n 0x20 v = _
    rw [writeWorld, if_neg (by decide), if_pos ⟨rfl, free⟩]
    rfl
  have world := onlyAt_modWorld s n (fun x => { x with tregion := bits v 51 21 }) n
  rw [writePage, stored]
  exact congrArg World.tregion (world.trans (if_pos rfl))

/-- Other stores of a world page change none of its fields. -/
theorem woken_writePage_world {s : State} {w n off : Nat} (root : Bool) (v : Nat) (command : off ≠ 8)
    (other : w ≠ 0 ∨ (s.world n).wstate ≠ 0) : Woken s (writePage s w root 1 n off v) := by
  have stored : storeWord s w root 1 n off v = s := by
    show writeWorld s w n off v = _
    rw [writeWorld, if_neg command, if_neg fun h => other.elim (· h.1) (· h.2)]
  rw [writePage, stored]
  exact woken_wakePage s w 1 n off

section
variable {s : State} {idx : Nat} (hf : (s.world (s.arg 0)).fnFrozen = false) (ha : s.arg 1 % 8 = 0)
include hf ha

/-- A host's store of CAP takes effect once the policy core serves it. -/
theorem controlWordWrite_cap (hp : bar0Page s (s.arg 0) (s.arg 1) = some (5, idx)) (cap : s.arg 1 % 4096 = 0x10)
    {r : List Waiter} (go : MayGo s r) :
    Answers .controlWordWrite s fun t => (t.pow idx).cap = s.arg 2 % 2 ^ 64 % 8 := by
  have turn : needsCore 5 (s.arg 1 % 4096) = true := by rw [cap]; rfl
  refine answers_goes (controlWordWrite_serves hf ha hp (.inl turn)) go fun es => ?_
  rw [cap]
  exact writePage_cap { s with deferred := r } (s.arg 0) idx _

variable (hp : bar0Page s (s.arg 0) (s.arg 1) = some (1, idx)) (free : s.barWaits (s.arg 0) = false)
include hp free

theorem controlWordWrite_tregion (root : s.arg 0 = 0) (unmade : (s.world idx).wstate = 0) (region : s.arg 1 % 4096 = 0x20) :
    Answers .controlWordWrite s fun t => (t.world idx).tregion = bits (s.arg 2 % 2 ^ 64) 51 21 := by
  have plain : needsCore 1 (s.arg 1 % 4096) = false := by rw [region]; rfl
  refine ⟨_, controlWordWrite_goes hf ha hp plain free, ?_⟩
  rw [barStore, region, root]
  exact writePage_tregion unmade _

theorem controlWordWrite_world (command : s.arg 1 % 4096 ≠ 8) (other : s.arg 0 ≠ 0 ∨ (s.world idx).wstate ≠ 0) :
    Answers .controlWordWrite s (Woken s) := by
  have plain : needsCore 1 (s.arg 1 % 4096) = false := by simp [needsCore, command]
  exact ⟨_, controlWordWrite_goes hf ha hp plain free, woken_writePage_world true _ command other⟩

end

/-! ## All stores of queue pages -/

/-- Settles O47: each store by its own case, QCMD and CAP in the policy core's order, and a host's store as the store of its page. -/
theorem queuePages : Obligations.QueuePages := by
  unfold Obligations.QueuePages
  intro s
  refine ⟨⟨fun ok => ⟨_, congrArg Host.Outcome.next (if_pos ok), rfl, onlyAt_modQueue s _ _⟩, fun no => ⟨_, rfl, if_neg no⟩⟩,
    ?locked, ⟨qcmdEvents_wait, fun r go => ⟨qcmdEvents_denied go, fun open_ => ?qcmd⟩⟩, ?tail, ?ringerr, ?bar⟩
  case locked =>
    refine ⟨fun foreign => ⟨_, rfl, lockedWrite_foreign foreign⟩,
      fun may unlocked => ⟨_, congrArg Host.Outcome.next (lockedWrite_unlocked may unlocked), rfl, onlyAt_modQueue s _ _⟩,
      fun may locked idle => ⟨_, congrArg Host.Outcome.next (lockedWrite_idle may locked idle), rfl, onlyAt_modQueue s _ _⟩,
      fun may locked changes sound => ⟨_, congrArg Host.Outcome.next (lockedWrite_violates may locked changes sound), ?_⟩⟩
    obtain ⟨c, o, b, erred⟩ := toError_queue s (s.arg 0)
    rw [erred]
    exact ⟨rfl, rfl, rfl, rfl⟩
  case qcmd =>
    exact ⟨start_answers go open_, fun root => unlock_answers rfl go
      ((congrArg (qcmd { s with deferred := r } (s.arg 0) 2) root).trans (qcmd_unlocks open_)), qcmdIgnored_answers go open_⟩
  case tail =>
    refine ⟨fun foreign => ⟨_, rfl, tailStore_foreign foreign⟩, fun may bad => ?_,
      fun may fits same => ⟨_, rfl, tailStore_same may fits same⟩,
      fun may fits more behind =>
        ⟨_, congrArg Host.Outcome.next (tailStore_queues may fits more behind), rfl, onlyAt_modQueue s _ _⟩,
      fun may fits more idle empty sound =>
        ⟨_, congrArg Host.Outcome.next (tailStore_reads may fits more idle empty sound), rfl, onlyAt_modQueue s _ _⟩⟩
    exact ⟨_, congrArg Host.Outcome.next (tailStore_malformed may bad), woken_onQueue s _ _⟩
  case ringerr =>
    exact ⟨fun idle => ⟨_, rfl, ringerrClear_idle idle⟩, fun may failed idle r slot =>
      ⟨_, congrArg Host.Outcome.next (ringerrClear_reads may failed idle slot), rfl,
        onlyAt_modQueue s (s.arg 0) fun x => { x with ringerr := false }⟩⟩
  case bar =>
    exact ⟨controlWordWrite_absent s, fun kind idx page live aligned =>
      ⟨fun plain free => ⟨_, controlWordWrite_goes live aligned page plain free, rfl⟩,
        fun turn wait => deferred_mustWait (controlWordWrite_serves live aligned page turn) wait,
        fun power cap r go => controlWordWrite_cap live aligned (power ▸ page) cap go,
        fun free world => ⟨controlWordWrite_tregion live aligned (world ▸ page) free,
          controlWordWrite_world live aligned (world ▸ page) free⟩⟩⟩

end Sys2Proof.Machine
end

section
/-!
PROOFS: the checkpoint engine, and a launch that the table lists twice (07 R130 phase 1). Phase 1 finds the launches that it has
still to stop among the entries of the launch table (`unstopped`); STOP_ALL acts on the record that a read of the number gives,
the first one listed.
-/

namespace Sys2Proof.Machine

/-- A checkpoint from which nothing has been captured yet. -/
def freshCkpt : CkOp :=
  { q := 0, area := 0, asize := 0, base := 0, ckid := 0, full := true, start := 0, stopped := [], pages := [], left := [],
    grans := [], dies := [], clus := [], image := [], shards := [], newest := 0, seq := 0 }

/-- World 0 is in phase 1 of a checkpoint. Launch 0 is listed twice: as never bound, and as ACTIVE and not HELD. -/
def shadowedLaunch : State := { State.reset with
  core := { Core.zero with up := true }
  ckpt := { Ckpt.zero with estate := 1, op := some freshCkpt }
  launches := [(launchKey 0 0, Launch.zero), (launchKey 0 0, { Launch.zero with lstate := .active })]
  ev := event .ckptStopped [] }

/-- The second entry is one that phase 1 has to stop. -/
theorem shadowedLaunch_unstopped : unstopped shadowedLaunch 0 = [0] := by decide

/-- STOP_ALL finds the first entry, whose number is not bound, and does nothing. -/
theorem shadowedLaunch_notHeld (t : State) (h : exec .ckptStopped shadowedLaunch = .next t) : (t.launch 0 0).held = false := by
  cases h
  decide

/-- Refutes O50: the clause of phase 1 for launches that are still to be stopped speaks of every state, and so of one whose launch
table is not in canonical form. Launch 0 of `shadowedLaunch` is to be stopped as its second entry has it, STOP_ALL reads the first,
and the launch does not become HELD. -/
theorem not_checkpointEngine : ¬ Obligations.CheckpointEngine := by
  unfold Obligations.CheckpointEngine
  intro h
  obtain ⟨-, phases, -⟩ := h shadowedLaunch
  obtain ⟨phase1, -⟩ := phases freshCkpt rfl ⟨rfl, rfl, rfl⟩
  obtain ⟨stops, -⟩ := phase1 rfl
  obtain ⟨t, ht, -, -, held⟩ := stops (by decide)
  have launch0 : 0 ∈ unstopped shadowedLaunch 0 := shadowedLaunch_unstopped ▸ List.mem_singleton_self 0
  exact absurd ((held 0 launch0).symm.trans (shadowedLaunch_notHeld t ht)) (by decide)

end Sys2Proof.Machine
end

section
/-!
PROOFS: the end of a quantum, and a full ring in which the END of a transaction stands before its BEGIN (08 R142, 06 R123). A
record written to a full ring takes the oldest one out. Where that is an END whose BEGIN is still listed, the transaction is open
again, and the records that a switch writes after its own BEGIN go under the old name. The log that the device writes has every
BEGIN before its END; a state may hold any list.
-/

namespace Sys2Proof.Machine

/-! ## Records of a full ring -/

/-- A record written to a full ring takes the oldest one out. -/
theorem log_wal_of_full {s : State} {x : WalRec} {xs : List WalRec} (h : s.wal = x :: xs) (full : xs.length + 1 = walRing)
    (r : WalRec) : (s.log r).wal = xs ++ [r] := by
  simp [State.log, h, ← full]

/-- The ring of s is full: n COMMITs of a transaction, then its BEGIN, and no END of it after that. -/
structure OpenInFullRing (id kind arg n : Nat) (s : State) (rest : List WalRec) : Prop where
  wal     : s.wal = List.replicate n (.commit id) ++ .begin_ id kind arg :: rest
  full    : n + rest.length + 1 = walRing
  unended : .fin id ∉ rest

section
variable {id kind arg n : Nat} {s : State} {rest : List WalRec}

theorem OpenInFullRing.openTxn (h : OpenInFullRing id kind arg n s rest) : s.openTxn kind arg = some id := by
  have unended : WalRec.fin id ∉ s.wal := by simp [h.wal, h.unended]
  rw [State.openTxn, List.findSome?_eq_some_iff]
  refine ⟨_, _, _, h.wal, by simp [unended], fun r hr => ?_⟩
  rw [List.eq_of_mem_replicate hr]

/-- A record of the transaction takes one of the COMMITs out. -/
theorem OpenInFullRing.logOpen (h : OpenInFullRing id kind arg (n + 1) s rest) (f : Nat → WalRec) (hf : f id ≠ .fin id) :
    OpenInFullRing id kind arg n (s.logOpen kind arg f) (rest ++ [f id]) where
  wal := by
    have full := h.full
    rw [State.logOpen, h.openTxn, log_wal_of_full (h.wal.trans rfl) (by simp; omega)]
    simp
  full := by have := h.full; simp; omega
  unended := by simp [h.unended, hf.symm]

end

theorem beginTxn_wal (s : State) (kind arg : Nat) :
    (s.beginTxn kind arg).wal = (s.log (.begin_ s.core.nextId kind arg)).wal := by
  rw [State.beginTxn]

/-! ## A switch that begins -/

theorem stopCtx_wal (s : State) (w k : Nat) : (stopCtx s w k).wal = s.wal :=
  wal_ite (setCtxState_wal _ w k .saved) (wal_ite (setCtxState_wal _ w k .stopping) rfl)

theorem stopWorld_wal (s : State) (w : Nat) : (stopWorld s w).wal = s.wal := by
  refine foldl_wal (fun u k => ?_) (s.bound w) s
  exact wal_ite (stopCtx_wal _ w k) rfl

@[simp] theorem withQuantum_wal (s : State) (z : Quantum) : ({ s with quantum := z } : State).wal = s.wal := rfl
@[simp] theorem State.push_wal (s : State) (i : Instr) (args : List Nat) : (s.push i args).wal = s.wal := rfl

/-- The log after a switch has begun ends with a STEP of the transaction that was open once its own BEGIN was written. -/
theorem beginSwitch_step {id n w : Nat} {s : State} {rest : List WalRec}
    (began : OpenInFullRing id txSwitch w (n + 4) (s.beginTxn txSwitch w) rest) (len idx : Nat) :
    ∃ ws, (beginSwitch s w len idx).wal = ws ++ [.step id 1] := by
  unfold beginSwitch
  extract_lets old s1 s2 s3 z s4
  have world := began.logOpen (fun i => .write i (corePA s 0) old w) nofun
  have committed := world.logOpen .commit nofun
  have index : OpenInFullRing id txSwitch w (n + 1) s2 _ := committed.logOpen _ nofun
  have stepped : OpenInFullRing id txSwitch w n s3 _ := index.logOpen (fun i => .step i 1) nofun
  rw [State.push_wal, stopWorld_wal, withQuantum_wal, stepped.wal, ← List.cons_append, ← List.append_assoc]
  exact ⟨_, rfl⟩

/-! ## The counterexample -/

/-- World 1 is in its quantum and no world is ACTIVE; the policy core serves, with this log and with 1 as its next name. -/
def switchOver (log : List WalRec) : State := { State.reset with
  core := { Core.zero with up := true, nextId := 1 }
  quantum := { Quantum.zero with world := 1 }
  wal := log }

/-- No entry of the table runs, so that the end of the quantum begins a switch to world 0. -/
theorem switchOver_quantumEnd (log : List WalRec) :
    quantumEnd (switchOver log) = beginSwitch (switchOver log) 0 10000 0 := by
  have serves : ¬ ((!(switchOver log).core.up) = true ∨ phaseUnderWay (switchOver log) = true) := by
    rintro (down | phase)
    · cases down
    · cases phase
  rw [quantumEnd, if_neg nofun, if_neg serves]
  unfold endQuantum
  extract_lets z table i s
  have skipped : nextEntry s table i = none := rfl
  rw [skipped]
  exact if_neg Nat.one_ne_zero

/-- Fills the ring, beside an END, a BEGIN and the four COMMITs that the switch's later records take out. -/
def padding : Nat := walRing - 6

theorem padding_add : padding + 6 = walRing := by decide

/-- A full ring: the END of transaction 0, a switch to world 0, is the oldest record, and its BEGIN the latest. -/
def endBeforeBegin : List WalRec := .fin 0 :: (List.replicate (padding + 4) (.commit 0) ++ [.begin_ 0 txSwitch 0])

theorem endBeforeBegin_openTxn : (switchOver endBeforeBegin).openTxn txSwitch 0 = none := by
  simp [State.openTxn, switchOver, endBeforeBegin, List.findSome?_append]

theorem endBeforeBegin_name : .fin (switchOver endBeforeBegin).core.nextId ∉ (switchOver endBeforeBegin).wal := by
  simp [switchOver, endBeforeBegin]

/-- The BEGIN of the switch takes the END of transaction 0 out. -/
theorem endBeforeBegin_reopened : OpenInFullRing 0 txSwitch 0 (padding + 4)
    ((switchOver endBeforeBegin).beginTxn txSwitch 0) [.begin_ 1 txSwitch 0] where
  wal := by
    have full : (List.replicate (padding + 4) (WalRec.commit 0) ++ [WalRec.begin_ 0 txSwitch 0]).length + 1 = walRing := by
      rw [List.length_append, List.length_replicate, ← padding_add, List.length_singleton]
    rw [beginTxn_wal, log_wal_of_full (s := switchOver endBeforeBegin) rfl full, List.append_assoc]
    rfl
  full := padding_add
  unended := by simp

/-- Refutes O51: the clause of the records that the end of a quantum writes asks that no switch to the world is open and that its
own name has no END, and speaks of every log. In `endBeforeBegin` transaction 0 has its END, which the BEGIN of transaction 1 takes
out of the ring, and the switch writes its other records under the name of transaction 0. -/
theorem not_quantaAndDispatch : ¬ Obligations.QuantaAndDispatch := by
  unfold Obligations.QuantaAndDispatch
  intro h
  obtain ⟨-, -, ends, -⟩ := h (switchOver endBeforeBegin)
  obtain ⟨-, -, -, switches⟩ := ends rfl rfl rfl
  obtain ⟨t, ht, -, -, -, -, logged, -⟩ := switches rfl (by decide)
  obtain ⟨before, written⟩ := logged endBeforeBegin_openTxn endBeforeBegin_name
  obtain ⟨ws, reopened⟩ := beginSwitch_step endBeforeBegin_reopened 10000 0
  have begun : beginSwitch (switchOver endBeforeBegin) 0 10000 0 = t :=
    (switchOver_quantumEnd endBeforeBegin).symm.trans (Host.Outcome.next.inj ht)
  rw [← begun, reopened] at written
  have last := congrArg List.getLast? written
  simp [switchOver] at last

end Sys2Proof.Machine
end

section
/-!
PROOFS: faults that a strand takes, at PC and at an operation that a port reports (11 R211, 09 R456, 15 R293).
-/

namespace Sys2Proof.Machine

/-! ## A fault is taken -/

/-- In t a context has taken a fault: it reads STOPPING with the record to come, and its save is due. -/
structure FaultTaken (t : State) (w k : Nat) (f : FaultRec) : Prop where
  state : (t.ctx w k).state = .stopping
  record : (t.ctx w k).fault = some f
  saved : event .contextSaved [w, k] ∈ t.work

/-- The context that TAGFAIL stops (11 R211). -/
def Ctx.frozenBy (c : Ctx) (f : FaultRec) : Ctx :=
  { c.halt with fault := some f, strand := c.halt.strand.discardOps }

/-- The world is marked, and the save of context (w, k) is due. -/
def marked (u : State) (w k : Nat) (c : Ctx) : State :=
  { compromise u w with work := u.work ++ event .contextSaved [w, k] :: c.freed (ctxKey w k) }

@[simp] theorem ctx_marked (u : State) (w k : Nat) (c : Ctx) (w' k' : Nat) : (marked u w k c).ctx w' k' = u.ctx w' k' := rfl
@[simp] theorem marked_sundogs (u : State) (w k : Nat) (c : Ctx) : (marked u w k c).sundogs = u.sundogs := rfl

@[simp] theorem marked_cur (u : State) (w k : Nat) (c : Ctx) : (marked u w k c).cur = u.cur := rfl

theorem marked_compromised (u : State) (w k : Nat) (c : Ctx) : ((marked u w k c).world w).compromised = true := by
  have world : (marked u w k c).world w = (compromise u w).world w := rfl
  simp [world, compromise]

theorem marked_saved (u : State) (w k : Nat) (c : Ctx) : event .contextSaved [w, k] ∈ (marked u w k c).work :=
  List.mem_append_right _ List.mem_cons_self

theorem takeFault_tagfail {s : State} {w k : Nat} {f : FaultRec} (cause : f.cause = .tagfail)
    (h : (s.ctx w k).state.live = true ∨ (s.ctx w k).state = .stopping) :
    takeFault s w k f = marked ((s.putCtx w k ((s.ctx w k).frozenBy f)).setCtxState w k .stopping) w k (s.ctx w k) :=
  if_pos ⟨cause, h⟩

/-- The page of a context that TAGFAIL stops. -/
theorem ctx_takeFault_tagfail {s : State} {w k : Nat} {f : FaultRec} (cause : f.cause = .tagfail)
    (h : (s.ctx w k).state.live = true ∨ (s.ctx w k).state = .stopping) :
    (takeFault s w k f).ctx w k = { (s.ctx w k).frozenBy f with
      state := .stopping
      strand := ((s.ctx w k).frozenBy f).strand.touch (pagePA 4 k 0 / 64) (pagePA 4 k 0 / 64) (if instanced 4 then w else 0) } := by
  rw [takeFault_tagfail cause h, ctx_marked, ctx_setCtxState]
  dsimp only
  rw [if_pos rfl, State.ctx_putCtx_same]

theorem takeFault_taken {s : State} {w k : Nat} {f : FaultRec}
    (h : (s.ctx w k).state.live = true ∨ f.cause = .tagfail ∧ (s.ctx w k).state = .stopping) :
    FaultTaken (takeFault s w k f) w k f := by
  by_cases cause : f.cause = .tagfail
  · have stops := h.imp_right And.right
    have page := ctx_takeFault_tagfail cause stops
    refine ⟨by rw [page], by rw [page]; rfl, ?_⟩
    rw [takeFault_tagfail cause stops]
    exact marked_saved _ w k _
  · have live := h.resolve_right fun g => cause g.1
    obtain ⟨⟨ev, device⟩, -, page⟩ := takeFault_live s w k f cause live
    have mine := page w k
    dsimp only at mine
    rw [if_pos rfl] at mine
    refine ⟨by rw [mine], by rw [mine], ?_⟩
    rw [congrArg State.work device]
    exact List.mem_append_right _ List.mem_cons_self

theorem takeFault_frozen {s : State} {w k : Nat} {f : FaultRec} (cause : f.cause = .tagfail)
    (h : (s.ctx w k).state.live = true ∨ (s.ctx w k).state = .stopping) :
    ((takeFault s w k f).world w).compromised = true ∧ ((takeFault s w k f).ctx w k).strand.ops = [] := by
  constructor
  · rw [takeFault_tagfail cause h]
    exact marked_compromised _ w k _
  · rw [ctx_takeFault_tagfail cause h]
    rfl

@[simp] theorem setCtxState_sundogs (s : State) (w k : Nat) (st : CtxState) : (s.setCtxState w k st).sundogs = s.sundogs := by
  obtain ⟨⟨ev, h⟩, -⟩ := setCtxState_frame s w k st
  rw [congrArg State.sundogs h]

@[simp] theorem setCtxState_cur (s : State) (w k : Nat) (st : CtxState) : (s.setCtxState w k st).cur = s.cur := by
  obtain ⟨⟨ev, h⟩, -⟩ := setCtxState_frame s w k st
  rw [congrArg State.cur h]

@[simp] theorem takeFault_sundogs (s : State) (w k : Nat) (f : FaultRec) : (takeFault s w k f).sundogs = s.sundogs := by
  by_cases cause : f.cause = .tagfail
  · by_cases stops : (s.ctx w k).state.live = true ∨ (s.ctx w k).state = .stopping
    · rw [takeFault_tagfail cause stops, marked_sundogs, setCtxState_sundogs, State.putCtx_sundogs]
    · have keeps : takeFault s w k f = s := (if_neg fun h => stops h.2).trans (if_neg fun h => stops (.inl h))
      rw [keeps]
  · cases live : (s.ctx w k).state.live with
    | false => rw [takeFault_not_live s w k f cause live]
    | true =>
      obtain ⟨⟨ev, device⟩, -⟩ := takeFault_live s w k f cause live
      rw [congrArg State.sundogs device]

/-- TAGFAIL at PC. -/
theorem scalarFault_tagfail {s : State} {c : Cause} {faddr : Nat} (cause : c = .tagfail) (live : s.me.state.live = true) :
    let t := scalarFault s c faddr
    t.me.state = .stopping ∧ (t.world s.cur.1).compromised = true ∧ t.strand.ops = [] ∧ t.mem = s.mem := by
  have cur : (scalarFault s c faddr).cur = s.cur := by
    rw [scalarFault, takeFault_tagfail cause (.inl live), marked_cur, setCtxState_cur, State.putCtx_cur]
  have me : (scalarFault s c faddr).me = (scalarFault s c faddr).ctx s.cur.1 s.cur.2 := by rw [State.me, cur]
  obtain ⟨compromised, ops⟩ := takeFault_frozen (s := s) (w := s.cur.1) (k := s.cur.2)
    (f := { cause := c, fslot := 0, fpc := s.pc.toNat, felem := 0, progress := 0, faddr := faddr }) cause (.inl live)
  refine ⟨?_, compromised, ?_, scalarFault_mem s c faddr⟩
  · rw [me]
    exact (takeFault_taken (.inl live)).state
  · rw [State.strand, me]
    exact ops

/-! ## A fault of an operation after its issue (09 R456) -/

/-- The record of an operation's fault. -/
def faultOfOp (s : State) (w k : Nat) (o : Op) (c : Cause) : FaultRec :=
  { cause := c, fslot := if o.replayed then 5 else o.slot, fpc := o.pc, felem := o.faultElem
    progress := if o.replayed then recordIndex s (s.ctx w k) o.pc else 0, faddr := o.faultAddr }

/-- The strand whose operation faults: an element is no longer sent. -/
def unsendAgain (s : State) (w k : Nat) (o : Op) : State := if o.again then s.modStrand w k fun t => t.unsend o else s

theorem ctx_unsendAgain_state (s : State) (w k : Nat) (o : Op) : ((unsendAgain s w k o).ctx w k).state = (s.ctx w k).state := by
  unfold unsendAgain
  split
  · rw [ctx_modStrand_same]
  · rfl

theorem elementAsk_iff (o : Op) : o.elementAsk = true ↔ o.kind = 2 ∧ o.group ≠ 0 ∧ o.slot ≠ 0 := by
  simp [Op.elementAsk, and_assoc]

/-- The read of an element is no class T element. -/
theorem not_ahead_of_elementAsk (t : Strand) {o : Op} (h : o.elementAsk = true) : t.ahead o = false := by
  simp [Strand.ahead, ((elementAsk_iff o).mp h).1]

/-- The answer of a read that an element has sent: it has failed. -/
def askFails (s : State) (w k : Nat) (o : Op) (c : Cause) : State :=
  s.modStrand w k fun t => (t.modOp o.id fun x => { x with done := true, part := c.code }).unhold

/-- Nothing changes but that the operation is done and holds the cause. -/
theorem askFails_spec (s : State) (w k : Nat) (o : Op) (c : Cause) :
    let t := askFails s w k o c
    (t.ctx w k).state = (s.ctx w k).state ∧ t.mem = s.mem ∧ (t.ctx w k).strand.x = (s.ctx w k).strand.x ∧
      (t.ctx w k).strand.ops =
        (s.ctx w k).strand.ops.map fun x => if x.id = o.id then { x with done := true, part := c.code } else x := by
  dsimp only
  rw [askFails, ctx_modStrand_same]
  exact ⟨rfl, rfl, rfl, rfl⟩

section
variable {s : State} {w k : Nat} {o : Op} {c : Cause}

theorem opFault_ahead (hc : c ≠ .tagfail) (live : (s.ctx w k).state.live = true) (ahead : (s.ctx w k).strand.ahead o = true) :
    opFault s w k o c = s.modStrand w k fun v => (v.unsend o).unhold :=
  if_pos ⟨hc, live, ahead⟩

theorem opFault_asks (live : (s.ctx w k).state.live = true) (asks : o.elementAsk = true) :
    opFault s w k o c = askFails s w k o c :=
  (if_neg fun h => by simp [not_ahead_of_elementAsk _ asks] at h).trans (if_pos ⟨live, asks⟩)

theorem opFault_dead (hc : c ≠ .tagfail) (dead : (s.ctx w k).state.live = false) : opFault s w k o c = s := by
  unfold opFault
  dsimp only
  rw [if_neg (by simp [dead]), if_neg (by simp [dead]), if_neg (by simp [dead, hc])]

/-- An operation's fault that its strand takes: neither its element's convoy nor the element itself performs it again. -/
theorem opFault_taken (here : c = .tagfail ∨ (s.ctx w k).strand.ahead o = false)
    (asks : (s.ctx w k).state.live = true → o.elementAsk = false)
    (takes : (s.ctx w k).state.live = true ∨ c = .tagfail ∧ (s.ctx w k).state = .stopping) :
    opFault s w k o c = takeFault (unsendAgain s w k o) w k (faultOfOp s w k o c) := by
  unfold opFault
  dsimp only
  have notAhead : ¬ (c ≠ .tagfail ∧ (s.ctx w k).state.live = true ∧ (s.ctx w k).strand.ahead o = true) :=
    fun ⟨other, _, ahead⟩ => Bool.eq_false_iff.mp (here.resolve_left other) ahead
  have notAsked : ¬ ((s.ctx w k).state.live = true ∧ o.elementAsk = true) := fun ⟨live, asked⟩ =>
    Bool.eq_false_iff.mp (asks live) asked
  rw [if_neg notAhead, if_neg notAsked, if_pos takes]
  rfl

theorem opFault_sundogs (s : State) (w k : Nat) (o : Op) (c : Cause) : (opFault s w k o c).sundogs = s.sundogs := by
  unfold opFault
  extract_lets st f s1
  split
  · rfl
  split
  · rfl
  split
  · rw [takeFault_sundogs]
    unfold s1
    split <;> rfl
  · rfl

/-- From s to t an operation's fault has stopped its strand at that operation (11 R223). -/
def StopsAt (s t : State) (w k : Nat) (o : Op) (c : Cause) : Prop :=
  (t.ctx w k).state = .stopping ∧ event .contextSaved [w, k] ∈ t.work ∧ t.mem = s.mem ∧
    ∃ f, (t.ctx w k).fault = some f ∧ f.cause = c ∧ f.fpc = o.pc ∧ (o.replayed = false → f.fslot = o.slot) ∧
      f.faddr = o.faultAddr ∧ f.felem = o.faultElem

theorem opFault_stopsAt (here : c = .tagfail ∨ (s.ctx w k).strand.ahead o = false)
    (asks : (s.ctx w k).state.live = true → o.elementAsk = false)
    (takes : (s.ctx w k).state.live = true ∨ c = .tagfail ∧ (s.ctx w k).state = .stopping) :
    StopsAt s (opFault s w k o c) w k o c := by
  have taken : FaultTaken (takeFault (unsendAgain s w k o) w k (faultOfOp s w k o c)) w k _ :=
    takeFault_taken (by rw [ctx_unsendAgain_state]; exact takes)
  rw [← opFault_taken here asks takes] at taken
  exact ⟨taken.state, taken.saved, opFault_mem s w k o c, _, taken.record, rfl, rfl, fun h => by simp [faultOfOp, h], rfl, rfl⟩

/-- So has TAGFAIL, which discards what is outstanding and marks the world (05 R455, 11 R211). -/
def FreezesAt (s t : State) (w k : Nat) (o : Op) : Prop :=
  StopsAt s t w k o .tagfail ∧ (t.world w).compromised = true ∧ (t.ctx w k).strand.ops = []

theorem opFault_freezesAt (asks : (s.ctx w k).state.live = true → o.elementAsk = false)
    (takes : (s.ctx w k).state.live = true ∨ (s.ctx w k).state = .stopping) :
    FreezesAt s (opFault s w k o .tagfail) w k o := by
  have takes' := takes.imp_right fun h => (⟨rfl, h⟩ : Cause.tagfail = .tagfail ∧ _)
  have stops := opFault_stopsAt (.inl rfl) asks takes'
  obtain ⟨compromised, ops⟩ := takeFault_frozen (s := unsendAgain s w k o) (w := w) (k := k)
    (f := faultOfOp s w k o .tagfail) rfl (by rw [ctx_unsendAgain_state]; exact takes)
  rw [← opFault_taken (.inl rfl) asks takes'] at compromised ops
  exact ⟨stops, compromised, ops⟩

end

end Sys2Proof.Machine
end

section
/-!
PROOFS: the tables of the ports, and the updates that they take (10 R189, 11 R220, R221).
-/

namespace Sys2Proof.Machine

/-! ## What a write leaves of the ports and the contexts -/

section
variable {s t : State}

theorem Performed.sundogs (h : Performed s t) : t.sundogs = s.sundogs := by rw [h.device]
theorem Performed.flights (h : Performed s t) : t.flights = s.flights := by rw [h.device]

theorem Performed.portOf (h : Performed s t) (pa : Nat) : portOf t pa = portOf s pa := by
  rw [h.device]
  rfl

theorem Performed.state (h : Performed s t) (w k : Nat) : (t.ctx w k).state = (s.ctx w k).state := by
  rw [h.ctxs w k]

/-- A write changes no operation and no register of a strand. -/
theorem Performed.ops (h : Performed s t) (w k : Nat) : (t.ctx w k).strand.ops = (s.ctx w k).strand.ops := by
  rw [h.ctxs w k]

theorem Performed.regs (h : Performed s t) (w k : Nat) : (t.ctx w k).strand.x = (s.ctx w k).strand.x := by
  rw [h.ctxs w k]

theorem Performed.gangOf (h : Performed s t) (w k : Nat) : t.gangOf w k = s.gangOf w k := by
  simp only [State.gangOf, State.launch, h.launches]
  rw [h.ctxs w k]

theorem Performed.onFabric (h : Performed s t) (w : Nat) : onFabric t w = onFabric s w := by
  rw [h.device]
  rfl

theorem Performed.spillable (h : Performed s t) (d : Sundog) : spillable t d = spillable s d := by
  simp only [Machine.spillable, h.state, h.gangOf, h.onFabric]

/-- It does so whatever the tables of the ports hold. -/
theorem Performed.withSundogs (h : Performed s t) (ds : List Sundog) :
    Performed { s with sundogs := ds } { t with sundogs := ds } where
  device := congrArg (fun u : State => { u with sundogs := ds }) h.device
  queues := h.queues
  ctxs := h.ctxs
  work := h.work

end

/-! ## Entries that leave their tables (11 R221) -/

theorem spillable_iff (s : State) (d : Sundog) : spillable s d = true ↔
    let x := d.tag / 2 ^ 32
    let j := d.tag / 2 ^ 18 % 16384
    ¬ ((s.ctx x j).state.live = true ∨ (s.ctx x j).state = .stopping ∨ onFabric s x = false ∨
      (s.gangOf x j).state = .rotated) := by
  simp [spillable, and_assoc]

/-- From s to t entries have left the tables of the ports for their records, and nothing else has happened. -/
structure Spilled (s t : State) : Prop where
  performed : Performed { s with sundogs := t.sundogs } t
  entries : ∀ d ∈ t.sundogs, d ∈ s.sundogs

theorem spilled_refl (s : State) : Spilled s s := ⟨performed_refl s, fun _ => id⟩

theorem spilled_trans {a b c : State} (h : Spilled a b) (g : Spilled b c) : Spilled a c where
  performed := performed_trans (h.performed.withSundogs c.sundogs) g.performed
  entries d hd := h.entries d (g.entries d hd)

theorem Spilled.ops {s t : State} (h : Spilled s t) (w k : Nat) : (t.ctx w k).strand.ops = (s.ctx w k).strand.ops :=
  h.performed.ops w k

theorem Spilled.regs {s t : State} (h : Spilled s t) (w k : Nat) : (t.ctx w k).strand.x = (s.ctx w k).strand.x :=
  h.performed.regs w k

theorem Spilled.flights {s t : State} (h : Spilled s t) : t.flights = s.flights := h.performed.flights

/-- The record's entry of a spilled tag: APPLIED and the old value. -/
def spillRecord (s : State) (a old : Nat) : State :=
  writeNum (writeNum s 0 a 8 (setBit (vaultDword s a) 16 true)) 0 (a + 24) 8 old

theorem performed_spillRecord (s : State) (a old : Nat) : Performed s (spillRecord s a old) :=
  performed_trans (performed_writeNum _ _ _ _ _) (performed_writeNum _ _ _ _ _)

theorem spill_none {s : State} {d : Sundog}
    (h : entryOfTag s (s.ctx (d.tag / 2 ^ 32) (d.tag / 2 ^ 18 % 16384)) d.tag = none) :
    spill s d = { s with sundogs := s.sundogs.filter fun x => x.tag != d.tag } := by
  simp only [spill, h]

theorem spill_some {s : State} {d : Sundog} {a : Nat}
    (h : entryOfTag s (s.ctx (d.tag / 2 ^ 32) (d.tag / 2 ^ 18 % 16384)) d.tag = some a) :
    spill s d = { spillRecord s a d.old with sundogs := s.sundogs.filter fun x => x.tag != d.tag } := by
  simp only [spill, h]
  rw [← (performed_spillRecord s a d.old).sundogs]
  rfl

theorem spill_sundogs (s : State) (d : Sundog) : (spill s d).sundogs = s.sundogs.filter fun x => x.tag != d.tag := by
  cases h : entryOfTag s (s.ctx (d.tag / 2 ^ 32) (d.tag / 2 ^ 18 % 16384)) d.tag with
  | none => rw [spill_none h]
  | some a => rw [spill_some h]

theorem spilled_spill (s : State) (d : Sundog) : Spilled s (spill s d) where
  performed := by
    cases h : entryOfTag s (s.ctx (d.tag / 2 ^ 32) (d.tag / 2 ^ 18 % 16384)) d.tag with
    | none => rw [spill_none h]; exact performed_refl _
    | some a => rw [spill_some h]; exact (performed_spillRecord s a d.old).withSundogs _
  entries x hx := by
    rw [spill_sundogs] at hx
    exact (List.mem_filter.mp hx).1

/-- Of the entries that are spilled in turn, none stays. -/
theorem foldl_spill (ds : List Sundog) (s : State) :
    Spilled s (ds.foldl spill s) ∧ ∀ x ∈ (ds.foldl spill s).sundogs, ∀ d ∈ ds, x.tag ≠ d.tag := by
  induction ds generalizing s with
  | nil => exact ⟨spilled_refl s, fun _ _ _ h => nomatch h⟩
  | cons d ds ih =>
    obtain ⟨rest, gone⟩ := ih (spill s d)
    refine ⟨spilled_trans (spilled_spill s d) rest, fun x hx e he => ?_⟩
    rcases List.mem_cons.mp he with rfl | he
    · have first := rest.entries x hx
      rw [spill_sundogs] at first
      simpa using (List.mem_filter.mp first).2
    · exact gone x hx e he

theorem spilled_spillFull (s : State) (port : Nat) : Spilled s (spillFull s port) := by
  unfold spillFull
  split
  · exact (foldl_spill _ s).1
  · exact spilled_refl s

theorem spillFull_roomy {s : State} {port : Nat} (h : portCrowded s port = false) : spillFull s port = s :=
  if_neg (by rw [h]; exact Bool.false_ne_true)

/-- A crowded table keeps no entry of a stopped context. -/
theorem spillFull_crowded {s : State} {port : Nat} (h : portCrowded s port = true) :
    ∀ d ∈ (spillFull s port).sundogs, d.port = port → spillable s d = false := by
  rw [spillFull, if_pos h]
  obtain ⟨spilled, gone⟩ := foldl_spill (s.sundogs.filter fun d => d.port == port && spillable s d) s
  intro d hd port
  by_contra stands
  refine gone d hd d (List.mem_filter.mpr ⟨spilled.entries d hd, ?_⟩) rfl
  simpa [port] using stands

/-! ## A spilled record (11 R221) -/

/-- A number whose bytes read the same. -/
theorem readNum_congr {s t : State} {slot pa n : Nat} (h : ∀ i < n, readByte t slot (pa + i) = readByte s slot (pa + i)) :
    readNum t slot pa n = readNum s slot pa n :=
  congrArg natOf (List.map_congr_left fun i hi => h i (List.mem_range.mp hi))

theorem bit_setBit_same (v i : Nat) (b : Bool) : bit (setBit v i b) i = b := by
  rw [setBit_sets v i b i, if_pos rfl]

theorem vaultDword_spillRecord {s : State} {a old : Nat} (ha : 2 ^ 51 ≤ a) :
    bit (vaultDword (spillRecord s a old) a) 16 = true ∧ vaultDword (spillRecord s a old) (a + 24) = old % 2 ^ 64 := by
  constructor
  · have first : vaultDword (spillRecord s a old) a = setBit (vaultDword s a) 16 true % 2 ^ 64 := by
      rw [← readNum_writeNum s 0 a 8 _ (.inr ha)]
      refine readNum_congr fun i hi => ?_
      rw [spillRecord, writeNum, readByte_performWrite_off _ _ _ _ (by omega), if_neg (by omega)]
    rw [first, bit_eq_testBit, Nat.testBit_mod_two_pow, ← bit_eq_testBit, bit_setBit_same]
    rfl
  · exact readNum_writeNum _ 0 (a + 24) 8 old (.inr (by omega))

theorem otherLines_spillRecord {s : State} {a old : Nat} (ha : 2 ^ 51 ≤ a) : OtherLines s (spillRecord s a old) a 32 := by
  intro slot b hb
  rw [spillRecord, writeNum, readByte_performWrite_off _ _ _ _ (by omega), if_neg (by rw [bytesOf_length]; omega),
    writeNum, readByte_performWrite_off _ _ _ _ ha, if_neg (by rw [bytesOf_length]; omega)]

/-! ## Updates (10 R189) -/

section
variable {s v : State} {w k old : Nat} {o : Op}

theorem applyUpdate_fails (h : writeTagFails s (keySlot s w) o.pa o.bytes = true) : applyUpdate s w k o = .error .tagfail :=
  if_pos h

/-- An AMO's location takes the new value. -/
def amoApplied (s : State) (w : Nat) (o : Op) (old : Nat) : State :=
  writeNum s (keySlot s w) o.pa (2 ^ o.wlog) (amoNew o.func (2 ^ o.wlog) old o.opnd)

/-- The value that an AMO finds. -/
def amoOld (s : State) (w : Nat) (o : Op) : Nat := readNum s (keySlot s w) o.pa (2 ^ o.wlog)

theorem applyUpdate_amo (h : writeTagFails s (keySlot s w) o.pa o.bytes = false) (kind : o.kind = 0x10) :
    applyUpdate s w k o = .ok (amoApplied s w o (amoOld s w o), amoOld s w o) := by
  simp only [applyUpdate, h, kind, Bool.false_eq_true, if_false]
  rfl

theorem performed_amoApplied (s : State) (w : Nat) (o : Op) (old : Nat) : Performed s (amoApplied s w o old) :=
  performed_writeNum _ _ _ _ _

theorem amoApplied_bytes (s : State) (w : Nat) (o : Op) (old : Nat) (inside : o.pa + 2 ^ o.wlog ≤ 2 ^ 51) :
    BytesWritten s (amoApplied s w o old) (keySlot s w) o.pa
      (bytesOf (2 ^ o.wlog) (amoNew o.func (2 ^ o.wlog) old o.opnd)) ∧
    OtherLines s (amoApplied s w o old) o.pa (2 ^ o.wlog) := by
  have lines := performWrite_otherLines s (keySlot s w) o.pa (bytesOf (2 ^ o.wlog) (amoNew o.func (2 ^ o.wlog) old o.opnd))
    (.inl (by rw [bytesOf_length]; exact inside))
  rw [bytesOf_length] at lines
  exact ⟨performWrite_bytesWritten _ _ _ _ (.inl (by rw [bytesOf_length]; exact inside)), lines⟩

theorem writeBarrier_sundogs (s : State) (w pa : Nat) (old new : Barrier) : (writeBarrier s w pa old new).sundogs = s.sundogs := by
  have performs := (performed_performWrite s (keySlot s w) pa (bytesOf 8 new.w0 ++ bytesOf 8 new.w1 ++ bytesOf 8 new.w2)).sundogs
  unfold writeBarrier
  dsimp only
  split
  · exact performs
  · exact performs

/-- An update leaves the tables of the ports as they are. -/
theorem applyUpdate_sundogs (h : applyUpdate s w k o = .ok (v, old)) : v.sundogs = s.sundogs := by
  unfold applyUpdate at h
  dsimp only at h
  split at h
  · cases h
  split at h
  · cases h; exact (performed_writeNum _ _ _ _ _).sundogs
  · cases h
    split
    · exact (performed_writeNum _ _ _ _ _).sundogs
    · rfl
  · cases h; exact (performed_writeNum _ _ _ _ _).sundogs
  · cases h; exact (performed_writeNum _ _ _ _ _).sundogs
  · cases h; exact writeBarrier_sundogs _ _ _ _ _
  · cases h; exact writeBarrier_sundogs _ _ _ _ _

end

end Sys2Proof.Machine
end

section
/-!
PROOFS: WRITE_QUEUE_UPDATE of an operation of a strand, by its branches (10 R189, 11 R220, R221).
-/

namespace Sys2Proof.Machine

/-! ## Streams that try again -/

theorem ctx_wakeAll (s : State) (w k : Nat) : (wakeAll s).ctx w k = { s.ctx w k with strand := (s.ctx w k).strand.unhold } :=
  tget_map Ctx.zero (fun c : Ctx => { c with strand := c.strand.unhold }) rfl s.ctxs _

theorem flights_wakeAll (s : State) : (wakeAll s).flights = s.flights := rfl

theorem ops_wakeAll (s : State) (w k : Nat) : ((wakeAll s).ctx w k).strand.ops = (s.ctx w k).strand.ops := by
  rw [ctx_wakeAll]
  rfl

theorem regs_wakeAll (s : State) (w k : Nat) : ((wakeAll s).ctx w k).strand.x = (s.ctx w k).strand.x := by
  rw [ctx_wakeAll]
  rfl

theorem strand_modStrand (s : State) (w k : Nat) (f : Strand → Strand) :
    ((s.modStrand w k f).ctx w k).strand = f (s.ctx w k).strand :=
  congrArg Ctx.strand (ctx_modStrand_same s w k f)

/-! ## An operation of a strand at its port -/

/-- The operations of a strand that were sent before one of them. -/
def Strand.sentBefore (t : Strand) (id : Nat) : Strand := { t with ops := t.ops.takeWhile fun x => x.id != id }

/-- A port keeps tag, location and old value of an update, and a table that is then crowded gives up what it can. -/
def keepsEntry (v : State) (o : Op) (old : Nat) : State :=
  spillFull { v with sundogs := v.sundogs ++ [Sundog.mk o.tag (portOf v o.pa) o.pa old] } (portOf v o.pa)

/-- An operation of the strand has applied. -/
def Strand.applied (id old : Nat) (t : Strand) : Strand := t.modOp id fun o => { o with done := true, old := old }

/-- An update has applied, and its response is due. -/
def answered (v : State) (w k id : Nat) (o : Op) (old : Nat) : State :=
  ((keepsEntry v o old).modStrand w k (Strand.applied id old)).push .operationResponse [w, k, id]

/-- An operation applies, or its strand faults. -/
def portApplies (u : State) (w k id : Nat) (o : Op) : State :=
  match applyUpdate u w k o with
  | .error c => opFault u w k o c
  | .ok (v, old) => answered v w k id o old

/-- What waits at the port of an update: writes, another strand's hold, a full table, an earlier update of the strand. -/
def updateWaits (s : State) (w k : Nat) (earlier : Strand) (o : Op) : Bool :=
  writeWaits s o.pa o.bytes || granuleHeld s w k o.pa o.bytes || portFull s (portOf s o.pa) || earlier.updating o.pa o.bytes

/-- WRITE_QUEUE_UPDATE of an operation that there is, once its port's table has given up what it can. -/
def portTakes (u : State) (w k id : Nat) (earlier : Strand) (o : Op) : State :=
  if o.cls ≠ 1 ∨ o.done ∨ o.queued ∨ o.host.isSome then u
  else if !memReady u o.pa then opFault u w k o .memnr
  else if updateWaits u w k earlier o then u
  else portApplies u w k id o

section
variable {s : State} {w k id : Nat} {o : Op} {earlier : Strand}

theorem writeQueueUpdate_found (found : (s.ctx w k).strand.findOp id = some o) :
    writeQueueUpdate s w k id =
      portTakes (spillFull s (portOf s o.pa)) w k id ((s.ctx w k).strand.sentBefore id) o := by
  unfold writeQueueUpdate portTakes
  dsimp only
  rw [found]
  rfl

/-- A table with room gives up nothing. -/
theorem writeQueueUpdate_roomy (found : (s.ctx w k).strand.findOp id = some o)
    (roomy : portCrowded s (portOf s o.pa) = false) :
    writeQueueUpdate s w k id = portTakes s w k id ((s.ctx w k).strand.sentBefore id) o := by
  rw [writeQueueUpdate_found found, spillFull_roomy roomy]

theorem portTakes_none (h : o.cls ≠ 1 ∨ o.done = true ∨ o.queued = true ∨ o.host.isSome = true) :
    portTakes s w k id earlier o = s := if_pos h

/-- An operation that is at its port and has not applied. -/
structure AtPort (o : Op) : Prop where
  cls : o.cls = 1
  done : o.done = false
  queued : o.queued = false
  host : o.host = none

theorem AtPort.not_none (h : AtPort o) : ¬ (o.cls ≠ 1 ∨ o.done = true ∨ o.queued = true ∨ o.host.isSome = true) := by
  simp [h.cls, h.done, h.queued, h.host]

theorem portTakes_notReady (h : AtPort o) (ready : memReady s o.pa = false) :
    portTakes s w k id earlier o = opFault s w k o .memnr :=
  (if_neg h.not_none).trans (if_pos (by rw [ready]; rfl))

theorem portTakes_waits (h : AtPort o) (ready : memReady s o.pa = true) (waits : updateWaits s w k earlier o = true) :
    portTakes s w k id earlier o = s :=
  (if_neg h.not_none).trans ((if_neg (by rw [ready]; decide)).trans (if_pos waits))

theorem portTakes_free (h : AtPort o) (ready : memReady s o.pa = true) (free : updateWaits s w k earlier o = false) :
    portTakes s w k id earlier o = portApplies s w k id o :=
  (if_neg h.not_none).trans ((if_neg (by rw [ready]; decide)).trans (if_neg (by rw [free]; decide)))

theorem portApplies_fails (fails : writeTagFails s (keySlot s w) o.pa o.bytes = true) :
    portApplies s w k id o = opFault s w k o .tagfail := by
  rw [portApplies, applyUpdate_fails fails]

theorem portApplies_amo (good : writeTagFails s (keySlot s w) o.pa o.bytes = false) (kind : o.kind = 0x10) :
    portApplies s w k id o = answered (amoApplied s w o (amoOld s w o)) w k id o (amoOld s w o) := by
  rw [portApplies, applyUpdate_amo good kind]

theorem keepsEntry_ops (v : State) (o : Op) (old w k : Nat) :
    ((keepsEntry v o old).ctx w k).strand.ops = (v.ctx w k).strand.ops := (spilled_spillFull _ _).ops w k

theorem keepsEntry_regs (v : State) (o : Op) (old w k : Nat) :
    ((keepsEntry v o old).ctx w k).strand.x = (v.ctx w k).strand.x := (spilled_spillFull _ _).regs w k

theorem keepsEntry_sundogs (v : State) (o : Op) (old : Nat) :
    ∀ d ∈ (keepsEntry v o old).sundogs, d ∈ v.sundogs ∨ d.tag = o.tag := by
  intro d hd
  have listed := (spilled_spillFull _ _).entries d hd
  rcases List.mem_append.mp listed with earlier | new
  · exact .inl earlier
  · exact .inr (by rw [List.mem_singleton.mp new])

theorem answered_sundogs (v : State) (w k id : Nat) (o : Op) (old : Nat) :
    (answered v w k id o old).sundogs = (keepsEntry v o old).sundogs := by
  rw [answered]
  generalize keepsEntry v o old = t
  rfl

theorem keepsEntry_flights (v : State) (o : Op) (old : Nat) : (keepsEntry v o old).flights = v.flights :=
  (spilled_spillFull _ _).flights

/-- A table gets no entry but the operation's own. -/
theorem portTakes_sundogs (s : State) (w k id : Nat) (earlier : Strand) (o : Op) :
    ∀ d ∈ (portTakes s w k id earlier o).sundogs, d ∈ s.sundogs ∨ d.tag = o.tag := by
  intro d hd
  unfold portTakes at hd
  split at hd
  · exact .inl hd
  split at hd
  · rw [opFault_sundogs] at hd; exact .inl hd
  split at hd
  · exact .inl hd
  unfold portApplies at hd
  split at hd
  case _ => rw [opFault_sundogs] at hd; exact .inl hd
  case _ v old hv =>
    rw [answered_sundogs] at hd
    rw [← applyUpdate_sundogs hv]
    exact keepsEntry_sundogs v o old d hd

/-- A crowded table has given up the entries of stopped contexts (11 R221). -/
theorem writeQueueUpdate_crowded (found : (s.ctx w k).strand.findOp id = some o) (crowded : portCrowded s (portOf s o.pa) = true)
    (fresh : ∀ d ∈ s.sundogs, d.tag ≠ o.tag) :
    ∀ d ∈ (writeQueueUpdate s w k id).sundogs, d ∈ s.sundogs → d.port = portOf s o.pa → spillable s d = false := by
  intro d hd listed port
  rw [writeQueueUpdate_found found] at hd
  exact spillFull_crowded crowded d ((portTakes_sundogs _ _ _ _ _ _ d hd).resolve_right (fresh d listed)) port

/-- What an AMO leaves that has applied at its port. -/
structure AmoAtPort (s t : State) (w k id : Nat) (o : Op) (old : Nat) : Prop where
  ops : (t.ctx w k).strand.ops = (s.ctx w k).strand.ops.map fun x => if x.id = id then { x with done := true, old := old } else x
  responds : event .operationResponse [w, k, id] ∈ t.work
  regs : (t.ctx w k).strand.x = (s.ctx w k).strand.x

theorem amoAtPort {v : State} (w k id : Nat) (o : Op) (hv : Performed s v) (old : Nat) :
    AmoAtPort s (answered v w k id o old) w k id o old := by
  have strand : ((answered v w k id o old).ctx w k).strand = ((keepsEntry v o old).ctx w k).strand.applied id old :=
    strand_modStrand (keepsEntry v o old) w k (Strand.applied id old)
  have ops := (keepsEntry_ops v o old w k).trans (hv.ops w k)
  have regs := (keepsEntry_regs v o old w k).trans (hv.regs w k)
  refine ⟨?_, List.mem_append_right _ (List.mem_singleton_self _), ?_⟩
  · rw [strand, ← ops]
    rfl
  · rw [strand, ← regs]
    rfl

/-- The table of an update's port is crowded with its entry. -/
def crowdedBy (s : State) (port : Nat) : Prop :=
  3 * sundogLimit port < 4 * ((s.sundogs.filter fun d => d.port == port).length + 1)

theorem portCrowded_append {d : Sundog} {port : Nat} (hp : d.port = port) :
    portCrowded { s with sundogs := s.sundogs ++ [d] } port = true ↔ crowdedBy s port := by
  simp [portCrowded, hp, crowdedBy]

theorem keepsEntry_roomy (h : ¬ crowdedBy s (portOf s o.pa)) (old : Nat) :
    keepsEntry s o old = { s with sundogs := s.sundogs ++ [Sundog.mk o.tag (portOf s o.pa) o.pa old] } :=
  spillFull_roomy (Bool.eq_false_iff.mpr fun g => h ((portCrowded_append rfl).mp g))

theorem keepsEntry_crowded (h : crowdedBy s (portOf s o.pa)) (old : Nat) :
    ∀ d ∈ (keepsEntry s o old).sundogs, d.port = portOf s o.pa → spillable s d = false :=
  spillFull_crowded ((portCrowded_append rfl).mpr h)

theorem Performed.crowdedBy {v : State} (h : Performed s v) (port : Nat) : crowdedBy v port ↔ crowdedBy s port := by
  rw [Machine.crowdedBy, h.sundogs]
  rfl

end

end Sys2Proof.Machine
end

section
/-!
PROOFS: requests that a save has left on their way, responses, and holds that end (11 R220, 15 R299, 20 R374).
-/

namespace Sys2Proof.Machine

/-! ## Requests on their way (20 R374) -/

/-- The request of an operation of context (w, k). -/
def isFlight (w k id : Nat) (x : Nat × Nat × Op) : Bool := x.1 == w && x.2.1 == k && x.2.2.id == id

/-- The request has reached its port. -/
def withoutFlight (s : State) (w k id : Nat) : State := { s with flights := s.flights.filter fun x => !isFlight w k id x }

theorem amoOld_withoutFlight (s : State) (w k id : Nat) (o : Op) : amoOld (withoutFlight s w k id) w o = amoOld s w o := rfl

/-- What waits at its port: writes, another strand's hold, a full table, an earlier request of the context. -/
def flightWaits (s : State) (w k id : Nat) (o : Op) : Bool :=
  writeWaits s o.pa o.bytes || granuleHeld s w k o.pa o.bytes || portFull s (portOf s o.pa) ||
    (s.flights.takeWhile fun x => !isFlight w k id x).any fun x => x.1 == w && x.2.1 == k && x.2.2.meets o.pa o.bytes

/-- The request applies, or finds a line that fails its code. -/
def flightApplies (s : State) (w k : Nat) (o : Op) : State :=
  match applyUpdate s w k o with
  | .error _ => wakeAll (compromise s w)
  | .ok (v, old) => wakeAll (keepsEntry v o old)

section
variable {s : State} {w k id : Nat} {o : Op}

theorem flightUpdate_none (gone : s.flights.find? (isFlight w k id) = none) : flightUpdate s w k id = s := by
  unfold flightUpdate
  rw [show s.flights.find? (fun x => x.1 == w && x.2.1 == k && x.2.2.id == id) = none from gone]

theorem flightUpdate_found (flying : s.flights.find? (isFlight w k id) = some (w, k, o)) :
    flightUpdate s w k id = if !memReady s o.pa then wakeAll (withoutFlight s w k id)
      else if flightWaits s w k id o then s else flightApplies (withoutFlight s w k id) w k o := by
  unfold flightUpdate
  rw [show s.flights.find? (fun x => x.1 == w && x.2.1 == k && x.2.2.id == id) = some (w, k, o) from flying]
  rfl

theorem flightUpdate_lost (flying : s.flights.find? (isFlight w k id) = some (w, k, o)) (ready : memReady s o.pa = false) :
    flightUpdate s w k id = wakeAll (withoutFlight s w k id) :=
  (flightUpdate_found flying).trans (if_pos (by rw [ready]; rfl))

theorem flightUpdate_waits (flying : s.flights.find? (isFlight w k id) = some (w, k, o)) (ready : memReady s o.pa = true)
    (waits : flightWaits s w k id o = true) : flightUpdate s w k id = s :=
  (flightUpdate_found flying).trans ((if_neg (by rw [ready]; decide)).trans (if_pos waits))

theorem flightUpdate_amo (flying : s.flights.find? (isFlight w k id) = some (w, k, o)) (ready : memReady s o.pa = true)
    (free : flightWaits s w k id o = false) (good : writeTagFails s (keySlot s w) o.pa o.bytes = false) (kind : o.kind = 0x10) :
    flightUpdate s w k id = wakeAll (keepsEntry (amoApplied (withoutFlight s w k id) w o (amoOld s w o)) o (amoOld s w o)) := by
  have applies : applyUpdate (withoutFlight s w k id) w k o =
      .ok (amoApplied (withoutFlight s w k id) w o (amoOld s w o), amoOld s w o) := applyUpdate_amo good kind
  rw [flightUpdate_found flying, if_neg (by rw [ready]; decide), if_neg (by rw [free]; decide), flightApplies, applies]

theorem flightWaits_iff : flightWaits s w k id o = true ↔
    writeWaits s o.pa o.bytes = true ∨ granuleHeld s w k o.pa o.bytes = true ∨ portFull s (portOf s o.pa) = true ∨
      ∃ x ∈ s.flights.takeWhile (fun x => !isFlight w k id x), x.1 = w ∧ x.2.1 = k ∧ x.2.2.meets o.pa o.bytes = true := by
  simp only [flightWaits, Bool.or_eq_true, List.any_eq_true, Bool.and_eq_true, beq_iff_eq, or_assoc, and_assoc]

theorem updateWaits_iff {earlier : Strand} : updateWaits s w k earlier o = true ↔
    writeWaits s o.pa o.bytes = true ∨ granuleHeld s w k o.pa o.bytes = true ∨ portFull s (portOf s o.pa) = true ∨
      earlier.updating o.pa o.bytes = true := by
  simp only [updateWaits, Bool.or_eq_true, or_assoc]

/-! ## Responses (11 R218, R220) -/

/-- The value that an AMO leaves in its register (15 R292). -/
def amoResult (o : Op) : Word := if o.wlog = 2 then sextBytes 4 o.old else dword o.old

theorem respond_amo (kind : o.kind = 0x10) (t : Strand) : respond t o o.old = t.settle o.reg (4 * o.id + 1) (amoResult o) := by
  have narrow : sextBytes 4 o.old = sext 32 o.old := rfl
  have wide : dword o.old = BitVec.ofNat 64 o.old := BitVec.ofInt_natCast 64 o.old
  simp only [respond, kind, amoResult, narrow, wide]

theorem Strand.settle_frame (t : Strand) (n tok : Nat) (v : Word) :
    t.settle n tok v = { t with x := (t.settle n tok v).x, pend := (t.settle n tok v).pend } := by
  unfold Strand.settle
  split
  · rw [Strand.wx_frame]
  · rfl

theorem Strand.rx_settle (t : Strand) (n tok : Nat) (v : Word) (r : Nat) :
    (t.settle n tok v).rx r =
      if r = n ∧ r ≠ 0 ∧ t.pend.any (fun p => p.reg == n && p.tok == tok) = true then v else t.rx r := by
  unfold Strand.settle
  split
  case isTrue pends =>
    have written : Strand.rx { t.wx n v with pend := dropPend n tok t.pend } r = (t.wx n v).rx r := rfl
    simp only [written, Strand.rx_wx, pends, and_true]
  case isFalse overtaken => rw [if_neg fun h => overtaken h.2.2]

/-- What the response of an AMO leaves of its strand. -/
theorem ctx_amoResponse (kind : o.kind = 0x10) :
    let u := (s.ctx w k).strand
    let t := (((s.modStrand w k fun t => ((respond t o o.old).dropOp o.id).unhold).ctx w k).strand)
    t.ops = u.ops.filter (fun x => x.id != o.id) ∧
    ∀ r, t.rx r =
      if r = o.reg ∧ r ≠ 0 ∧ u.pend.any (fun p => p.reg == o.reg && p.tok == 4 * o.id + 1) = true then amoResult o
      else u.rx r := by
  dsimp only
  rw [strand_modStrand, respond_amo kind]
  refine ⟨?_, fun r => ?_⟩
  · rw [Strand.settle_frame]
    rfl
  · rw [← Strand.rx_settle]
    rfl

end

/-! ## Holds that end (15 R299) -/

/-- 4,096 cycles have passed since the LR. -/
def Strand.holdOver (t : Strand) : Strand := { t with resv := t.resv.map fun r => { r with hold := false } }

/-- The hold is over, unless its reservation has ended. -/
def holdOver (s : State) (w k ended : Nat) : State := if ended ≠ 0 then s else s.modStrand w k Strand.holdOver

theorem woken_holdOver (s : State) (w k ended : Nat) : Woken s (holdOver s w k ended) := by
  unfold holdOver
  split
  · exact woken_refl s
  · refine ⟨rfl, fun _ => SameQueue.refl _, fun w' k' => ?_, [], (List.append_nil _).symm⟩
    rw [State.modStrand, State.ctx_modCtx]
    split
    case isTrue same =>
      have : s.ctx w' k' = s.ctx w k := congrArg (tget Ctx.zero s.ctxs) same
      rw [this]
      rfl
    case isFalse => rfl

theorem strand_holdOver (s : State) (w k ended : Nat) : ((holdOver s w k ended).ctx w k).strand =
    { (s.ctx w k).strand with
      resv := (s.ctx w k).strand.resv.map fun r => if ended = 0 then { r with hold := false } else r } := by
  unfold holdOver
  by_cases h : ended = 0
  · rw [if_neg (by omega), strand_modStrand]
    simp only [h, if_true]
    rfl
  · simp only [h, if_false, Option.map_id']
    rw [if_pos h]

/-- What is parked stays out of it. -/
theorem Woken.withParked {s t : State} (h : Woken s t) (es : List Event) :
    Woken { s with parked := es } { t with parked := es } where
  device := congrArg (fun u : State => { u with parked := es }) h.device
  queues := h.queues
  ctxs := h.ctxs
  work := h.work

theorem Woken.parked {s t : State} (h : Woken s t) : t.parked = s.parked := by rw [h.device]
theorem Woken.heldW {s t : State} (h : Woken s t) : t.heldW = s.heldW := by rw [h.device]

/-- A hold ends where no write waits: the reservation stands without it, and every stream tries again. -/
theorem reservationHoldExpiry_spec (s : State) (free : s.heldW = []) : Answers .reservationHoldExpiry s fun t =>
    (t.ctx (s.arg 0) (s.arg 1)).strand.resv =
      (s.ctx (s.arg 0) (s.arg 1)).strand.resv.map (fun r => if s.arg 2 = 0 then { r with hold := false } else r) ∧
    (t.ctx (s.arg 0) (s.arg 1)).strand.mon = (s.ctx (s.arg 0) (s.arg 1)).strand.mon ∧
    Woken { s with parked := [] } t ∧ ∀ e ∈ s.parked, e ∈ t.work := by
  have woke := woken_holdOver s (s.arg 0) (s.arg 1) (s.arg 2)
  have strand := strand_holdOver s (s.arg 0) (s.arg 1) (s.arg 2)
  obtain ⟨woken, tried⟩ := woken_wakeAll (holdOver s (s.arg 0) (s.arg 1) (s.arg 2))
  refine ⟨wakeAll (holdOver s (s.arg 0) (s.arg 1) (s.arg 2)),
    congrArg Host.Outcome.next (unholdAll_eq _ (woke.heldW.trans free)), ?_, ?_, woken_trans (woke.withParked []) woken, ?_⟩
  · rw [ctx_wakeAll, strand]
    rfl
  · rw [ctx_wakeAll, strand]
    rfl
  · rw [← woke.parked]
    exact tried

end Sys2Proof.Machine
end

section
/-!
PROOFS: the events of the ports, by the cases of their operations (10 R189, 11 R220, R221, 09 R456).
-/

namespace Sys2Proof.Machine

/-! ## The events, by the branches of their operations -/

section
variable {s : State} {w k id : Nat} {o : Op}

theorem answers_writeQueueUpdate {P : State → Prop} (h : P (writeQueueUpdate s (s.arg 0) (s.arg 1) (s.arg 2))) :
    Answers .writeQueueUpdate s P := ⟨_, rfl, h⟩

/-- Without the operation, a response and a report find nothing. -/
theorem absent_keeps (missing : (s.ctx (s.arg 0) (s.arg 1)).strand.findOp (s.arg 2) = none) :
    ∀ i ∈ [Instr.operationResponse, .portFaultReport], Answers i s (· = s) := by
  intro i hi
  rcases List.mem_cons.mp hi with rfl | hi
  · exact ⟨s, congrArg Host.Outcome.next (by rw [missing]), rfl⟩
  · rw [List.mem_singleton.mp hi]
    exact ⟨s, congrArg Host.Outcome.next (by rw [missing]), rfl⟩

theorem writeQueueUpdate_absent (missing : (s.ctx w k).strand.findOp id = none) :
    writeQueueUpdate s w k id = flightUpdate s w k id := by
  unfold writeQueueUpdate
  dsimp only
  rw [missing]

theorem operationResponse_found (found : (s.ctx (s.arg 0) (s.arg 1)).strand.findOp (s.arg 2) = some o) :
    exec .operationResponse s = .next (if o.cls = 1 ∧ o.done then
      (s.modStrand (s.arg 0) (s.arg 1) fun t => ((respond t o o.old).dropOp o.id).unhold).push .sundogAck [o.tag] else s) :=
  congrArg Host.Outcome.next (by rw [found])

theorem portFaultReport_found (found : (s.ctx (s.arg 0) (s.arg 1)).strand.findOp (s.arg 2) = some o) :
    exec .portFaultReport s =
      .next (if o.done ∨ o.queued then s else opFault s (s.arg 0) (s.arg 1) o (causeOf (s.arg 3))) :=
  congrArg Host.Outcome.next (by rw [found])

/-- An operation that is still at its port. -/
theorem portFaultReport_open (found : (s.ctx (s.arg 0) (s.arg 1)).strand.findOp (s.arg 2) = some o)
    (done : o.done = false) (queued : o.queued = false) :
    exec .portFaultReport s = .next (opFault s (s.arg 0) (s.arg 1) o (causeOf (s.arg 3))) := by
  rw [portFaultReport_found found, if_neg (by simp [done, queued])]

theorem sundogSpill_none (gone : ∀ d ∈ s.sundogs, d.tag ≠ s.arg 0) : exec .sundogSpill s = .next s := by
  have absent : s.sundogs.find? (fun d => d.tag == s.arg 0) = none :=
    List.find?_eq_none.mpr fun d hd => by simpa using gone d hd
  exact congrArg Host.Outcome.next (by rw [absent])

theorem sundogSpill_found {d : Sundog} (found : s.sundogs.find? (fun d => d.tag == s.arg 0) = some d) :
    exec .sundogSpill s = .next (if spillable s d then wakeAll (spill s d) else s) :=
  congrArg Host.Outcome.next (by rw [found])

/-! ## What an AMO leaves -/

/-- The entry that a port keeps of an update. -/
def portEntry (s : State) (o : Op) (old : Nat) : Sundog := { tag := o.tag, port := portOf s o.pa, loc := o.pa, old := old }

/-- From s to t the location of an AMO has taken its new value and its port has kept the old one. -/
structure AmoApplied (s t : State) (w : Nat) (o : Op) : Prop where
  bytes : BytesWritten s t (keySlot s w) o.pa (bytesOf (2 ^ o.wlog) (amoNew o.func (2 ^ o.wlog) (amoOld s w o) o.opnd))
  lines : OtherLines s t o.pa (2 ^ o.wlog)
  entry : t.sundogs = s.sundogs ++ [portEntry s o (amoOld s w o)]

theorem amoApplied_keepsEntry (inside : o.pa + 2 ^ o.wlog ≤ 2 ^ 51) (roomy : ¬ crowdedBy s (portOf s o.pa)) :
    AmoApplied s (keepsEntry (amoApplied s w o (amoOld s w o)) o (amoOld s w o)) w o := by
  have performed := performed_amoApplied s w o (amoOld s w o)
  obtain ⟨bytes, lines⟩ := amoApplied_bytes s w o (amoOld s w o) inside
  rw [keepsEntry_roomy (by rwa [performed.portOf, performed.crowdedBy]), performed.portOf, performed.sundogs]
  exact ⟨bytes, lines, rfl⟩

theorem AmoApplied.wakeAll {t : State} (h : AmoApplied s t w o) : AmoApplied s (wakeAll t) w o := ⟨h.bytes, h.lines, h.entry⟩

theorem AmoApplied.answered {v : State} {old : Nat} (h : AmoApplied s (keepsEntry v o old) w o) (k id : Nat) :
    AmoApplied s (answered v w k id o old) w o := by
  rw [Machine.answered]
  generalize keepsEntry v o old = t at h
  exact ⟨h.bytes, h.lines, h.entry⟩

/-- A table that is crowded with the entry has given up those of stopped contexts (11 R221). -/
theorem answered_crowded (crowded : crowdedBy s (portOf s o.pa)) :
    ∀ d ∈ (answered (amoApplied s w o (amoOld s w o)) w k id o (amoOld s w o)).sundogs, d.port = portOf s o.pa →
      spillable s d = false := by
  have performed := performed_amoApplied s w o (amoOld s w o)
  rw [answered_sundogs, ← performed.portOf]
  intro d hd port
  rw [← performed.spillable]
  exact keepsEntry_crowded ((performed.crowdedBy _).mpr (by rwa [performed.portOf])) _ d hd port

theorem amoApplied_withoutFlight {t : State} (h : AmoApplied (withoutFlight s w k id) t w o) : AmoApplied s t w o :=
  ⟨h.bytes, h.lines, h.entry⟩

/-- An AMO that its port takes applies, and its response is due; the table keeps its entry, or gives up what it can. -/
theorem portTakes_applied {earlier : Strand} (h : AtPort o) (ready : memReady s o.pa = true)
    (free : updateWaits s w k earlier o = false) (good : writeTagFails s (keySlot s w) o.pa o.bytes = false) (kind : o.kind = 0x10)
    (inside : o.pa + 2 ^ o.wlog ≤ 2 ^ 51) :
    let t := portTakes s w k id earlier o
    AmoAtPort s t w k id o (amoOld s w o) ∧ (¬ crowdedBy s (portOf s o.pa) → AmoApplied s t w o) ∧
      (crowdedBy s (portOf s o.pa) → ∀ d ∈ t.sundogs, d.port = portOf s o.pa → spillable s d = false) := by
  dsimp only
  rw [portTakes_free h ready free, portApplies_amo good kind]
  exact ⟨amoAtPort w k id o (performed_amoApplied s w o _) _, fun roomy => (amoApplied_keepsEntry inside roomy).answered k id,
    answered_crowded⟩

/-- A request of before a save applies as its operation would have (20 R374). -/
theorem flightUpdate_applied (flying : s.flights.find? (isFlight w k id) = some (w, k, o)) (ready : memReady s o.pa = true)
    (free : flightWaits s w k id o = false) (good : writeTagFails s (keySlot s w) o.pa o.bytes = false) (kind : o.kind = 0x10)
    (inside : o.pa + 2 ^ o.wlog ≤ 2 ^ 51) (roomy : ¬ crowdedBy s (portOf s o.pa)) :
    let t := flightUpdate s w k id
    AmoApplied s t w o ∧ t.flights = s.flights.filter (fun x => !isFlight w k id x) ∧
      (t.ctx w k).strand.ops = (s.ctx w k).strand.ops ∧ (t.ctx w k).strand.x = (s.ctx w k).strand.x := by
  have performed := performed_amoApplied (withoutFlight s w k id) w o (amoOld s w o)
  have landed := amoApplied_keepsEntry (s := withoutFlight s w k id) (w := w) (o := o) inside roomy
  rw [amoOld_withoutFlight] at landed
  dsimp only
  rw [flightUpdate_amo flying ready free good kind, flights_wakeAll, ops_wakeAll, regs_wakeAll, keepsEntry_flights,
    keepsEntry_ops, keepsEntry_regs, performed.flights, performed.ops, performed.regs]
  exact ⟨(amoApplied_withoutFlight landed).wakeAll, rfl, rfl, rfl⟩

/-! ## Updates and reports, by their cases -/

/-- WRITE_QUEUE_UPDATE of an operation that stands at a port with room in its table. -/
theorem writeQueueUpdate_spec (found : (s.ctx (s.arg 0) (s.arg 1)).strand.findOp (s.arg 2) = some o) (h : AtPort o)
    (kind : o.kind ≠ 2) (roomy : portCrowded s (portOf s o.pa) = false) :
    let w := s.arg 0
    let k := s.arg 1
    let st := (s.ctx w k).state
    let waits := updateWaits s w k ((s.ctx w k).strand.sentBefore (s.arg 2)) o
    let fails := writeTagFails s (keySlot s w) o.pa o.bytes
    (memReady s o.pa = false → st.live = true → (s.ctx w k).strand.ahead o = false →
      Answers .writeQueueUpdate s (StopsAt s · w k o .memnr)) ∧
    (memReady s o.pa = true → waits = true → Answers .writeQueueUpdate s (· = s)) ∧
    (memReady s o.pa = true → waits = false → fails = true → st.live = true ∨ st = .stopping →
      Answers .writeQueueUpdate s (FreezesAt s · w k o)) ∧
    (memReady s o.pa = true → waits = false → fails = false → o.kind = 0x10 → o.pa + 2 ^ o.wlog ≤ 2 ^ 51 →
      Answers .writeQueueUpdate s fun t =>
        AmoAtPort s t w k (s.arg 2) o (amoOld s w o) ∧ (¬ crowdedBy s (portOf s o.pa) → AmoApplied s t w o) ∧
        (crowdedBy s (portOf s o.pa) → ∀ d ∈ t.sundogs, d.port = portOf s o.pa → spillable s d = false)) := by
  intro w k st waits fails
  have takes : writeQueueUpdate s w k (s.arg 2) = portTakes s w k (s.arg 2) ((s.ctx w k).strand.sentBefore (s.arg 2)) o :=
    writeQueueUpdate_roomy found roomy
  have unasked : o.elementAsk = false := Bool.eq_false_iff.mpr fun h => kind ((elementAsk_iff o).mp h).1
  refine ⟨fun lost live here => answers_writeQueueUpdate ?_, fun ready busy => answers_writeQueueUpdate ?_,
    fun ready free failed runs => answers_writeQueueUpdate ?_, fun ready free good amo inside => answers_writeQueueUpdate ?_⟩
  · rw [takes, portTakes_notReady h lost]
    exact opFault_stopsAt (.inr here) (fun _ => unasked) (.inl live)
  · exact takes.trans (portTakes_waits h ready busy)
  · rw [takes, portTakes_free h ready free, portApplies_fails failed]
    exact opFault_freezesAt (fun _ => unasked) runs
  · rw [takes]
    exact portTakes_applied h ready free good amo inside

/-- PORT_FAULT_REPORT of an operation. -/
theorem portFaultReport_spec (found : (s.ctx (s.arg 0) (s.arg 1)).strand.findOp (s.arg 2) = some o) :
    let w := s.arg 0
    let k := s.arg 1
    let st := (s.ctx w k).state
    let c := causeOf (s.arg 3)
    (o.done = true ∨ o.queued = true → Answers .portFaultReport s (· = s)) ∧
    (o.done = false → o.queued = false → c ≠ .tagfail →
      (st.live = false → Answers .portFaultReport s (· = s)) ∧
      (st.live = true → (s.ctx w k).strand.ahead o = true → Answers .portFaultReport s
        (· = s.modStrand w k fun v => (v.unsend o).unhold)) ∧
      (st.live = true → (s.ctx w k).strand.ahead o = false → ¬ o.elementAsk = true →
        Answers .portFaultReport s (StopsAt s · w k o c))) ∧
    (o.done = false → o.queued = false → st.live = true → o.elementAsk = true →
      Answers .portFaultReport s (· = askFails s w k o c)) ∧
    (o.done = false → o.queued = false → c = .tagfail → (st.live = true ∧ ¬ o.elementAsk = true) ∨ st = .stopping →
      Answers .portFaultReport s (FreezesAt s · w k o)) := by
  intro w k st c
  refine ⟨fun ended => ?ended,
    fun done queued other => ⟨fun dead => ?dead, fun live ahead => ?ahead, fun live here unasked => ?here⟩,
    fun done queued live asked => ?asked, fun done queued tagfail runs => ?tagfail⟩
  case ended => exact ⟨s, (portFaultReport_found found).trans (congrArg Host.Outcome.next (if_pos ended)), rfl⟩
  case dead => exact ⟨_, portFaultReport_open found done queued, opFault_dead other dead⟩
  case ahead => exact ⟨_, portFaultReport_open found done queued, opFault_ahead other live ahead⟩
  case here =>
    exact ⟨_, portFaultReport_open found done queued,
      opFault_stopsAt (.inr here) (fun _ => Bool.eq_false_iff.mpr unasked) (.inl live)⟩
  case asked => exact ⟨_, portFaultReport_open found done queued, opFault_asks live asked⟩
  case tagfail =>
    have report := portFaultReport_open found done queued
    rw [show causeOf (s.arg 3) = .tagfail from tagfail] at report
    refine ⟨_, report, opFault_freezesAt (fun live => ?_) (runs.imp_left And.left)⟩
    rcases runs with ⟨-, unasked⟩ | stopping
    · exact Bool.eq_false_iff.mpr unasked
    · rw [show (s.ctx (s.arg 0) (s.arg 1)).state = .stopping from stopping] at live
      cases live

end

end Sys2Proof.Machine
end

section
/-!
PROOFS: the statement about the ports together (10 R189, 11 R220, R221, 09 R456, 15 R293, R299, 13 R265).
-/

namespace Sys2Proof.Machine

/-- Settles O52: an update by the branches of `portTakes` and `flightUpdate`, a report by those of `opFault`, a spill by what the
record holds; the hold that ends and the faults at PC are each one operation. -/
theorem portsAndReports : Obligations.PortsAndReports := by
  unfold Obligations.PortsAndReports
  intro s w k id c u u' stops asks stopped crowd freezes freed
  have stopped_iff (d : Sundog) : spillable s d = true ↔ stopped d := spillable_iff s d
  have not_stopped {d : Sundog} (h : spillable s d = false) : ¬ stopped d := by rw [← stopped_iff, h]; exact Bool.false_ne_true
  refine ⟨fun missing => ⟨absent_keeps missing, fun gone => ?gone, fun o flying => ?flight⟩, fun o found => ?present, ?ack,
    ?unknown, fun d listed => ⟨?stays, fun stands => ⟨?cleared, ?spilled⟩⟩, reservationHoldExpiry_spec s, fun live => ?atPc⟩
  case gone =>
    have absent : s.flights.find? (isFlight w k id) = none :=
      List.find?_eq_none.mpr fun x hx hit => Bool.eq_false_iff.mp gone (List.any_eq_true.mpr ⟨x, hx, hit⟩)
    exact answers_writeQueueUpdate ((writeQueueUpdate_absent missing).trans (flightUpdate_none absent))
  case flight =>
    have update : writeQueueUpdate s w k id = flightUpdate s w k id := writeQueueUpdate_absent missing
    refine ⟨fun lost => answers_writeQueueUpdate ?_, fun ready busy => answers_writeQueueUpdate ?_,
      fun ready free good kind inside roomy => answers_writeQueueUpdate ?_⟩
    · rw [update, flightUpdate_lost flying lost]
      exact ⟨rfl, rfl, ops_wakeAll _ w k⟩
    · exact update.trans (flightUpdate_waits flying ready (flightWaits_iff.mpr busy))
    · have unhindered : flightWaits s w k id o = false := Bool.eq_false_iff.mpr fun h => free (flightWaits_iff.mp h)
      obtain ⟨applied, flights, ops, regs⟩ := flightUpdate_applied flying ready unhindered good kind inside roomy
      rw [update]
      exact ⟨applied.bytes, flights, ops, regs, applied.entry⟩
  case present =>
    refine ⟨fun crowded fresh => ?crowded, fun idle roomy => ?idle, fun cls kind done queued host roomy => ?update,
      fun pending => ?pending, fun cls done kind => ?response, ?report⟩
    case crowded =>
      exact answers_writeQueueUpdate fun d hd listed port =>
        not_stopped (writeQueueUpdate_crowded found (decide_eq_true crowded) fresh d hd listed port)
    case idle =>
      exact answers_writeQueueUpdate
        ((writeQueueUpdate_roomy found (decide_eq_false roomy)).trans (portTakes_none idle))
    case update =>
      obtain ⟨lost, waits, fails, applies⟩ :=
        writeQueueUpdate_spec found ⟨cls, done, queued, host⟩ kind (decide_eq_false roomy)
      refine ⟨lost, fun ready busy => waits ready (updateWaits_iff.mpr busy),
        fun ready free => fails ready (Bool.eq_false_iff.mpr fun h => free (updateWaits_iff.mp h)),
        fun ready free good amo inside => ?_⟩
      obtain ⟨t, ht, left, kept, givesUp⟩ :=
        applies ready (Bool.eq_false_iff.mpr fun h => free (updateWaits_iff.mp h)) good amo inside
      exact ⟨t, ht, left.ops, left.responds, left.regs,
        fun roomy => ⟨(kept roomy).bytes, (kept roomy).lines, (kept roomy).entry⟩,
        fun crowded d hd port => not_stopped (givesUp crowded d hd port)⟩
    case pending =>
      have waits : ¬ (o.cls = 1 ∧ o.done = true) := fun h => pending.elim (· h.1) fun g => Bool.eq_false_iff.mp g h.2
      exact ⟨s, (operationResponse_found found).trans (congrArg Host.Outcome.next (if_neg waits)), rfl⟩
    case response =>
      obtain ⟨ops, regs⟩ := ctx_amoResponse (s := s) (w := w) (k := k) kind
      exact ⟨_, (operationResponse_found found).trans (congrArg Host.Outcome.next (if_pos ⟨cls, done⟩)), ops,
        List.mem_append_right _ (List.mem_singleton_self _), rfl, regs⟩
    case report =>
      obtain ⟨ended, other, asked, tagfail⟩ := portFaultReport_spec found
      have asks_iff : asks o ↔ o.elementAsk = true := (elementAsk_iff o).symm
      rw [← asks_iff] at other asked tagfail
      refine ⟨ended, other, fun done queued live asking => ?_, tagfail⟩
      obtain ⟨t, ht, rfl⟩ := asked done queued live asking
      exact ⟨_, ht, askFails_spec s w k o _⟩
  case ack =>
    obtain ⟨woken, tried⟩ := woken_wakeAll { s with sundogs := s.sundogs.filter fun d => d.tag != w }
    exact ⟨_, rfl, rfl, woken, tried⟩
  case unknown => exact fun gone => ⟨s, sundogSpill_none gone, rfl⟩
  case stays =>
    exact fun moves => ⟨s, (sundogSpill_found listed).trans
      (congrArg Host.Outcome.next (if_neg fun h => moves ((stopped_iff d).mp h))), rfl⟩
  case cleared =>
    intro absent
    have spills := (sundogSpill_found listed).trans (congrArg Host.Outcome.next (if_pos ((stopped_iff d).mpr stands)))
    rw [spill_none absent] at spills
    obtain ⟨woken, tried⟩ := woken_wakeAll { s with sundogs := s.sundogs.filter fun x => x.tag != d.tag }
    exact ⟨_, spills, rfl, woken, tried⟩
  case spilled =>
    intro a there high
    have spills := (sundogSpill_found listed).trans (congrArg Host.Outcome.next (if_pos ((stopped_iff d).mpr stands)))
    rw [spill_some there] at spills
    obtain ⟨applied, old⟩ := vaultDword_spillRecord (s := s) (old := d.old) high
    exact ⟨_, spills, rfl, applied, old, otherLines_spillRecord high⟩
  case atPc =>
    exact ⟨⟨_, rfl, scalarFault_spec s .illegal 0 (by decide) live⟩,
      fun cause => ⟨_, rfl, scalarFault_spec s _ _ cause live⟩,
      fun cause => ⟨_, rfl, scalarFault_tagfail cause live⟩⟩

end Sys2Proof.Machine
end

section
/-!
PROOFS: words as rows of fields (13 R258 to R264, 15 R286). A number of 32 bits is cut into the fields of a layout in one way;
for each layout of the encoder this says, both ways at once, what a word of it holds.
-/

namespace Sys2Proof

/-! ## Words as rows of fields -/

/-- A field of a word's layout: n bits that the instruction fixes, or n bits for an operand of value x. -/
inductive Part where
  | fixed (n : Nat)
  | operand (n x : Nat)

/-- The bits of a field. -/
def Part.width : Part → Nat
  | .fixed n | .operand n _ => n

/-- The bits of a layout. -/
def totalWidth : List Part → Nat
  | [] => 0
  | p :: ps => p.width + totalWidth ps

/-- The number whose fields, from bit lo upward, are ps; its fixed bits are those of b. -/
def assemble (b : Nat) : Nat → List Part → Nat
  | _, [] => 0
  | lo, .fixed n :: ps => fld b lo n + 2 ^ n * assemble b (lo + n) ps
  | lo, .operand n x :: ps => x + 2 ^ n * assemble b (lo + n) ps

/-- Every operand fits its field. -/
def AllFit : List Part → Prop
  | [] => True
  | .fixed _ :: ps => AllFit ps
  | .operand n x :: ps => x < 2 ^ n ∧ AllFit ps

/-- The field at bit lo of w is that of b, or holds the operand. -/
def Part.Read (w b lo : Nat) : Part → Prop
  | .fixed n => fld w lo n = fld b lo n
  | .operand n x => x = fld w lo n

/-- w holds each of the fields, from bit lo upward. -/
def Reads (w b : Nat) : Nat → List Part → Prop
  | _, [] => True
  | lo, [p] => p.Read w b lo
  | lo, p :: q :: ps => p.Read w b lo ∧ Reads w b (lo + p.width) (q :: ps)

theorem reads_cons (w b lo : Nat) (p : Part) (ps : List Part) :
    Reads w b lo (p :: ps) ↔ p.Read w b lo ∧ Reads w b (lo + p.width) ps := by
  cases ps with
  | nil => exact (iff_of_eq (and_true _)).symm
  | cons q ps => rfl

theorem fld_lt (w lo n : Nat) : fld w lo n < 2 ^ n := Nat.mod_lt _ (Nat.two_pow_pos n)

/-- A number is cut at bit n in one way. -/
theorem low_field_iff {w lo n x y : Nat} (hx : x < 2 ^ n) :
    w / 2 ^ lo = x + 2 ^ n * y ↔ x = fld w lo n ∧ w / 2 ^ (lo + n) = y := by
  rw [fld, Nat.pow_add, ← Nat.div_div_eq_div_mul]
  constructor
  · rintro h
    rw [h, Nat.add_mul_mod_self_left, Nat.mod_eq_of_lt hx, Nat.add_mul_div_left _ _ (Nat.two_pow_pos n), Nat.div_eq_of_lt hx,
      Nat.zero_add]
    exact ⟨rfl, rfl⟩
  · rintro ⟨rfl, rfl⟩
    exact (Nat.mod_add_div _ _).symm

/-- What stands above bit lo has the width of a layout if what stands above the first field has the width of the rest. -/
theorem above_lt_iff (w lo n m : Nat) : w / 2 ^ lo < 2 ^ (n + m) ↔ w / 2 ^ (lo + n) < 2 ^ m := by
  rw [Nat.pow_add 2 lo, ← Nat.div_div_eq_div_mul, Nat.div_lt_iff_lt_mul (Nat.two_pow_pos n), ← Nat.pow_add, Nat.add_comm m]

/-- A number is assembled from fields that fit exactly where it holds them and nothing above. -/
theorem assemble_iff (w b lo : Nat) (ps : List Part) :
    (w / 2 ^ lo = assemble b lo ps ∧ AllFit ps) ↔ w / 2 ^ lo < 2 ^ totalWidth ps ∧ Reads w b lo ps := by
  induction ps generalizing lo with
  | nil => simp [assemble, AllFit, totalWidth, Reads]
  | cons p ps ih =>
    have above := above_lt_iff w lo p.width (totalWidth ps)
    have rest := ih (lo + p.width)
    rw [reads_cons, totalWidth, above]
    cases p with
    | fixed n =>
      rw [assemble, low_field_iff (fld_lt b lo n), eq_comm (a := fld b lo n)]
      exact and_assoc.trans ((and_congr_right' rest).trans and_left_comm)
    | operand n x =>
      have cut : (w / 2 ^ lo = x + 2 ^ n * assemble b (lo + n) ps ∧ x < 2 ^ n) ↔
          x = fld w lo n ∧ w / 2 ^ (lo + n) = assemble b (lo + n) ps :=
        ⟨fun ⟨h, hx⟩ => (low_field_iff hx).mp h,
          fun ⟨h, hw⟩ => ⟨(low_field_iff (h ▸ fld_lt w lo n)).mpr ⟨h, hw⟩, h ▸ fld_lt w lo n⟩⟩
      rw [assemble, AllFit, ← and_assoc, cut]
      exact and_assoc.trans ((and_congr_right' rest).trans and_left_comm)

/-- A number is `e` with operands that fit, for any spelling of `e` and of the bounds, exactly where it reads so. -/
theorem eq_assembled_iff {w b e : Nat} {fits : Prop} (ps : List Part) (he : e = assemble b 0 ps) (hf : fits ↔ AllFit ps) :
    (w = e ∧ fits) ↔ w < 2 ^ totalWidth ps ∧ Reads w b 0 ps := by
  have whole := assemble_iff w b 0 ps
  rwa [Nat.pow_zero, Nat.div_one, ← he, ← hf] at whole

theorem eq_word_iff {w b e : Nat} {fits : Prop} [Decidable fits] (ps : List Part) (he : e = assemble b 0 ps)
    (hf : fits ↔ AllFit ps) : (w = e ∧ decide fits = true) ↔ w < 2 ^ totalWidth ps ∧ Reads w b 0 ps := by
  rw [decide_eq_true_iff]
  exact eq_assembled_iff ps he hf

/-- The word of an instruction that has no operand. -/
theorem eq_fixed_iff {w b : Nat} (ps : List Part) (hb : b = assemble b 0 ps) (hf : AllFit ps) :
    (w = b ∧ true = true) ↔ w < 2 ^ totalWidth ps ∧ Reads w b 0 ps :=
  eq_assembled_iff ps hb (iff_of_true rfl hf)

/-- A number that is cut in pieces. -/
theorem eq_pieces_iff {v b e : Nat} (ps : List Part) (he : e = assemble b 0 ps) (hf : AllFit ps) :
    v = e ↔ v < 2 ^ totalWidth ps ∧ Reads v b 0 ps :=
  (iff_of_eq (and_true _)).symm.trans (eq_assembled_iff ps he (iff_of_true trivial hf))

/-! ## The layouts of the encoder

In each lemma, `hb` says that b, the row's constant, has bits in the layout's fixed fields only. -/

section
variable {w b : Nat}

theorem eq_encU_iff {rd imm : Nat} (hb : fld b 0 7 = b) :
    (w = encU b rd imm ∧ decide (rd < 32 ∧ imm < 1048576) = true) ↔
      w < 2 ^ 32 ∧ fld w 0 7 = fld b 0 7 ∧ rd = fld w 7 5 ∧ imm = fld w 12 20 :=
  eq_word_iff [.fixed 7, .operand 5 rd, .operand 20 imm]
    (by simp only [encU, assemble]; omega) (by simp only [AllFit, and_true]; omega)

theorem eq_encI_iff {rd rs1 imm : Nat} (hb : fld b 0 7 + fld b 12 3 * 2 ^ 12 = b) :
    (w = encI b rd rs1 imm ∧ decide (rd < 32 ∧ rs1 < 32 ∧ imm < 4096) = true) ↔
      w < 2 ^ 32 ∧ fld w 0 7 = fld b 0 7 ∧ rd = fld w 7 5 ∧ fld w 12 3 = fld b 12 3 ∧ rs1 = fld w 15 5 ∧ imm = fld w 20 12 :=
  eq_word_iff [.fixed 7, .operand 5 rd, .fixed 3, .operand 5 rs1, .operand 12 imm]
    (by simp only [encI, assemble, Nat.reduceAdd]; omega) (by simp only [AllFit, and_true]; omega)

theorem eq_encShift_iff {rd rs1 shamt : Nat} (hb : fld b 0 7 + fld b 12 3 * 2 ^ 12 + fld b 26 6 * 2 ^ 26 = b) :
    (w = encShift b rd rs1 shamt ∧ decide (rd < 32 ∧ rs1 < 32 ∧ shamt < 64) = true) ↔
      w < 2 ^ 32 ∧ fld w 0 7 = fld b 0 7 ∧ rd = fld w 7 5 ∧ fld w 12 3 = fld b 12 3 ∧ rs1 = fld w 15 5 ∧ shamt = fld w 20 6 ∧
        fld w 26 6 = fld b 26 6 :=
  eq_word_iff [.fixed 7, .operand 5 rd, .fixed 3, .operand 5 rs1, .operand 6 shamt, .fixed 6]
    (by simp only [encShift, assemble, Nat.reduceAdd]; omega) (by simp only [AllFit, and_true]; omega)

theorem eq_encShiftW_iff {rd rs1 shamt : Nat} (hb : fld b 0 7 + fld b 12 3 * 2 ^ 12 + fld b 25 7 * 2 ^ 25 = b) :
    (w = encShiftW b rd rs1 shamt ∧ decide (rd < 32 ∧ rs1 < 32 ∧ shamt < 32) = true) ↔
      w < 2 ^ 32 ∧ fld w 0 7 = fld b 0 7 ∧ rd = fld w 7 5 ∧ fld w 12 3 = fld b 12 3 ∧ rs1 = fld w 15 5 ∧ shamt = fld w 20 5 ∧
        fld w 25 7 = fld b 25 7 :=
  eq_word_iff [.fixed 7, .operand 5 rd, .fixed 3, .operand 5 rs1, .operand 5 shamt, .fixed 7]
    (by simp only [encShiftW, assemble, Nat.reduceAdd]; omega) (by simp only [AllFit, and_true]; omega)

theorem eq_encFence_iff {pred succ : Nat}
    (hb : fld b 0 7 + fld b 7 5 * 2 ^ 7 + fld b 12 3 * 2 ^ 12 + fld b 15 5 * 2 ^ 15 + fld b 28 4 * 2 ^ 28 = b) :
    (w = encFence b pred succ ∧ decide (pred < 16 ∧ succ < 16) = true) ↔
      w < 2 ^ 32 ∧ fld w 0 7 = fld b 0 7 ∧ fld w 7 5 = fld b 7 5 ∧ fld w 12 3 = fld b 12 3 ∧ fld w 15 5 = fld b 15 5 ∧
        succ = fld w 20 4 ∧ pred = fld w 24 4 ∧ fld w 28 4 = fld b 28 4 :=
  eq_word_iff [.fixed 7, .fixed 5, .fixed 3, .fixed 5, .operand 4 succ, .operand 4 pred, .fixed 4]
    (by simp only [encFence, assemble, Nat.reduceAdd]; omega) (by simp only [AllFit, and_true]; omega)

theorem eq_encLr_iff {rd rs1 aq rl : Nat} (hb : fld b 0 7 + fld b 12 3 * 2 ^ 12 + fld b 20 5 * 2 ^ 20 + fld b 27 5 * 2 ^ 27 = b) :
    (w = encLr b rd rs1 aq rl ∧ decide (rd < 32 ∧ rs1 < 32 ∧ aq < 2 ∧ rl < 2) = true) ↔
      w < 2 ^ 32 ∧ fld w 0 7 = fld b 0 7 ∧ rd = fld w 7 5 ∧ fld w 12 3 = fld b 12 3 ∧ rs1 = fld w 15 5 ∧
        fld w 20 5 = fld b 20 5 ∧ rl = fld w 25 1 ∧ aq = fld w 26 1 ∧ fld w 27 5 = fld b 27 5 :=
  eq_word_iff [.fixed 7, .operand 5 rd, .fixed 3, .operand 5 rs1, .fixed 5, .operand 1 rl, .operand 1 aq, .fixed 5]
    (by simp only [encLr, assemble, Nat.reduceAdd]; omega) (by simp only [AllFit, and_true]; omega)

theorem eq_encAmo_iff {rd rs1 rs2 aq rl : Nat} (hb : fld b 0 7 + fld b 12 3 * 2 ^ 12 + fld b 27 5 * 2 ^ 27 = b) :
    (w = encAmo b rd rs1 rs2 aq rl ∧ decide (rd < 32 ∧ rs1 < 32 ∧ rs2 < 32 ∧ aq < 2 ∧ rl < 2) = true) ↔
      w < 2 ^ 32 ∧ fld w 0 7 = fld b 0 7 ∧ rd = fld w 7 5 ∧ fld w 12 3 = fld b 12 3 ∧ rs1 = fld w 15 5 ∧ rs2 = fld w 20 5 ∧
        rl = fld w 25 1 ∧ aq = fld w 26 1 ∧ fld w 27 5 = fld b 27 5 :=
  eq_word_iff [.fixed 7, .operand 5 rd, .fixed 3, .operand 5 rs1, .operand 5 rs2, .operand 1 rl, .operand 1 aq, .fixed 5]
    (by simp only [encAmo, assemble, Nat.reduceAdd]; omega) (by simp only [AllFit, and_true]; omega)

theorem eq_encVr_iff {vd va vb sx : Nat} (hb : fld b 0 7 + fld b 26 6 * 2 ^ 26 = b) :
    (w = encVr b vd va vb sx ∧ decide (vd < 64 ∧ va < 64 ∧ vb < 64 ∧ sx < 2) = true) ↔
      w < 2 ^ 32 ∧ fld w 0 7 = fld b 0 7 ∧ vd = fld w 7 6 ∧ vb = fld w 13 6 ∧ va = fld w 19 6 ∧ sx = fld w 25 1 ∧
        fld w 26 6 = fld b 26 6 :=
  eq_word_iff [.fixed 7, .operand 6 vd, .operand 6 vb, .operand 6 va, .operand 1 sx, .fixed 6]
    (by simp only [encVr, assemble, Nat.reduceAdd]; omega) (by simp only [AllFit, and_true]; omega)

theorem eq_encVr1_iff {vd va : Nat} (hb : fld b 0 7 + fld b 13 6 * 2 ^ 13 + fld b 25 1 * 2 ^ 25 + fld b 26 6 * 2 ^ 26 = b) :
    (w = encVr1 b vd va ∧ decide (vd < 64 ∧ va < 64) = true) ↔
      w < 2 ^ 32 ∧ fld w 0 7 = fld b 0 7 ∧ vd = fld w 7 6 ∧ fld w 13 6 = fld b 13 6 ∧ va = fld w 19 6 ∧
        fld w 25 1 = fld b 25 1 ∧ fld w 26 6 = fld b 26 6 :=
  eq_word_iff [.fixed 7, .operand 6 vd, .fixed 6, .operand 6 va, .fixed 1, .fixed 6]
    (by simp only [encVr1, assemble, Nat.reduceAdd]; omega) (by simp only [AllFit, and_true]; omega)

theorem eq_encVrP_iff {pd va vb sx : Nat} (hb : fld b 0 7 + fld b 12 1 * 2 ^ 12 + fld b 26 6 * 2 ^ 26 = b) :
    (w = encVrP b pd va vb sx ∧ decide (pd < 32 ∧ va < 64 ∧ vb < 64 ∧ sx < 2) = true) ↔
      w < 2 ^ 32 ∧ fld w 0 7 = fld b 0 7 ∧ pd = fld w 7 5 ∧ fld w 12 1 = fld b 12 1 ∧ vb = fld w 13 6 ∧ va = fld w 19 6 ∧
        sx = fld w 25 1 ∧ fld w 26 6 = fld b 26 6 :=
  eq_word_iff [.fixed 7, .operand 5 pd, .fixed 1, .operand 6 vb, .operand 6 va, .operand 1 sx, .fixed 6]
    (by simp only [encVrP, assemble, Nat.reduceAdd]; omega) (by simp only [AllFit, and_true]; omega)

theorem eq_encCvt_iff {vd va ty : Nat} (hb : fld b 0 7 + fld b 17 2 * 2 ^ 17 + fld b 25 1 * 2 ^ 25 + fld b 26 6 * 2 ^ 26 = b) :
    (w = encCvt b vd va ty ∧ decide (vd < 64 ∧ va < 64 ∧ ty < 16) = true) ↔
      w < 2 ^ 32 ∧ fld w 0 7 = fld b 0 7 ∧ vd = fld w 7 6 ∧ ty = fld w 13 4 ∧ fld w 17 2 = fld b 17 2 ∧ va = fld w 19 6 ∧
        fld w 25 1 = fld b 25 1 ∧ fld w 26 6 = fld b 26 6 :=
  eq_word_iff [.fixed 7, .operand 6 vd, .operand 4 ty, .fixed 2, .operand 6 va, .fixed 1, .fixed 6]
    (by simp only [encCvt, assemble, Nat.reduceAdd]; omega) (by simp only [AllFit, and_true]; omega)

theorem eq_encVrX_iff {vd xs : Nat} (hb : fld b 0 7 + fld b 18 8 * 2 ^ 18 + fld b 26 6 * 2 ^ 26 = b) :
    (w = encVrX b vd xs ∧ decide (vd < 64 ∧ xs < 32) = true) ↔
      w < 2 ^ 32 ∧ fld w 0 7 = fld b 0 7 ∧ vd = fld w 7 6 ∧ xs = fld w 13 5 ∧ fld w 18 8 = fld b 18 8 ∧
        fld w 26 6 = fld b 26 6 :=
  eq_word_iff [.fixed 7, .operand 6 vd, .operand 5 xs, .fixed 8, .fixed 6]
    (by simp only [encVrX, assemble, Nat.reduceAdd]; omega) (by simp only [AllFit, and_true]; omega)

theorem eq_encVrD_iff {vd : Nat} (hb : fld b 0 7 + fld b 13 13 * 2 ^ 13 + fld b 26 6 * 2 ^ 26 = b) :
    (w = encVrD b vd ∧ decide (vd < 64) = true) ↔
      w < 2 ^ 32 ∧ fld w 0 7 = fld b 0 7 ∧ vd = fld w 7 6 ∧ fld w 13 13 = fld b 13 13 ∧ fld w 26 6 = fld b 26 6 :=
  eq_word_iff [.fixed 7, .operand 6 vd, .fixed 13, .fixed 6]
    (by simp only [encVrD, assemble, Nat.reduceAdd]; omega) (by simp only [AllFit, and_true]; omega)

theorem eq_encIota_iff {vd pa : Nat} (hb : fld b 0 7 + fld b 13 6 * 2 ^ 13 + fld b 24 2 * 2 ^ 24 + fld b 26 6 * 2 ^ 26 = b) :
    (w = encIota b vd pa ∧ decide (vd < 64 ∧ pa < 32) = true) ↔
      w < 2 ^ 32 ∧ fld w 0 7 = fld b 0 7 ∧ vd = fld w 7 6 ∧ fld w 13 6 = fld b 13 6 ∧ pa = fld w 19 5 ∧
        fld w 24 2 = fld b 24 2 ∧ fld w 26 6 = fld b 26 6 :=
  eq_word_iff [.fixed 7, .operand 6 vd, .fixed 6, .operand 5 pa, .fixed 2, .fixed 6]
    (by simp only [encIota, assemble, Nat.reduceAdd]; omega) (by simp only [AllFit, and_true]; omega)

theorem eq_encVrAX_iff {vd va xs : Nat} (hb : fld b 0 7 + fld b 18 1 * 2 ^ 18 + fld b 25 1 * 2 ^ 25 + fld b 26 6 * 2 ^ 26 = b) :
    (w = encVrAX b vd va xs ∧ decide (vd < 64 ∧ va < 64 ∧ xs < 32) = true) ↔
      w < 2 ^ 32 ∧ fld w 0 7 = fld b 0 7 ∧ vd = fld w 7 6 ∧ xs = fld w 13 5 ∧ fld w 18 1 = fld b 18 1 ∧ va = fld w 19 6 ∧
        fld w 25 1 = fld b 25 1 ∧ fld w 26 6 = fld b 26 6 :=
  eq_word_iff [.fixed 7, .operand 6 vd, .operand 5 xs, .fixed 1, .operand 6 va, .fixed 1, .fixed 6]
    (by simp only [encVrAX, assemble, Nat.reduceAdd]; omega) (by simp only [AllFit, and_true]; omega)

theorem eq_encPerm_iff {vd va vb : Nat} (hb : fld b 0 7 + fld b 25 1 * 2 ^ 25 + fld b 26 6 * 2 ^ 26 = b) :
    (w = encPerm b vd va vb ∧ decide (vd < 64 ∧ va < 64 ∧ vb < 64) = true) ↔
      w < 2 ^ 32 ∧ fld w 0 7 = fld b 0 7 ∧ vd = fld w 7 6 ∧ vb = fld w 13 6 ∧ va = fld w 19 6 ∧ fld w 25 1 = fld b 25 1 ∧
        fld w 26 6 = fld b 26 6 :=
  eq_word_iff [.fixed 7, .operand 6 vd, .operand 6 vb, .operand 6 va, .fixed 1, .fixed 6]
    (by simp only [encPerm, assemble, Nat.reduceAdd]; omega) (by simp only [AllFit, and_true]; omega)

theorem eq_encExt_iff {xd va xs : Nat}
    (hb : fld b 0 7 + fld b 12 1 * 2 ^ 12 + fld b 18 1 * 2 ^ 18 + fld b 25 1 * 2 ^ 25 + fld b 26 6 * 2 ^ 26 = b) :
    (w = encExt b xd va xs ∧ decide (xd < 32 ∧ va < 64 ∧ xs < 32) = true) ↔
      w < 2 ^ 32 ∧ fld w 0 7 = fld b 0 7 ∧ xd = fld w 7 5 ∧ fld w 12 1 = fld b 12 1 ∧ xs = fld w 13 5 ∧
        fld w 18 1 = fld b 18 1 ∧ va = fld w 19 6 ∧ fld w 25 1 = fld b 25 1 ∧ fld w 26 6 = fld b 26 6 :=
  eq_word_iff [.fixed 7, .operand 5 xd, .fixed 1, .operand 5 xs, .fixed 1, .operand 6 va, .fixed 1, .fixed 6]
    (by simp only [encExt, assemble, Nat.reduceAdd]; omega) (by simp only [AllFit, and_true]; omega)

theorem eq_encIns_iff {vd xi xs : Nat} (hb : fld b 0 7 + fld b 18 1 * 2 ^ 18 + fld b 24 2 * 2 ^ 24 + fld b 26 6 * 2 ^ 26 = b) :
    (w = encIns b vd xi xs ∧ decide (vd < 64 ∧ xi < 32 ∧ xs < 32) = true) ↔
      w < 2 ^ 32 ∧ fld w 0 7 = fld b 0 7 ∧ vd = fld w 7 6 ∧ xs = fld w 13 5 ∧ fld w 18 1 = fld b 18 1 ∧ xi = fld w 19 5 ∧
        fld w 24 2 = fld b 24 2 ∧ fld w 26 6 = fld b 26 6 :=
  eq_word_iff [.fixed 7, .operand 6 vd, .operand 5 xs, .fixed 1, .operand 5 xi, .fixed 2, .fixed 6]
    (by simp only [encIns, assemble, Nat.reduceAdd]; omega) (by simp only [AllFit, and_true]; omega)

theorem eq_encQrecv_iff {vd n : Nat} (hb : fld b 0 7 + fld b 16 10 * 2 ^ 16 + fld b 26 6 * 2 ^ 26 = b) :
    (w = encQrecv b vd n ∧ decide (vd < 64 ∧ n < 8) = true) ↔
      w < 2 ^ 32 ∧ fld w 0 7 = fld b 0 7 ∧ vd = fld w 7 6 ∧ n = fld w 13 3 ∧ fld w 16 10 = fld b 16 10 ∧
        fld w 26 6 = fld b 26 6 :=
  eq_word_iff [.fixed 7, .operand 6 vd, .operand 3 n, .fixed 10, .fixed 6]
    (by simp only [encQrecv, assemble, Nat.reduceAdd]; omega) (by simp only [AllFit, and_true]; omega)

theorem eq_encQsend_iff {n va : Nat} (hb : fld b 0 7 + fld b 10 9 * 2 ^ 10 + fld b 25 1 * 2 ^ 25 + fld b 26 6 * 2 ^ 26 = b) :
    (w = encQsend b n va ∧ decide (n < 8 ∧ va < 64) = true) ↔
      w < 2 ^ 32 ∧ fld w 0 7 = fld b 0 7 ∧ n = fld w 7 3 ∧ fld w 10 9 = fld b 10 9 ∧ va = fld w 19 6 ∧ fld w 25 1 = fld b 25 1 ∧
        fld w 26 6 = fld b 26 6 :=
  eq_word_iff [.fixed 7, .operand 3 n, .fixed 9, .operand 6 va, .fixed 1, .fixed 6]
    (by simp only [encQsend, assemble, Nat.reduceAdd]; omega) (by simp only [AllFit, and_true]; omega)

theorem eq_encP3_iff {pd pa pb : Nat} (hb : fld b 0 7 + fld b 7 5 * 2 ^ 7 + fld b 27 5 * 2 ^ 27 = b) :
    (w = encP3 b pd pa pb ∧ decide (pd < 32 ∧ pa < 32 ∧ pb < 32) = true) ↔
      w < 2 ^ 32 ∧ fld w 0 7 = fld b 0 7 ∧ fld w 7 5 = fld b 7 5 ∧ pb = fld w 12 5 ∧ pa = fld w 17 5 ∧ pd = fld w 22 5 ∧
        fld w 27 5 = fld b 27 5 :=
  eq_word_iff [.fixed 7, .fixed 5, .operand 5 pb, .operand 5 pa, .operand 5 pd, .fixed 5]
    (by simp only [encP3, assemble, Nat.reduceAdd]; omega) (by simp only [AllFit, and_true]; omega)

theorem eq_encP2_iff {pd pa : Nat} (hb : fld b 0 7 + fld b 7 10 * 2 ^ 7 + fld b 27 5 * 2 ^ 27 = b) :
    (w = encP2 b pd pa ∧ decide (pd < 32 ∧ pa < 32) = true) ↔
      w < 2 ^ 32 ∧ fld w 0 7 = fld b 0 7 ∧ fld w 7 10 = fld b 7 10 ∧ pa = fld w 17 5 ∧ pd = fld w 22 5 ∧
        fld w 27 5 = fld b 27 5 :=
  eq_word_iff [.fixed 7, .fixed 10, .operand 5 pa, .operand 5 pd, .fixed 5]
    (by simp only [encP2, assemble, Nat.reduceAdd]; omega) (by simp only [AllFit, and_true]; omega)

theorem eq_encP1_iff {pd : Nat} (hb : fld b 0 7 + fld b 7 15 * 2 ^ 7 + fld b 27 5 * 2 ^ 27 = b) :
    (w = encP1 b pd ∧ decide (pd < 32) = true) ↔
      w < 2 ^ 32 ∧ fld w 0 7 = fld b 0 7 ∧ fld w 7 15 = fld b 7 15 ∧ pd = fld w 22 5 ∧ fld w 27 5 = fld b 27 5 :=
  eq_word_iff [.fixed 7, .fixed 15, .operand 5 pd, .fixed 5]
    (by simp only [encP1, assemble, Nat.reduceAdd]; omega) (by simp only [AllFit, and_true]; omega)

theorem eq_encPopX_iff {xd pa : Nat} (hb : fld b 0 7 + fld b 12 5 * 2 ^ 12 + fld b 22 5 * 2 ^ 22 + fld b 27 5 * 2 ^ 27 = b) :
    (w = encPopX b xd pa ∧ decide (xd < 32 ∧ pa < 32) = true) ↔
      w < 2 ^ 32 ∧ fld w 0 7 = fld b 0 7 ∧ xd = fld w 7 5 ∧ fld w 12 5 = fld b 12 5 ∧ pa = fld w 17 5 ∧
        fld w 22 5 = fld b 22 5 ∧ fld w 27 5 = fld b 27 5 :=
  eq_word_iff [.fixed 7, .operand 5 xd, .fixed 5, .operand 5 pa, .fixed 5, .fixed 5]
    (by simp only [encPopX, assemble, Nat.reduceAdd]; omega) (by simp only [AllFit, and_true]; omega)

theorem eq_encPopLq_iff {n pa : Nat} (hb : fld b 0 7 + fld b 7 10 * 2 ^ 7 + fld b 24 3 * 2 ^ 24 + fld b 27 5 * 2 ^ 27 = b) :
    (w = encPopLq b n pa ∧ decide (n < 4 ∧ pa < 32) = true) ↔
      w < 2 ^ 32 ∧ fld w 0 7 = fld b 0 7 ∧ fld w 7 10 = fld b 7 10 ∧ pa = fld w 17 5 ∧ n = fld w 22 2 ∧
        fld w 24 3 = fld b 24 3 ∧ fld w 27 5 = fld b 27 5 :=
  eq_word_iff [.fixed 7, .fixed 10, .operand 5 pa, .operand 2 n, .fixed 3, .fixed 5]
    (by simp only [encPopLq, assemble, Nat.reduceAdd]; omega) (by simp only [AllFit, and_true]; omega)

theorem eq_encGP_iff {vd pa : Nat} (hb : fld b 0 7 + fld b 7 8 * 2 ^ 7 + fld b 20 1 * 2 ^ 20 + fld b 27 5 * 2 ^ 27 = b) :
    (w = encGP b vd pa ∧ decide (vd < 64 ∧ pa < 32) = true) ↔
      w < 2 ^ 32 ∧ fld w 0 7 = fld b 0 7 ∧ fld w 7 8 = fld b 7 8 ∧ pa = fld w 15 5 ∧ fld w 20 1 = fld b 20 1 ∧ vd = fld w 21 6 ∧
        fld w 27 5 = fld b 27 5 :=
  eq_word_iff [.fixed 7, .fixed 8, .operand 5 pa, .fixed 1, .operand 6 vd, .fixed 5]
    (by simp only [encGP, assemble, Nat.reduceAdd]; omega) (by simp only [AllFit, and_true]; omega)

theorem eq_encPG_iff {pd va : Nat} (hb : fld b 0 7 + fld b 7 8 * 2 ^ 7 + fld b 26 1 * 2 ^ 26 + fld b 27 5 * 2 ^ 27 = b) :
    (w = encPG b pd va ∧ decide (pd < 32 ∧ va < 64) = true) ↔
      w < 2 ^ 32 ∧ fld w 0 7 = fld b 0 7 ∧ fld w 7 8 = fld b 7 8 ∧ va = fld w 15 6 ∧ pd = fld w 21 5 ∧ fld w 26 1 = fld b 26 1 ∧
        fld w 27 5 = fld b 27 5 :=
  eq_word_iff [.fixed 7, .fixed 8, .operand 6 va, .operand 5 pd, .fixed 1, .fixed 5]
    (by simp only [encPG, assemble, Nat.reduceAdd]; omega) (by simp only [AllFit, and_true]; omega)

theorem eq_encG_iff {vd vs : Nat} (hb : fld b 0 7 + fld b 7 8 * 2 ^ 7 + fld b 27 5 * 2 ^ 27 = b) :
    (w = encG b vd vs ∧ decide (vd < 64 ∧ vs < 64) = true) ↔
      w < 2 ^ 32 ∧ fld w 0 7 = fld b 0 7 ∧ fld w 7 8 = fld b 7 8 ∧ vs = fld w 15 6 ∧ vd = fld w 21 6 ∧ fld w 27 5 = fld b 27 5 :=
  eq_word_iff [.fixed 7, .fixed 8, .operand 6 vs, .operand 6 vd, .fixed 5]
    (by simp only [encG, assemble, Nat.reduceAdd]; omega) (by simp only [AllFit, and_true]; omega)

theorem eq_encM2_iff {xa xp : Nat} (hb : fld b 0 7 + fld b 7 8 * 2 ^ 7 + fld b 25 2 * 2 ^ 25 + fld b 27 5 * 2 ^ 27 = b) :
    (w = encM2 b xa xp ∧ decide (xa < 32 ∧ xp < 32) = true) ↔
      w < 2 ^ 32 ∧ fld w 0 7 = fld b 0 7 ∧ fld w 7 8 = fld b 7 8 ∧ xp = fld w 15 5 ∧ xa = fld w 20 5 ∧ fld w 25 2 = fld b 25 2 ∧
        fld w 27 5 = fld b 27 5 :=
  eq_word_iff [.fixed 7, .fixed 8, .operand 5 xp, .operand 5 xa, .fixed 2, .fixed 5]
    (by simp only [encM2, assemble, Nat.reduceAdd]; omega) (by simp only [AllFit, and_true]; omega)

theorem eq_encM3_iff {m xa xp : Nat} (hb : fld b 0 7 + fld b 7 8 * 2 ^ 7 + fld b 27 5 * 2 ^ 27 = b) :
    (w = encM3 b m xa xp ∧ decide (m < 4 ∧ xa < 32 ∧ xp < 32) = true) ↔
      w < 2 ^ 32 ∧ fld w 0 7 = fld b 0 7 ∧ fld w 7 8 = fld b 7 8 ∧ xp = fld w 15 5 ∧ xa = fld w 20 5 ∧ m = fld w 25 2 ∧
        fld w 27 5 = fld b 27 5 :=
  eq_word_iff [.fixed 7, .fixed 8, .operand 5 xp, .operand 5 xa, .operand 2 m, .fixed 5]
    (by simp only [encM3, assemble, Nat.reduceAdd]; omega) (by simp only [AllFit, and_true]; omega)

theorem eq_encM1_iff {m : Nat} (hb : fld b 0 7 + fld b 7 18 * 2 ^ 7 + fld b 27 5 * 2 ^ 27 = b) :
    (w = encM1 b m ∧ decide (m < 4) = true) ↔
      w < 2 ^ 32 ∧ fld w 0 7 = fld b 0 7 ∧ fld w 7 18 = fld b 7 18 ∧ m = fld w 25 2 ∧ fld w 27 5 = fld b 27 5 :=
  eq_word_iff [.fixed 7, .fixed 18, .operand 2 m, .fixed 5]
    (by simp only [encM1, assemble, Nat.reduceAdd]; omega) (by simp only [AllFit, and_true]; omega)

theorem eq_encMCommit_iff {xd : Nat} (hb : fld b 0 7 + fld b 7 13 * 2 ^ 7 + fld b 25 2 * 2 ^ 25 + fld b 27 5 * 2 ^ 27 = b) :
    (w = encMCommit b xd ∧ decide (xd < 32) = true) ↔
      w < 2 ^ 32 ∧ fld w 0 7 = fld b 0 7 ∧ fld w 7 13 = fld b 7 13 ∧ xd = fld w 20 5 ∧ fld w 25 2 = fld b 25 2 ∧
        fld w 27 5 = fld b 27 5 :=
  eq_word_iff [.fixed 7, .fixed 13, .operand 5 xd, .fixed 2, .fixed 5]
    (by simp only [encMCommit, assemble, Nat.reduceAdd]; omega) (by simp only [AllFit, and_true]; omega)

theorem eq_encMem_iff {v xb : Nat} (hb : fld b 0 7 + fld b 7 3 * 2 ^ 7 + fld b 15 6 * 2 ^ 15 + fld b 27 5 * 2 ^ 27 = b) :
    (w = encMem b v xb ∧ decide (v < 64 ∧ xb < 32) = true) ↔
      w < 2 ^ 32 ∧ fld w 0 7 = fld b 0 7 ∧ fld w 7 3 = fld b 7 3 ∧ xb = fld w 10 5 ∧ fld w 15 6 = fld b 15 6 ∧ v = fld w 21 6 ∧
        fld w 27 5 = fld b 27 5 :=
  eq_word_iff [.fixed 7, .fixed 3, .operand 5 xb, .fixed 6, .operand 6 v, .fixed 5]
    (by simp only [encMem, assemble, Nat.reduceAdd]; omega) (by simp only [AllFit, and_true]; omega)

theorem eq_encMemS_iff {v xb xs : Nat} (hb : fld b 0 7 + fld b 7 3 * 2 ^ 7 + fld b 20 1 * 2 ^ 20 + fld b 27 5 * 2 ^ 27 = b) :
    (w = encMemS b v xb xs ∧ decide (v < 64 ∧ xb < 32 ∧ xs < 32) = true) ↔
      w < 2 ^ 32 ∧ fld w 0 7 = fld b 0 7 ∧ fld w 7 3 = fld b 7 3 ∧ xb = fld w 10 5 ∧ xs = fld w 15 5 ∧ fld w 20 1 = fld b 20 1 ∧
        v = fld w 21 6 ∧ fld w 27 5 = fld b 27 5 :=
  eq_word_iff [.fixed 7, .fixed 3, .operand 5 xb, .operand 5 xs, .fixed 1, .operand 6 v, .fixed 5]
    (by simp only [encMemS, assemble, Nat.reduceAdd]; omega) (by simp only [AllFit, and_true]; omega)

theorem eq_encMemX_iff {v xb vi : Nat} (hb : fld b 0 7 + fld b 7 3 * 2 ^ 7 + fld b 27 5 * 2 ^ 27 = b) :
    (w = encMemX b v xb vi ∧ decide (v < 64 ∧ xb < 32 ∧ vi < 64) = true) ↔
      w < 2 ^ 32 ∧ fld w 0 7 = fld b 0 7 ∧ fld w 7 3 = fld b 7 3 ∧ xb = fld w 10 5 ∧ vi = fld w 15 6 ∧ v = fld w 21 6 ∧
        fld w 27 5 = fld b 27 5 :=
  eq_word_iff [.fixed 7, .fixed 3, .operand 5 xb, .operand 6 vi, .operand 6 v, .fixed 5]
    (by simp only [encMemX, assemble, Nat.reduceAdd]; omega) (by simp only [AllFit, and_true]; omega)

theorem eq_encMemF_iff {v xb vi fn : Nat} (hb : fld b 0 7 + fld b 27 5 * 2 ^ 27 = b) :
    (w = encMemF b v xb vi fn ∧ decide (v < 64 ∧ xb < 32 ∧ vi < 64 ∧ fn < 8) = true) ↔
      w < 2 ^ 32 ∧ fld w 0 7 = fld b 0 7 ∧ fn = fld w 7 3 ∧ xb = fld w 10 5 ∧ vi = fld w 15 6 ∧ v = fld w 21 6 ∧
        fld w 27 5 = fld b 27 5 :=
  eq_word_iff [.fixed 7, .operand 3 fn, .operand 5 xb, .operand 6 vi, .operand 6 v, .fixed 5]
    (by simp only [encMemF, assemble, Nat.reduceAdd]; omega) (by simp only [AllFit, and_true]; omega)

theorem eq_encS4_iff {xt xd xs xn : Nat} (hb : fld b 0 7 + fld b 27 5 * 2 ^ 27 = b) :
    (w = encS4 b xt xd xs xn ∧ decide (xt < 32 ∧ xd < 32 ∧ xs < 32 ∧ xn < 32) = true) ↔
      w < 2 ^ 32 ∧ fld w 0 7 = fld b 0 7 ∧ xt = fld w 7 5 ∧ xd = fld w 12 5 ∧ xs = fld w 17 5 ∧ xn = fld w 22 5 ∧
        fld w 27 5 = fld b 27 5 :=
  eq_word_iff [.fixed 7, .operand 5 xt, .operand 5 xd, .operand 5 xs, .operand 5 xn, .fixed 5]
    (by simp only [encS4, assemble, Nat.reduceAdd]; omega) (by simp only [AllFit, and_true]; omega)

theorem eq_encCvy_iff {cnt guard gneg etype rm sat tb : Nat} (hb : fld b 0 7 + fld b 7 3 * 2 ^ 7 + fld b 27 5 * 2 ^ 27 = b) :
    (w = encCvy b cnt guard gneg etype rm sat tb ∧
        decide (cnt < 4 ∧ guard < 32 ∧ gneg < 2 ∧ etype < 16 ∧ rm < 8 ∧ sat < 2 ∧ tb < 2) = true) ↔
      w < 2 ^ 32 ∧ fld w 0 7 = fld b 0 7 ∧ fld w 7 3 = fld b 7 3 ∧ tb = fld w 10 1 ∧ sat = fld w 11 1 ∧ rm = fld w 12 3 ∧
        etype = fld w 15 4 ∧ gneg = fld w 19 1 ∧ guard = fld w 20 5 ∧ cnt = fld w 25 2 ∧ fld w 27 5 = fld b 27 5 :=
  eq_word_iff [.fixed 7, .fixed 3, .operand 1 tb, .operand 1 sat, .operand 3 rm, .operand 4 etype, .operand 1 gneg, .operand 5
  guard, .operand 2 cnt, .fixed 5]
    (by simp only [encCvy, assemble, Nat.reduceAdd]; omega) (by simp only [AllFit, and_true]; omega)

theorem eq_encSc2_iff {xd xs : Nat} (hb : fld b 0 7 + fld b 17 10 * 2 ^ 17 + fld b 27 5 * 2 ^ 27 = b) :
    (w = encSc2 b xd xs ∧ decide (xd < 32 ∧ xs < 32) = true) ↔
      w < 2 ^ 32 ∧ fld w 0 7 = fld b 0 7 ∧ xd = fld w 7 5 ∧ xs = fld w 12 5 ∧ fld w 17 10 = fld b 17 10 ∧
        fld w 27 5 = fld b 27 5 :=
  eq_word_iff [.fixed 7, .operand 5 xd, .operand 5 xs, .fixed 10, .fixed 5]
    (by simp only [encSc2, assemble, Nat.reduceAdd]; omega) (by simp only [AllFit, and_true]; omega)

theorem eq_encSi_iff {xd imm : Nat} (hb : fld b 0 7 + fld b 27 5 * 2 ^ 27 = b) :
    (w = encSi b xd imm ∧ decide (xd < 32 ∧ imm < 32768) = true) ↔
      w < 2 ^ 32 ∧ fld w 0 7 = fld b 0 7 ∧ xd = fld w 7 5 ∧ imm = fld w 12 15 ∧ fld w 27 5 = fld b 27 5 :=
  eq_word_iff [.fixed 7, .operand 5 xd, .operand 15 imm, .fixed 5]
    (by simp only [encSi, assemble, Nat.reduceAdd]; omega) (by simp only [AllFit, and_true]; omega)

theorem eq_encScLq_iff {xd n : Nat} (hb : fld b 0 7 + fld b 14 13 * 2 ^ 14 + fld b 27 5 * 2 ^ 27 = b) :
    (w = encScLq b xd n ∧ decide (xd < 32 ∧ n < 4) = true) ↔
      w < 2 ^ 32 ∧ fld w 0 7 = fld b 0 7 ∧ xd = fld w 7 5 ∧ n = fld w 12 2 ∧ fld w 14 13 = fld b 14 13 ∧
        fld w 27 5 = fld b 27 5 :=
  eq_word_iff [.fixed 7, .operand 5 xd, .operand 2 n, .fixed 13, .fixed 5]
    (by simp only [encScLq, assemble, Nat.reduceAdd]; omega) (by simp only [AllFit, and_true]; omega)

theorem eq_encF_iff {scope : Nat} (hb : fld b 0 7 + fld b 7 17 * 2 ^ 7 + fld b 27 5 * 2 ^ 27 = b) :
    (w = encF b scope ∧ decide (scope < 8) = true) ↔
      w < 2 ^ 32 ∧ fld w 0 7 = fld b 0 7 ∧ fld w 7 17 = fld b 7 17 ∧ scope = fld w 24 3 ∧ fld w 27 5 = fld b 27 5 :=
  eq_word_iff [.fixed 7, .fixed 17, .operand 3 scope, .fixed 5]
    (by simp only [encF, assemble, Nat.reduceAdd]; omega) (by simp only [AllFit, and_true]; omega)

theorem eq_encScQ2_iff {n xs : Nat} (hb : fld b 0 7 + fld b 10 2 * 2 ^ 10 + fld b 17 10 * 2 ^ 17 + fld b 27 5 * 2 ^ 27 = b) :
    (w = encScQ2 b n xs ∧ decide (n < 8 ∧ xs < 32) = true) ↔
      w < 2 ^ 32 ∧ fld w 0 7 = fld b 0 7 ∧ n = fld w 7 3 ∧ fld w 10 2 = fld b 10 2 ∧ xs = fld w 12 5 ∧
        fld w 17 10 = fld b 17 10 ∧ fld w 27 5 = fld b 27 5 :=
  eq_word_iff [.fixed 7, .operand 3 n, .fixed 2, .operand 5 xs, .fixed 10, .fixed 5]
    (by simp only [encScQ2, assemble, Nat.reduceAdd]; omega) (by simp only [AllFit, and_true]; omega)

theorem eq_encScQ_iff {xd n : Nat} (hb : fld b 0 7 + fld b 15 12 * 2 ^ 15 + fld b 27 5 * 2 ^ 27 = b) :
    (w = encScQ b xd n ∧ decide (xd < 32 ∧ n < 8) = true) ↔
      w < 2 ^ 32 ∧ fld w 0 7 = fld b 0 7 ∧ xd = fld w 7 5 ∧ n = fld w 12 3 ∧ fld w 15 12 = fld b 15 12 ∧
        fld w 27 5 = fld b 27 5 :=
  eq_word_iff [.fixed 7, .operand 5 xd, .operand 3 n, .fixed 12, .fixed 5]
    (by simp only [encScQ, assemble, Nat.reduceAdd]; omega) (by simp only [AllFit, and_true]; omega)

theorem eq_encSc1_iff {xs : Nat} (hb : fld b 0 7 + fld b 12 15 * 2 ^ 12 + fld b 27 5 * 2 ^ 27 = b) :
    (w = encSc1 b xs ∧ decide (xs < 32) = true) ↔
      w < 2 ^ 32 ∧ fld w 0 7 = fld b 0 7 ∧ xs = fld w 7 5 ∧ fld w 12 15 = fld b 12 15 ∧ fld w 27 5 = fld b 27 5 :=
  eq_word_iff [.fixed 7, .operand 5 xs, .fixed 15, .fixed 5]
    (by simp only [encSc1, assemble, Nat.reduceAdd]; omega) (by simp only [AllFit, and_true]; omega)

theorem eq_encSiN_iff {n : Nat} (hb : fld b 0 7 + fld b 7 5 * 2 ^ 7 + fld b 27 5 * 2 ^ 27 = b) :
    (w = encSiN b n ∧ decide (n < 32768) = true) ↔
      w < 2 ^ 32 ∧ fld w 0 7 = fld b 0 7 ∧ fld w 7 5 = fld b 7 5 ∧ n = fld w 12 15 ∧ fld w 27 5 = fld b 27 5 :=
  eq_word_iff [.fixed 7, .fixed 5, .operand 15 n, .fixed 5]
    (by simp only [encSiN, assemble, Nat.reduceAdd]; omega) (by simp only [AllFit, and_true]; omega)

/-! ## The layouts whose immediate stands in pieces (15 R287, R288) -/

/-- The pieces of a store's immediate (15 R288). -/
theorem storeImm_iff {imm x y : Nat} (hx : x < 2 ^ 5) (hy : y < 2 ^ 7) :
    imm = y * 32 + x ↔ imm < 2 ^ 12 ∧ x = fld imm 0 5 ∧ y = fld imm 5 7 :=
  eq_pieces_iff (b := 0) [.operand 5 x, .operand 7 y] (by simp only [assemble]; omega) ⟨hx, hy, trivial⟩

/-- The pieces of a branch's offset (15 R287). -/
theorem branchOffset_iff {off x y z s : Nat} (hx : x < 2 ^ 4) (hy : y < 2 ^ 6) (hz : z < 2 ^ 1) (hs : s < 2 ^ 1) :
    off = s * 4096 + y * 32 + x * 2 + z * 2048 ↔
      off < 2 ^ 13 ∧ fld off 0 1 = 0 ∧ x = fld off 1 4 ∧ y = fld off 5 6 ∧ z = fld off 11 1 ∧ s = fld off 12 1 :=
  eq_pieces_iff (b := 0) [.fixed 1, .operand 4 x, .operand 6 y, .operand 1 z, .operand 1 s]
    (by simp only [assemble, fld]; omega) ⟨hx, hy, hz, hs, trivial⟩

/-- The pieces of a jump's offset (15 R287). -/
theorem jumpOffset_iff {off x y z s : Nat} (hx : x < 2 ^ 10) (hy : y < 2 ^ 1) (hz : z < 2 ^ 8) (hs : s < 2 ^ 1) :
    off = s * 1048576 + x * 2 + y * 2048 + z * 4096 ↔
      off < 2 ^ 21 ∧ fld off 0 1 = 0 ∧ x = fld off 1 10 ∧ y = fld off 11 1 ∧ z = fld off 12 8 ∧ s = fld off 20 1 :=
  eq_pieces_iff (b := 0) [.fixed 1, .operand 10 x, .operand 1 y, .operand 8 z, .operand 1 s]
    (by simp only [assemble, fld]; omega) ⟨hx, hy, hz, hs, trivial⟩

theorem fld_zero_one (v : Nat) : fld v 0 1 = v % 2 := by rw [fld, Nat.pow_zero, Nat.div_one, Nat.pow_one]

theorem eq_encJ_iff {rd off : Nat} (hb : fld b 0 7 = b) :
    (w = encJ b rd off ∧ decide (rd < 32 ∧ off < 2097152 ∧ off % 2 = 0) = true) ↔
      w < 2 ^ 32 ∧ fld w 0 7 = fld b 0 7 ∧ rd = fld w 7 5 ∧
        off = fld w 31 1 * 1048576 + fld w 21 10 * 2 + fld w 20 1 * 2048 + fld w 12 8 * 4096 := by
  have word : (w = encJ b rd off ∧ rd < 32) ↔ _ := eq_assembled_iff (b := b)
    [.fixed 7, .operand 5 rd, .operand 8 (fld off 12 8), .operand 1 (fld off 11 1), .operand 10 (fld off 1 10),
      .operand 1 (fld off 20 1)]
    (by simp only [encJ, assemble]; omega) (by simp only [AllFit, fld_lt, and_true]; omega)
  have pieces := jumpOffset_iff (off := off) (fld_lt w 21 10) (fld_lt w 20 1) (fld_lt w 12 8) (fld_lt w 31 1)
  simp only [Reads, Part.Read, Part.width, Nat.reduceAdd, totalWidth, fld_zero_one] at word pieces
  rw [decide_eq_true_eq]
  grind

theorem eq_encB_iff {rs1 rs2 off : Nat} (hb : fld b 0 7 + fld b 12 3 * 2 ^ 12 = b) :
    (w = encB b rs1 rs2 off ∧ decide (rs1 < 32 ∧ rs2 < 32 ∧ off < 8192 ∧ off % 2 = 0) = true) ↔
      w < 2 ^ 32 ∧ fld w 0 7 = fld b 0 7 ∧ fld w 12 3 = fld b 12 3 ∧ rs1 = fld w 15 5 ∧ rs2 = fld w 20 5 ∧
        off = fld w 31 1 * 4096 + fld w 25 6 * 32 + fld w 8 4 * 2 + fld w 7 1 * 2048 := by
  have word : (w = encB b rs1 rs2 off ∧ rs1 < 32 ∧ rs2 < 32) ↔ _ := eq_assembled_iff (b := b)
    [.fixed 7, .operand 1 (fld off 11 1), .operand 4 (fld off 1 4), .fixed 3, .operand 5 rs1, .operand 5 rs2,
      .operand 6 (fld off 5 6), .operand 1 (fld off 12 1)]
    (by simp only [encB, assemble, Nat.reduceAdd]; omega) (by simp only [AllFit, fld_lt, and_true, true_and]; omega)
  have pieces := branchOffset_iff (off := off) (fld_lt w 8 4) (fld_lt w 25 6) (fld_lt w 7 1) (fld_lt w 31 1)
  simp only [Reads, Part.Read, Part.width, Nat.reduceAdd, totalWidth, fld_zero_one] at word pieces
  rw [decide_eq_true_eq]
  grind

theorem eq_encS_iff {rs2 rs1 imm : Nat} (hb : fld b 0 7 + fld b 12 3 * 2 ^ 12 = b) :
    (w = encS b rs2 rs1 imm ∧ decide (rs2 < 32 ∧ rs1 < 32 ∧ imm < 4096) = true) ↔
      w < 2 ^ 32 ∧ fld w 0 7 = fld b 0 7 ∧ fld w 12 3 = fld b 12 3 ∧ rs1 = fld w 15 5 ∧ rs2 = fld w 20 5 ∧
        imm = fld w 25 7 * 32 + fld w 7 5 := by
  have word : (w = encS b rs2 rs1 imm ∧ rs2 < 32 ∧ rs1 < 32) ↔ _ := eq_assembled_iff (b := b)
    [.fixed 7, .operand 5 (fld imm 0 5), .fixed 3, .operand 5 rs1, .operand 5 rs2, .operand 7 (fld imm 5 7)]
    (by simp only [encS, assemble, Nat.reduceAdd]; omega) (by simp only [AllFit, fld_lt, and_true, true_and]; omega)
  have pieces := storeImm_iff (imm := imm) (fld_lt w 7 5) (fld_lt w 25 7)
  simp only [Reads, Part.Read, Part.width, Nat.reduceAdd, totalWidth] at word pieces
  rw [decide_eq_true_eq]
  grind

end

end Sys2Proof
end

section
/-!
PROOFS: the word of an encoded instruction decodes to it (13 R249 to R264).
-/

namespace Sys2Proof

/-! ## The major opcode chooses the decoder (13 R250, R251) -/

theorem fld_low (w lo n m : Nat) : fld w lo (n + m) % 2 ^ n = fld w lo n := by
  rw [fld, fld, Nat.pow_add, Nat.mod_mul_right_mod]

theorem fld_high (w lo n m : Nat) : fld w lo (n + m) / 2 ^ n = fld w (lo + n) m := by
  rw [fld, fld, Nat.pow_add, Nat.pow_add, Nat.mod_mul_right_div_self, Nat.div_div_eq_div_mul]

theorem fld_zero_two (w : Nat) : fld w 0 2 = fld w 0 7 % 4 := (fld_low w 0 2 5).symm

theorem fld_zero_five (w : Nat) : fld w 0 5 = fld w 0 7 % 32 := (fld_low w 0 5 2).symm

section
variable {w : Nat}

theorem decodeWord_load (major : fld w 0 7 = 0x03) : decodeWord w = decodeLoad w := by
  rw [decodeWord, fld_zero_two, fld_zero_five, major]; rfl

theorem decodeWord_va (major : fld w 0 7 = 0x0B) : decodeWord w = decodeVa w := by
  rw [decodeWord, fld_zero_two, fld_zero_five, major]; rfl

theorem decodeWord_miscMem (major : fld w 0 7 = 0x0F) : decodeWord w = decodeMiscMem w := by
  rw [decodeWord, fld_zero_two, fld_zero_five, major]; rfl

theorem decodeWord_opImm (major : fld w 0 7 = 0x13) : decodeWord w = decodeOpImm w := by
  rw [decodeWord, fld_zero_two, fld_zero_five, major]; rfl

theorem decodeWord_auipc (major : fld w 0 7 = 0x17) : decodeWord w = decodeAuipc w := by
  rw [decodeWord, fld_zero_two, fld_zero_five, major]; rfl

theorem decodeWord_opImm32 (major : fld w 0 7 = 0x1B) : decodeWord w = decodeOpImm32 w := by
  rw [decodeWord, fld_zero_two, fld_zero_five, major]; rfl

theorem decodeWord_store (major : fld w 0 7 = 0x23) : decodeWord w = decodeStore w := by
  rw [decodeWord, fld_zero_two, fld_zero_five, major]; rfl

theorem decodeWord_vm (major : fld w 0 7 = 0x2B) : decodeWord w = decodeVm w := by
  rw [decodeWord, fld_zero_two, fld_zero_five, major]; rfl

theorem decodeWord_amo (major : fld w 0 7 = 0x2F) : decodeWord w = decodeAmo w := by
  rw [decodeWord, fld_zero_two, fld_zero_five, major]; rfl

theorem decodeWord_op (major : fld w 0 7 = 0x33) : decodeWord w = decodeOp w := by
  rw [decodeWord, fld_zero_two, fld_zero_five, major]; rfl

theorem decodeWord_lui (major : fld w 0 7 = 0x37) : decodeWord w = decodeLui w := by
  rw [decodeWord, fld_zero_two, fld_zero_five, major]; rfl

theorem decodeWord_op32 (major : fld w 0 7 = 0x3B) : decodeWord w = decodeOp32 w := by
  rw [decodeWord, fld_zero_two, fld_zero_five, major]; rfl

theorem decodeWord_vx (major : fld w 0 7 = 0x5B) : decodeWord w = decodeVx w := by
  rw [decodeWord, fld_zero_two, fld_zero_five, major]; rfl

theorem decodeWord_branch (major : fld w 0 7 = 0x63) : decodeWord w = decodeBranch w := by
  rw [decodeWord, fld_zero_two, fld_zero_five, major]; rfl

theorem decodeWord_jalr (major : fld w 0 7 = 0x67) : decodeWord w = decodeJalr w := by
  rw [decodeWord, fld_zero_two, fld_zero_five, major]; rfl

theorem decodeWord_jal (major : fld w 0 7 = 0x6F) : decodeWord w = decodeJal w := by
  rw [decodeWord, fld_zero_two, fld_zero_five, major]; rfl

theorem decodeWord_system (major : fld w 0 7 = 0x73) : decodeWord w = decodeSystem w := by
  rw [decodeWord, fld_zero_two, fld_zero_five, major]; rfl

theorem decodeWord_sc (major : fld w 0 7 = 0x7B) : decodeWord w = decodeSc w := by
  rw [decodeWord, fld_zero_two, fld_zero_five, major]; rfl

end

/-! ## An instruction's word chooses its branch -/

/-- w is the word of i, whose operands fit their fields. -/
def IsWord (w : Nat) (i : Instr) : Prop := w = encodeWord i ∧ i.fits = true

/-- The word of each encoded instruction decodes to it: its layout says which fields the word holds, and its fixed bits choose
the decoder's branch. -/
theorem decodeWord_of_isWord {w : Nat} {i : Instr} (encoded : i.encoded = true) (h : IsWord w i) :
    w < 2 ^ 32 ∧ decodeWord w = .ok i := by
  cases i with
  | lui rd imm =>
    obtain ⟨bound, major, rfl, rfl⟩ := (eq_encU_iff rfl).1 h
    exact ⟨bound, decodeWord_lui major⟩
  | auipc rd imm =>
    obtain ⟨bound, major, rfl, rfl⟩ := (eq_encU_iff rfl).1 h
    exact ⟨bound, decodeWord_auipc major⟩
  | jal rd off =>
    obtain ⟨bound, major, rfl, rfl⟩ := (eq_encJ_iff rfl).1 h
    exact ⟨bound, decodeWord_jal major⟩
  | jalr rd rs1 imm =>
    obtain ⟨bound, major, rfl, code, rfl, rfl⟩ := (eq_encI_iff rfl).1 h
    exact ⟨bound, by rw [decodeWord_jalr major, decodeJalr, code]; rfl⟩
  | beq rs1 rs2 off | bne rs1 rs2 off | blt rs1 rs2 off | bge rs1 rs2 off | bltu rs1 rs2 off | bgeu rs1 rs2 off =>
    obtain ⟨bound, major, code, rfl, rfl, rfl⟩ := (eq_encB_iff rfl).1 h
    exact ⟨bound, by rw [decodeWord_branch major, decodeBranch, code]; rfl⟩
  | lb rd rs1 imm | lh rd rs1 imm | lw rd rs1 imm | ld rd rs1 imm | lbu rd rs1 imm | lhu rd rs1 imm | lwu rd rs1 imm =>
    obtain ⟨bound, major, rfl, code, rfl, rfl⟩ := (eq_encI_iff rfl).1 h
    exact ⟨bound, by rw [decodeWord_load major, decodeLoad, code]; rfl⟩
  | sb rs2 rs1 imm | sh rs2 rs1 imm | sw rs2 rs1 imm | sd rs2 rs1 imm =>
    obtain ⟨bound, major, code, rfl, rfl, rfl⟩ := (eq_encS_iff rfl).1 h
    exact ⟨bound, by rw [decodeWord_store major, decodeStore, code]; rfl⟩
  | addi rd rs1 imm | slti rd rs1 imm | sltiu rd rs1 imm | xori rd rs1 imm | ori rd rs1 imm | andi rd rs1 imm =>
    obtain ⟨bound, major, rfl, code, rfl, rfl⟩ := (eq_encI_iff rfl).1 h
    exact ⟨bound, by rw [decodeWord_opImm major, decodeOpImm, code]; rfl⟩
  | slli rd rs1 shamt | srli rd rs1 shamt | srai rd rs1 shamt =>
    obtain ⟨bound, major, rfl, code, rfl, rfl, high⟩ := (eq_encShift_iff rfl).1 h
    exact ⟨bound, by rw [decodeWord_opImm major, decodeOpImm, code, high]; rfl⟩
  | addiw rd rs1 imm =>
    obtain ⟨bound, major, rfl, code, rfl, rfl⟩ := (eq_encI_iff rfl).1 h
    exact ⟨bound, by rw [decodeWord_opImm32 major, decodeOpImm32, code]; rfl⟩
  | slliw rd rs1 shamt | srliw rd rs1 shamt | sraiw rd rs1 shamt =>
    obtain ⟨bound, major, rfl, code, rfl, rfl, high⟩ := (eq_encShiftW_iff rfl).1 h
    exact ⟨bound, by rw [decodeWord_opImm32 major, decodeOpImm32, code, high]; rfl⟩
  | add rd rs1 rs2 | sub rd rs1 rs2 | sll rd rs1 rs2 | slt rd rs1 rs2 | sltu rd rs1 rs2 | xor rd rs1 rs2 | srl rd rs1 rs2
  | sra rd rs1 rs2 | or rd rs1 rs2 | and rd rs1 rs2 | mul rd rs1 rs2 | mulh rd rs1 rs2 | mulhsu rd rs1 rs2 | mulhu rd rs1 rs2
  | div rd rs1 rs2 | divu rd rs1 rs2 | rem rd rs1 rs2 | remu rd rs1 rs2 =>
    obtain ⟨bound, major, rfl, code, rfl, rfl, high⟩ := (eq_encShiftW_iff rfl).1 h
    exact ⟨bound, by rw [decodeWord_op major, decodeOp, code, high]; rfl⟩
  | addw rd rs1 rs2 | subw rd rs1 rs2 | sllw rd rs1 rs2 | srlw rd rs1 rs2 | sraw rd rs1 rs2 | mulw rd rs1 rs2 | divw rd rs1 rs2
  | divuw rd rs1 rs2 | remw rd rs1 rs2 | remuw rd rs1 rs2 =>
    obtain ⟨bound, major, rfl, code, rfl, rfl, high⟩ := (eq_encShiftW_iff rfl).1 h
    exact ⟨bound, by rw [decodeWord_op32 major, decodeOp32, code, high]; rfl⟩
  | fence pred succ =>
    obtain ⟨bound, major, fixed1, code, fixed2, rfl, rfl, fixed3⟩ := (eq_encFence_iff rfl).1 h
    exact ⟨bound, by rw [decodeWord_miscMem major, decodeMiscMem, code, fixed1, fixed2, fixed3]; rfl⟩
  | lrW rd rs1 aq rl | lrD rd rs1 aq rl =>
    obtain ⟨bound, major, rfl, code, rfl, fixed, rfl, rfl, high⟩ := (eq_encLr_iff rfl).1 h
    exact ⟨bound, by rw [decodeWord_amo major, decodeAmo, code, fixed, high]; rfl⟩
  | scW rd rs1 rs2 aq rl | scD rd rs1 rs2 aq rl | amoswapW rd rs1 rs2 aq rl | amoswapD rd rs1 rs2 aq rl | amoaddW rd rs1 rs2 aq rl
  | amoaddD rd rs1 rs2 aq rl | amoxorW rd rs1 rs2 aq rl | amoxorD rd rs1 rs2 aq rl | amoandW rd rs1 rs2 aq rl
  | amoandD rd rs1 rs2 aq rl | amoorW rd rs1 rs2 aq rl | amoorD rd rs1 rs2 aq rl | amominW rd rs1 rs2 aq rl
  | amominD rd rs1 rs2 aq rl | amomaxW rd rs1 rs2 aq rl | amomaxD rd rs1 rs2 aq rl | amominuW rd rs1 rs2 aq rl
  | amominuD rd rs1 rs2 aq rl | amomaxuW rd rs1 rs2 aq rl | amomaxuD rd rs1 rs2 aq rl =>
    obtain ⟨bound, major, rfl, code, rfl, rfl, rfl, rfl, high⟩ := (eq_encAmo_iff rfl).1 h
    rw [decodeWord_amo major, decodeAmo, code, high]
    exact ⟨bound, (if_neg fun lr => absurd lr.2 (by decide)).trans rfl⟩
  | vadd vd va vb sx | vsub vd va vb sx | vrsub vd va vb sx | vmul vd va vb sx | vmulh vd va vb sx | vdiv vd va vb sx
  | vrem vd va vb sx | vmin vd va vb sx | vmax vd va vb sx | vand vd va vb sx | vor vd va vb sx | vxor vd va vb sx
  | vsll vd va vb sx | vsrl vd va vb sx | vsra vd va vb sx | vfma vd va vb sx | vfms vd va vb sx | vfnma vd va vb sx
  | vfnms vd va vb sx | vsgnj vd va vb sx | vscale vd va vb sx | vmerge vd va vb sx | vredsum vd va vb sx | vredmax vd va vb sx
  | vredmin vd va vb sx | vredand vd va vb sx | vredor vd va vb sx | vredxor vd va vb sx | vfredosum vd va vb sx =>
    obtain ⟨bound, major, rfl, rfl, rfl, rfl, code⟩ := (eq_encVr_iff rfl).1 h
    exact ⟨bound, by rw [decodeWord_va major, decodeVa, code]; rfl⟩
  | vabs vd va | vsqrt vd va | vneg vd va | vclass vd va | vmvV vd va | vcompress vd va | vclz vd va | vpopcnt vd va =>
    obtain ⟨bound, major, rfl, fixed1, rfl, fixed2, code⟩ := (eq_encVr1_iff rfl).1 h
    exact ⟨bound, by rw [decodeWord_va major, decodeVa, code, fixed1, fixed2]; rfl⟩
  | vcmpeq pd va vb sx | vcmpne pd va vb sx | vcmplt pd va vb sx | vcmple pd va vb sx | vcmpgt pd va vb sx | vcmpge pd va vb sx
  | vcmpuo pd va vb sx =>
    obtain ⟨bound, major, rfl, fixed, rfl, rfl, rfl, code⟩ := (eq_encVrP_iff rfl).1 h
    exact ⟨bound, by rw [decodeWord_va major, decodeVa, code, fixed]; rfl⟩
  | vcvt vd va ty =>
    obtain ⟨bound, major, rfl, rfl, fixed1, rfl, fixed2, code⟩ := (eq_encCvt_iff rfl).1 h
    exact ⟨bound, by rw [decodeWord_va major, decodeVa, code, fixed1, fixed2]; rfl⟩
  | vmvX vd xs =>
    obtain ⟨bound, major, rfl, rfl, fixed, code⟩ := (eq_encVrX_iff rfl).1 h
    have other : ¬ (fld w 13 6 = 0 ∧ fld w 25 1 = 0) := fun h => absurd ((fld_high w 18 7 1).trans h.2) (by rw [fixed]; decide)
    rw [decodeWord_va major, decodeVa, code, fixed]
    exact ⟨bound, (if_neg other).trans rfl⟩
  | vid vd =>
    obtain ⟨bound, major, rfl, fixed, code⟩ := (eq_encVrD_iff rfl).1 h
    exact ⟨bound, by rw [decodeWord_va major, decodeVa, code, fixed]; rfl⟩
  | viota vd pa =>
    obtain ⟨bound, major, rfl, fixed1, rfl, fixed2, code⟩ := (eq_encIota_iff rfl).1 h
    exact ⟨bound, by rw [decodeWord_va major, decodeVa, code, fixed1, fixed2]; rfl⟩
  | vslideup vd va xs | vslidedn vd va xs | vxchg vd va xs =>
    obtain ⟨bound, major, rfl, rfl, fixed1, rfl, fixed2, code⟩ := (eq_encVrAX_iff rfl).1 h
    exact ⟨bound, by rw [decodeWord_va major, decodeVa, code, fixed1, fixed2]; rfl⟩
  | vperm vd va vb =>
    obtain ⟨bound, major, rfl, rfl, rfl, fixed, code⟩ := (eq_encPerm_iff rfl).1 h
    exact ⟨bound, by rw [decodeWord_va major, decodeVa, code, fixed]; rfl⟩
  | vext xd va xs =>
    obtain ⟨bound, major, rfl, fixed1, rfl, fixed2, rfl, fixed3, code⟩ := (eq_encExt_iff rfl).1 h
    exact ⟨bound, by rw [decodeWord_va major, decodeVa, code, fixed1, fixed2, fixed3]; rfl⟩
  | vins vd xi xs =>
    obtain ⟨bound, major, rfl, rfl, fixed1, rfl, fixed2, code⟩ := (eq_encIns_iff rfl).1 h
    exact ⟨bound, by rw [decodeWord_va major, decodeVa, code, fixed1, fixed2]; rfl⟩
  | vqrecv vd n =>
    obtain ⟨bound, major, rfl, rfl, fixed, code⟩ := (eq_encQrecv_iff rfl).1 h
    exact ⟨bound, by rw [decodeWord_va major, decodeVa, code, fixed]; rfl⟩
  | vqsend n va =>
    obtain ⟨bound, major, rfl, fixed1, rfl, fixed2, code⟩ := (eq_encQsend_iff rfl).1 h
    exact ⟨bound, by rw [decodeWord_va major, decodeVa, code, fixed1, fixed2]; rfl⟩
  | pand pd pa pb | por pd pa pb | pxor pd pa pb | pandn pd pa pb =>
    obtain ⟨bound, major, fixed, rfl, rfl, rfl, code⟩ := (eq_encP3_iff rfl).1 h
    exact ⟨bound, by rw [decodeWord_vx major, decodeVx, code, fixed]; rfl⟩
  | pnot pd pa | pfirst pd pa =>
    obtain ⟨bound, major, fixed, rfl, rfl, code⟩ := (eq_encP2_iff rfl).1 h
    exact ⟨bound, by rw [decodeWord_vx major, decodeVx, code, fixed]; rfl⟩
  | pset pd | pclr pd =>
    obtain ⟨bound, major, fixed, rfl, code⟩ := (eq_encP1_iff rfl).1 h
    exact ⟨bound, by rw [decodeWord_vx major, decodeVx, code, fixed]; rfl⟩
  | vpopcX xd pa =>
    obtain ⟨bound, major, rfl, fixed1, rfl, fixed2, code⟩ := (eq_encPopX_iff rfl).1 h
    exact ⟨bound, by rw [decodeWord_vx major, decodeVx, code, fixed1, fixed2]; rfl⟩
  | vpopcLq n pa =>
    obtain ⟨bound, major, fixed1, rfl, rfl, fixed2, code⟩ := (eq_encPopLq_iff rfl).1 h
    have other : ¬ (fld w 12 5 = 0 ∧ fld w 22 5 = 0) := fun h => 
      absurd ((fld_high w 22 2 3).symm.trans (congrArg (· / 4) h.2)) (by rw [fixed2]; decide)
    rw [decodeWord_vx major, decodeVx, code, fixed1, fixed2]
    exact ⟨bound, (if_neg other).trans rfl⟩
  | pmovv vd pa =>
    obtain ⟨bound, major, fixed1, rfl, fixed2, rfl, code⟩ := (eq_encGP_iff rfl).1 h
    exact ⟨bound, by rw [decodeWord_vx major, decodeVx, code, fixed1, fixed2]; rfl⟩
  | vmovp pd va =>
    obtain ⟨bound, major, fixed1, rfl, rfl, fixed2, code⟩ := (eq_encPG_iff rfl).1 h
    exact ⟨bound, by rw [decodeWord_vx major, decodeVx, code, fixed1, fixed2]; rfl⟩
  | vqnt4 vd vs | vdq4 vd vs | gor2 vd vs | gor3 vd vs | ginc vd vs | gins vd vs | gsegx vd vs =>
    obtain ⟨bound, major, fixed, rfl, rfl, code⟩ := (eq_encG_iff rfl).1 h
    exact ⟨bound, by rw [decodeWord_vx major, decodeVx, code, fixed]; rfl⟩
  | mldb xa xp =>
    obtain ⟨bound, major, fixed1, rfl, rfl, fixed2, code⟩ := (eq_encM2_iff rfl).1 h
    exact ⟨bound, by rw [decodeWord_vx major, decodeVx, code, fixed1, fixed2]; rfl⟩
  | mstep m xa xp | mstepr m xa xp | mrd m xa xp | mwr m xa xp =>
    obtain ⟨bound, major, fixed, rfl, rfl, rfl, code⟩ := (eq_encM3_iff rfl).1 h
    exact ⟨bound, by rw [decodeWord_vx major, decodeVx, code, fixed]; rfl⟩
  | mzero m =>
    obtain ⟨bound, major, fixed, rfl, code⟩ := (eq_encM1_iff rfl).1 h
    exact ⟨bound, by rw [decodeWord_vx major, decodeVx, code, fixed]; rfl⟩
  | mcommit xd =>
    obtain ⟨bound, major, fixed1, rfl, fixed2, code⟩ := (eq_encMCommit_iff rfl).1 h
    exact ⟨bound, by rw [decodeWord_vx major, decodeVx, code, fixed1, fixed2]; rfl⟩
  | vld v xb | vst v xb =>
    obtain ⟨bound, major, fixed1, rfl, fixed2, rfl, code⟩ := (eq_encMem_iff rfl).1 h
    exact ⟨bound, by rw [decodeWord_vm major, decodeVm, code, fixed1, fixed2]; rfl⟩
  | vlds v xb xs | vsts v xb xs | vldb4 v xb xs | vstb4 v xb xs =>
    obtain ⟨bound, major, fixed1, rfl, rfl, fixed2, rfl, code⟩ := (eq_encMemS_iff rfl).1 h
    exact ⟨bound, by rw [decodeWord_vm major, decodeVm, code, fixed1, fixed2]; rfl⟩
  | vldx v xb vi | vstx v xb vi =>
    obtain ⟨bound, major, fixed, rfl, rfl, rfl, code⟩ := (eq_encMemX_iff rfl).1 h
    exact ⟨bound, by rw [decodeWord_vm major, decodeVm, code, fixed]; rfl⟩
  | vamo v xb vi fn | vamor v xb vi fn =>
    obtain ⟨bound, major, rfl, rfl, rfl, rfl, code⟩ := (eq_encMemF_iff rfl).1 h
    exact ⟨bound, by rw [decodeWord_vm major, decodeVm, code]; rfl⟩
  | copy xt xd xs xn | copyc pk xd xs xn | copys xt xd xs xq | rrot xt xd xs xn =>
    obtain ⟨bound, major, rfl, rfl, rfl, rfl, code⟩ := (eq_encS4_iff rfl).1 h
    exact ⟨bound, by rw [decodeWord_vm major, decodeVm, code]; rfl⟩
  | cmdb pd vs =>
    obtain ⟨bound, major, fixed1, rfl, rfl, fixed2, code⟩ := (eq_encPG_iff rfl).1 h
    exact ⟨bound, by rw [decodeWord_vm major, decodeVm, code, fixed1, fixed2]; rfl⟩
  | cvy cnt guard gneg etype rm sat tb =>
    obtain ⟨bound, major, fixed, rfl, rfl, rfl, rfl, rfl, rfl, rfl, code⟩ := (eq_encCvy_iff rfl).1 h
    exact ⟨bound, by rw [decodeWord_sc major, decodeSc, code, fixed]; rfl⟩
  | setvl xd xs | matt xd xs | binit xa xp | bexpect xa xn | monarm xd xa | spawn xd xa | join xd xt | remst xs xa =>
    obtain ⟨bound, major, rfl, rfl, fixed, code⟩ := (eq_encSc2_iff rfl).1 h
    exact ⟨bound, by rw [decodeWord_sc major, decodeSc, code, fixed]; rfl⟩
  | setvli xd imm | wid xd f =>
    obtain ⟨bound, major, rfl, rfl, code⟩ := (eq_encSi_iff rfl).1 h
    exact ⟨bound, by rw [decodeWord_sc major, decodeSc, code]; rfl⟩
  | setvlq xd n =>
    obtain ⟨bound, major, rfl, rfl, fixed, code⟩ := (eq_encScLq_iff rfl).1 h
    exact ⟨bound, by rw [decodeWord_sc major, decodeSc, code, fixed]; rfl⟩
  | fsv scope | fvs scope | fvv scope =>
    obtain ⟨bound, major, fixed, rfl, code⟩ := (eq_encF_iff rfl).1 h
    exact ⟨bound, by rw [decodeWord_sc major, decodeSc, code, fixed]; rfl⟩
  | qsend n xs =>
    obtain ⟨bound, major, rfl, fixed1, rfl, fixed2, code⟩ := (eq_encScQ2_iff rfl).1 h
    exact ⟨bound, by rw [decodeWord_sc major, decodeSc, code, fixed1, fixed2]; rfl⟩
  | qrecv xd n =>
    obtain ⟨bound, major, rfl, rfl, fixed, code⟩ := (eq_encScQ_iff rfl).1 h
    exact ⟨bound, by rw [decodeWord_sc major, decodeSc, code, fixed]; rfl⟩
  | mwait xs | barrive xa | bwait xa | phend xa | fflags xd =>
    obtain ⟨bound, major, rfl, fixed, code⟩ := (eq_encSc1_iff rfl).1 h
    exact ⟨bound, by rw [decodeWord_sc major, decodeSc, code, fixed]; rfl⟩
  | xltrap n =>
    obtain ⟨bound, major, fixed, rfl, code⟩ := (eq_encSiN_iff rfl).1 h
    exact ⟨bound, by rw [decodeWord_sc major, decodeSc, code, fixed]; rfl⟩
  | fenceTso | fenceI | ecall | ebreak | mdet | tsync | monwait | vsync =>
    obtain ⟨rfl, -⟩ := h
    exact ⟨by decide, rfl⟩
  | _ => exact absurd encoded (by decide)

end Sys2Proof
end

section
/-!
PROOFS: a word that decodes is the word of its instruction alone (13 R250, R251, R265; R7).
-/

namespace Sys2Proof

theorem ite_ok {ε α : Type} {c : Prop} [Decidable c] {j i : α} {r : Except ε α} (h : (if c then .ok j else r) = .ok i) :
    (c ∧ j = i) ∨ r = .ok i := by
  by_cases hc : c
  · exact .inl ⟨hc, Except.ok.inj ((if_pos hc).symm.trans h)⟩
  · exact .inr ((if_neg hc).symm.trans h)

theorem ite_error_ok {ε α : Type} {c : Prop} [Decidable c] {j i : α} {e : ε} (h : (if c then .ok j else .error e) = Except.ok i) :
    c ∧ j = i :=
  (ite_ok h).resolve_right nofun

section
variable {w : Nat} {i : Instr}

theorem isWord_of_decodeLoad (bound : w < 2 ^ 32) (major : fld w 0 7 = 0x03) (h : decodeLoad w = .ok i) : IsWord w i := by
  unfold decodeLoad at h
  split at h
  case h_1 code | h_2 code | h_3 code | h_4 code | h_5 code | h_6 code | h_7 code =>
    obtain rfl := Except.ok.inj h
    exact (eq_encI_iff rfl).2 ⟨bound, major, rfl, code, rfl, rfl⟩
  case h_8 => cases h

theorem isWord_of_decodeVa (bound : w < 2 ^ 32) (major : fld w 0 7 = 0x0B) (h : decodeVa w = .ok i) : IsWord w i := by
  unfold decodeVa at h
  split at h
  case h_1 code | h_2 code | h_3 code | h_4 code | h_5 code | h_6 code | h_7 code | h_8 code | h_9 code | h_10 code | h_11 code |
    h_12 code | h_13 code | h_14 code | h_15 code | h_17 code | h_18 code | h_19 code | h_20 code | h_23 code | h_24 code |
    h_35 code | h_43 code | h_44 code | h_45 code | h_46 code | h_47 code | h_48 code | h_49 code =>
    obtain rfl := Except.ok.inj h
    exact (eq_encVr_iff rfl).2 ⟨bound, major, rfl, rfl, rfl, rfl, code⟩
  case h_16 code | h_21 code | h_22 code | h_32 code | h_38 code | h_52 code | h_53 code =>
    obtain ⟨⟨fixed1, fixed2⟩, rfl⟩ := ite_error_ok h
    exact (eq_encVr1_iff rfl).2 ⟨bound, major, rfl, fixed1, rfl, fixed2, code⟩
  case h_25 code | h_26 code | h_27 code | h_28 code | h_29 code | h_30 code | h_31 code =>
    obtain ⟨fixed, rfl⟩ := ite_error_ok h
    exact (eq_encVrP_iff rfl).2 ⟨bound, major, rfl, fixed, rfl, rfl, rfl, code⟩
  case h_33 code =>
    obtain ⟨⟨fixed1, fixed2⟩, rfl⟩ := ite_error_ok h
    exact (eq_encCvt_iff rfl).2 ⟨bound, major, rfl, rfl, fixed1, rfl, fixed2, code⟩
  case h_34 code =>
    obtain ⟨⟨fixed1, fixed2⟩, rfl⟩ | h := ite_ok h
    · exact (eq_encVr1_iff rfl).2 ⟨bound, major, rfl, fixed1, rfl, fixed2, code⟩
    obtain ⟨fixed, rfl⟩ := ite_error_ok h
    exact (eq_encVrX_iff rfl).2 ⟨bound, major, rfl, rfl, fixed, code⟩
  case h_36 code =>
    obtain ⟨fixed, rfl⟩ := ite_error_ok h
    exact (eq_encVrD_iff rfl).2 ⟨bound, major, rfl, fixed, code⟩
  case h_37 code =>
    obtain ⟨⟨fixed1, fixed2⟩, rfl⟩ := ite_error_ok h
    exact (eq_encIota_iff rfl).2 ⟨bound, major, rfl, fixed1, rfl, fixed2, code⟩
  case h_39 code | h_40 code | h_42 code =>
    obtain ⟨⟨fixed1, fixed2⟩, rfl⟩ := ite_error_ok h
    exact (eq_encVrAX_iff rfl).2 ⟨bound, major, rfl, rfl, fixed1, rfl, fixed2, code⟩
  case h_41 code =>
    obtain ⟨fixed, rfl⟩ := ite_error_ok h
    exact (eq_encPerm_iff rfl).2 ⟨bound, major, rfl, rfl, rfl, fixed, code⟩
  case h_50 code =>
    obtain ⟨⟨fixed1, fixed2, fixed3⟩, rfl⟩ := ite_error_ok h
    exact (eq_encExt_iff rfl).2 ⟨bound, major, rfl, fixed1, rfl, fixed2, rfl, fixed3, code⟩
  case h_51 code =>
    obtain ⟨⟨fixed1, fixed2⟩, rfl⟩ := ite_error_ok h
    exact (eq_encIns_iff rfl).2 ⟨bound, major, rfl, rfl, fixed1, rfl, fixed2, code⟩
  case h_54 code =>
    obtain ⟨fixed, rfl⟩ := ite_error_ok h
    exact (eq_encQrecv_iff rfl).2 ⟨bound, major, rfl, rfl, fixed, code⟩
  case h_55 code =>
    obtain ⟨⟨fixed1, fixed2⟩, rfl⟩ := ite_error_ok h
    exact (eq_encQsend_iff rfl).2 ⟨bound, major, rfl, fixed1, rfl, fixed2, code⟩
  case h_56 => cases h

theorem isWord_of_decodeMiscMem (bound : w < 2 ^ 32) (major : fld w 0 7 = 0x0F) (h : decodeMiscMem w = .ok i) : IsWord w i := by
  unfold decodeMiscMem at h
  split at h
  case h_1 code =>
    obtain ⟨⟨fixed1, fixed2, fixed3⟩, rfl⟩ | h := ite_ok h
    · exact (eq_encFence_iff rfl).2 ⟨bound, major, fixed1, code, fixed2, rfl, rfl, fixed3⟩
    obtain ⟨⟨fixed1, fixed2⟩, rfl⟩ := ite_error_ok h
    exact (eq_fixed_iff [.fixed 7, .fixed 5, .fixed 3, .fixed 17] rfl trivial).2 ⟨bound, major, fixed1, code, fixed2⟩
  case h_2 code =>
    obtain ⟨⟨fixed1, fixed2⟩, rfl⟩ := ite_error_ok h
    exact (eq_fixed_iff [.fixed 7, .fixed 5, .fixed 3, .fixed 17] rfl trivial).2 ⟨bound, major, fixed1, code, fixed2⟩
  case h_3 => cases h

theorem isWord_of_decodeOpImm (bound : w < 2 ^ 32) (major : fld w 0 7 = 0x13) (h : decodeOpImm w = .ok i) : IsWord w i := by
  unfold decodeOpImm at h
  split at h
  case h_1 code | h_3 code | h_4 code | h_5 code | h_7 code | h_8 code =>
    obtain rfl := Except.ok.inj h
    exact (eq_encI_iff rfl).2 ⟨bound, major, rfl, code, rfl, rfl⟩
  case h_2 code =>
    obtain ⟨high, rfl⟩ := ite_error_ok h
    exact (eq_encShift_iff rfl).2 ⟨bound, major, rfl, code, rfl, rfl, high⟩
  case h_6 code =>
    repeat
      obtain ⟨high, rfl⟩ | h := ite_ok h
      · exact (eq_encShift_iff rfl).2 ⟨bound, major, rfl, code, rfl, rfl, high⟩
    cases h
  case h_9 => cases h

theorem isWord_of_decodeAuipc (bound : w < 2 ^ 32) (major : fld w 0 7 = 0x17) (h : decodeAuipc w = .ok i) : IsWord w i := by
  obtain rfl := Except.ok.inj h
  exact (eq_encU_iff rfl).2 ⟨bound, major, rfl, rfl⟩

theorem isWord_of_decodeOpImm32 (bound : w < 2 ^ 32) (major : fld w 0 7 = 0x1B) (h : decodeOpImm32 w = .ok i) : IsWord w i := by
  unfold decodeOpImm32 at h
  split at h
  case h_1 code =>
    obtain rfl := Except.ok.inj h
    exact (eq_encI_iff rfl).2 ⟨bound, major, rfl, code, rfl, rfl⟩
  case h_2 code =>
    obtain ⟨high, rfl⟩ := ite_error_ok h
    exact (eq_encShiftW_iff rfl).2 ⟨bound, major, rfl, code, rfl, rfl, high⟩
  case h_3 code =>
    repeat
      obtain ⟨high, rfl⟩ | h := ite_ok h
      · exact (eq_encShiftW_iff rfl).2 ⟨bound, major, rfl, code, rfl, rfl, high⟩
    cases h
  case h_4 => cases h

theorem isWord_of_decodeStore (bound : w < 2 ^ 32) (major : fld w 0 7 = 0x23) (h : decodeStore w = .ok i) : IsWord w i := by
  unfold decodeStore at h
  split at h
  case h_1 code | h_2 code | h_3 code | h_4 code =>
    obtain rfl := Except.ok.inj h
    exact (eq_encS_iff rfl).2 ⟨bound, major, code, rfl, rfl, rfl⟩
  case h_5 => cases h

theorem isWord_of_decodeVm (bound : w < 2 ^ 32) (major : fld w 0 7 = 0x2B) (h : decodeVm w = .ok i) : IsWord w i := by
  unfold decodeVm at h
  split at h
  case h_1 code | h_4 code =>
    obtain ⟨⟨fixed1, fixed2⟩, rfl⟩ := ite_error_ok h
    exact (eq_encMem_iff rfl).2 ⟨bound, major, fixed1, rfl, fixed2, rfl, code⟩
  case h_2 code | h_5 code | h_8 code | h_9 code =>
    obtain ⟨⟨fixed1, fixed2⟩, rfl⟩ := ite_error_ok h
    exact (eq_encMemS_iff rfl).2 ⟨bound, major, fixed1, rfl, rfl, fixed2, rfl, code⟩
  case h_3 code | h_6 code =>
    obtain ⟨fixed, rfl⟩ := ite_error_ok h
    exact (eq_encMemX_iff rfl).2 ⟨bound, major, fixed, rfl, rfl, rfl, code⟩
  case h_7 code | h_15 code =>
    obtain rfl := Except.ok.inj h
    exact (eq_encMemF_iff rfl).2 ⟨bound, major, rfl, rfl, rfl, rfl, code⟩
  case h_10 code | h_11 code | h_12 code | h_13 code =>
    obtain rfl := Except.ok.inj h
    exact (eq_encS4_iff rfl).2 ⟨bound, major, rfl, rfl, rfl, rfl, code⟩
  case h_14 code =>
    obtain ⟨⟨fixed1, fixed2⟩, rfl⟩ := ite_error_ok h
    exact (eq_encPG_iff rfl).2 ⟨bound, major, fixed1, rfl, rfl, fixed2, code⟩
  case h_16 => cases h

theorem isWord_of_decodeAmo (bound : w < 2 ^ 32) (major : fld w 0 7 = 0x2F) (h : decodeAmo w = .ok i) : IsWord w i := by
  unfold decodeAmo at h
  split at h
  case h_1 code | h_2 code =>
    obtain ⟨⟨fixed, high⟩, rfl⟩ | h := ite_ok h
    · exact (eq_encLr_iff rfl).2 ⟨bound, major, rfl, code, rfl, fixed, rfl, rfl, high⟩
    repeat
      obtain ⟨high, rfl⟩ | h := ite_ok h
      · exact (eq_encAmo_iff rfl).2 ⟨bound, major, rfl, code, rfl, rfl, rfl, rfl, high⟩
    cases h
  case h_3 => cases h

theorem isWord_of_decodeOp (bound : w < 2 ^ 32) (major : fld w 0 7 = 0x33) (h : decodeOp w = .ok i) : IsWord w i := by
  unfold decodeOp at h
  split at h
  case h_1 code | h_2 code | h_3 code | h_4 code | h_5 code | h_6 code | h_7 code | h_8 code =>
    repeat
      obtain ⟨high, rfl⟩ | h := ite_ok h
      · exact (eq_encShiftW_iff rfl).2 ⟨bound, major, rfl, code, rfl, rfl, high⟩
    cases h
  case h_9 => cases h

theorem isWord_of_decodeLui (bound : w < 2 ^ 32) (major : fld w 0 7 = 0x37) (h : decodeLui w = .ok i) : IsWord w i := by
  obtain rfl := Except.ok.inj h
  exact (eq_encU_iff rfl).2 ⟨bound, major, rfl, rfl⟩

theorem isWord_of_decodeOp32 (bound : w < 2 ^ 32) (major : fld w 0 7 = 0x3B) (h : decodeOp32 w = .ok i) : IsWord w i := by
  unfold decodeOp32 at h
  split at h
  case h_1 code | h_2 code | h_3 code | h_4 code | h_5 code | h_6 code =>
    repeat
      obtain ⟨high, rfl⟩ | h := ite_ok h
      · exact (eq_encShiftW_iff rfl).2 ⟨bound, major, rfl, code, rfl, rfl, high⟩
    cases h
  case h_7 => cases h

theorem isWord_of_decodeVx (bound : w < 2 ^ 32) (major : fld w 0 7 = 0x5B) (h : decodeVx w = .ok i) : IsWord w i := by
  unfold decodeVx at h
  split at h
  case h_1 code | h_2 code | h_3 code | h_4 code =>
    obtain ⟨fixed, rfl⟩ := ite_error_ok h
    exact (eq_encP3_iff rfl).2 ⟨bound, major, fixed, rfl, rfl, rfl, code⟩
  case h_5 code | h_8 code =>
    obtain ⟨fixed, rfl⟩ := ite_error_ok h
    exact (eq_encP2_iff rfl).2 ⟨bound, major, fixed, rfl, rfl, code⟩
  case h_6 code | h_7 code =>
    obtain ⟨fixed, rfl⟩ := ite_error_ok h
    exact (eq_encP1_iff rfl).2 ⟨bound, major, fixed, rfl, code⟩
  case h_9 code =>
    obtain ⟨⟨fixed1, fixed2⟩, rfl⟩ | h := ite_ok h
    · exact (eq_encPopX_iff rfl).2 ⟨bound, major, rfl, fixed1, rfl, fixed2, code⟩
    obtain ⟨⟨fixed1, fixed2⟩, rfl⟩ := ite_error_ok h
    exact (eq_encPopLq_iff rfl).2 ⟨bound, major, fixed1, rfl, rfl, fixed2, code⟩
  case h_10 code =>
    obtain ⟨⟨fixed1, fixed2⟩, rfl⟩ := ite_error_ok h
    exact (eq_encGP_iff rfl).2 ⟨bound, major, fixed1, rfl, fixed2, rfl, code⟩
  case h_11 code =>
    obtain ⟨⟨fixed1, fixed2⟩, rfl⟩ := ite_error_ok h
    exact (eq_encPG_iff rfl).2 ⟨bound, major, fixed1, rfl, rfl, fixed2, code⟩
  case h_12 code | h_13 code | h_21 code | h_22 code | h_23 code | h_24 code | h_25 code =>
    obtain ⟨fixed, rfl⟩ := ite_error_ok h
    exact (eq_encG_iff rfl).2 ⟨bound, major, fixed, rfl, rfl, code⟩
  case h_14 code =>
    obtain ⟨⟨fixed1, fixed2⟩, rfl⟩ := ite_error_ok h
    exact (eq_encM2_iff rfl).2 ⟨bound, major, fixed1, rfl, rfl, fixed2, code⟩
  case h_15 code | h_16 code | h_18 code | h_19 code =>
    obtain ⟨fixed, rfl⟩ := ite_error_ok h
    exact (eq_encM3_iff rfl).2 ⟨bound, major, fixed, rfl, rfl, rfl, code⟩
  case h_17 code =>
    obtain ⟨fixed, rfl⟩ := ite_error_ok h
    exact (eq_encM1_iff rfl).2 ⟨bound, major, fixed, rfl, code⟩
  case h_20 code =>
    obtain ⟨⟨fixed1, fixed2⟩, rfl⟩ := ite_error_ok h
    exact (eq_encMCommit_iff rfl).2 ⟨bound, major, fixed1, rfl, fixed2, code⟩
  case h_26 => cases h

theorem isWord_of_decodeBranch (bound : w < 2 ^ 32) (major : fld w 0 7 = 0x63) (h : decodeBranch w = .ok i) : IsWord w i := by
  unfold decodeBranch at h
  split at h
  case h_1 code | h_2 code | h_3 code | h_4 code | h_5 code | h_6 code =>
    obtain rfl := Except.ok.inj h
    exact (eq_encB_iff rfl).2 ⟨bound, major, code, rfl, rfl, rfl⟩
  case h_7 => cases h

theorem isWord_of_decodeJalr (bound : w < 2 ^ 32) (major : fld w 0 7 = 0x67) (h : decodeJalr w = .ok i) : IsWord w i := by
  unfold decodeJalr at h
  split at h
  case h_1 code =>
    obtain rfl := Except.ok.inj h
    exact (eq_encI_iff rfl).2 ⟨bound, major, rfl, code, rfl, rfl⟩
  case h_2 => cases h

theorem isWord_of_decodeJal (bound : w < 2 ^ 32) (major : fld w 0 7 = 0x6F) (h : decodeJal w = .ok i) : IsWord w i := by
  obtain rfl := Except.ok.inj h
  exact (eq_encJ_iff rfl).2 ⟨bound, major, rfl, rfl⟩

theorem isWord_of_decodeSystem (bound : w < 2 ^ 32) (major : fld w 0 7 = 0x73) (h : decodeSystem w = .ok i) : IsWord w i := by
  obtain ⟨rest, rfl⟩ | h := ite_ok h
  · exact (eq_fixed_iff [.fixed 7, .fixed 25] rfl trivial).2 ⟨bound, major, rest⟩
  obtain ⟨rest, rfl⟩ := ite_error_ok h
  exact (eq_fixed_iff [.fixed 7, .fixed 25] rfl trivial).2 ⟨bound, major, rest⟩

theorem isWord_of_decodeSc (bound : w < 2 ^ 32) (major : fld w 0 7 = 0x7B) (h : decodeSc w = .ok i) : IsWord w i := by
  unfold decodeSc at h
  split at h
  case h_1 code =>
    obtain ⟨fixed, rfl⟩ := ite_error_ok h
    exact (eq_encCvy_iff rfl).2 ⟨bound, major, fixed, rfl, rfl, rfl, rfl, rfl, rfl, rfl, code⟩
  case h_2 code | h_11 code | h_15 code | h_17 code | h_20 code | h_22 code | h_23 code | h_26 code =>
    obtain ⟨fixed, rfl⟩ := ite_error_ok h
    exact (eq_encSc2_iff rfl).2 ⟨bound, major, rfl, rfl, fixed, code⟩
  case h_3 code | h_10 code =>
    obtain rfl := Except.ok.inj h
    exact (eq_encSi_iff rfl).2 ⟨bound, major, rfl, rfl, code⟩
  case h_4 code =>
    obtain ⟨fixed, rfl⟩ := ite_error_ok h
    exact (eq_encScLq_iff rfl).2 ⟨bound, major, rfl, rfl, fixed, code⟩
  case h_5 code | h_6 code | h_7 code =>
    obtain ⟨fixed, rfl⟩ := ite_error_ok h
    exact (eq_encF_iff rfl).2 ⟨bound, major, fixed, rfl, code⟩
  case h_8 code =>
    obtain ⟨⟨fixed1, fixed2⟩, rfl⟩ := ite_error_ok h
    exact (eq_encScQ2_iff rfl).2 ⟨bound, major, rfl, fixed1, rfl, fixed2, code⟩
  case h_9 code =>
    obtain ⟨fixed, rfl⟩ := ite_error_ok h
    exact (eq_encScQ_iff rfl).2 ⟨bound, major, rfl, rfl, fixed, code⟩
  case h_12 code | h_14 code | h_21 code | h_25 code =>
    obtain ⟨fixed, rfl⟩ := ite_error_ok h
    exact (eq_fixed_iff [.fixed 7, .fixed 20, .fixed 5] rfl trivial).2 ⟨bound, major, fixed, code⟩
  case h_13 code | h_16 code | h_18 code | h_19 code | h_27 code =>
    obtain ⟨fixed, rfl⟩ := ite_error_ok h
    exact (eq_encSc1_iff rfl).2 ⟨bound, major, rfl, fixed, code⟩
  case h_24 code =>
    obtain ⟨fixed, rfl⟩ := ite_error_ok h
    exact (eq_encSiN_iff rfl).2 ⟨bound, major, fixed, rfl, code⟩
  case h_28 => cases h

/-- A word that decodes is the word of what it decodes to, reserved bits and all (13 R250, R251, R265). -/
theorem isWord_of_decodeWord (bound : w < 2 ^ 32) (h : decodeWord w = .ok i) : IsWord w i := by
  unfold decodeWord at h
  split at h
  · cases h
  split at h
  · cases h
  split at h
  case h_1 major => exact isWord_of_decodeLoad bound major h
  case h_2 major => exact isWord_of_decodeVa bound major h
  case h_3 major => exact isWord_of_decodeMiscMem bound major h
  case h_4 major => exact isWord_of_decodeOpImm bound major h
  case h_5 major => exact isWord_of_decodeAuipc bound major h
  case h_6 major => exact isWord_of_decodeOpImm32 bound major h
  case h_7 major => exact isWord_of_decodeStore bound major h
  case h_8 major => exact isWord_of_decodeVm bound major h
  case h_9 major => exact isWord_of_decodeAmo bound major h
  case h_10 major => exact isWord_of_decodeOp bound major h
  case h_11 major => exact isWord_of_decodeLui bound major h
  case h_12 major => exact isWord_of_decodeOp32 bound major h
  case h_13 major => exact isWord_of_decodeVx bound major h
  case h_14 major => exact isWord_of_decodeBranch bound major h
  case h_15 major => exact isWord_of_decodeJalr bound major h
  case h_16 major => exact isWord_of_decodeJal bound major h
  case h_17 major => exact isWord_of_decodeSystem bound major h
  case h_18 major => exact isWord_of_decodeSc bound major h
  case h_19 => cases h

theorem encoded_of_decodeWord (h : decodeWord w = .ok i) (word : IsWord w i) : i.encoded = true := by
  refine decide_eq_true fun zero => ?_
  rw [word.1, zero] at h
  cases h

end

end Sys2Proof
end

section
/-!
PROOFS: the words of the portable form (26 R432, R433, R435), and the statement about encoding.
-/

namespace Sys2Proof.Machine

/-! ## The layouts of the portable form (26 R432) -/

theorem eq_layR_iff {w op d a b ty imm : Nat} :
    (w = layR op d a b ty imm ∧ imm < 1024 ∧ ty < 16 ∧ b < 16 ∧ a < 16 ∧ d < 16 ∧ op < 64) ↔
      w < 2 ^ 32 ∧ imm = bits w 9 0 ∧ ty = bits w 13 10 ∧ b = bits w 17 14 ∧ a = bits w 21 18 ∧ d = bits w 25 22 ∧
        op = bits w 31 26 :=
  eq_assembled_iff (b := 0) [.operand 10 imm, .operand 4 ty, .operand 4 b, .operand 4 a, .operand 4 d, .operand 6 op]
    (by simp only [layR, assemble]; omega) (by simp only [AllFit, and_true]; omega)

theorem eq_layI_iff {w op d a imm : Nat} :
    (w = layI op d a imm ∧ imm < 2 ^ 18 ∧ a < 16 ∧ d < 16 ∧ op < 64) ↔
      w < 2 ^ 32 ∧ imm = bits w 17 0 ∧ a = bits w 21 18 ∧ d = bits w 25 22 ∧ op = bits w 31 26 :=
  eq_assembled_iff (b := 0) [.operand 18 imm, .operand 4 a, .operand 4 d, .operand 6 op]
    (by simp only [layI, assemble]; omega) (by simp only [AllFit, and_true]; omega)

theorem eq_layL_iff {w op d imm : Nat} :
    (w = layL op d imm ∧ imm < 2 ^ 22 ∧ d < 16 ∧ op < 64) ↔
      w < 2 ^ 32 ∧ imm = bits w 21 0 ∧ d = bits w 25 22 ∧ op = bits w 31 26 :=
  eq_assembled_iff (b := 0) [.operand 22 imm, .operand 4 d, .operand 6 op]
    (by simp only [layL, assemble]; omega) (by simp only [AllFit, and_true]; omega)

/-- w is the word of a portable instruction, whose operands its fields admit. -/
def IsPortableWord (w : Nat) (i : PInstr) : Prop := w = encodePortable i ∧ i.inRange = true

theorem typeM_iff {ty : Nat} : typeM ty = true ↔ ty < 14 := decide_eq_true_iff

theorem typeIF_iff {ty : Nat} : typeIF ty = true ↔ ty < 12 := decide_eq_true_iff

theorem typeF_iff {ty : Nat} : typeF ty = true ↔ 8 ≤ ty ∧ ty < 12 := by
  rw [typeF, Bool.and_eq_true, decide_eq_true_iff, decide_eq_true_iff]

theorem decodePortable_of_isPortableWord {w : Nat} {i : PInstr} (h : IsPortableWord w i) :
    w < 2 ^ 32 ∧ decodePortable w = some i := by
  obtain ⟨word, range⟩ := h
  cases i with
  | iadd d a b | isub d a b | imul d a b =>
    simp only [PInstr.inRange, decide_eq_true_eq] at range
    obtain ⟨bound, imm, ty, rfl, rfl, rfl, op⟩ := eq_layR_iff.1 ⟨word, by omega⟩
    exact ⟨bound, by simp only [decodePortable, ← op, ← ty, ← imm]; rfl⟩
  | iaddi d a imm =>
    simp only [PInstr.inRange, decide_eq_true_eq] at range
    obtain ⟨bound, rfl, rfl, rfl, op⟩ := eq_layI_iff.1 ⟨word, by omega⟩
    exact ⟨bound, by simp only [decodePortable, ← op]⟩
  | ili d imm =>
    simp only [PInstr.inRange, decide_eq_true_eq] at range
    obtain ⟨bound, rfl, rfl, op⟩ := eq_layL_iff.1 ⟨word, by omega⟩
    exact ⟨bound, by simp only [decodePortable, ← op]⟩
  | islli d a sh =>
    simp only [PInstr.inRange, decide_eq_true_eq] at range
    obtain ⟨bound, rfl, ty, b, rfl, rfl, op⟩ := eq_layR_iff.1 ⟨word, by omega⟩
    exact ⟨bound, by simp [decodePortable, ← op, ← ty, ← b, range]⟩
  | ild d a imm =>
    simp only [PInstr.inRange, decide_eq_true_eq] at range
    obtain ⟨bound, rfl, ty, b, rfl, rfl, op⟩ := eq_layR_iff.1 ⟨word, by omega⟩
    exact ⟨bound, by simp only [decodePortable, ← op, ← ty, ← b]; rfl⟩
  | ist b a imm | iblt a b imm | ibne a b imm =>
    simp only [PInstr.inRange, decide_eq_true_eq] at range
    obtain ⟨bound, rfl, ty, rfl, rfl, d, op⟩ := eq_layR_iff.1 ⟨word, by omega⟩
    exact ⟨bound, by simp only [decodePortable, ← op, ← ty, ← d]; rfl⟩
  | ret =>
    rw [word]
    decide
  | shape a b =>
    simp only [PInstr.inRange, decide_eq_true_eq] at range
    obtain ⟨bound, imm, ty, rfl, rfl, d, op⟩ := eq_layR_iff.1 ⟨word, by omega⟩
    exact ⟨bound, by simp only [decodePortable, ← op, ← ty, ← imm, ← d]; rfl⟩
  | yld ty d a b | yst ty d a b | yext ty d a b =>
    simp only [PInstr.inRange, Bool.and_eq_true, decide_eq_true_eq, typeM_iff] at range
    obtain ⟨bound, imm, rfl, rfl, rfl, rfl, op⟩ := eq_layR_iff.1 ⟨word, by omega⟩
    exact ⟨bound, by simp [decodePortable, ← op, ← imm, typeM, range]⟩
  | yadd ty d a b | ymul ty d a b =>
    simp only [PInstr.inRange, Bool.and_eq_true, decide_eq_true_eq, typeIF_iff] at range
    obtain ⟨bound, imm, rfl, rfl, rfl, rfl, op⟩ := eq_layR_iff.1 ⟨word, by omega⟩
    exact ⟨bound, by simp [decodePortable, ← op, ← imm, typeIF, range]⟩
  | yfma ty d a b =>
    simp only [PInstr.inRange, Bool.and_eq_true, decide_eq_true_eq, typeF_iff] at range
    obtain ⟨bound, imm, rfl, rfl, rfl, rfl, op⟩ := eq_layR_iff.1 ⟨word, by omega⟩
    exact ⟨bound, by simp [decodePortable, ← op, ← imm, typeF, range]⟩
  | ycvt ty src d a =>
    simp only [PInstr.inRange, Bool.and_eq_true, decide_eq_true_eq, typeM_iff] at range
    obtain ⟨bound, rfl, rfl, b, rfl, rfl, op⟩ := eq_layR_iff.1 ⟨word, by omega⟩
    exact ⟨bound, by simp [decodePortable, ← op, ← b, typeM, range]⟩
  | ysplat ty d a =>
    simp only [PInstr.inRange, Bool.and_eq_true, decide_eq_true_eq, typeM_iff] at range
    obtain ⟨bound, imm, rfl, b, rfl, rfl, op⟩ := eq_layR_iff.1 ⟨word, by omega⟩
    exact ⟨bound, by simp [decodePortable, ← op, ← imm, ← b, typeM, range]⟩
  | yrsum ty d a =>
    simp only [PInstr.inRange, Bool.and_eq_true, decide_eq_true_eq, typeIF_iff] at range
    obtain ⟨bound, imm, rfl, b, rfl, rfl, op⟩ := eq_layR_iff.1 ⟨word, by omega⟩
    exact ⟨bound, by simp [decodePortable, ← op, ← imm, ← b, typeIF, range]⟩

/-- A portable word that decodes is the word of what it decodes to, reserved fields and all (26 R435). -/
theorem isPortableWord_of_decodePortable {w : Nat} {i : PInstr} (bound : w < 2 ^ 32) (h : decodePortable w = some i) :
    IsPortableWord w i := by
  obtain ⟨-, -, -, b, a, d, -⟩ := eq_layR_iff.2 ⟨bound, rfl, rfl, rfl, rfl, rfl, rfl⟩
  simp only [decodePortable] at h
  split at h
  all_goals
    simp only [Option.ite_none_right_eq_some, Option.some.injEq, Bool.and_eq_true, beq_iff_eq, decide_eq_true_eq, reduceCtorEq] at h
  case h_1 op | h_2 op | h_3 op =>
    obtain ⟨⟨ty, imm⟩, rfl⟩ := h
    exact ⟨(eq_layR_iff.2 ⟨bound, imm.symm, ty.symm, rfl, rfl, rfl, op.symm⟩).1, decide_eq_true ⟨d, a, b⟩⟩
  case h_4 op =>
    obtain rfl := h
    obtain ⟨word, imm, -⟩ := eq_layI_iff.2 ⟨bound, rfl, rfl, rfl, op.symm⟩
    exact ⟨word, decide_eq_true ⟨d, a, imm⟩⟩
  case h_5 op =>
    obtain rfl := h
    obtain ⟨word, imm, -⟩ := eq_layL_iff.2 ⟨bound, rfl, rfl, op.symm⟩
    exact ⟨word, decide_eq_true ⟨d, imm⟩⟩
  case h_6 op =>
    obtain ⟨⟨⟨b0, ty⟩, sh⟩, rfl⟩ := h
    exact ⟨(eq_layR_iff.2 ⟨bound, rfl, ty.symm, b0.symm, rfl, rfl, op.symm⟩).1, decide_eq_true ⟨d, a, sh⟩⟩
  case h_7 op =>
    obtain ⟨⟨b0, ty⟩, rfl⟩ := h
    obtain ⟨word, imm, -⟩ := eq_layR_iff.2 ⟨bound, rfl, ty.symm, b0.symm, rfl, rfl, op.symm⟩
    exact ⟨word, decide_eq_true ⟨d, a, imm⟩⟩
  case h_8 op =>
    obtain ⟨⟨d0, ty⟩, rfl⟩ := h
    obtain ⟨word, imm, -⟩ := eq_layR_iff.2 ⟨bound, rfl, ty.symm, rfl, rfl, d0.symm, op.symm⟩
    exact ⟨word, decide_eq_true ⟨b, a, imm⟩⟩
  case h_9 op | h_10 op =>
    obtain ⟨⟨d0, ty⟩, rfl⟩ := h
    obtain ⟨word, imm, -⟩ := eq_layR_iff.2 ⟨bound, rfl, ty.symm, rfl, rfl, d0.symm, op.symm⟩
    exact ⟨word, decide_eq_true ⟨a, b, imm⟩⟩
  case h_11 op =>
    obtain ⟨⟨⟨⟨⟨d0, a0⟩, b0⟩, ty⟩, imm⟩, rfl⟩ := h
    exact ⟨(eq_layR_iff.2 ⟨bound, imm.symm, ty.symm, b0.symm, a0.symm, d0.symm, op.symm⟩).1, rfl⟩
  case h_12 op =>
    obtain ⟨⟨⟨d0, ty⟩, imm⟩, rfl⟩ := h
    exact ⟨(eq_layR_iff.2 ⟨bound, imm.symm, ty.symm, rfl, rfl, d0.symm, op.symm⟩).1, decide_eq_true ⟨a, b⟩⟩
  case h_13 op | h_14 op | h_15 op | h_16 op | h_17 op | h_21 op =>
    obtain ⟨⟨ty, imm⟩, rfl⟩ := h
    exact ⟨(eq_layR_iff.2 ⟨bound, imm.symm, rfl, rfl, rfl, rfl, op.symm⟩).1, Bool.and_eq_true_iff.2 ⟨ty, decide_eq_true ⟨d, a, b⟩⟩⟩
  case h_18 op =>
    obtain ⟨⟨types, b0⟩, rfl⟩ := h
    exact ⟨(eq_layR_iff.2 ⟨bound, rfl, rfl, b0.symm, rfl, rfl, op.symm⟩).1,
      Bool.and_eq_true_iff.2 ⟨Bool.and_eq_true_iff.2 types, decide_eq_true ⟨d, a⟩⟩⟩
  case h_19 op | h_20 op =>
    obtain ⟨⟨⟨ty, b0⟩, imm⟩, rfl⟩ := h
    exact ⟨(eq_layR_iff.2 ⟨bound, imm.symm, rfl, b0.symm, rfl, rfl, op.symm⟩).1,
      Bool.and_eq_true_iff.2 ⟨ty, decide_eq_true ⟨d, a⟩⟩⟩

/-- Settles O57: each word is cut into its layout's fields in one way, and the decoder's branches are the encoder's fixed bits. -/
theorem encodeAndDecode : Obligations.EncodeAndDecode := by
  unfold Obligations.EncodeAndDecode
  exact ⟨fun i encoded fits => decodeWord_of_isWord encoded ⟨rfl, fits⟩,
    fun v i bound h =>
      have word := isWord_of_decodeWord bound h
      ⟨encoded_of_decodeWord h word, word.2, word.1.symm⟩,
    fun i range => decodePortable_of_isPortableWord ⟨rfl, range⟩,
    fun v i bound h =>
      have word := isPortableWord_of_decodePortable bound h
      ⟨word.2, word.1.symm⟩⟩

end Sys2Proof.Machine
end

section
/-!
PROOFS: a step runs the word that it fetches, or an event with its operands (13 R249 to R251, R265, 15 R293, 01 R22).
-/

namespace Sys2Proof.Machine

/-! ## Fetching a word (15 R293) -/

/-- The word at an address is its four little-endian bytes, where nothing holds the fetch up. -/
theorem fetchWord_word {s : State} {w k va pa : Nat} {x : Xlat} (walked : walkBusy s w k va 4 .fetch = false)
    (checked : checkAccess s w k ((s.ctx w k).core 0) (scalarAsk s w k va 4 .fetch none) = .ok x) (target : x.target = .mem pa)
    (free : portBusy s pa 4 = false) (good : tagFails s (keySlot s w) pa 4 = false) :
    fetchWord s w k va = .word (setAD s w x .fetch) (natOf (readBytes s (keySlot s w) pa 4)) := by
  simp only [fetchWord, walked, checked, target, free, loadNum, good, Bool.false_eq_true, if_false, readNum]

/-- A fetch sets A of its leaf and does nothing else. -/
theorem performed_fetchWord {s t : State} {w k va v : Nat} (h : fetchWord s w k va = .word t v) : Performed s t := by
  unfold fetchWord at h
  repeat' split at h
  all_goals cases h
  exact performed_setAD _ _ _ _

/-! ## A stalled instruction leaves all but the count of resynchronisations to come (09 R166) -/

theorem foldl_addUnread (ns : List Nat) (t : Strand) :
    ∃ u, ns.foldl (fun t n => t.addUnread n false) t = { t with unread := u } := by
  induction ns generalizing t with
  | nil => exact ⟨t.unread, rfl⟩
  | cons n ns ih =>
    obtain ⟨u, hu⟩ := ih (t.addUnread n false)
    refine ⟨u, hu.trans ?_⟩
    unfold Strand.addUnread
    split <;> rfl

theorem me_stallAt (s : State) (rs : List Nat) :
    ∃ u, (stallAt s rs).me = { s.me with strand := { s.strand with unread := u } } := by
  unfold stallAt
  split
  case h_1 => exact ⟨s.strand.unread, rfl⟩
  case h_2 =>
    obtain ⟨u, hu⟩ := foldl_addUnread (rs.filter s.strand.replayPends) s.strand
    exact ⟨u, by rw [State.me_onStrand, hu]⟩

theorem cur_stallAt (s : State) (rs : List Nat) : (stallAt s rs).cur = s.cur := by
  unfold stallAt
  split <;> rfl

/-- The lead is all that pacing changes of a strand. -/
theorem ctx_pace (w k : Nat) (pc : Word) (r : State) :
    ∃ n, (pace w k pc r).ctx w k = { r.ctx w k with strand := { (r.ctx w k).strand with lead := n } } := by
  unfold pace
  split
  · exact ⟨_, ctx_modStrand_same r w k _⟩
  · exact ⟨(r.ctx w k).strand.lead, rfl⟩

/-! ## The decoded instruction (13 R265) -/

section
variable {ex : Instr → State → Res} {s : State} {i : Instr}

theorem runScalar_illegal (h : i.inRange = false ∨ admitted s.myLaunch.features i = false) :
    runScalar ex s i = .next (scalarFault s .illegal 0) := by
  have out : (!i.inRange || !admitted s.myLaunch.features i) = true := by simpa using h
  rw [runScalar, if_pos out]

theorem runScalar_stalls (range : i.inRange = true) (profile : admitted s.myLaunch.features i = true)
    (pending : stalls s.strand i = true) : ∃ rs, runScalar ex s i = .next (stallAt s rs) :=
  ⟨_, by rw [runScalar, range, profile, pending]; rfl⟩

theorem runScalar_runs {r : State} (range : i.inRange = true) (profile : admitted s.myLaunch.features i = true)
    (ready : stalls s.strand i = false) (runs : ex i s = .next r) :
    runScalar ex s i = .next (named s s.cur.1 s.cur.2 s.pc i (overtake s s.cur.1 s.cur.2 s.pc i r)) := by
  rw [runScalar, range, profile, ready, runs]; rfl

end

/-! ## The scalar stream's turn (13 R249 to R251) -/

/-- The state in which a strand's scalar stream fetches. -/
def State.inTurn (s : State) (w k : Nat) : State := { s with cur := (w, k) }

section
variable {ex : Instr → State → Res} {s t : State} {w k v : Nat}

theorem scalarTurn_waits (running : (s.ctx w k).state = .running)
    (fetched : fetchWord (s.inTurn w k) w k (s.ctx w k).strand.pc.toNat = .waits) :
    scalarTurn ex s w k = .next (s.inTurn w k) := by
  have fetched : fetchWord (s.inTurn w k) w k (s.inTurn w k).pc.toNat = .waits := fetched
  rw [scalarTurn, if_neg (not_not_intro running), ← State.inTurn]
  simp only [fetched]

theorem scalarTurn_fault {c : Cause} (running : (s.ctx w k).state = .running)
    (fetched : fetchWord (s.inTurn w k) w k (s.ctx w k).strand.pc.toNat = .fault c) :
    scalarTurn ex s w k = .next (scalarFault (s.inTurn w k) c (s.ctx w k).strand.pc.toNat) := by
  have fetched : fetchWord (s.inTurn w k) w k (s.inTurn w k).pc.toNat = .fault c := fetched
  rw [scalarTurn, if_neg (not_not_intro running), ← State.inTurn]
  simp only [fetched]
  rfl

theorem scalarTurn_word (running : (s.ctx w k).state = .running)
    (fetched : fetchWord (s.inTurn w k) w k (s.ctx w k).strand.pc.toNat = .word t v) :
    (∀ i, decodeWord v = .ok i → scalarTurn ex s w k = runScalar ex t i) ∧
      ∀ e, decodeWord v = .error e → scalarTurn ex s w k = .next (scalarFault t .illegal 0) := by
  have fetched : fetchWord (s.inTurn w k) w k (s.inTurn w k).pc.toNat = .word t v := fetched
  rw [scalarTurn, if_neg (not_not_intro running), ← State.inTurn]
  simp only [fetched]
  exact ⟨fun i decoded => by rw [decoded], fun e decoded => by rw [decoded]⟩

end

/-! ## One step -/

theorem step_scheduled {s : State} {t : Turn} {rest : List Turn} (on : s.tripped = false) (next : s.sched = t :: rest) :
    step s = runTurn exec { s with sched := rest } t := by
  rw [step, on, if_neg Bool.false_ne_true, next]

/-- A step of a strand's scalar stream is its turn, paced. -/
theorem step_scalar {s r : State} {w k : Nat} {rest : List Turn} (on : s.tripped = false) (next : s.sched = .scalar w k :: rest)
    (turn : scalarTurn exec { s with sched := rest } w k = .next r) : step s = .next (pace w k (s.ctx w k).strand.pc r) := by
  rw [step_scheduled on next, runTurn, turn]
  rfl

theorem step_silent {s : State} {t : Turn} (on : s.tripped = false) (silent : s.sched = []) (turn : defaultTurn s = some t) :
    step s = runTurn exec s t := by
  rw [step, on, if_neg Bool.false_ne_true, silent, turn]

/-- Inputs come first where the schedule is silent (assumption 3). -/
theorem step_silent_input {s : State} {i : Input} {rest : List Input} (on : s.tripped = false) (silent : s.sched = [])
    (first : s.inputs = i :: rest) : step s = answering (runInput exec { s with inputs := rest } i) := by
  have turn : defaultTurn s = some .input := by rw [defaultTurn, first]; rfl
  simp only [step_silent on silent turn, runTurn, first]

/-- The first of the follow-up steps is due before all later ones of its link. -/
theorem duePlace_head {s : State} {e : Event} {rest : List Event} (first : s.work = e :: rest) : duePlace s 0 = 0 := by
  unfold duePlace
  split
  case h_1 l link =>
    have own : requestLink e = some l := by rwa [first] at link
    rw [first, List.findIdx?_cons, own, beq_self_eq_true, if_pos rfl, Option.getD_some]
  case h_2 => rfl

/-- The device's own follow-up steps come where no input waits (assumption 3). -/
theorem step_silent_work {s : State} {e : Event} {rest : List Event} (on : s.tripped = false) (silent : s.sched = [])
    (none : s.inputs = []) (first : s.work = e :: rest) : step s = answering (exec e.what { s with work := rest, ev := e }) := by
  have turn : defaultTurn s = some (.work 0) := by rw [defaultTurn, none, first]; rfl
  simp only [step_silent on silent turn, runTurn, duePlace_head first, first]
  rfl

/-- A body word runs in the latch, which it leaves empty. -/
theorem runWord_some {ex : Instr → State → State} {s : State} {vm : Bool} {c : Convoy} {vl slot lo hi : Nat} {i : Instr}
    (word : c.word slot = some i) : runWord ex s vm c vl slot lo hi =
      let r := ex i { s with issue := some { vm := vm, cv := c, vl := vl, slot := slot, lo := lo, hi := hi, halt := none } }
      ({ r with issue := none }, r.issue.bind (·.halt)) := by
  rw [runWord, word]

/-- What a stalled instruction leaves of its strand. -/
theorem stalled_keeps (s : State) (w k : Nat) (pc : Word) (rs : List Nat) (turn : s.cur = (w, k)) :
    let r := pace w k pc (stallAt s rs)
    (r.ctx w k).strand.pc = (s.ctx w k).strand.pc ∧ (r.ctx w k).strand.x = (s.ctx w k).strand.x ∧
      (r.ctx w k).state = (s.ctx w k).state ∧ r.mem = s.mem := by
  obtain ⟨n, paced⟩ := ctx_pace w k pc (stallAt s rs)
  obtain ⟨u, stalled⟩ := me_stallAt s rs
  have own : (stallAt s rs).ctx w k = { s.ctx w k with strand := { (s.ctx w k).strand with unread := u } } := by
    simpa only [State.me, State.strand, cur_stallAt, turn] using stalled
  simp only [paced, own, pace_mem, stallAt_mem, and_self]

/-- Settles O55: each clause is a branch of `fetchWord`, `scalarTurn` and `runScalar`, of `runWord`, or of `runInput`; a fetch
leaves PC, the registers and whose turn it is. -/
theorem stepRunsDecoded : Obligations.StepRunsDecoded := by
  unfold Obligations.StepRunsDecoded
  refine ⟨fun s w k va pa x => fetchWord_word, ?scalar, ?body, ?events⟩
  case scalar =>
    intro s w k rest on next running s0 pc fetched
    refine ⟨fun waits => ?waits, fun c fault => ?fault, fun s1 v word => ?word⟩
    case waits => exact step_scalar on next (scalarTurn_waits running waits)
    case fault => exact step_scalar on next (scalarTurn_fault running fault)
    case word =>
      obtain ⟨decodes, rejects⟩ := scalarTurn_word (ex := exec) (s := { s with sched := rest }) running word
      have written : Performed s0 s1 := performed_fetchWord word
      have turn : s1.cur = (w, k) := written.cur
      refine ⟨fun i r decoded range profile ready runs => ?runs, fun i decoded range profile pending => ?stalls,
        fun illegal => ?illegal⟩
      case runs =>
        have ran := runScalar_runs range profile ready runs
        rw [turn] at ran
        exact step_scalar on next ((decodes i decoded).trans ran)
      case stalls =>
        obtain ⟨rs, stalled⟩ := runScalar_stalls (ex := exec) range profile pending
        obtain ⟨pcKept, regs, state, mem⟩ := stalled_keeps s1 w k pc rs turn
        refine ⟨_, step_scalar on next ((decodes i decoded).trans stalled), pcKept.trans ?_, regs,
          state.trans ((written.state w k).trans running), mem⟩
        rw [written.ctxs w k]
        rfl
      case illegal =>
        cases decoded : decodeWord v with
        | ok i => exact step_scalar on next ((decodes i decoded).trans (runScalar_illegal (illegal i decoded)))
        | error e => exact step_scalar on next (rejects e decoded)
  case body =>
    intro s r vm c vl slot lo hi i word runs
    rw [runWord_some word, after, runs]
  case events =>
    intro s on silent
    refine ⟨?inputs, fun e rest none first => step_silent_work on silent none first⟩
    intro i rest first s0
    have taken : step s = answering (runInput exec s0 i) := step_silent_input on silent first
    refine ⟨fun e stepped free => ?free, fun e n stepped held => ?held, fun e own => ?own, fun none => ?none⟩
    case free => simp only [taken, runInput, stepped, free, runEvent]
    case held => simp only [taken, runInput, stepped, held]
    case own => rw [own, inputStep]
    case none => simp only [taken, runInput, none, answering]

end Sys2Proof.Machine
end
